-- ==== Sys2Proof/Word.lean ====
section
/-! DEFINITION. The byte and word types of the IK480 model and their plainest little-endian readings (R8). -/

namespace Sys2Proof

/-- One byte. -/
abbrev Byte := BitVec 8
/-- One register (R609: every register is 32 bits wide). -/
abbrev W32 := BitVec 32
/-- One 64-bit word: tick numbers, digests, packet arguments. -/
abbrev W64 := BitVec 64
/-- A string of bytes: a record, a packet or a payload, lowest address first. -/
abbrev Bytes := List Byte

end Sys2Proof
end

