-- ==== Sys2Proof/Syntax.lean ====
section
/-! DEFINITION. The commands of the IK480 block: one constructor of `Instr` per row of spec/opcode_table.json, in the table's order, and the data their operands carry. A packet, a record or a message is carried as its bytes, so that every reserved field and encoding reaches the model; what a command meets that its bytes do not say (an uncorrectable error, a sensor's reading, a measured time) is an operand as well. -/

namespace Sys2Proof

/-- One beat of stacked DRAM read with errors (R265): its device address, the symbols of its code in error, and the bits that the
layer corrected inside itself. -/
structure MemErr where
  addr : Nat
  symbols : List Nat
  onDie : Nat
  deriving DecidableEq, Repr

/-- One SRAM word read with an error (R102): 0 a tile store, 1 a ward store, 2 staging, 3 the front end; the unit of that space
(a tile by ward × 17 + physical tile); whether two bits were wrong. -/
structure SramErr where
  space : Nat
  unit : Nat
  double : Bool
  deriving DecidableEq, Repr

/-- One burst of board LPDDR read with an error (R287): its device address, and whether link ECC failed on it. -/
structure LpErr where
  addr : Nat
  failed : Bool
  deriving DecidableEq, Repr

/-- The memory errors that a read meets. -/
structure ReadErrs where
  sram : List SramErr := []
  dram : List MemErr := []
  lp : List LpErr := []
  deriving DecidableEq, Repr

/-- A device-owned copy in LPDDR (R287): a context's clear hasp, candidate, guard slot (the clear one or the latest one) or replay log, or a frame of the flash
cache. -/
inductive LpCopy where
  | clearHasp (c : Nat)
  | candidate (c : Nat)
  | guardSlot (c : Nat) (clear : Bool)
  | replayLog (c : Nat)
  | cacheFrame (n : Nat)
  deriving DecidableEq, Repr

/-- What a record meets while it runs that its bytes do not say: memory errors (R102, R266, R267, R287), a checksum mismatch of an
array pass (R437), engine lanes that disagree (R438), and whether it begins after its tumbler (R62). -/
structure RunEnv where
  errs : ReadErrs
  sumBad : Bool
  laneBad : Bool
  late : Bool
  deriving DecidableEq, Repr

/-- Measurements that a tick boundary takes (R402, R588): energy of each ward in mJ, energy of stacked DRAM, LPDDR, flash, PCIe
and the links in mJ, all other energy, the mean and highest rail power of the ending tick in W; codewords that FEC corrected on each
link (R313); packets granted but still under way to it at the boundary, as (link, pool, credits), pool 0 management, 1 detour, 2 + c context c
(R334); and memory errors that the device's own reads met in the ending tick. -/
structure BoundaryEnv where
  wardMj : List Nat
  poolMj : List Nat
  otherMj : Nat
  meanW : Nat
  maxW : Nat
  linkCe : List Nat
  inFlight : List (Nat × Nat × Nat)
  errs : ReadErrs
  deriving DecidableEq, Repr

/-- One host command taken whole (R514, R516): its identifier, its four arguments, its payload and QUIET. -/
structure HostCmd where
  id : W64
  arg0 : Nat
  arg1 : Nat
  arg2 : Nat
  arg3 : Nat
  payload : Bytes
  quiet : Bool
  deriving DecidableEq, Repr

/-- One command packet as it lies in a ring (R514): its 64-byte header and its payload. -/
structure RingPacket where
  header : Bytes
  payload : Bytes
  deriving DecidableEq, Repr

/-- The six index words of a ring set's control block, as the device reads them (R510). -/
structure RingWords where
  cmdTail : Nat
  cmdHead : Nat
  cplTail : Nat
  cplHead : Nat
  evtTail : Nat
  evtHead : Nat
  deriving DecidableEq, Repr

/-- A reconstructed picture (R478 to R480): size, bit depth, range, matrix coefficients, and its sample planes, row by row. -/
structure RawPic where
  width : Nat
  height : Nat
  depth : Nat
  fullRange : Bool
  matrix : Nat
  chromaW : Nat
  chromaH : Nat
  luma : List Nat
  cb : List Nat
  cr : List Nat
  deriving DecidableEq, Repr

/-- One component of a JPEG image after entropy decoding (R494, R495): blocks across and down, and the 64 dequantised
coefficients of each block, row by row. -/
structure JpegComp where
  blocksW : Nat
  blocksH : Nat
  blocks : List (List Int)
  deriving DecidableEq, Repr

/-- What a decoder hands on for one item (R475): pictures in display order, JPEG coefficients, sample channels, or nothing for
the items whose bytes are their own content (text, token IDs, tensors). -/
inductive ItemSource where
  | own
  | pictures (ps : List RawPic)
  | jpeg (width height : Nat) (comps : List JpegComp)
  | pcm (rate bits : Nat) (isFloat : Bool) (channels : List (List Int))
  deriving DecidableEq, Repr

/-- What pass 1 reads from the headers of the item of one slot (R459): width and height, pictures, the largest coded size of a picture in
bits, the decoded-picture buffer that the active parameter set asks for, channels, sample rate, samples per channel, and whether profile,
level and process are supported (R478, R481, R494, R496). -/
structure HeaderScan where
  slot : Nat
  width : Nat
  height : Nat
  pictures : Nat
  bits : Nat
  dpb : Nat
  channels : Nat
  rate : Nat
  samples : Nat
  supported : Bool
  deriving DecidableEq, Repr

/-- Pins whose events are commands (R619). -/
inductive RefClk where
  | a
  | b
  deriving DecidableEq, Repr

/-- The commands of the block, one per row of spec/opcode_table.json. -/
inductive Instr where
  | tickBoundary (k : Nat) (env : BoundaryEnv)
  | tickPacket (link : Fin 24) (pkt : Bytes)
  | reply (link : Fin 24) (pkt : Bytes)
  | childReplyTimeout (link : Fin 24)
  | silence (link : Fin 24) (pkt : Bytes)
  | presenceNotice (link : Fin 24) (pkt : Bytes)
  | tstate (link : Fin 24) (pkt : Bytes)
  | deputyTakeover
  | tsync (link : Fin 24) (pkt : Bytes) (arrival sent : Int)
  | offsetMeasure (sent : Int)
  | adriftLimit
  | voteNotice (link : Fin 24) (pkt : Bytes)
  | voteDeadline (c : Fin 16)
  | firstFrameCopyDone (c : Fin 16)
  | commitDeadline (c : Fin 16)
  | restoreCopyDone (c : Fin 16) (bad : Bool)
  | swapPageSent (c : Fin 16) (slot layer idx : Nat) (errs : ReadErrs)
  | swapInPage (c : Fin 16) (slot layer idx : Nat) (page : Bytes)
  | stackTempSample (readings : List Nat) (now : Nat)
  | permuteLimit (c : Fin 16)
  | failoverStreamComplete (c : Fin 16)
  | deathDeclared (addr : Nat)
  | matmul (u : Fin 256) (rec : Bytes) (env : RunEnv)
  | elementwiseChain (u : Fin 256) (rec : Bytes) (env : RunEnv)
  | reductionSum (u : Fin 256) (rec : Bytes) (env : RunEnv)
  | reductionMax (u : Fin 256) (rec : Bytes) (env : RunEnv)
  | reductionMin (u : Fin 256) (rec : Bytes) (env : RunEnv)
  | reductionSumsq (u : Fin 256) (rec : Bytes) (env : RunEnv)
  | reductionMean (u : Fin 256) (rec : Bytes) (env : RunEnv)
  | softmax (u : Fin 256) (rec : Bytes) (env : RunEnv)
  | logSoftmax (u : Fin 256) (rec : Bytes) (env : RunEnv)
  | layerNorm (u : Fin 256) (rec : Bytes) (env : RunEnv)
  | rmsNorm (u : Fin 256) (rec : Bytes) (env : RunEnv)
  | relayout (u : Fin 256) (rec : Bytes) (env : RunEnv)
  | gather (u : Fin 256) (rec : Bytes) (env : RunEnv)
  | scatter (u : Fin 256) (rec : Bytes) (env : RunEnv)
  | scatterAdd (u : Fin 256) (rec : Bytes) (env : RunEnv)
  | quantise (u : Fin 256) (rec : Bytes) (env : RunEnv)
  | dequantise (u : Fin 256) (rec : Bytes) (env : RunEnv)
  | send (u : Fin 256) (rec : Bytes) (env : RunEnv)
  | receiveCopy (u : Fin 256) (rec : Bytes) (env : RunEnv)
  | receiveAdd (u : Fin 256) (rec : Bytes) (env : RunEnv)
  | receiveMax (u : Fin 256) (rec : Bytes) (env : RunEnv)
  | dmaMove (w : Fin 16) (rec : Bytes) (env : RunEnv)
  | nextVariantMove (w : Fin 16) (rec : Bytes) (env : RunEnv)
  | boltWait (u : Fin 288) (rec : Bytes) (late : Bool)
  | boltAdd (u : Fin 288) (rec : Bytes) (late : Bool)
  | boltSet (u : Fin 288) (rec : Bytes) (late : Bool)
  | boltWaitTimeout (u : Fin 288)
  | checkerExport (u : Fin 256) (rec : Bytes) (env : RunEnv)
  | checkerCompare (u : Fin 256) (rec : Bytes) (env : RunEnv)
  | convolution (u : Fin 256) (rec : Bytes) (env : RunEnv)
  | maxPool (u : Fin 256) (rec : Bytes) (env : RunEnv)
  | averagePool (u : Fin 256) (rec : Bytes) (env : RunEnv)
  | bilinearResize (u : Fin 256) (rec : Bytes) (env : RunEnv)
  | nearestResize (u : Fin 256) (rec : Bytes) (env : RunEnv)
  | attentionFwd (u : Fin 256) (rec : Bytes) (env : RunEnv)
  | attentionBwd (u : Fin 256) (rec : Bytes) (env : RunEnv)
  | attentionAppend (u : Fin 256) (rec : Bytes) (env : RunEnv)
  | attentionMerge (u : Fin 256) (rec : Bytes) (env : RunEnv)
  | elem (w : Fin 16) (rec : Bytes) (env : RunEnv)
  | norm (w : Fin 16) (rec : Bytes) (env : RunEnv)
  | fuse (w : Fin 16) (rec : Bytes) (env : RunEnv)
  | scale (w : Fin 16) (rec : Bytes) (env : RunEnv)
  | carry (w : Fin 16) (rec : Bytes) (env : RunEnv)
  | ortho (w : Fin 16) (rec : Bytes) (env : RunEnv)
  | kstat (w : Fin 16) (rec : Bytes) (env : RunEnv)
  | kroot (w : Fin 16) (rec : Bytes) (env : RunEnv)
  | kapply (w : Fin 16) (rec : Bytes) (env : RunEnv)
  | variant (w : Fin 16) (rec : Bytes) (env : RunEnv)
  | recordRetire (u : Fin 288) (tc : Nat)
  | reservationStart (link : Fin 24) (c : Fin 16) (idx : Nat)
  | reservationEnd (link : Fin 24) (c : Fin 16) (tx : Bool) (idx : Nat)
  | mirrorAck (link : Fin 24) (pkt : Bytes)
  | mirrorAckTimeout (c : Fin 16) (pair : Nat)
  | sched (link : Fin 24) (pkt : Bytes)
  | packetForward (link : Fin 24) (pkt : Bytes)
  | packetAged (idx : Nat)
  | credit (link : Fin 24) (pkt : Bytes)
  | hello (link : Fin 24) (pkt : Bytes)
  | helloTimer
  | write (link : Fin 24) (pkt : Bytes)
  | read (link : Fin 24) (pkt : Bytes) (errs : ReadErrs)
  | readData (link : Fin 24) (pkt : Bytes)
  | ack (link : Fin 24) (pkt : Bytes) (errs : ReadErrs)
  | error (link : Fin 24) (pkt : Bytes)
  | requestTimeout (seq : Nat)
  | probe (link : Fin 24) (pkt : Bytes) (now : Nat)
  | assign (link : Fin 24) (pkt : Bytes) (now : Nat)
  | neighbours (link : Fin 24) (pkt : Bytes) (now : Nat)
  | tableWrite (link : Fin 24) (pkt : Bytes) (now : Nat)
  | tableSeal (link : Fin 24) (pkt : Bytes) (now : Nat)
  | fmRegWrite (link : Fin 24) (pkt : Bytes) (now : Nat)
  | fmRegRead (link : Fin 24) (pkt : Bytes) (now : Nat)
  | tickStart (link : Fin 24) (pkt : Bytes) (now : Nat)
  | resume (link : Fin 24) (pkt : Bytes) (now : Nat)
  | fmReset (link : Fin 24) (pkt : Bytes) (now : Nat)
  | linkTrainingDone (link : Fin 24) (failure : Nat) (delay16 : Nat) (sent : Int)
  | linkDown (link : Fin 24)
  | codewordUncorrectable (link : Fin 24)
  | fabPermAtWrite (c : Fin 16) (v : W32)
  | key (c : Fin 16)
  | release (c : Fin 16)
  | zeroingComplete (c : Fin 16)
  | ctxSelectHiWrite (v : W32)
  | ctxBoltValWrite (v : W32)
  | ctxBoltAddWrite (v : W32)
  | hspEvictWrite (v : W32)
  | hspFoVersionWrite (v : W32)
  | enrol
  | permanenceNotice (link : Fin 24) (pkt : Bytes)
  | sweepComplete (u : Fin 256) (pass : Bool)
  | unitClassHourly (now : Nat)
  | historyCompact
  | recordIngest (c : Fin 16) (scans : List HeaderScan) (flashBad : Bool)
  | recordDecoded (c : Fin 16) (ok : Bool) (items : List ItemSource) (ns : Nat)
  | batchDeadline (c : Fin 16)
  | adapterTransferDone (c : Fin 16) (v : Nat) (fill : Bool)
  | pictureDecoded (e : Fin 4) (own : Nat) (refs : List (Nat × Nat)) (out : List (Nat × RawPic)) (ns : Nat)
  | decodeTimeout (e : Fin 4) (ns : Nat)
  | livePictureLate (st : Fin 64)
  | liveStreamEnable (st : Fin 64) (v : W32)
  | archiveEncodeDone (unit : Bytes)
  | mediaFwSwitchDone
  | nandProgramDone (block : Nat) (dieFail : Bool)
  | readDisturbRelocate (block : Nat)
  | scrubRead (row : Nat) (errs : List MemErr)
  | rowRemap (row : Nat) (bad : Bool)
  | ringPoll (fn : Fin 17) (words : RingWords) (pkts : List RingPacket)
  | nop (fn : Fin 17) (cmd : HostCmd)
  | fmCmd (fn : Fin 17) (cmd : HostCmd)
  | tokLoad (fn : Fin 17) (cmd : HostCmd)
  | flashWrite (fn : Fin 17) (cmd : HostCmd)
  | flashRead (fn : Fin 17) (cmd : HostCmd) (bad : Bool)
  | flashTrim (fn : Fin 17) (cmd : HostCmd)
  | flashFlush (fn : Fin 17) (cmd : HostCmd)
  | flashFormat (fn : Fin 17) (cmd : HostCmd)
  | planLoad (fn : Fin 17) (cmd : HostCmd)
  | planStart (fn : Fin 17) (cmd : HostCmd)
  | planUnload (fn : Fin 17) (cmd : HostCmd)
  | waitEpoch (fn : Fin 17) (cmd : HostCmd)
  | stateRead (fn : Fin 17) (cmd : HostCmd) (errs : ReadErrs)
  | stateWrite (fn : Fin 17) (cmd : HostCmd)
  | ringBoltAdd (fn : Fin 17) (cmd : HostCmd)
  | ringBoltSet (fn : Fin 17) (cmd : HostCmd)
  | record (fn : Fin 17) (cmd : HostCmd) (scans : List HeaderScan)
  | live (fn : Fin 17) (cmd : HostCmd) (width height : Nat) (supported rap rasl : Bool)
  | sensor (fn : Fin 17) (cmd : HostCmd) (first last : Bool)
  | ringEnable (fn : Fin 17)
  | ringDisable (fn : Fin 17)
  | irqTimer (fn : Fin 17) (vec : Fin 2)
  | functionLevelReset (fn : Fin 17)
  | perstAssert
  | d3hotEntry (fn : Fin 17)
  | powerOn
  | resetNAssert (now : Nat)
  | stretchExpiry (now : Nat) (pinHigh : Bool)
  | resetHeld
  | rstCmd (v : W32) (now : Nat)
  | watchdogExpiry (now : Nat)
  | fatalEscalation (now : Nat)
  | pllLockTimeout (now : Nat)
  | bringupPhaseComplete (ok : Bool) (bad : List LpCopy)
  | wardResetComplete (w : Fin 16)
  | refclkFail (r : RefClk)
  | refclkRecover (r : RefClk)
  | clkSelect (v : W32)
  | holdoverLimit
  | pcieRefclkFail
  | pwrLadderWrite (v : W32)
  | vinSample (mv : Nat) (now : Nat)
  | supplyStageRecover
  | railTimeout
  | railUndervolt (now : Nat)
  | shedAssert
  | shedRelease
  | governorTick (measuredW fillW : Nat)
  | dieTempSample (readings : List Nat) (now : Nat)
  | setEndpointId (vdm : Bool) (eid : Nat)
  | getEndpointId (vdm : Bool)
  | getMctpVersionSupport (vdm : Bool) (msgType : Nat)
  | getMessageTypeSupport (vdm : Bool)
  | getVendorDefinedMessageSupport (vdm : Bool)
  | getVersion
  | getCapabilities
  | negotiateAlgorithms (dhe sign hash aead : Bool)
  | getDigests
  | getCertificate (slot offset len : Nat)
  | challenge (slot : Nat) (nonce : Bytes)
  | getMeasurements (idx : Nat)
  | keyExchange (reqId : Nat)
  | finish (sess : Nat) (hmacOk : Bool)
  | heartbeat (sess : Nat)
  | keyUpdate (sess : Nat)
  | endSession (sess : Nat)
  | getInfo
  | mgmtRegRead (off : Nat)
  | mgmtRegWrite (sess : Option Nat) (off : Nat) (v : W32) (now : Nat)
  | ladder (sess : Option Nat) (rung : Nat)
  | mgmtReset (sess : Option Nat) (scope : Nat) (now : Nat)
  | unitRead (kind unit : Nat)
  | unitRequestFence (sess : Option Nat) (kind unit : Nat)
  | unitRequestRestore (sess : Option Nat) (kind unit : Nat)
  | unitRequestClearClass (sess : Option Nat) (kind unit : Nat)
  | histRead (firstSeq count : Nat)
  | setTime (sess : Option Nat) (seconds : Nat)
  | setFabricKey (sess : Option Nat) (fabKey : Bytes)
  | requestUpdate (sess : Option Nat) (component : Nat)
  | firmwareVerify (component : Nat) (image : Bytes) (pubKey : Bytes)
  | firmwareActivate (component : Nat)
  | mgmtRestartDone
  | getPdr (sensor : Nat)
  | getSensorReading (sensor : Nat)
  | setEventReceiver (eid : Nat)
  | loWordRead (fn : Fin 17) (off : Nat) (size : Nat)
  | accSnapEpochRead (c : Fin 16)
  | pwrFcastTickLoRead
  | registerWrite (fn : Fin 17) (off : Nat) (size : Nat) (v : Nat) (now : Nat)
  | jtagBypass (instr : Nat)
  | jtagIdcode
  | jtagSamplePreload
  | jtagExtest (lands : List Bool)
  | resetNRelease
  | perstRelease
  | rebuildComplete (group : Nat)
  | linkHoldEnd
  | debugUnlock (sess : Option Nat)
  | unsupportedMessage (msgType code len : Nat)
  deriving DecidableEq, Repr

end Sys2Proof
end

