-- ==== Sys2Proof/Machine/Bytes.lean ====
section
/-! DEFINITION. Reading and writing fields of a Sebaley format (R8: little-endian, bit 0 least significant), bit fields, and the two check values of the manual, CRC-32C and the header CRC-16 (R314). -/

namespace Sys2Proof.Machine

/-- Byte `i` of a string; bytes past its end read as 0. -/
def byteAt (b : Bytes) (i : Nat) : Nat := (b.getD i 0#8).toNat

/-- The `n`-byte little-endian number at offset `i` (R8). -/
def le (b : Bytes) (i : Nat) : Nat → Nat
  | 0 => 0
  | n + 1 => byteAt b i + 256 * le b (i + 1) n

/-- A number as `n` little-endian bytes (R8). -/
def toLe (n : Nat) (v : Nat) : Bytes :=
  match n with
  | 0 => []
  | n + 1 => BitVec.ofNat 8 v :: toLe n (v / 256)

/-- Two-byte field at offset `i`. -/
def u16 (b : Bytes) (i : Nat) : Nat := le b i 2
/-- Four-byte field at offset `i`. -/
def u32 (b : Bytes) (i : Nat) : Nat := le b i 4
/-- Eight-byte field at offset `i`. -/
def u64 (b : Bytes) (i : Nat) : Nat := le b i 8

/-- Bits [hi:lo] of a number. -/
def bits (v hi lo : Nat) : Nat := (v >>> lo) % 2 ^ (hi + 1 - lo)

/-- Bit `i` of a number as a Bool. -/
def bit (v i : Nat) : Bool := v.testBit i

/-- A Bool as 0 or 1. -/
def b2n (b : Bool) : Nat := if b then 1 else 0

/-- Ceiling division; division by 0 gives 0. -/
def cdiv (a b : Nat) : Nat := (a + b - 1) / b

/-- The slice of `n` bytes at offset `i`; shorter when the string ends. -/
def slice (b : Bytes) (i n : Nat) : Bytes := (b.drop i).take n

/-- Bytes `i` to `i + n - 1`, as exactly `n` bytes (0 past the end). -/
def sliceZ (b : Bytes) (i n : Nat) : Bytes := (List.range n).map (fun k => b.getD (i + k) 0#8)

/-- Whether bytes `i` to `i + n - 1` are all 0, as R9 requires of a reserved field. -/
def zeroAt (b : Bytes) (i n : Nat) : Bool := (List.range n).all (fun k => byteAt b (i + k) == 0)

/-- `n` zero bytes. -/
def zeros (n : Nat) : Bytes := List.replicate n 0#8

/-- A string cut or padded with zeros to exactly `n` bytes. -/
def padTo (n : Nat) (b : Bytes) : Bytes := b.take n ++ zeros (n - b.length)

/-- Writes `v` over the bytes of `b` from offset `i`. -/
def patch (b : Bytes) (i : Nat) (v : Bytes) : Bytes := b.take i ++ v ++ b.drop (i + v.length)

/-- Concatenates the bytes that `f` gives for 0 to n - 1. -/
def catN (n : Nat) (f : Nat → Bytes) : Bytes := ((List.range n).map f).flatten

/-- Two's complement reading of the low `w` bits of a number. -/
def toSigned (w v : Nat) : Int := let u := v % 2 ^ w; if u < 2 ^ (w - 1) then u else (u : Int) - 2 ^ w

/-- The low `w` bits of an integer, two's complement. -/
def ofSigned (w : Nat) (v : Int) : Nat := (v % (2 ^ w : Int)).toNat

/-- One bit of a reflected CRC-32C register (Castagnoli polynomial). -/
def crc32cBit (c : Nat) : Nat := if c % 2 = 1 then (c / 2) ^^^ 0x82F63B78 else c / 2

/-- One byte into a reflected CRC-32C register. -/
def crc32cByte (c : Nat) (b : Byte) : Nat :=
  crc32cBit (crc32cBit (crc32cBit (crc32cBit (crc32cBit (crc32cBit (crc32cBit (crc32cBit (c ^^^ b.toNat))))))))

/-- `f v`, with `v` worked out before `f` takes it, so that the kernel can evaluate a fold over a long string. -/
def forced {α : Type} (v : Nat) (f : Nat → α) : α :=
  match v with
  | 0 => f 0
  | n + 1 => f (n + 1)

/-- A byte string into a CRC-32C register. -/
def crc32cGo : Bytes → Nat → Nat
  | [], c => c
  | x :: t, c => forced (crc32cByte c x) (crc32cGo t)

/-- CRC-32C of a byte string. -/
def crc32c (b : Bytes) : Nat := crc32cGo b 0xFFFFFFFF ^^^ 0xFFFFFFFF

/-- One bit of the CRC-16 of R314 (polynomial 0x1021, not reflected). -/
def crc16Bit (c : Nat) : Nat := if bit c 15 then ((c * 2) ^^^ 0x1021) % 65536 else (c * 2) % 65536

/-- One byte into the CRC-16 of R314. -/
def crc16Byte (c : Nat) (b : Byte) : Nat :=
  crc16Bit (crc16Bit (crc16Bit (crc16Bit (crc16Bit (crc16Bit (crc16Bit (crc16Bit (c ^^^ (b.toNat * 256)))))))))

/-- CRC-16 of R314: initial value 0xFFFF, no reflection, no final inversion. -/
def crc16 (b : Bytes) : Nat := b.foldl crc16Byte 0xFFFF

/-- A 32-bit counter that saturates at 0xFFFF_FFFF. -/
def satInc (v : W32) : W32 := if v = 0xFFFFFFFF#32 then v else v + 1#32

/-- A 32-bit counter raised by `n`, saturating at 0xFFFF_FFFF. -/
def satAdd (v : W32) (n : Nat) : W32 := BitVec.ofNat 32 (min (v.toNat + n) 0xFFFFFFFF)

/-- `v` brought into `lo..hi`. -/
def clamp (lo hi v : Nat) : Nat := max lo (min hi v)

end Sys2Proof.Machine
end

