-- ==== Sys2Proof/Machine/Float.lean ====
section
/-! DEFINITION. The number formats of the device (R103 to R107), exact arithmetic on their values, the one rounding of R110 to R113, and the special functions of R126. A value is exact: a NaN, an infinity, or a sign with a magnitude m * 2^e. -/

namespace Sys2Proof.Machine

/-- An exact value: output NaN, an infinity, or (-1)^neg * m * 2^e. -/
inductive Fp where
  | nan
  | inf (neg : Bool)
  | fin (neg : Bool) (m : Nat) (e : Int)
  deriving DecidableEq, Repr

/-- Kinds of a format's special codes (R103, R104): infinities and NaNs in the top exponent; E4M3's one NaN pattern; none;
the two's complement INT8 element of R106. -/
inductive FmtKind where
  | ieee
  | e4m3
  | finite
  | int8
  deriving DecidableEq, Repr

/-- A floating format (R103). -/
structure Fmt where
  ebits : Nat
  mbits : Nat
  bias : Int
  kind : FmtKind
  deriving DecidableEq, Repr

/-- FP32. -/
def fp32 : Fmt := ⟨8, 23, 127, .ieee⟩
/-- BF16. -/
def bf16 : Fmt := ⟨8, 7, 127, .ieee⟩
/-- FP16. -/
def fp16 : Fmt := ⟨5, 10, 15, .ieee⟩
/-- E4M3. -/
def e4m3 : Fmt := ⟨4, 3, 7, .e4m3⟩
/-- E5M2. -/
def e5m2 : Fmt := ⟨5, 2, 15, .ieee⟩
/-- E3M2. -/
def e3m2 : Fmt := ⟨3, 2, 3, .finite⟩
/-- E2M3. -/
def e2m3 : Fmt := ⟨2, 3, 1, .finite⟩
/-- E2M1. -/
def e2m1 : Fmt := ⟨2, 1, 1, .finite⟩
/-- The INT8 element: an integer times 2^-6 (R106). -/
def int8 : Fmt := ⟨0, 7, 0, .int8⟩

/-- Width of a code in bits. -/
def Fmt.width (f : Fmt) : Nat := f.ebits + f.mbits + 1

/-- The unbiased exponent of the top binade of finite values. -/
def Fmt.top (f : Fmt) : Int :=
  match f.kind with
  | .ieee => (2 ^ f.ebits : Int) - 2 - f.bias
  | _ => (2 ^ f.ebits : Int) - 1 - f.bias

/-- The largest finite magnitude in units of the last place of the top binade (R104). -/
def Fmt.maxUnits (f : Fmt) : Nat :=
  match f.kind with
  | .e4m3 => 14
  | .int8 => 127
  | _ => 2 ^ (f.mbits + 1) - 1

/-- The output NaN's code (R104); 0 in a format that has none. -/
def Fmt.nan (f : Fmt) : Nat :=
  match f.kind with
  | .ieee => (2 ^ f.ebits - 1) * 2 ^ f.mbits + 2 ^ (f.mbits - 1)
  | .e4m3 => 0x7F
  | _ => 0

/-- The value a code stands for (R103, R104, R106). -/
def Fmt.decode (f : Fmt) (c : Nat) : Fp :=
  let neg := c.testBit (f.ebits + f.mbits)
  let ef := (c >>> f.mbits) % 2 ^ f.ebits
  let m := c % 2 ^ f.mbits
  match f.kind with
  | .int8 => let i := toSigned 8 c; .fin (decide (i < 0)) i.natAbs (-6)
  | k =>
    if k = .ieee ∧ ef = 2 ^ f.ebits - 1 then (if m = 0 then .inf neg else .nan)
    else if k = .e4m3 ∧ ef = 15 ∧ m = 7 then .nan
    else if ef = 0 then .fin neg m (1 - f.bias - f.mbits)
    else .fin neg (2 ^ f.mbits + m) ((ef : Int) - f.bias - f.mbits)

/-- Rounding modes of R110. -/
inductive Rnd where
  | rne
  | sr
  | rtz
  deriving DecidableEq, Repr

/-- The mode of a record's ROUND field (R110); 0b11 is reserved and never legal. -/
def Rnd.of (n : Nat) : Rnd := if n % 4 = 1 then .sr else if n % 4 = 2 then .rtz else .rne

/-- Exponent of the quantum in which a magnitude m * 2^e is rounded (R111): subnormals share the lowest binade's, and the grid
goes on one step above the largest finite value with the top binade's. -/
def Fmt.quantum (f : Fmt) (m : Nat) (e : Int) : Int :=
  match f.kind with
  | .int8 => -6
  | _ => min (max ((Nat.log2 m : Int) + e) (1 - f.bias)) f.top - f.mbits

/-- The rounding of R111: the rounded magnitude in units of 2^q. `r` is the random value of R130. -/
def Fmt.roundUnits (f : Fmt) (mode : Rnd) (r : Nat) (m : Nat) (e q : Int) : Nat :=
  let sh := (q - e).toNat
  let n := if q ≤ e then m <<< (e - q).toNat else m >>> sh
  let rem := if q ≤ e then 0 else m % 2 ^ sh
  let top := q == f.top - f.mbits || f.kind == .int8
  if top && decide (f.maxUnits < n) then (if mode = .rtz then f.maxUnits else f.maxUnits + 1)
  else
    match mode with
    | .rtz => n
    | .rne => if 2 * rem > 2 ^ sh ∨ (2 * rem = 2 ^ sh ∧ 0 < rem ∧ n % 2 = 1) then n + 1 else n
    | .sr => if r < rem * 65536 / 2 ^ sh then n + 1 else n

/-- An infinite result's code: with SAT the largest finite magnitude, else infinity or, in E4M3, the output NaN (R112, R113). -/
def Fmt.overflow (f : Fmt) (sat neg : Bool) : Nat :=
  let s := b2n neg * 2 ^ (f.ebits + f.mbits)
  match f.kind with
  | .ieee => if sat then s + ((2 ^ f.ebits - 1) * 2 ^ f.mbits - 1) else s + (2 ^ f.ebits - 1) * 2 ^ f.mbits
  | .e4m3 => if sat then s + 0x7E else 0x7F
  | .finite => s + (2 ^ (f.ebits + f.mbits) - 1)
  | .int8 => if neg then 0x81 else 0x7F

/-- An infinity's code (R113): IEEE formats keep it; the others follow `Fmt.overflow`. -/
def Fmt.ofInf (f : Fmt) (sat neg : Bool) : Nat :=
  match f.kind with
  | .ieee => b2n neg * 2 ^ (f.ebits + f.mbits) + (2 ^ f.ebits - 1) * 2 ^ f.mbits
  | _ => f.overflow sat neg

/-- Conversion of an exact value, rounded once (R109 to R113). -/
def Fmt.convert (f : Fmt) (mode : Rnd) (sat : Bool) (r : Nat) (x : Fp) : Nat :=
  match x with
  | .nan => f.nan
  | .inf neg => f.ofInf sat neg
  | .fin neg m e =>
    if m = 0 then (if f.kind = .int8 then 0 else b2n neg * 2 ^ (f.ebits + f.mbits))
    else
      let q := f.quantum m e
      let n := f.roundUnits mode r m e q
      if (q == f.top - f.mbits || f.kind == .int8) && decide (f.maxUnits < n) then f.overflow sat neg
      else if f.kind = .int8 then (if neg then (256 - n) % 256 else n)
      else if n = 0 then b2n neg * 2 ^ (f.ebits + f.mbits)
      else b2n neg * 2 ^ (f.ebits + f.mbits) + ((q + f.mbits + f.bias).toNat * 2 ^ f.mbits + n - 2 ^ f.mbits)

/-- Rounds to FP32 in RNE and gives the value: the rounding of every vector operation (R124). -/
def r32 (x : Fp) : Fp := fp32.decode (fp32.convert .rne false 0 x)

/-- The FP32 code of a value, rounded in RNE. -/
def enc32 (x : Fp) : Nat := fp32.convert .rne false 0 x

/-- The value of an FP32 code. -/
def dec32 (c : Nat) : Fp := fp32.decode c

/-- +0. -/
def fpZero : Fp := .fin false 0 0
/-- 1. -/
def fpOne : Fp := .fin false 1 0

/-- The exact value n * 2^e of an integer. -/
def fpOfInt (n : Int) (e : Int) : Fp := .fin (decide (n < 0)) n.natAbs e

/-- Sign flipped. -/
def Fp.neg : Fp → Fp
  | .nan => .nan
  | .inf s => .inf (!s)
  | .fin s m e => .fin (!s) m e

/-- Magnitude. -/
def Fp.abs : Fp → Fp
  | .nan => .nan
  | .inf _ => .inf false
  | .fin _ m e => .fin false m e

/-- Times 2^k, exact. -/
def Fp.scale (k : Int) : Fp → Fp
  | .fin s m e => .fin s m (e + k)
  | x => x

/-- Sign bit of a value; false for NaN. -/
def Fp.sign : Fp → Bool
  | .nan => false
  | .inf s => s
  | .fin s _ _ => s

/-- Whether a value is neither NaN nor infinite. -/
def Fp.isFin : Fp → Bool
  | .fin _ _ _ => true
  | _ => false

/-- Whether a value is a zero of either sign. -/
def Fp.isZero : Fp → Bool
  | .fin _ 0 _ => true
  | _ => false

/-- The exact product; 0 times infinity is NaN (R122). -/
def fmul : Fp → Fp → Fp
  | .nan, _ => .nan
  | _, .nan => .nan
  | .inf s, y => if y.isZero then .nan else .inf (s != y.sign)
  | x, .inf t => if x.isZero then .nan else .inf (x.sign != t)
  | .fin s m e, .fin t n k => .fin (s != t) (m * n) (e + k)

/-- The lowest exponent among finite non-zero terms, from a start. -/
def minExp : List Fp → Int → Int
  | [], a => a
  | .fin _ (_ + 1) e :: t, a => minExp t (min e a)
  | _ :: t, a => minExp t a

/-- A finite term as an integer multiple of 2^a, for a at most its exponent. -/
def fpUnits (a : Int) : Fp → Int
  | .fin s m e => if m = 0 then 0 else let v : Int := (m : Int) * 2 ^ (e - a).toNat; if s then -v else v
  | _ => 0

/-- The exact sum of terms under R122. -/
def fsum (ts : List Fp) : Fp :=
  if ts.any (fun x => x == .nan) then .nan
  else
    let p := ts.any (fun x => x == .inf false)
    let n := ts.any (fun x => x == .inf true)
    if p && n then .nan else if p then .inf false else if n then .inf true
    else
      let a := minExp ts 0
      let s := ts.foldl (fun acc x => acc + fpUnits a x) 0
      if s = 0 then .fin (ts.all (fun x => x.sign)) 0 0 else fpOfInt s a

/-- FP32 addition. -/
def fadd (a b : Fp) : Fp := r32 (fsum [a, b])
/-- FP32 subtraction. -/
def fsub (a b : Fp) : Fp := r32 (fsum [a, b.neg])
/-- FP32 product. -/
def fmulR (a b : Fp) : Fp := r32 (fmul a b)
/-- FP32 fused multiply-add, rounded once (R124). -/
def fma (a b c : Fp) : Fp := r32 (fsum [fmul a b, c])

/-- Numeric a < b; false with a NaN, and -0 equals +0 (R124). -/
def flt (a b : Fp) : Bool :=
  match a, b with
  | .nan, _ => false
  | _, .nan => false
  | .inf s, .inf t => s && !t
  | .inf s, _ => s
  | _, .inf t => !t
  | x, y => let e := minExp [x, y] 0; decide (fpUnits e x < fpUnits e y)

/-- Numeric a = b; false with a NaN. -/
def feq (a b : Fp) : Bool := a != .nan && b != .nan && !flt a b && !flt b a

/-- Minimum of R124: a NaN input gives NaN, and -0 is below +0. -/
def fmin (a b : Fp) : Fp :=
  if a = .nan ∨ b = .nan then .nan else if flt b a then b else if flt a b then a else if a.sign then a else b

/-- Maximum of R124. -/
def fmax (a b : Fp) : Fp :=
  if a = .nan ∨ b = .nan then .nan else if flt a b then b else if flt b a then a else if a.sign then b else a

/-- Bits of working precision of division, square root and the special functions. -/
def fpWork : Nat := 400

/-- A magnitude known to lie in [m, m + 1) units of 2^e, strictly above m when `more`: kept as a value that rounds the same way. -/
def fpApprox (neg : Bool) (m : Nat) (e : Int) (more : Bool) : Fp :=
  if more then .fin neg (2 * m + 1) (e - 1) else .fin neg m e

/-- The quotient a / b to be rounded once; x / 0 and the infinities as IEEE 754 gives them. -/
def fdiv : Fp → Fp → Fp
  | .nan, _ => .nan
  | _, .nan => .nan
  | .inf _, .inf _ => .nan
  | .inf s, y => .inf (s != y.sign)
  | x, .inf t => .fin (x.sign != t) 0 0
  | .fin s m e, .fin t n k =>
    if n = 0 then (if m = 0 then .nan else .inf (s != t))
    else
      let sh := fpWork + Nat.log2 n
      let q := (m <<< sh) / n
      fpApprox (s != t) q (e - k - sh) ((m <<< sh) % n != 0)

/-- One Newton descent of the integer square root. -/
def isqrtGo (n : Nat) : Nat → Nat → Nat
  | 0, x => x
  | k + 1, x => let y := (x + n / x) / 2; if y < x then isqrtGo n k y else x

/-- Integer square root. -/
def isqrt (n : Nat) : Nat := if n = 0 then 0 else isqrtGo n (Nat.log2 n + 8) (2 ^ (Nat.log2 n / 2 + 1))

/-- The square root to be rounded once; negative gives NaN, and a zero keeps its sign (IEEE 754). -/
def fsqrt : Fp → Fp
  | .nan => .nan
  | .inf s => if s then .nan else .inf false
  | .fin s m e =>
    if m = 0 then .fin s 0 0
    else if s then .nan
    else
      let odd := e % 2 ≠ 0
      let m' := (if odd then 2 * m else m) <<< (2 * fpWork)
      let e' := (if odd then e - 1 else e) - 2 * fpWork
      let r := isqrt m'
      fpApprox false r (e' / 2) (r * r != m')

/-- Reciprocal of R126, before its rounding. -/
def frecip (x : Fp) : Fp := fdiv fpOne x

/-- Reciprocal square root of R126, before its rounding. -/
def frsqrt : Fp → Fp
  | .nan => .nan
  | .inf s => if s then .nan else fpZero
  | .fin s m e =>
    if m = 0 then .inf s
    else if s then .nan
    else
      let odd := e % 2 ≠ 0
      let m' := if odd then 2 * m else m
      let e' := if odd then e - 1 else e
      let k := fpWork + Nat.log2 m'
      let r := isqrt (2 ^ (2 * k) / m')
      fpApprox false r (-(e' / 2) - k) (r * r * m' != 2 ^ (2 * k))

/-- Sum of z^(2k+1) / (2k+1) in units of 2^-fpWork, from term `t` at odd index `i`; `z2` is z squared. -/
def atanhGo (z2 : Nat) : Nat → Nat → Nat → Nat → Nat
  | 0, _, _, acc => acc
  | f + 1, t, i, acc => atanhGo z2 f ((t * z2) >>> fpWork) (i + 2) (acc + t / i)

/-- ln of p / q in units of 2^-fpWork, for q ≤ p ≤ 2 q: twice atanh((p - q) / (p + q)). -/
def lnRatio (p q : Nat) : Nat :=
  let z := ((p - q) <<< fpWork) / (p + q)
  2 * atanhGo ((z * z) >>> fpWork) 140 z 1 0

/-- ln 2 in units of 2^-fpWork. -/
def ln2w : Nat := lnRatio 2 1

/-- Sum of y^n / n! in units of 2^-fpWork, from term `t` at index `i`. -/
def expGo (y : Nat) : Nat → Nat → Nat → Nat → Nat
  | 0, _, _, acc => acc
  | f + 1, t, i, acc => expGo y f (((t * y) >>> fpWork) / (i + 1)) (i + 1) (acc + t)

/-- exp2 of R126, before its rounding. -/
def fexp2 : Fp → Fp
  | .nan => .nan
  | .inf s => if s then fpZero else .inf false
  | .fin s m e =>
    if m = 0 then fpOne
    else if 20 < (Nat.log2 m : Int) + e then (if s then fpApprox false 0 (-2000) true else .inf false)
    else
      -- x in units of 2^-fpWork; every FP32 input of this range is exact there
      let x : Int := let v : Int := if 0 ≤ e + fpWork then ((m <<< (e + fpWork).toNat : Nat) : Int) else ((m >>> (-(e + fpWork)).toNat : Nat) : Int); if s then -v else v
      let n := x / (2 ^ fpWork : Nat)
      let f := (x % (2 ^ fpWork : Nat)).toNat
      if f = 0 then .fin false 1 n
      else fpApprox false (expGo ((f * ln2w) >>> fpWork) 110 (2 ^ fpWork) 0 0) (n - fpWork) true

/-- log2 of R126, before its rounding. -/
def flog2 : Fp → Fp
  | .nan => .nan
  | .inf s => if s then .nan else .inf false
  | .fin s m e =>
    if m = 0 then .inf true
    else if s then .nan
    else
      let l := Nat.log2 m
      let n : Int := (l : Int) + e
      if m = 2 ^ l then (if n = 0 then fpZero else fpOfInt n 0)
      else
        let fr := (lnRatio m (2 ^ l) <<< fpWork) / ln2w
        let v : Int := n * (2 ^ fpWork : Nat) + fr
        fpApprox (decide (v < 0)) v.natAbs (-(fpWork : Int)) true

/-- Sums of x^(2n) / (2n)! and x^(2n) / (2n+1)! in units of 2^-fpWork; `t` is x^(2n) / (2n)!. -/
def chshGo (x2 : Nat) : Nat → Nat → Nat → Nat → Nat → Nat × Nat
  | 0, _, _, c, s => (c, s)
  | f + 1, t, i, c, s => chshGo x2 f (((t * x2) >>> fpWork) / ((i + 1) * (i + 2))) (i + 2) (c + t) (s + t / (i + 1))

/-- x squared in units of 2^-fpWork. -/
def sqw (m : Nat) (e : Int) : Nat :=
  let k := 2 * e + fpWork
  if 0 ≤ k then (m * m) <<< k.toNat else (m * m) >>> (-k).toNat

/-- tanh of R126, before its rounding. Above 20 it lies within 2^-50 of 1. -/
def ftanh : Fp → Fp
  | .nan => .nan
  | .inf s => .fin s 1 0
  | .fin s m e =>
    if m = 0 then .fin s 0 0
    else if 20 * 2 ^ 149 ≤ m * 2 ^ (e + 149).toNat ∧ -149 ≤ e then .fin s (2 ^ 60 - 1) (-60)
    else
      let cs := chshGo (sqw m e) 160 (2 ^ fpWork) 0 0 0
      fpApprox s (m * ((cs.2 <<< fpWork) / cs.1)) (e - fpWork) true

/-- Sum of (-1)^n x^(2n) / (n! (2n+1)) in units of 2^-fpWork; `t` is x^(2n) / n!. -/
def erfGo (x2 : Nat) : Nat → Nat → Nat → Int → Int
  | 0, _, _, acc => acc
  | f + 1, t, n, acc =>
    erfGo x2 f (((t * x2) >>> fpWork) / (n + 1)) (n + 1) (if n % 2 = 0 then acc + (t / (2 * n + 1) : Nat) else acc - (t / (2 * n + 1) : Nat))

/-- atan(1 / k) in units of 2^-fpWork. -/
def atanInvGo (k2 : Nat) : Nat → Nat → Nat → Int → Int
  | 0, _, _, acc => acc
  | f + 1, t, i, acc => atanInvGo k2 f (t / k2) (i + 1) (if i % 2 = 0 then acc + (t / (2 * i + 1) : Nat) else acc - (t / (2 * i + 1) : Nat))

/-- pi in units of 2^-fpWork, by Machin's formula. -/
def piw : Nat :=
  (16 * atanInvGo 25 200 (2 ^ fpWork / 5) 0 0 - 4 * atanInvGo 57121 80 (2 ^ fpWork / 239) 0 0).toNat

/-- erf of R126, before its rounding. Above 6 it lies within 2^-50 of 1. -/
def ferf : Fp → Fp
  | .nan => .nan
  | .inf s => .fin s 1 0
  | .fin s m e =>
    if m = 0 then .fin s 0 0
    else if 6 * 2 ^ 149 ≤ m * 2 ^ (e + 149).toNat ∧ -149 ≤ e then .fin s (2 ^ 60 - 1) (-60)
    else
      let sum := (erfGo (sqw m e) 260 (2 ^ fpWork) 0 0).toNat
      -- 2 / sqrt(pi) in units of 2^-fpWork
      let c := 2 * (2 ^ (2 * fpWork)) / isqrt (piw <<< fpWork)
      fpApprox s (m * ((sum * c) >>> fpWork)) (e - fpWork) true

/-- The formats of the record codes 0x0 to 0x4 (R139). -/
def plainFmt (code : Nat) : Fmt :=
  match code with
  | 0 => fp32
  | 1 => bf16
  | 2 => fp16
  | 3 => e4m3
  | _ => e5m2

/-- Bytes of an element of a non-MX format code (R139). -/
def fmtBytes (code : Nat) : Nat :=
  match code with
  | 0 => 4
  | 1 => 2
  | 2 => 2
  | 3 => 1
  | 4 => 1
  | 11 => 2
  | _ => 4

/-- The element format of the MX codes 0x5 to 0xA (R139). -/
def mxElem (code : Nat) : Fmt :=
  match code with
  | 5 => e4m3
  | 6 => e5m2
  | 7 => e3m2
  | 8 => e2m3
  | 9 => e2m1
  | _ => int8

/-- Element width in bits of the MX codes. -/
def mxWidth (code : Nat) : Nat :=
  match code with
  | 7 => 6
  | 8 => 6
  | 9 => 4
  | _ => 8

/-- emax of R114. -/
def mxEmax (code : Nat) : Int :=
  match code with
  | 5 => 8
  | 6 => 15
  | 7 => 4
  | 8 => 2
  | 9 => 2
  | _ => 0

/-- Whether a format code is MX. -/
def isMx (code : Nat) : Bool := 5 ≤ code && code ≤ 10

/-- Rate class of an operand format (R99). -/
def rateOf (code : Nat) : Nat := if code ≤ 2 then 1 else if code = 9 then 4 else 2

end Sys2Proof.Machine
end

