-- ==== Sys2Proof/Config.lean ====
section
/-! DEFINITION. What one part or one board fixes and the manual leaves open: fused identity, keys, firmware, media decoding that only external standards define, and the free values. What has a body only brings an open value within the bounds that the manual gives; the rest is opaque, so nothing can be proved of its value. -/

namespace Sys2Proof

/-- ID_REV [15:0], fused (R612). -/
opaque Config.fusedRev : BitVec 16
/-- ID_ORDER [7:0], fused: 0 IK480-S, 1 IK480-M (R612). -/
opaque Config.fusedOrder : BitVec 8
/-- The serial number, fused (R612). -/
opaque Config.fusedSerial : W64
/-- Sebaley's JEP106 code, in the JTAG identification code (R622). -/
opaque Config.jep106 : BitVec 11
/-- A free value for draw `n`: one the manual leaves open while the machine goes on (log entry 2). -/
opaque Config.freeWord : Nat → W32
/-- A free byte for draw `n` and position `i` (log entry 2). -/
opaque Config.freeByte : Nat → Nat → Byte
/-- Whether an error of more than five symbols of a beat escapes the symbol code: draw, address, symbols (R265, log entry 2). -/
opaque Config.escapes : Nat → Nat → List Nat → Bool
/-- The Helwa seed in use at a seat that another device holds or held, for draw `n`: a hasp carries it, and the manual lays out no packet that brings it
(R131, R410, log entry 2). -/
opaque Config.seatSeed : Nat → W32
/-- The sequence that is to be generated under sequence number `seq`, if there is one, as PRIO and length of its prompt: prompts are data of the plan that
no rule lays out. `source` is a draw made when the context leaves STOPPED (R204, R209, R212, log entry 2). -/
opaque Config.prompt : Nat → Nat → Option (Nat × Nat)
/-- Whether an ECDSA signature verifies: public key, message, signature (R599, R600). -/
opaque Config.ecdsaVerify : Bytes → Bytes → Bytes → Bool
/-- What an ECDSA signature by the device's private key gives for a message (R593). -/
opaque Config.ecdsaSign : Bytes → Bytes
/-- The SHA-384 hashes of the firmware signing keys fused into the part, each with whether it is revoked (R600). -/
opaque Config.fusedKeys : List (Bytes × Bool)
/-- The fused minimum of a component's security version (R600). -/
opaque Config.fusedMinimum : Nat → Nat
/-- The bytes that measurement 5 digests: fused key hashes and security-version minimums (R593). -/
opaque Config.fusedBytes : Bytes
/-- The boot ROM (R593). -/
opaque Config.bootRom : Bytes
/-- The firmware of a component that a part leaves manufacture with (R593, R594). -/
opaque Config.factoryFirmware : Nat → Bytes
/-- The device certificate chain, slot 0 (R593). -/
opaque Config.certChain : Bytes
/-- Sebaley's enterprise number (R590, R594). -/
opaque Config.enterprise : W32
/-- The PLDM Type 5 completion code for an operation not permitted, as DSP0267 numbers it (R599). -/
opaque Config.notPermitted : Nat
/-- What the mode registers of the fitted LPDDR say at bring-up, laid out as in MEM_LP_CONFIG: ranks, density, data rate (R277, R306). -/
opaque Config.lpConfig : W32
/-- MEM_FL_LIFE after a number of programs: the manual does not say how programs wear a block (R302, log entry 2). -/
opaque Config.flashLife : Nat → BitVec 8
/-- MEM_FL_WRATE after a number of programs: the manual gives NAND no timing (R306, log entry 2). -/
opaque Config.flashRate : Nat → W32
/-- The lowest VDD_CORE in mV that the part's path monitors pass at a tile clock in MHz: a part's own figure, which the manual does not give (R585, R624,
log entry 2). -/
opaque Config.pathVolts : Nat → Nat
/-- What decides the device's power in Poised. -/
opaque Config.poisedFree : Nat
/-- What the device draws in Poised, in W: the manual bounds it by 200 W and gives no figure (R564, log entry 2). -/
def Config.poisedWatts : Nat := min 200 Config.poisedFree
/-- What decides the raw NAND capacity (R295). -/
opaque Config.nandFitted : Nat
/-- The raw NAND capacity fitted, in 4 KiB blocks: at most 64 TiB, and at least one page of 16 KiB on each of 16 dies (R295). -/
def Config.nandBlocks : Nat := max 64 (min (2 ^ 34) Config.nandFitted)
/-- What decides how many NAND dies are fitted (R295). -/
opaque Config.diesFitted : Nat
/-- The NAND dies fitted: 16 to 256, a multiple of 16 (R295). -/
def Config.nandDies : Nat := max 16 (min 256 (Config.diesFitted / 16 * 16))
/-- The die that takes a block, for the count of programs before it: the mapping is the translation layer's own (R302, log entry 2). -/
opaque Config.blockDie : Nat → Nat → Nat
/-- Whether the NAND fitted is QLC (R295). -/
opaque Config.qlcNand : Bool
/-- The slot number that the board's SLOT_ID straps give (R620). -/
opaque Config.slotStraps : BitVec 3
/-- The FP32 code of chroma in a picture that has none: the manual gives no value (R480, log entry 2). -/
opaque Config.greyChroma : W32
/-- The version that a firmware image states: the manual does not say where an image holds it (R507, R600, log entry 2). -/
opaque Config.imageVersion : Bytes → W32

end Sys2Proof
end

