-- ==== Sys2Proof/Machine/RegMap.lean ====
section
/-! DEFINITION. The register map: every register of BAR0 and of the VF BARs (R608 to R614) with its offset, its access code (R10), its reset value (R12) and the bits that a write reaches, as the register tables of the manual give them. -/

namespace Sys2Proof.Machine

/-- Access codes of R10. -/
inductive Access where
  | ro | rw | w1c | wo
  deriving DecidableEq, Repr

/-- One row of a register table: `count` registers, `stride` bytes apart, with the bits that a write reaches. -/
structure RegRow where
  base : Nat
  stride : Nat
  count : Nat
  acc : Access
  reset : Nat
  mask : Nat
  deriving DecidableEq, Repr

/-! Offsets: identity (R612). -/

/-- ID_PART. -/
def Reg.ID_PART : Nat := 0x00000000
/-- ID_REV. -/
def Reg.ID_REV : Nat := 0x00000004
/-- ID_ORDER. -/
def Reg.ID_ORDER : Nat := 0x00000008
/-- ID_SERIAL_LO. -/
def Reg.ID_SERIAL_LO : Nat := 0x0000000C
/-- ID_SERIAL_HI. -/
def Reg.ID_SERIAL_HI : Nat := 0x00000010
/-- ID_CAP. -/
def Reg.ID_CAP : Nat := 0x00000014
/-- ID_DRAM. -/
def Reg.ID_DRAM : Nat := 0x00000018
/-- ID_MAP. -/
def Reg.ID_MAP : Nat := 0x0000001C
/-- ID_BAD_ACCESS. -/
def Reg.ID_BAD_ACCESS : Nat := 0x00000020

/-- Rows: identity (R612). -/
def regRows0 : List RegRow := [
  ⟨0x00000000, 0x0, 1, .ro, 0x00000480, 0x00000000⟩,
  ⟨0x00000004, 0x0, 1, .ro, 0x00000000, 0x00000000⟩,
  ⟨0x00000008, 0x0, 1, .ro, 0x00000000, 0x00000000⟩,
  ⟨0x0000000C, 0x0, 1, .ro, 0x00000000, 0x00000000⟩,
  ⟨0x00000010, 0x0, 1, .ro, 0x00000000, 0x00000000⟩,
  ⟨0x00000014, 0x0, 1, .ro, 0x10101011, 0x00000000⟩,
  ⟨0x00000018, 0x0, 1, .ro, 0x000000C0, 0x00000000⟩,
  ⟨0x0000001C, 0x0, 1, .ro, 0x00010000, 0x00000000⟩,
  ⟨0x00000020, 0x0, 1, .ro, 0x00000000, 0x00000000⟩]

/-! Offsets: reset and clocks (R560). -/

/-- RST_CAUSE. -/
def Reg.RST_CAUSE : Nat := 0x00010000
/-- RST_CMD. -/
def Reg.RST_CMD : Nat := 0x00010004
/-- RST_STATUS. -/
def Reg.RST_STATUS : Nat := 0x00010008
/-- RST_COUNT. -/
def Reg.RST_COUNT : Nat := 0x0001000C
/-- RST_STRETCH. -/
def Reg.RST_STRETCH : Nat := 0x00010010
/-- RST_EVENT. -/
def Reg.RST_EVENT : Nat := 0x00010014
/-- RST_WARD_GEN, one of 16. -/
def Reg.RST_WARD_GEN (n : Nat) : Nat := 0x00010020 + 0x4 * n
/-- RST_HOST_GEN. -/
def Reg.RST_HOST_GEN : Nat := 0x00010060
/-- RST_FLASH_GEN. -/
def Reg.RST_FLASH_GEN : Nat := 0x00010064
/-- CLK_STATUS. -/
def Reg.CLK_STATUS : Nat := 0x00010100
/-- CLK_CTRL. -/
def Reg.CLK_CTRL : Nat := 0x00010104
/-- CLK_EVENT. -/
def Reg.CLK_EVENT : Nat := 0x00010108
/-- CLK_PPM_A. -/
def Reg.CLK_PPM_A : Nat := 0x0001010C
/-- CLK_PPM_B. -/
def Reg.CLK_PPM_B : Nat := 0x00010110
/-- CLK_HOLD_MS. -/
def Reg.CLK_HOLD_MS : Nat := 0x00010114

/-- Rows: reset and clocks (R560). -/
def regRows1 : List RegRow := [
  ⟨0x00010000, 0x0, 1, .w1c, 0x00000001, 0x00000FFF⟩,
  ⟨0x00010004, 0x0, 1, .wo, 0x00000000, 0x00000000⟩,
  ⟨0x00010008, 0x0, 1, .ro, 0x00000000, 0x00000000⟩,
  ⟨0x0001000C, 0x0, 1, .ro, 0x00000000, 0x00000000⟩,
  ⟨0x00010010, 0x0, 1, .ro, 0x00000002, 0x00000000⟩,
  ⟨0x00010014, 0x0, 1, .w1c, 0x00000000, 0x00000003⟩,
  ⟨0x00010020, 0x4, 16, .ro, 0x00000000, 0x00000000⟩,
  ⟨0x00010060, 0x0, 1, .ro, 0x00000000, 0x00000000⟩,
  ⟨0x00010064, 0x0, 1, .ro, 0x00000000, 0x00000000⟩,
  ⟨0x00010100, 0x0, 1, .ro, 0x00000000, 0x00000000⟩,
  ⟨0x00010104, 0x0, 1, .rw, 0x00000000, 0x00000001⟩,
  ⟨0x00010108, 0x0, 1, .w1c, 0x00000000, 0xFFFFFFFF⟩,
  ⟨0x0001010C, 0x0, 1, .ro, 0x00000000, 0x00000000⟩,
  ⟨0x00010110, 0x0, 1, .ro, 0x00000000, 0x00000000⟩,
  ⟨0x00010114, 0x0, 1, .ro, 0x00000000, 0x00000000⟩]

/-! Offsets: power, thermal and site (R588). -/

/-- PWR_STATUS. -/
def Reg.PWR_STATUS : Nat := 0x00020000
/-- PWR_LADDER. -/
def Reg.PWR_LADDER : Nat := 0x00020004
/-- PWR_EVENT. -/
def Reg.PWR_EVENT : Nat := 0x00020008
/-- PWR_VIN. -/
def Reg.PWR_VIN : Nat := 0x0002000C
/-- PWR_VIN_THRESH. -/
def Reg.PWR_VIN_THRESH : Nat := 0x00020010
/-- PWR_VIN_RATIO. -/
def Reg.PWR_VIN_RATIO : Nat := 0x00020014
/-- PWR_CAP. -/
def Reg.PWR_CAP : Nat := 0x00020018
/-- PWR_SHED_CAP. -/
def Reg.PWR_SHED_CAP : Nat := 0x0002001C
/-- PWR_SAG_CAP. -/
def Reg.PWR_SAG_CAP : Nat := 0x00020020
/-- PWR_CAP_NOW. -/
def Reg.PWR_CAP_NOW : Nat := 0x00020024
/-- PWR_SLEW. -/
def Reg.PWR_SLEW : Nat := 0x00020028
/-- PWR_FILL_FLOOR. -/
def Reg.PWR_FILL_FLOOR : Nat := 0x0002002C
/-- PWR_VF. -/
def Reg.PWR_VF : Nat := 0x00020030
/-- PWR_POWER. -/
def Reg.PWR_POWER : Nat := 0x00020034
/-- PWR_ENERGY_LO. -/
def Reg.PWR_ENERGY_LO : Nat := 0x00020038
/-- PWR_ENERGY_HI. -/
def Reg.PWR_ENERGY_HI : Nat := 0x0002003C
/-- PWR_TEMP. -/
def Reg.PWR_TEMP : Nat := 0x00020040
/-- PWR_CTX_PEAK, one of 16. -/
def Reg.PWR_CTX_PEAK (n : Nat) : Nat := 0x00020100 + 0x4 * n
/-- PWR_FCAST_TICK_LO. -/
def Reg.PWR_FCAST_TICK_LO : Nat := 0x00020200
/-- PWR_FCAST_TICK_HI. -/
def Reg.PWR_FCAST_TICK_HI : Nat := 0x00020204
/-- PWR_FCAST_MEAN. -/
def Reg.PWR_FCAST_MEAN : Nat := 0x00020208
/-- PWR_FCAST_EST_LO. -/
def Reg.PWR_FCAST_EST_LO : Nat := 0x0002020C
/-- PWR_FCAST_EST_HI. -/
def Reg.PWR_FCAST_EST_HI : Nat := 0x00020210
/-- PWR_FCAST, one of 32. -/
def Reg.PWR_FCAST (n : Nat) : Nat := 0x00020280 + 0x4 * n

/-- Rows: power, thermal and site (R588). -/
def regRows2 : List RegRow := [
  ⟨0x00020000, 0x0, 1, .ro, 0x00000001, 0x00000000⟩,
  ⟨0x00020004, 0x0, 1, .rw, 0x00000000, 0x00000007⟩,
  ⟨0x00020008, 0x0, 1, .w1c, 0x00000000, 0xFFFFFFFF⟩,
  ⟨0x0002000C, 0x0, 1, .ro, 0x00000000, 0x00000000⟩,
  ⟨0x00020010, 0x0, 1, .rw, 0xB8B0A8A0, 0xFFFFFFFF⟩,
  ⟨0x00020014, 0x0, 1, .rw, 0x00005DC0, 0x0000FFFF⟩,
  ⟨0x00020018, 0x0, 1, .rw, 0x0000FFFF, 0x0000FFFF⟩,
  ⟨0x0002001C, 0x0, 1, .rw, 0x000001F4, 0x0000FFFF⟩,
  ⟨0x00020020, 0x0, 1, .rw, 0x000003E8, 0x0000FFFF⟩,
  ⟨0x00020024, 0x0, 1, .ro, 0x0000FFFF, 0x00000000⟩,
  ⟨0x00020028, 0x0, 1, .rw, 0x00000014, 0x00000FFF⟩,
  ⟨0x0002002C, 0x0, 1, .rw, 0x00000000, 0x00000FFF⟩,
  ⟨0x00020030, 0x0, 1, .rw, 0x00000019, 0x000000FF⟩,
  ⟨0x00020034, 0x0, 1, .ro, 0x00000000, 0x00000000⟩,
  ⟨0x00020038, 0x0, 1, .ro, 0x00000000, 0x00000000⟩,
  ⟨0x0002003C, 0x0, 1, .ro, 0x00000000, 0x00000000⟩,
  ⟨0x00020040, 0x0, 1, .ro, 0x00000000, 0x00000000⟩,
  ⟨0x00020100, 0x4, 16, .ro, 0x00000000, 0x00000000⟩,
  ⟨0x00020200, 0x0, 1, .ro, 0x00000000, 0x00000000⟩,
  ⟨0x00020204, 0x0, 1, .ro, 0x00000000, 0x00000000⟩,
  ⟨0x00020208, 0x0, 1, .ro, 0x00000000, 0x00000000⟩,
  ⟨0x0002020C, 0x0, 1, .ro, 0x00000000, 0x00000000⟩,
  ⟨0x00020210, 0x0, 1, .ro, 0x00000000, 0x00000000⟩,
  ⟨0x00020280, 0x4, 32, .ro, 0x00000000, 0x00000000⟩]

/-! Offsets: tick and plan (R65, R131, R166). -/

/-- TCK_PERIOD. -/
def Reg.TCK_PERIOD : Nat := 0x00040000
/-- TCK_WINDOW. -/
def Reg.TCK_WINDOW : Nat := 0x00040004
/-- TCK_GUARD. -/
def Reg.TCK_GUARD : Nat := 0x00040008
/-- TCK_STATUS. -/
def Reg.TCK_STATUS : Nat := 0x0004000C
/-- TCK_EVENT. -/
def Reg.TCK_EVENT : Nat := 0x00040010
/-- TCK_TREE. -/
def Reg.TCK_TREE : Nat := 0x00040014
/-- TCK_CHILD. -/
def Reg.TCK_CHILD : Nat := 0x00040018
/-- TCK_BACKUP_CHILD. -/
def Reg.TCK_BACKUP_CHILD : Nat := 0x0004001C
/-- TCK_NOW_LO. -/
def Reg.TCK_NOW_LO : Nat := 0x00040020
/-- TCK_NOW_HI. -/
def Reg.TCK_NOW_HI : Nat := 0x00040024
/-- TCK_TERM. -/
def Reg.TCK_TERM : Nat := 0x00040028
/-- TCK_MASTER. -/
def Reg.TCK_MASTER : Nat := 0x0004002C
/-- TCK_OFFSET. -/
def Reg.TCK_OFFSET : Nat := 0x00040030
/-- TCK_OVERRUNS. -/
def Reg.TCK_OVERRUNS : Nat := 0x00040034
/-- TCK_OPFAULTS. -/
def Reg.TCK_OPFAULTS : Nat := 0x00040040
/-- TCK_OPFAULT_ID. -/
def Reg.TCK_OPFAULT_ID : Nat := 0x00040044
/-- TCK_OPFAULT_UNIT. -/
def Reg.TCK_OPFAULT_UNIT : Nat := 0x00040048
/-- TCK_RANGE. -/
def Reg.TCK_RANGE : Nat := 0x0004004C
/-- TCK_WARD_CLK, one of 16. -/
def Reg.TCK_WARD_CLK (n : Nat) : Nat := 0x00040060 + 0x4 * n
/-- TCK_SEED, one of 16. -/
def Reg.TCK_SEED (n : Nat) : Nat := 0x00040100 + 0x4 * n

/-- Rows: tick and plan (R65, R131, R166). -/
def regRows3 : List RegRow := [
  ⟨0x00040000, 0x0, 1, .rw, 0x000000FA, 0x00003FFF⟩,
  ⟨0x00040004, 0x0, 1, .rw, 0x000009C4, 0x00001FFF⟩,
  ⟨0x00040008, 0x0, 1, .rw, 0x00000014, 0x000000FF⟩,
  ⟨0x0004000C, 0x0, 1, .ro, 0x00000000, 0x00000000⟩,
  ⟨0x00040010, 0x0, 1, .w1c, 0x00000000, 0x000000FF⟩,
  ⟨0x00040014, 0x0, 1, .rw, 0x001F001F, 0x001F001F⟩,
  ⟨0x00040018, 0x0, 1, .rw, 0x00000000, 0x00FFFFFF⟩,
  ⟨0x0004001C, 0x0, 1, .rw, 0x00000000, 0x00FFFFFF⟩,
  ⟨0x00040020, 0x0, 1, .ro, 0x00000000, 0x00000000⟩,
  ⟨0x00040024, 0x0, 1, .ro, 0x00000000, 0x00000000⟩,
  ⟨0x00040028, 0x0, 1, .ro, 0x00000000, 0x00000000⟩,
  ⟨0x0004002C, 0x0, 1, .rw, 0x00000000, 0xFFFFFFFF⟩,
  ⟨0x00040030, 0x0, 1, .ro, 0x00000000, 0x00000000⟩,
  ⟨0x00040034, 0x0, 1, .ro, 0x00000000, 0x00000000⟩,
  ⟨0x00040040, 0x0, 1, .ro, 0x00000000, 0x00000000⟩,
  ⟨0x00040044, 0x0, 1, .ro, 0x00000000, 0x00000000⟩,
  ⟨0x00040048, 0x0, 1, .ro, 0x00000000, 0x00000000⟩,
  ⟨0x0004004C, 0x0, 1, .ro, 0x00000000, 0x00000000⟩,
  ⟨0x00040060, 0x4, 16, .ro, 0x00000000, 0x00000000⟩,
  ⟨0x00040100, 0x4, 16, .rw, 0x00000000, 0xFFFFFFFF⟩]

/-! Offsets: keyrings (R404). -/

/-- CTX_STATUS, one of 16. -/
def Reg.CTX_STATUS (n : Nat) : Nat := 0x00080000 + 0x40 * n
/-- CTX_CMD, one of 16. -/
def Reg.CTX_CMD (n : Nat) : Nat := 0x00080004 + 0x40 * n
/-- CTX_TS, one of 16. -/
def Reg.CTX_TS (n : Nat) : Nat := 0x00080008 + 0x40 * n
/-- CTX_WS, one of 16. -/
def Reg.CTX_WS (n : Nat) : Nat := 0x0008000C + 0x40 * n
/-- CTX_STG, one of 16. -/
def Reg.CTX_STG (n : Nat) : Nat := 0x00080010 + 0x40 * n
/-- CTX_DRAM_BASE, one of 16. -/
def Reg.CTX_DRAM_BASE (n : Nat) : Nat := 0x00080014 + 0x40 * n
/-- CTX_DRAM_SIZE, one of 16. -/
def Reg.CTX_DRAM_SIZE (n : Nat) : Nat := 0x00080018 + 0x40 * n
/-- CTX_LP_BASE, one of 16. -/
def Reg.CTX_LP_BASE (n : Nat) : Nat := 0x0008001C + 0x40 * n
/-- CTX_LP_SIZE, one of 16. -/
def Reg.CTX_LP_SIZE (n : Nat) : Nat := 0x00080020 + 0x40 * n
/-- CTX_BOLTS, one of 16. -/
def Reg.CTX_BOLTS (n : Nat) : Nat := 0x00080024 + 0x40 * n
/-- CTX_WARDS, one of 16. -/
def Reg.CTX_WARDS (n : Nat) : Nat := 0x00080028 + 0x40 * n
/-- CTX_LINKS, one of 16. -/
def Reg.CTX_LINKS (n : Nat) : Nat := 0x0008002C + 0x40 * n
/-- CTX_CREDIT, one of 16. -/
def Reg.CTX_CREDIT (n : Nat) : Nat := 0x00080030 + 0x40 * n
/-- CTX_VF, one of 16. -/
def Reg.CTX_VF (n : Nat) : Nat := 0x00080034 + 0x40 * n
/-- CTX_EVENT, one of 16. -/
def Reg.CTX_EVENT (n : Nat) : Nat := 0x00080038 + 0x40 * n

/-- Rows: keyrings (R404). -/
def regRows4 : List RegRow := [
  ⟨0x00080000, 0x40, 16, .ro, 0x00000000, 0x00000000⟩,
  ⟨0x00080004, 0x40, 16, .wo, 0x00000000, 0x00000000⟩,
  ⟨0x00080008, 0x40, 16, .rw, 0x00000000, 0x007F007F⟩,
  ⟨0x0008000C, 0x40, 16, .rw, 0x00000000, 0x01FF01FF⟩,
  ⟨0x00080010, 0x40, 16, .rw, 0x00000000, 0x01FF01FF⟩,
  ⟨0x00080014, 0x40, 16, .rw, 0x00000000, 0x0001FFFF⟩,
  ⟨0x00080018, 0x40, 16, .rw, 0x00000000, 0x0001FFFF⟩,
  ⟨0x0008001C, 0x40, 16, .rw, 0x00000000, 0x000FFFFF⟩,
  ⟨0x00080020, 0x40, 16, .rw, 0x00000000, 0x000FFFFF⟩,
  ⟨0x00080024, 0x40, 16, .rw, 0x00000000, 0x0FFF0FFF⟩,
  ⟨0x00080028, 0x40, 16, .rw, 0x0000FFFF, 0x0000FFFF⟩,
  ⟨0x0008002C, 0x40, 16, .rw, 0x00FFFFFF, 0x00FFFFFF⟩,
  ⟨0x00080030, 0x40, 16, .rw, 0x00000000, 0x000001FF⟩,
  ⟨0x00080034, 0x40, 16, .rw, 0x00000000, 0x0000001F⟩,
  ⟨0x00080038, 0x40, 16, .w1c, 0x00000000, 0x0000003F⟩]

/-! Offsets: device-wide context registers (R405) and accounting (R406). -/

/-- CTX_SELECT_LO. -/
def Reg.CTX_SELECT_LO : Nat := 0x00080400
/-- CTX_SELECT_HI. -/
def Reg.CTX_SELECT_HI : Nat := 0x00080404
/-- CTX_SELECT_NOW_LO. -/
def Reg.CTX_SELECT_NOW_LO : Nat := 0x00080408
/-- CTX_SELECT_NOW_HI. -/
def Reg.CTX_SELECT_NOW_HI : Nat := 0x0008040C
/-- CTX_BOLT_SEL. -/
def Reg.CTX_BOLT_SEL : Nat := 0x00080410
/-- CTX_BOLT_VAL. -/
def Reg.CTX_BOLT_VAL : Nat := 0x00080414
/-- CTX_BOLT_ADD. -/
def Reg.CTX_BOLT_ADD : Nat := 0x00080418
/-- ACC_UNCHARGED_MJ_LO. -/
def Reg.ACC_UNCHARGED_MJ_LO : Nat := 0x00080420
/-- ACC_UNCHARGED_MJ_HI. -/
def Reg.ACC_UNCHARGED_MJ_HI : Nat := 0x00080424
/-- Low word of counter `n` of context `c`; the high word follows. -/
def Reg.ACC_LIVE (c n : Nat) : Nat := 0x00081000 + 0x100 * c + 8 * n
/-- Low word of counter `n` of context `c`; the high word follows. -/
def Reg.ACC_SNAP (c n : Nat) : Nat := 0x00081080 + 0x100 * c + 8 * n
/-- ACC_SNAP_EPOCH, one of 16. -/
def Reg.ACC_SNAP_EPOCH (n : Nat) : Nat := 0x000810F8 + 0x100 * n
/-- ACC_SNAP_GEN, one of 16. -/
def Reg.ACC_SNAP_GEN (n : Nat) : Nat := 0x000810FC + 0x100 * n

/-- Rows: device-wide context registers (R405) and accounting (R406). -/
def regRows5 : List RegRow := [
  ⟨0x000810FC, 0x100, 16, .ro, 0x00000000, 0x00000000⟩,
  ⟨0x000810F8, 0x100, 16, .ro, 0xFFFFFFFF, 0x00000000⟩,
  ⟨0x00080400, 0x0, 1, .rw, 0x00000000, 0xFFFFFFFF⟩,
  ⟨0x00080404, 0x0, 1, .rw, 0x00000000, 0xFFFFFFFF⟩,
  ⟨0x00080408, 0x0, 1, .ro, 0x00000000, 0x00000000⟩,
  ⟨0x0008040C, 0x0, 1, .ro, 0x00000000, 0x00000000⟩,
  ⟨0x00080410, 0x0, 1, .rw, 0x00000000, 0x0000FFFF⟩,
  ⟨0x00080414, 0x0, 1, .rw, 0x00000000, 0xFFFFFFFF⟩,
  ⟨0x00080418, 0x0, 1, .wo, 0x00000000, 0x00000000⟩,
  ⟨0x00080420, 0x0, 1, .ro, 0x00000000, 0x00000000⟩,
  ⟨0x00080424, 0x0, 1, .ro, 0x00000000, 0x00000000⟩,
  ⟨0x00081000, 4, 1024, .ro, 0, 0⟩]

/-! Offsets: ring sets (R534): the admin set at 0x0010_0000; the set of VF v at 0x0100_0000 + 0x1_0000 * v, the model's own numbering of the VF BARs (R611). -/

/-- Base of the ring set of function `fn`. -/
def ringBase (fn : Nat) : Nat := if fn = 0 then 0x00100000 else 0x01000000 + 0x10000 * fn
/-- RING_CTRL of function `fn` (0: PF; 1 to 16: a VF). -/
def Reg.RING_CTRL (fn : Nat) : Nat := ringBase fn
/-- RING_STATUS of function `fn` (0: PF; 1 to 16: a VF). -/
def Reg.RING_STATUS (fn : Nat) : Nat := ringBase fn + 0x4
/-- RING_EVENT of function `fn` (0: PF; 1 to 16: a VF). -/
def Reg.RING_EVENT (fn : Nat) : Nat := ringBase fn + 0x8
/-- RING_POLL of function `fn` (0: PF; 1 to 16: a VF). -/
def Reg.RING_POLL (fn : Nat) : Nat := ringBase fn + 0xc
/-- RING_CB_LO of function `fn` (0: PF; 1 to 16: a VF). -/
def Reg.RING_CB_LO (fn : Nat) : Nat := ringBase fn + 0x10
/-- RING_CB_HI of function `fn` (0: PF; 1 to 16: a VF). -/
def Reg.RING_CB_HI (fn : Nat) : Nat := ringBase fn + 0x14
/-- RING_CMD_LO of function `fn` (0: PF; 1 to 16: a VF). -/
def Reg.RING_CMD_LO (fn : Nat) : Nat := ringBase fn + 0x18
/-- RING_CMD_HI of function `fn` (0: PF; 1 to 16: a VF). -/
def Reg.RING_CMD_HI (fn : Nat) : Nat := ringBase fn + 0x1c
/-- RING_CPL_LO of function `fn` (0: PF; 1 to 16: a VF). -/
def Reg.RING_CPL_LO (fn : Nat) : Nat := ringBase fn + 0x20
/-- RING_CPL_HI of function `fn` (0: PF; 1 to 16: a VF). -/
def Reg.RING_CPL_HI (fn : Nat) : Nat := ringBase fn + 0x24
/-- RING_EVT_LO of function `fn` (0: PF; 1 to 16: a VF). -/
def Reg.RING_EVT_LO (fn : Nat) : Nat := ringBase fn + 0x28
/-- RING_EVT_HI of function `fn` (0: PF; 1 to 16: a VF). -/
def Reg.RING_EVT_HI (fn : Nat) : Nat := ringBase fn + 0x2c
/-- RING_SIZES of function `fn` (0: PF; 1 to 16: a VF). -/
def Reg.RING_SIZES (fn : Nat) : Nat := ringBase fn + 0x30
/-- RING_IRQ of function `fn` (0: PF; 1 to 16: a VF). -/
def Reg.RING_IRQ (fn : Nat) : Nat := ringBase fn + 0x34
/-- RING_ARENA_LO of function `fn` (0: PF; 1 to 16: a VF). -/
def Reg.RING_ARENA_LO (fn : Nat) : Nat := ringBase fn + 0x38
/-- RING_ARENA_HI of function `fn` (0: PF; 1 to 16: a VF). -/
def Reg.RING_ARENA_HI (fn : Nat) : Nat := ringBase fn + 0x3c
/-- RING_ARENA_SIZE of function `fn` (0: PF; 1 to 16: a VF). -/
def Reg.RING_ARENA_SIZE (fn : Nat) : Nat := ringBase fn + 0x40
/-- RING_EVT_LOST of function `fn` (0: PF; 1 to 16: a VF). -/
def Reg.RING_EVT_LOST (fn : Nat) : Nat := ringBase fn + 0x44
/-- RING_ORPHAN of function `fn` (0: PF; 1 to 16: a VF). -/
def Reg.RING_ORPHAN (fn : Nat) : Nat := ringBase fn + 0x48
/-- RING_INFLIGHT of function `fn` (0: PF; 1 to 16: a VF). -/
def Reg.RING_INFLIGHT (fn : Nat) : Nat := ringBase fn + 0x4c

/-- Rows: ring sets (R534): the admin set at 0x0010_0000; the set of VF v at 0x0100_0000 + 0x1_0000 * v, the model's own numbering of the VF BARs (R611). -/
def regRows6 : List RegRow := [
  ⟨0x00100000, 0, 1, .rw, 0x00000000, 0x00000001⟩,
  ⟨0x01010000, 0x10000, 16, .rw, 0x00000000, 0x00000001⟩,
  ⟨0x00100004, 0, 1, .ro, 0x00000000, 0x00000000⟩,
  ⟨0x01010004, 0x10000, 16, .ro, 0x00000000, 0x00000000⟩,
  ⟨0x00100008, 0, 1, .w1c, 0x00000000, 0xFFFFFFFF⟩,
  ⟨0x01010008, 0x10000, 16, .w1c, 0x00000000, 0xFFFFFFFF⟩,
  ⟨0x0010000C, 0, 1, .rw, 0x00000008, 0x00000FFF⟩,
  ⟨0x0101000C, 0x10000, 16, .rw, 0x00000008, 0x00000FFF⟩,
  ⟨0x00100010, 0, 1, .rw, 0x00000000, 0xFFFFFFC0⟩,
  ⟨0x01010010, 0x10000, 16, .rw, 0x00000000, 0xFFFFFFC0⟩,
  ⟨0x00100014, 0, 1, .rw, 0x00000000, 0xFFFFFFFF⟩,
  ⟨0x01010014, 0x10000, 16, .rw, 0x00000000, 0xFFFFFFFF⟩,
  ⟨0x00100018, 0, 1, .rw, 0x00000000, 0xFFFFF000⟩,
  ⟨0x01010018, 0x10000, 16, .rw, 0x00000000, 0xFFFFF000⟩,
  ⟨0x0010001C, 0, 1, .rw, 0x00000000, 0xFFFFFFFF⟩,
  ⟨0x0101001C, 0x10000, 16, .rw, 0x00000000, 0xFFFFFFFF⟩,
  ⟨0x00100020, 0, 1, .rw, 0x00000000, 0xFFFFF000⟩,
  ⟨0x01010020, 0x10000, 16, .rw, 0x00000000, 0xFFFFF000⟩,
  ⟨0x00100024, 0, 1, .rw, 0x00000000, 0xFFFFFFFF⟩,
  ⟨0x01010024, 0x10000, 16, .rw, 0x00000000, 0xFFFFFFFF⟩,
  ⟨0x00100028, 0, 1, .rw, 0x00000000, 0xFFFFF000⟩,
  ⟨0x01010028, 0x10000, 16, .rw, 0x00000000, 0xFFFFF000⟩,
  ⟨0x0010002C, 0, 1, .rw, 0x00000000, 0xFFFFFFFF⟩,
  ⟨0x0101002C, 0x10000, 16, .rw, 0x00000000, 0xFFFFFFFF⟩,
  ⟨0x00100030, 0, 1, .rw, 0x000A060A, 0x001F1F1F⟩,
  ⟨0x01010030, 0x10000, 16, .rw, 0x000A060A, 0x001F1F1F⟩,
  ⟨0x00100034, 0, 1, .rw, 0x00080001, 0xFFFF00FF⟩,
  ⟨0x01010034, 0x10000, 16, .rw, 0x00080001, 0xFFFF00FF⟩,
  ⟨0x01010038, 0x10000, 16, .rw, 0x00000000, 0xFFFFF000⟩,
  ⟨0x0101003C, 0x10000, 16, .rw, 0x00000000, 0xFFFFFFFF⟩,
  ⟨0x01010040, 0x10000, 16, .rw, 0x00000000, 0x0FFFFFFF⟩,
  ⟨0x00100044, 0, 1, .ro, 0x00000000, 0x00000000⟩,
  ⟨0x01010044, 0x10000, 16, .ro, 0x00000000, 0x00000000⟩,
  ⟨0x00100048, 0, 1, .ro, 0x00000000, 0x00000000⟩,
  ⟨0x01010048, 0x10000, 16, .ro, 0x00000000, 0x00000000⟩,
  ⟨0x0010004C, 0, 1, .ro, 0x00000000, 0x00000000⟩,
  ⟨0x0101004C, 0x10000, 16, .ro, 0x00000000, 0x00000000⟩]

/-! Offsets: MSI-X tables and pending bits (R529, R611); entry layout and mask bit as PCIe has them (PRESUMED, log entry 3). -/

/-- Word `k` (address low, address high, data, control) of vector `v` in the MSI-X table of function `fn`. -/
def Reg.MSIX (fn v k : Nat) : Nat := ringBase fn + 0x8000 + 16 * v + 4 * k
/-- Pending bits of function `fn`. -/
def Reg.MSIX_PBA (fn : Nat) : Nat := ringBase fn + 0x9000

/-- Rows: MSI-X tables and pending bits (R529, R611); entry layout and mask bit as PCIe has them (PRESUMED, log entry 3). -/
def regRows7 : List RegRow := [
  ⟨0x00108000, 0x0, 1, .rw, 0x0, 0xFFFFFFFC⟩,
  ⟨0x00108004, 0x0, 1, .rw, 0x0, 0xFFFFFFFF⟩,
  ⟨0x00108008, 0x0, 1, .rw, 0x0, 0xFFFFFFFF⟩,
  ⟨0x0010800C, 0x0, 1, .rw, 0x1, 0x1⟩,
  ⟨0x00108010, 0x0, 1, .rw, 0x0, 0xFFFFFFFC⟩,
  ⟨0x00108014, 0x0, 1, .rw, 0x0, 0xFFFFFFFF⟩,
  ⟨0x00108018, 0x0, 1, .rw, 0x0, 0xFFFFFFFF⟩,
  ⟨0x0010801C, 0x0, 1, .rw, 0x1, 0x1⟩,
  ⟨0x00109000, 0x0, 1, .ro, 0, 0⟩,
  ⟨0x01018000, 0x10000, 16, .rw, 0x0, 0xFFFFFFFC⟩,
  ⟨0x01018004, 0x10000, 16, .rw, 0x0, 0xFFFFFFFF⟩,
  ⟨0x01018008, 0x10000, 16, .rw, 0x0, 0xFFFFFFFF⟩,
  ⟨0x0101800C, 0x10000, 16, .rw, 0x1, 0x1⟩,
  ⟨0x01018010, 0x10000, 16, .rw, 0x0, 0xFFFFFFFC⟩,
  ⟨0x01018014, 0x10000, 16, .rw, 0x0, 0xFFFFFFFF⟩,
  ⟨0x01018018, 0x10000, 16, .rw, 0x0, 0xFFFFFFFF⟩,
  ⟨0x0101801C, 0x10000, 16, .rw, 0x1, 0x1⟩,
  ⟨0x01019000, 0x10000, 16, .ro, 0, 0⟩]

/-! Offsets: stacked DRAM (R276). -/

/-- MEM_STK_STATUS. -/
def Reg.MEM_STK_STATUS : Nat := 0x00200000
/-- MEM_STK_CTRL. -/
def Reg.MEM_STK_CTRL : Nat := 0x00200004
/-- MEM_STK_EVENT. -/
def Reg.MEM_STK_EVENT : Nat := 0x00200008
/-- MEM_STK_CE_TOTAL. -/
def Reg.MEM_STK_CE_TOTAL : Nat := 0x0020000C
/-- MEM_STK_UE_TOTAL. -/
def Reg.MEM_STK_UE_TOTAL : Nat := 0x00200010
/-- MEM_STK_REMAPS. -/
def Reg.MEM_STK_REMAPS : Nat := 0x00200014
/-- MEM_STK_PENDING. -/
def Reg.MEM_STK_PENDING : Nat := 0x00200018
/-- MEM_STK_SPARES. -/
def Reg.MEM_STK_SPARES : Nat := 0x0020001C
/-- MEM_STK_ERR_ADDR. -/
def Reg.MEM_STK_ERR_ADDR : Nat := 0x00200020
/-- MEM_STK_ERR_LOC. -/
def Reg.MEM_STK_ERR_LOC : Nat := 0x00200024
/-- MEM_STK_TEMP, one of 8. -/
def Reg.MEM_STK_TEMP (n : Nat) : Nat := 0x00200040 + 0x4 * n

/-- Rows: stacked DRAM (R276). -/
def regRows8 : List RegRow := [
  ⟨0x00200000, 0x0, 1, .ro, 0x00000000, 0x00000000⟩,
  ⟨0x00200004, 0x0, 1, .rw, 0x00180400, 0x00FFFF03⟩,
  ⟨0x00200008, 0x0, 1, .w1c, 0x00000000, 0xFFFFFFFF⟩,
  ⟨0x0020000C, 0x0, 1, .ro, 0x00000000, 0x00000000⟩,
  ⟨0x00200010, 0x0, 1, .ro, 0x00000000, 0x00000000⟩,
  ⟨0x00200014, 0x0, 1, .ro, 0x00000000, 0x00000000⟩,
  ⟨0x00200018, 0x0, 1, .ro, 0x00000000, 0x00000000⟩,
  ⟨0x0020001C, 0x0, 1, .ro, 0x00000080, 0x00000000⟩,
  ⟨0x00200020, 0x0, 1, .ro, 0x00000000, 0x00000000⟩,
  ⟨0x00200024, 0x0, 1, .ro, 0x00000000, 0x00000000⟩,
  ⟨0x00200040, 0x4, 8, .ro, 0x00000000, 0x00000000⟩]

/-! Offsets: board LPDDR, flash store, adapter caches (R306). -/

/-- MEM_LP_STATUS. -/
def Reg.MEM_LP_STATUS : Nat := 0x00201000
/-- MEM_LP_CTRL. -/
def Reg.MEM_LP_CTRL : Nat := 0x00201004
/-- MEM_LP_EVENT. -/
def Reg.MEM_LP_EVENT : Nat := 0x00201008
/-- MEM_LP_CONFIG. -/
def Reg.MEM_LP_CONFIG : Nat := 0x0020100C
/-- MEM_LP_CLEAR. -/
def Reg.MEM_LP_CLEAR : Nat := 0x00201010
/-- MEM_LP_CAND. -/
def Reg.MEM_LP_CAND : Nat := 0x00201014
/-- MEM_LP_GUARD. -/
def Reg.MEM_LP_GUARD : Nat := 0x00201018
/-- MEM_LP_REPLAY. -/
def Reg.MEM_LP_REPLAY : Nat := 0x0020101C
/-- MEM_LP_FLCACHE. -/
def Reg.MEM_LP_FLCACHE : Nat := 0x00201020
/-- MEM_LP_CE_TOTAL. -/
def Reg.MEM_LP_CE_TOTAL : Nat := 0x00201024
/-- MEM_LP_UE_TOTAL. -/
def Reg.MEM_LP_UE_TOTAL : Nat := 0x00201028
/-- MEM_FL_STATUS. -/
def Reg.MEM_FL_STATUS : Nat := 0x00202000
/-- MEM_FL_CTRL. -/
def Reg.MEM_FL_CTRL : Nat := 0x00202004
/-- MEM_FL_EVENT. -/
def Reg.MEM_FL_EVENT : Nat := 0x00202008
/-- MEM_FL_CAP_LO. -/
def Reg.MEM_FL_CAP_LO : Nat := 0x0020200C
/-- MEM_FL_CAP_HI. -/
def Reg.MEM_FL_CAP_HI : Nat := 0x00202010
/-- MEM_FL_DIRTY. -/
def Reg.MEM_FL_DIRTY : Nat := 0x00202014
/-- MEM_FL_LIFE. -/
def Reg.MEM_FL_LIFE : Nat := 0x00202018
/-- MEM_FL_RELOCS. -/
def Reg.MEM_FL_RELOCS : Nat := 0x0020201C
/-- MEM_FL_WRATE. -/
def Reg.MEM_FL_WRATE : Nat := 0x00202020
/-- MEM_ADP_HOME, one of 16. -/
def Reg.MEM_ADP_HOME (n : Nat) : Nat := 0x0020A000 + 0x20 * n
/-- MEM_ADP_WIN, one of 16. -/
def Reg.MEM_ADP_WIN (n : Nat) : Nat := 0x0020A004 + 0x20 * n
/-- MEM_ADP_POOL, one of 16. -/
def Reg.MEM_ADP_POOL (n : Nat) : Nat := 0x0020A008 + 0x20 * n
/-- MEM_ADP_PITCH, one of 16. -/
def Reg.MEM_ADP_PITCH (n : Nat) : Nat := 0x0020A00C + 0x20 * n
/-- MEM_ADP_FRAMES, one of 16. -/
def Reg.MEM_ADP_FRAMES (n : Nat) : Nat := 0x0020A010 + 0x20 * n
/-- MEM_ADP_RATE, one of 16. -/
def Reg.MEM_ADP_RATE (n : Nat) : Nat := 0x0020A014 + 0x20 * n
/-- MEM_ADP_EVENT, one of 16. -/
def Reg.MEM_ADP_EVENT (n : Nat) : Nat := 0x0020A018 + 0x20 * n

/-- Rows: board LPDDR, flash store, adapter caches (R306). -/
def regRows9 : List RegRow := [
  ⟨0x00201000, 0x0, 1, .ro, 0x00000000, 0x00000000⟩,
  ⟨0x00201004, 0x0, 1, .rw, 0x00000000, 0x00000001⟩,
  ⟨0x00201008, 0x0, 1, .w1c, 0x00000000, 0x0000000F⟩,
  ⟨0x0020100C, 0x0, 1, .ro, 0x00000000, 0x00000000⟩,
  ⟨0x00201010, 0x0, 1, .rw, 0x00000000, 0xFFFFFFFF⟩,
  ⟨0x00201014, 0x0, 1, .rw, 0x00000000, 0xFFFFFFFF⟩,
  ⟨0x00201018, 0x0, 1, .rw, 0x00000000, 0xFFFFFFFF⟩,
  ⟨0x0020101C, 0x0, 1, .rw, 0x00000000, 0xFFFFFFFF⟩,
  ⟨0x00201020, 0x0, 1, .rw, 0x00000000, 0xFFFFFFFF⟩,
  ⟨0x00201024, 0x0, 1, .ro, 0x00000000, 0x00000000⟩,
  ⟨0x00201028, 0x0, 1, .ro, 0x00000000, 0x00000000⟩,
  ⟨0x00202000, 0x0, 1, .ro, 0x00000000, 0x00000000⟩,
  ⟨0x00202004, 0x0, 1, .rw, 0x0000007D, 0x000003FF⟩,
  ⟨0x00202008, 0x0, 1, .w1c, 0x00000000, 0xFFFFFFFF⟩,
  ⟨0x0020200C, 0x0, 1, .ro, 0x00000000, 0x00000000⟩,
  ⟨0x00202010, 0x0, 1, .ro, 0x00000000, 0x00000000⟩,
  ⟨0x00202014, 0x0, 1, .ro, 0x00000000, 0x00000000⟩,
  ⟨0x00202018, 0x0, 1, .ro, 0x00000000, 0x00000000⟩,
  ⟨0x0020201C, 0x0, 1, .ro, 0x00000000, 0x00000000⟩,
  ⟨0x00202020, 0x0, 1, .ro, 0x00000000, 0x00000000⟩,
  ⟨0x0020A000, 0x20, 16, .rw, 0x00000000, 0xFFFFFFFF⟩,
  ⟨0x0020A004, 0x20, 16, .rw, 0x00000000, 0xFFFFFFFF⟩,
  ⟨0x0020A008, 0x20, 16, .rw, 0x00000000, 0xFFFFFFFF⟩,
  ⟨0x0020A00C, 0x20, 16, .rw, 0x00000000, 0xFFFFFFFF⟩,
  ⟨0x0020A010, 0x20, 16, .rw, 0x00000000, 0x00003FFF⟩,
  ⟨0x0020A014, 0x20, 16, .rw, 0x00000000, 0x00000FFF⟩,
  ⟨0x0020A018, 0x20, 16, .w1c, 0x00000000, 0x0000000F⟩]

/-! Offsets: KV pools (R203). -/

/-- MEM_KV_BASE, one of 16. -/
def Reg.MEM_KV_BASE (n : Nat) : Nat := 0x00208000 + 0x40 * n
/-- MEM_KV_PAGES, one of 16. -/
def Reg.MEM_KV_PAGES (n : Nat) : Nat := 0x00208004 + 0x40 * n
/-- MEM_KV_PAGE_BYTES, one of 16. -/
def Reg.MEM_KV_PAGE_BYTES (n : Nat) : Nat := 0x00208008 + 0x40 * n
/-- MEM_KV_GEOM, one of 16. -/
def Reg.MEM_KV_GEOM (n : Nat) : Nat := 0x0020800C + 0x40 * n
/-- MEM_KV_TABLE, one of 16. -/
def Reg.MEM_KV_TABLE (n : Nat) : Nat := 0x00208010 + 0x40 * n
/-- MEM_KV_SLOTS, one of 16. -/
def Reg.MEM_KV_SLOTS (n : Nat) : Nat := 0x00208014 + 0x40 * n
/-- MEM_KV_RESERVE, one of 16. -/
def Reg.MEM_KV_RESERVE (n : Nat) : Nat := 0x00208018 + 0x40 * n
/-- MEM_KV_CTRL, one of 16. -/
def Reg.MEM_KV_CTRL (n : Nat) : Nat := 0x0020801C + 0x40 * n
/-- MEM_KV_FREE, one of 16. -/
def Reg.MEM_KV_FREE (n : Nat) : Nat := 0x00208020 + 0x40 * n
/-- MEM_KV_EVENT, one of 16. -/
def Reg.MEM_KV_EVENT (n : Nat) : Nat := 0x00208024 + 0x40 * n
/-- MEM_KV_SWAPOUTS, one of 16. -/
def Reg.MEM_KV_SWAPOUTS (n : Nat) : Nat := 0x00208028 + 0x40 * n
/-- MEM_KV_DROPS, one of 16. -/
def Reg.MEM_KV_DROPS (n : Nat) : Nat := 0x0020802C + 0x40 * n

/-- Rows: KV pools (R203). -/
def regRows10 : List RegRow := [
  ⟨0x00208000, 0x40, 16, .rw, 0x00000000, 0xFFFFFFFF⟩,
  ⟨0x00208004, 0x40, 16, .rw, 0x00000000, 0x00FFFFFF⟩,
  ⟨0x00208008, 0x40, 16, .rw, 0x00000000, 0x00FFFFFF⟩,
  ⟨0x0020800C, 0x40, 16, .rw, 0x00000000, 0xFFFFFFFF⟩,
  ⟨0x00208010, 0x40, 16, .rw, 0x00000000, 0xFFFFFFFF⟩,
  ⟨0x00208014, 0x40, 16, .rw, 0x00000000, 0x00001FFF⟩,
  ⟨0x00208018, 0x40, 16, .rw, 0x00000000, 0x00FFFFFF⟩,
  ⟨0x0020801C, 0x40, 16, .rw, 0x00000000, 0x00FFFF03⟩,
  ⟨0x00208020, 0x40, 16, .ro, 0x00000000, 0x00000000⟩,
  ⟨0x00208024, 0x40, 16, .w1c, 0x00000000, 0x0000007F⟩,
  ⟨0x00208028, 0x40, 16, .ro, 0x00000000, 0x00000000⟩,
  ⟨0x0020802C, 0x40, 16, .ro, 0x00000000, 0x00000000⟩]

/-! Offsets: fabric (R345). -/

/-- FAB_ADDR. -/
def Reg.FAB_ADDR : Nat := 0x00400000
/-- FAB_STATUS. -/
def Reg.FAB_STATUS : Nat := 0x00400004
/-- FAB_EVENT. -/
def Reg.FAB_EVENT : Nat := 0x00400008
/-- FAB_PLACE. -/
def Reg.FAB_PLACE : Nat := 0x0040000C
/-- FAB_GEOM. -/
def Reg.FAB_GEOM : Nat := 0x00400010
/-- FAB_BE_CTRL. -/
def Reg.FAB_BE_CTRL : Nat := 0x00400014
/-- FAB_FM_TERM. -/
def Reg.FAB_FM_TERM : Nat := 0x00400018
/-- FAB_DROP_CRC. -/
def Reg.FAB_DROP_CRC : Nat := 0x0040001C
/-- FAB_DROP_STALE. -/
def Reg.FAB_DROP_STALE : Nat := 0x00400020
/-- FAB_DROP_AGED. -/
def Reg.FAB_DROP_AGED : Nat := 0x00400024
/-- FAB_DROP_SCHED. -/
def Reg.FAB_DROP_SCHED : Nat := 0x00400028
/-- FAB_LINK_STATUS, one of 24. -/
def Reg.FAB_LINK_STATUS (n : Nat) : Nat := 0x00400100 + 0x20 * n
/-- FAB_LINK_PEER, one of 24. -/
def Reg.FAB_LINK_PEER (n : Nat) : Nat := 0x00400104 + 0x20 * n
/-- FAB_LINK_SERIAL_LO, one of 24. -/
def Reg.FAB_LINK_SERIAL_LO (n : Nat) : Nat := 0x00400108 + 0x20 * n
/-- FAB_LINK_SERIAL_HI, one of 24. -/
def Reg.FAB_LINK_SERIAL_HI (n : Nat) : Nat := 0x0040010C + 0x20 * n
/-- FAB_LINK_CE, one of 24. -/
def Reg.FAB_LINK_CE (n : Nat) : Nat := 0x00400110 + 0x20 * n
/-- FAB_LINK_UE, one of 24. -/
def Reg.FAB_LINK_UE (n : Nat) : Nat := 0x00400114 + 0x20 * n
/-- FAB_LINK_DELAY, one of 24. -/
def Reg.FAB_LINK_DELAY (n : Nat) : Nat := 0x00400118 + 0x20 * n
/-- FAB_ROUTED, one of 16. -/
def Reg.FAB_ROUTED (n : Nat) : Nat := 0x00400400 + 0x4 * n

/-- Rows: fabric (R345). -/
def regRows11 : List RegRow := [
  ⟨0x00400000, 0x0, 1, .ro, 0x0000FFFF, 0x00000000⟩,
  ⟨0x00400004, 0x0, 1, .ro, 0x00000000, 0x00000000⟩,
  ⟨0x00400008, 0x0, 1, .w1c, 0x00000000, 0xFFFFFFFF⟩,
  ⟨0x0040000C, 0x0, 1, .ro, 0x00000000, 0x00000000⟩,
  ⟨0x00400010, 0x0, 1, .rw, 0x00000000, 0x001F1F1F⟩,
  ⟨0x00400014, 0x0, 1, .rw, 0x00000203, 0x00000F0F⟩,
  ⟨0x00400018, 0x0, 1, .ro, 0x00000000, 0x00000000⟩,
  ⟨0x0040001C, 0x0, 1, .ro, 0x00000000, 0x00000000⟩,
  ⟨0x00400020, 0x0, 1, .ro, 0x00000000, 0x00000000⟩,
  ⟨0x00400024, 0x0, 1, .ro, 0x00000000, 0x00000000⟩,
  ⟨0x00400028, 0x0, 1, .ro, 0x00000000, 0x00000000⟩,
  ⟨0x00400100, 0x20, 24, .ro, 0x00000000, 0x00000000⟩,
  ⟨0x00400104, 0x20, 24, .ro, 0x0000FFFF, 0x00000000⟩,
  ⟨0x00400108, 0x20, 24, .ro, 0x00000000, 0x00000000⟩,
  ⟨0x0040010C, 0x20, 24, .ro, 0x00000000, 0x00000000⟩,
  ⟨0x00400110, 0x20, 24, .ro, 0x00000000, 0x00000000⟩,
  ⟨0x00400114, 0x20, 24, .ro, 0x00000000, 0x00000000⟩,
  ⟨0x00400118, 0x20, 24, .ro, 0x00000000, 0x00000000⟩,
  ⟨0x00400400, 0x4, 16, .ro, 0x00000000, 0x00000000⟩]

/-! Offsets: collectives (R379). -/

/-- FAB_LATE_CTRL, one of 16. -/
def Reg.FAB_LATE_CTRL (n : Nat) : Nat := 0x00400800 + 0x40 * n
/-- FAB_LATE_EXCL, one of 16. -/
def Reg.FAB_LATE_EXCL (n : Nat) : Nat := 0x00400804 + 0x40 * n
/-- FAB_LATE_CARRY, one of 16. -/
def Reg.FAB_LATE_CARRY (n : Nat) : Nat := 0x00400808 + 0x40 * n
/-- FAB_LATE_DROP, one of 16. -/
def Reg.FAB_LATE_DROP (n : Nat) : Nat := 0x0040080C + 0x40 * n
/-- FAB_PERM_AT, one of 16. -/
def Reg.FAB_PERM_AT (n : Nat) : Nat := 0x00400810 + 0x40 * n
/-- FAB_PERM_TABLE, one of 16. -/
def Reg.FAB_PERM_TABLE (n : Nat) : Nat := 0x00400814 + 0x40 * n
/-- FAB_PERM_SCRATCH, one of 16. -/
def Reg.FAB_PERM_SCRATCH (n : Nat) : Nat := 0x00400818 + 0x40 * n
/-- FAB_PERM_CTRL, one of 16. -/
def Reg.FAB_PERM_CTRL (n : Nat) : Nat := 0x0040081C + 0x40 * n
/-- FAB_PERM_STATUS, one of 16. -/
def Reg.FAB_PERM_STATUS (n : Nat) : Nat := 0x00400820 + 0x40 * n
/-- FAB_PERM_EVENT, one of 16. -/
def Reg.FAB_PERM_EVENT (n : Nat) : Nat := 0x00400824 + 0x40 * n
/-- FAB_VOTE_LO, one of 16. -/
def Reg.FAB_VOTE_LO (n : Nat) : Nat := 0x00400828 + 0x40 * n
/-- FAB_VOTE_HI, one of 16. -/
def Reg.FAB_VOTE_HI (n : Nat) : Nat := 0x0040082C + 0x40 * n

/-- Rows: collectives (R379). -/
def regRows12 : List RegRow := [
  ⟨0x00400800, 0x40, 16, .rw, 0x00000001, 0x00000001⟩,
  ⟨0x00400804, 0x40, 16, .ro, 0x00000000, 0x00000000⟩,
  ⟨0x00400808, 0x40, 16, .ro, 0x00000000, 0x00000000⟩,
  ⟨0x0040080C, 0x40, 16, .ro, 0x00000000, 0x00000000⟩,
  ⟨0x00400810, 0x40, 16, .rw, 0xFFFFFFFF, 0xFFFFFFFF⟩,
  ⟨0x00400814, 0x40, 16, .rw, 0x00000000, 0xFFFFFFFF⟩,
  ⟨0x00400818, 0x40, 16, .rw, 0x00000000, 0xFFFFFFFF⟩,
  ⟨0x0040081C, 0x40, 16, .rw, 0x0FA00012, 0xFFFF001F⟩,
  ⟨0x00400820, 0x40, 16, .ro, 0x00000000, 0x00000000⟩,
  ⟨0x00400824, 0x40, 16, .w1c, 0x00000000, 0x0000007F⟩,
  ⟨0x00400828, 0x40, 16, .ro, 0x00000000, 0x00000000⟩,
  ⟨0x0040082C, 0x40, 16, .ro, 0x00000000, 0x00000000⟩]

/-! Offsets: hasps and twins (R96, R434). -/

/-- HSP_TWIN_EVENT. -/
def Reg.HSP_TWIN_EVENT : Nat := 0x00600000
/-- HSP_DEAD. -/
def Reg.HSP_DEAD : Nat := 0x00600004
/-- HSP_EVICT. -/
def Reg.HSP_EVICT : Nat := 0x00600008
/-- HSP_FO_VERSION. -/
def Reg.HSP_FO_VERSION : Nat := 0x0060000C
/-- HSP_FAILOVERS. -/
def Reg.HSP_FAILOVERS : Nat := 0x00600010
/-- HSP_MIRROR_LO. -/
def Reg.HSP_MIRROR_LO : Nat := 0x00600014
/-- HSP_MIRROR_HI. -/
def Reg.HSP_MIRROR_HI : Nat := 0x00600018
/-- HSP_SPARE. -/
def Reg.HSP_SPARE : Nat := 0x0060001C
/-- HSP_PHASE, one of 16. -/
def Reg.HSP_PHASE (n : Nat) : Nat := 0x00601000 + 0x40 * n
/-- HSP_GEN, one of 16. -/
def Reg.HSP_GEN (n : Nat) : Nat := 0x00601004 + 0x40 * n
/-- HSP_EPOCH, one of 16. -/
def Reg.HSP_EPOCH (n : Nat) : Nat := 0x00601008 + 0x40 * n
/-- HSP_CLEAR_EPOCH, one of 16. -/
def Reg.HSP_CLEAR_EPOCH (n : Nat) : Nat := 0x0060100C + 0x40 * n
/-- HSP_DURABLE_EPOCH, one of 16. -/
def Reg.HSP_DURABLE_EPOCH (n : Nat) : Nat := 0x00601010 + 0x40 * n
/-- HSP_DURABLE_EVERY, one of 16. -/
def Reg.HSP_DURABLE_EVERY (n : Nat) : Nat := 0x00601014 + 0x40 * n
/-- HSP_DURABLE_KEEP, one of 16. -/
def Reg.HSP_DURABLE_KEEP (n : Nat) : Nat := 0x00601018 + 0x40 * n
/-- HSP_EFFECTS, one of 16. -/
def Reg.HSP_EFFECTS (n : Nat) : Nat := 0x0060101C + 0x40 * n
/-- HSP_EVENT, one of 16. -/
def Reg.HSP_EVENT (n : Nat) : Nat := 0x00601020 + 0x40 * n
/-- HSP_ROLLBACKS, one of 16. -/
def Reg.HSP_ROLLBACKS (n : Nat) : Nat := 0x00601024 + 0x40 * n
/-- HSP_GUARD, one of 16. -/
def Reg.HSP_GUARD (n : Nat) : Nat := 0x00601028 + 0x40 * n
/-- HSP_GUARD_EPOCH, one of 16. -/
def Reg.HSP_GUARD_EPOCH (n : Nat) : Nat := 0x0060102C + 0x40 * n
/-- HSP_DIRTY, one of 16. -/
def Reg.HSP_DIRTY (n : Nat) : Nat := 0x00601030 + 0x40 * n
/-- HSP_TWIN, one of 16. -/
def Reg.HSP_TWIN (n : Nat) : Nat := 0x00601034 + 0x40 * n

/-- Rows: hasps and twins (R96, R434). -/
def regRows13 : List RegRow := [
  ⟨0x00600000, 0x0, 1, .w1c, 0x00000000, 0x0000003F⟩,
  ⟨0x00600004, 0x0, 1, .ro, 0x0000FFFF, 0x00000000⟩,
  ⟨0x00600008, 0x0, 1, .wo, 0x00000000, 0x00000000⟩,
  ⟨0x0060000C, 0x0, 1, .rw, 0x00000000, 0x0000FFFF⟩,
  ⟨0x00600010, 0x0, 1, .ro, 0x00000000, 0x00000000⟩,
  ⟨0x00600014, 0x0, 1, .ro, 0x00000000, 0x00000000⟩,
  ⟨0x00600018, 0x0, 1, .ro, 0x00000000, 0x00000000⟩,
  ⟨0x0060001C, 0x0, 1, .rw, 0x00000000, 0x00000001⟩,
  ⟨0x00601000, 0x40, 16, .ro, 0x00000000, 0x00000000⟩,
  ⟨0x00601004, 0x40, 16, .ro, 0x00000000, 0x00000000⟩,
  ⟨0x00601008, 0x40, 16, .ro, 0x00000000, 0x00000000⟩,
  ⟨0x0060100C, 0x40, 16, .ro, 0xFFFFFFFF, 0x00000000⟩,
  ⟨0x00601010, 0x40, 16, .ro, 0xFFFFFFFF, 0x00000000⟩,
  ⟨0x00601014, 0x40, 16, .rw, 0x00000000, 0x0000FFFF⟩,
  ⟨0x00601018, 0x40, 16, .rw, 0x00000002, 0x0000001F⟩,
  ⟨0x0060101C, 0x40, 16, .ro, 0x00000000, 0x00000000⟩,
  ⟨0x00601020, 0x40, 16, .w1c, 0x00000000, 0x000001FF⟩,
  ⟨0x00601024, 0x40, 16, .ro, 0x00000000, 0x00000000⟩,
  ⟨0x00601028, 0x40, 16, .ro, 0x00000000, 0x00000000⟩,
  ⟨0x0060102C, 0x40, 16, .ro, 0xFFFFFFFF, 0x00000000⟩,
  ⟨0x00601030, 0x40, 16, .ro, 0x00000000, 0x00000000⟩,
  ⟨0x00601034, 0x40, 16, .ro, 0x0004FFFF, 0x00000000⟩]

/-! Offsets: checker (R455). -/

/-- CHK_STATUS. -/
def Reg.CHK_STATUS : Nat := 0x00680000
/-- CHK_EVENT. -/
def Reg.CHK_EVENT : Nat := 0x00680004
/-- CHK_SUM_COUNT. -/
def Reg.CHK_SUM_COUNT : Nat := 0x00680008
/-- CHK_DIGEST_COUNT. -/
def Reg.CHK_DIGEST_COUNT : Nat := 0x0068000C
/-- CHK_SWEEP_COUNT. -/
def Reg.CHK_SWEEP_COUNT : Nat := 0x00680010
/-- CHK_LAST. -/
def Reg.CHK_LAST : Nat := 0x00680014
/-- CHK_HIST_LOST. -/
def Reg.CHK_HIST_LOST : Nat := 0x00680018
/-- CHK_FRAC, one of 16. -/
def Reg.CHK_FRAC (n : Nat) : Nat := 0x00680100 + 0x10 * n
/-- CHK_COVER, one of 16. -/
def Reg.CHK_COVER (n : Nat) : Nat := 0x00680104 + 0x10 * n
/-- CHK_TMAP_A, one of 16. -/
def Reg.CHK_TMAP_A (n : Nat) : Nat := 0x00680400 + 0x10 * n
/-- CHK_TMAP_B, one of 16. -/
def Reg.CHK_TMAP_B (n : Nat) : Nat := 0x00680404 + 0x10 * n
/-- CHK_TMAP_C, one of 16. -/
def Reg.CHK_TMAP_C (n : Nat) : Nat := 0x00680408 + 0x10 * n
/-- CHK_TMAP_D, one of 16. -/
def Reg.CHK_TMAP_D (n : Nat) : Nat := 0x0068040C + 0x10 * n

/-- Rows: checker (R455). -/
def regRows14 : List RegRow := [
  ⟨0x00680000, 0x0, 1, .ro, 0x00000000, 0x00000000⟩,
  ⟨0x00680004, 0x0, 1, .w1c, 0x00000000, 0x000003FF⟩,
  ⟨0x00680008, 0x0, 1, .ro, 0x00000000, 0x00000000⟩,
  ⟨0x0068000C, 0x0, 1, .ro, 0x00000000, 0x00000000⟩,
  ⟨0x00680010, 0x0, 1, .ro, 0x00000000, 0x00000000⟩,
  ⟨0x00680014, 0x0, 1, .ro, 0x00000000, 0x00000000⟩,
  ⟨0x00680018, 0x0, 1, .ro, 0x00000000, 0x00000000⟩,
  ⟨0x00680100, 0x10, 16, .rw, 0x00000000, 0x00000007⟩,
  ⟨0x00680104, 0x10, 16, .ro, 0x00000000, 0x00000000⟩,
  ⟨0x00680400, 0x10, 16, .ro, 0x0A418820, 0x00000000⟩,
  ⟨0x00680404, 0x10, 16, .ro, 0x16A4A0E6, 0x00000000⟩,
  ⟨0x00680408, 0x10, 16, .ro, 0x0007B9AC, 0x00000000⟩,
  ⟨0x0068040C, 0x10, 16, .ro, 0x1F400000, 0x00000000⟩]

/-! Offsets: media engines and archive (R507). -/

/-- MED_ENG_STATUS, one of 4. -/
def Reg.MED_ENG_STATUS (n : Nat) : Nat := 0x00700000 + 0x20 * n
/-- MED_ENG_RESERVE, one of 4. -/
def Reg.MED_ENG_RESERVE (n : Nat) : Nat := 0x00700004 + 0x20 * n
/-- MED_ENG_RECMAX, one of 4. -/
def Reg.MED_ENG_RECMAX (n : Nat) : Nat := 0x00700008 + 0x20 * n
/-- MED_ENG_PICS, one of 4. -/
def Reg.MED_ENG_PICS (n : Nat) : Nat := 0x0070000C + 0x20 * n
/-- MED_FE_EVENT. -/
def Reg.MED_FE_EVENT : Nat := 0x00700100
/-- MED_FW_VERSION. -/
def Reg.MED_FW_VERSION : Nat := 0x00700104
/-- MED_FW_GEN. -/
def Reg.MED_FW_GEN : Nat := 0x00700108
/-- MED_ARCH_CTRL. -/
def Reg.MED_ARCH_CTRL : Nat := 0x00700110
/-- MED_ARCH_BASE. -/
def Reg.MED_ARCH_BASE : Nat := 0x00700114
/-- MED_ARCH_BLOCKS. -/
def Reg.MED_ARCH_BLOCKS : Nat := 0x00700118
/-- MED_ARCH_SHARD. -/
def Reg.MED_ARCH_SHARD : Nat := 0x0070011C
/-- MED_ARCH_SKIPS. -/
def Reg.MED_ARCH_SKIPS : Nat := 0x00700120

/-- Rows: media engines and archive (R507). -/
def regRows15 : List RegRow := [
  ⟨0x00700000, 0x20, 4, .ro, 0x00000000, 0x00000000⟩,
  ⟨0x00700004, 0x20, 4, .rw, 0x00000000, 0x000007FF⟩,
  ⟨0x00700008, 0x20, 4, .rw, 0x0000FFFF, 0x0000FFFF⟩,
  ⟨0x0070000C, 0x20, 4, .ro, 0x00000000, 0x00000000⟩,
  ⟨0x00700100, 0x0, 1, .w1c, 0x00000000, 0x0000007F⟩,
  ⟨0x00700104, 0x0, 1, .ro, 0x00000000, 0x00000000⟩,
  ⟨0x00700108, 0x0, 1, .ro, 0x00000000, 0x00000000⟩,
  ⟨0x00700110, 0x0, 1, .rw, 0x00080020, 0x803F003F⟩,
  ⟨0x00700114, 0x0, 1, .rw, 0x00000000, 0xFFFFFFFF⟩,
  ⟨0x00700118, 0x0, 1, .rw, 0x00000000, 0xFFFFFFFF⟩,
  ⟨0x0070011C, 0x0, 1, .rw, 0x00000100, 0x00001FFF⟩,
  ⟨0x00700120, 0x0, 1, .ro, 0x00000000, 0x00000000⟩]

/-! Offsets: ingest and sensors (R473). -/

/-- MED_ING_STATUS, one of 16. -/
def Reg.MED_ING_STATUS (n : Nat) : Nat := 0x00704000 + 0x40 * n
/-- MED_ING_CTRL, one of 16. -/
def Reg.MED_ING_CTRL (n : Nat) : Nat := 0x00704004 + 0x40 * n
/-- MED_ING_TABLE, one of 16. -/
def Reg.MED_ING_TABLE (n : Nat) : Nat := 0x00704008 + 0x40 * n
/-- MED_BATCH_ROWS, one of 16. -/
def Reg.MED_BATCH_ROWS (n : Nat) : Nat := 0x0070400C + 0x40 * n
/-- MED_BATCH_TICK, one of 16. -/
def Reg.MED_BATCH_TICK (n : Nat) : Nat := 0x00704010 + 0x40 * n
/-- MED_BATCH_BASE, one of 16. -/
def Reg.MED_BATCH_BASE (n : Nat) : Nat := 0x00704014 + 0x40 * n
/-- MED_BATCH_BOLT, one of 16. -/
def Reg.MED_BATCH_BOLT (n : Nat) : Nat := 0x00704018 + 0x40 * n
/-- MED_VOTE_ADDR, one of 16. -/
def Reg.MED_VOTE_ADDR (n : Nat) : Nat := 0x0070401C + 0x40 * n
/-- MED_BIN_CAP, one of 16. -/
def Reg.MED_BIN_CAP (n : Nat) : Nat := 0x00704020 + 0x40 * n
/-- MED_AGE_MAX, one of 16. -/
def Reg.MED_AGE_MAX (n : Nat) : Nat := 0x00704024 + 0x40 * n
/-- MED_REJECTS, one of 16. -/
def Reg.MED_REJECTS (n : Nat) : Nat := 0x00704028 + 0x40 * n
/-- MED_REJ_LAST, one of 16. -/
def Reg.MED_REJ_LAST (n : Nat) : Nat := 0x0070402C + 0x40 * n
/-- MED_PAD_ROWS, one of 16. -/
def Reg.MED_PAD_ROWS (n : Nat) : Nat := 0x00704030 + 0x40 * n
/-- MED_ING_EVENT, one of 16. -/
def Reg.MED_ING_EVENT (n : Nat) : Nat := 0x00704034 + 0x40 * n
/-- MED_SENS_CTRL, one of 64. -/
def Reg.MED_SENS_CTRL (n : Nat) : Nat := 0x00704800 + 0x20 * n
/-- MED_SENS_GEOM, one of 64. -/
def Reg.MED_SENS_GEOM (n : Nat) : Nat := 0x00704804 + 0x20 * n
/-- MED_SENS_FILL, one of 64. -/
def Reg.MED_SENS_FILL (n : Nat) : Nat := 0x00704808 + 0x20 * n
/-- MED_SENS_SHORT, one of 64. -/
def Reg.MED_SENS_SHORT (n : Nat) : Nat := 0x0070480C + 0x20 * n
/-- MED_SENS_LONG, one of 64. -/
def Reg.MED_SENS_LONG (n : Nat) : Nat := 0x00704810 + 0x20 * n
/-- MED_SENS_DROPPED, one of 64. -/
def Reg.MED_SENS_DROPPED (n : Nat) : Nat := 0x00704814 + 0x20 * n
/-- MED_SENS_ORPHAN, one of 64. -/
def Reg.MED_SENS_ORPHAN (n : Nat) : Nat := 0x00704818 + 0x20 * n

/-- Rows: ingest and sensors (R473). -/
def regRows16 : List RegRow := [
  ⟨0x00704000, 0x40, 16, .ro, 0x00000000, 0x00000000⟩,
  ⟨0x00704004, 0x40, 16, .rw, 0x00000000, 0x000000F3⟩,
  ⟨0x00704008, 0x40, 16, .rw, 0x00000000, 0xFFFFFFFF⟩,
  ⟨0x0070400C, 0x40, 16, .rw, 0x00000001, 0x00001FFF⟩,
  ⟨0x00704010, 0x40, 16, .rw, 0x00000000, 0x000FFFFF⟩,
  ⟨0x00704014, 0x40, 16, .rw, 0x00000000, 0xFFFFFFFF⟩,
  ⟨0x00704018, 0x40, 16, .rw, 0x00000000, 0x00000FFF⟩,
  ⟨0x0070401C, 0x40, 16, .rw, 0x00000000, 0xFFFFFFFF⟩,
  ⟨0x00704020, 0x40, 16, .rw, 0x00001000, 0x0000FFFF⟩,
  ⟨0x00704024, 0x40, 16, .rw, 0x00000008, 0x000000FF⟩,
  ⟨0x00704028, 0x40, 16, .ro, 0x00000000, 0x00000000⟩,
  ⟨0x0070402C, 0x40, 16, .ro, 0x00000000, 0x00000000⟩,
  ⟨0x00704030, 0x40, 16, .ro, 0x00000000, 0x00000000⟩,
  ⟨0x00704034, 0x40, 16, .w1c, 0x00000000, 0x0000001F⟩,
  ⟨0x00704800, 0x20, 64, .rw, 0x00000000, 0x8701FFFF⟩,
  ⟨0x00704804, 0x20, 64, .rw, 0x00000000, 0xFFFFFFFF⟩,
  ⟨0x00704808, 0x20, 64, .rw, 0x00000000, 0x0000FFFF⟩,
  ⟨0x0070480C, 0x20, 64, .ro, 0x00000000, 0x00000000⟩,
  ⟨0x00704810, 0x20, 64, .ro, 0x00000000, 0x00000000⟩,
  ⟨0x00704814, 0x20, 64, .ro, 0x00000000, 0x00000000⟩,
  ⟨0x00704818, 0x20, 64, .ro, 0x00000000, 0x00000000⟩]

/-! Offsets: live streams (R507). -/

/-- MED_LIVE_CTRL, one of 64. -/
def Reg.MED_LIVE_CTRL (n : Nat) : Nat := 0x00705000 + 0x20 * n
/-- MED_LIVE_GEOM, one of 64. -/
def Reg.MED_LIVE_GEOM (n : Nat) : Nat := 0x00705004 + 0x20 * n
/-- MED_LIVE_FPS, one of 64. -/
def Reg.MED_LIVE_FPS (n : Nat) : Nat := 0x00705008 + 0x20 * n
/-- MED_LIVE_MAXBITS, one of 64. -/
def Reg.MED_LIVE_MAXBITS (n : Nat) : Nat := 0x0070500C + 0x20 * n
/-- MED_LIVE_LAT, one of 64. -/
def Reg.MED_LIVE_LAT (n : Nat) : Nat := 0x00705010 + 0x20 * n
/-- MED_LIVE_STATUS, one of 64. -/
def Reg.MED_LIVE_STATUS (n : Nat) : Nat := 0x00705014 + 0x20 * n
/-- MED_LIVE_DROPPED, one of 64. -/
def Reg.MED_LIVE_DROPPED (n : Nat) : Nat := 0x00705018 + 0x20 * n
/-- MED_LIVE_EVENT, one of 64. -/
def Reg.MED_LIVE_EVENT (n : Nat) : Nat := 0x0070501C + 0x20 * n

/-- Rows: live streams (R507). -/
def regRows17 : List RegRow := [
  ⟨0x00705000, 0x20, 64, .rw, 0x00000000, 0xB0FF00FF⟩,
  ⟨0x00705004, 0x20, 64, .rw, 0x00000000, 0xFFFFFFFF⟩,
  ⟨0x00705008, 0x20, 64, .rw, 0x00007530, 0xFFFFFFFF⟩,
  ⟨0x0070500C, 0x20, 64, .rw, 0x00000000, 0xFFFFFFFF⟩,
  ⟨0x00705010, 0x20, 64, .rw, 0x00004E20, 0x00FFFFFF⟩,
  ⟨0x00705014, 0x20, 64, .ro, 0x00000000, 0x00000000⟩,
  ⟨0x00705018, 0x20, 64, .ro, 0x00000000, 0x00000000⟩,
  ⟨0x0070501C, 0x20, 64, .w1c, 0x00000000, 0x0000003F⟩]

/-! Offsets: update engines (R250). -/

/-- UPD_LS_INIT, one of 16. -/
def Reg.UPD_LS_INIT (n : Nat) : Nat := 0x00801000 + 0x40 * n
/-- UPD_LS_FLOOR, one of 16. -/
def Reg.UPD_LS_FLOOR (n : Nat) : Nat := 0x00801004 + 0x40 * n
/-- UPD_LS_CEIL, one of 16. -/
def Reg.UPD_LS_CEIL (n : Nat) : Nat := 0x00801008 + 0x40 * n
/-- UPD_LS_WINDOW, one of 16. -/
def Reg.UPD_LS_WINDOW (n : Nat) : Nat := 0x0080100C + 0x40 * n
/-- UPD_LS_NOW, one of 16. -/
def Reg.UPD_LS_NOW (n : Nat) : Nat := 0x00801010 + 0x40 * n
/-- UPD_SUMSQ, one of 16. -/
def Reg.UPD_SUMSQ (n : Nat) : Nat := 0x00801014 + 0x40 * n
/-- UPD_SKIPS, one of 16. -/
def Reg.UPD_SKIPS (n : Nat) : Nat := 0x00801018 + 0x40 * n
/-- UPD_EVENT, one of 16. -/
def Reg.UPD_EVENT (n : Nat) : Nat := 0x0080101C + 0x40 * n

/-- Rows: update engines (R250). -/
def regRows18 : List RegRow := [
  ⟨0x00801000, 0x40, 16, .rw, 0x00000010, 0x000000FF⟩,
  ⟨0x00801004, 0x40, 16, .rw, 0x000000E8, 0x000000FF⟩,
  ⟨0x00801008, 0x40, 16, .rw, 0x00000028, 0x000000FF⟩,
  ⟨0x0080100C, 0x40, 16, .rw, 0x000007D0, 0x0000FFFF⟩,
  ⟨0x00801010, 0x40, 16, .ro, 0x00000000, 0x00000000⟩,
  ⟨0x00801014, 0x40, 16, .ro, 0x00000000, 0x00000000⟩,
  ⟨0x00801018, 0x40, 16, .ro, 0x00000000, 0x00000000⟩,
  ⟨0x0080101C, 0x40, 16, .w1c, 0x00000000, 0xFFFFFFFF⟩]

/-- Every register of the device. -/
def regMap : List RegRow :=
  regRows0 ++
  regRows1 ++
  regRows2 ++
  regRows3 ++
  regRows4 ++
  regRows5 ++
  regRows6 ++
  regRows7 ++
  regRows8 ++
  regRows9 ++
  regRows10 ++
  regRows11 ++
  regRows12 ++
  regRows13 ++
  regRows14 ++
  regRows15 ++
  regRows16 ++
  regRows17 ++
  regRows18

/-- Whether a row holds the register at `off`. -/
def RegRow.holds (r : RegRow) (off : Nat) : Bool :=
  if r.count = 1 then r.base == off
  else r.base ≤ off && (off - r.base) % r.stride == 0 && decide ((off - r.base) / r.stride < r.count)

/-- The row of the register at `off`, if there is one (R608). -/
def regRow (off : Nat) : Option RegRow := regMap.find? (fun r => r.holds off)

/-- The reset value of the register at `off`; 0 where there is no register. -/
def regReset (off : Nat) : W32 :=
  match regRow off with
  | some r => BitVec.ofNat 32 r.reset
  | none => 0#32

end Sys2Proof.Machine
end

