-- ==== Sys2Proof/Machine/Table.lean ====
section
/-! DEFINITION. Sparse tables with a default: the one shape of the registers, of every numbered group of units and of memory. A table lists only what differs from its default when it is written by `set`. -/

namespace Sys2Proof.Machine

/-- A table of values by number. -/
abbrev Tbl (α : Type) := List (Nat × α)

/-- The value at `n`: the listed one, else the default of `n`. -/
def tget {α : Type} (d : Nat → α) : Tbl α → Nat → α
  | [], n => d n
  | (k, v) :: t, n => if n = k then v else tget d t n

/-- Lists `v` at `n`, keeping the keys in rising order. -/
def tput {α : Type} : Tbl α → Nat → α → Tbl α
  | [], n, v => [(n, v)]
  | (k, w) :: t, n, v =>
    if n = k then (n, v) :: t else if n < k then (n, v) :: (k, w) :: t else (k, w) :: tput t n v

/-- Takes number `n` off the list. -/
def tdel {α : Type} (t : Tbl α) (n : Nat) : Tbl α := t.filter (fun p => p.1 != n)

/-- Changes every listed value. -/
def tmap {α : Type} (f : Nat → α → α) : Tbl α → Tbl α
  | [] => []
  | (k, v) :: t => (k, f k v) :: tmap f t

/-- Writes `v` at `n` and lists nothing that equals the default. -/
def tset {α : Type} [DecidableEq α] (d : Nat → α) (t : Tbl α) (n : Nat) (v : α) : Tbl α :=
  if v = d n then tdel t n else tput t n v

/-- Keys strictly rising. -/
def tsorted {α : Type} : Tbl α → Bool
  | [] => true
  | (k, _) :: t => t.all (fun p => k < p.1) && tsorted t

/-- The canonical form: keys strictly rising, no entry equal to its default. -/
def twf {α : Type} [DecidableEq α] (d : Nat → α) (t : Tbl α) : Bool :=
  tsorted t && t.all (fun p => decide (p.2 ≠ d p.1))

/-- A memory: (address, byte) pairs in the canonical form of `Memory.wf`. -/
abbrev Mem := List Host.Cell

/-- What an unlisted address reads as: zero (R549: every SRAM is written with zeros at bring-up; R383: a partition is zeroed
before a context may use it). For stacked DRAM and LPDDR outside a zeroed partition this is a DESIGN CHOICE (log entry 1). -/
def memDefault : Nat → Byte := fun _ => 0#8

/-- One byte of a memory. -/
def mget (m : Mem) (a : Nat) : Byte := tget memDefault m a

/-- A memory with one byte written. -/
def mset (m : Mem) (a : Nat) (v : Byte) : Mem := tset memDefault m a v

/-- `n` bytes from address `a`, lowest first. -/
def mread (m : Mem) (a : Nat) : Nat → Bytes
  | 0 => []
  | n + 1 => mget m a :: mread m (a + 1) n

/-- A memory with a byte string written from address `a`. -/
def mwrite (m : Mem) (a : Nat) : Bytes → Mem
  | [] => m
  | b :: t => mwrite (mset m a b) (a + 1) t

/-- A memory with `n` zero bytes from address `a`: those addresses are no longer listed. -/
def mzero (m : Mem) (a n : Nat) : Mem := m.filter (fun p => p.1 < a || a + n ≤ p.1)

/-- The canonical form of a memory. -/
def Memory.wf (m : Mem) : Bool := twf memDefault m

end Sys2Proof.Machine
end

