-- ==== Sys2Proof/Machine/State.lean ====
section
/-! DEFINITION. The state of one IK480 (everything the manual gives the device), its faults and refusals, and the state after reset. Registers live in one table by BAR0 offset whose defaults are the reset values of the register tables (RegMap.lean); protocol state that registers only show has its own fields here. -/

namespace Sys2Proof.Machine

/-- Why the machine stops with a fault. -/
inductive Fault where
  /-- Raised by no command: the manual gives every command of the block an effect, a refusal by name or no effect. The constructor
  only gives the type an element; that no command raises it is the statement EveryCommandCompletes. -/
  | stuck
  deriving DecidableEq, Repr

/-- Why a command has no meaning. -/
inductive Refusal where
  /-- Raised by the dispatcher for a command that the model gives no meaning yet. Stopping is safe. -/
  | notModelled (mnemonic : String)
  deriving DecidableEq, Repr

/-- Hasp phases (R74). -/
inductive Phase where
  | stopped | running | restoring | replaying | withheld | halted
  deriving DecidableEq, Repr

/-- Admission states of a context (R382). -/
inductive Adm where
  | free | zeroing | keyed
  deriving DecidableEq, Repr

/-- TCK_STATUS.STATE (R65). -/
inductive TickRun where
  | stopped | aligning | running | adrift
  deriving DecidableEq, Repr

/-- Hasp commands of the tick packet (R42). -/
inductive Cmd where
  | none | commit | rollback | failover | halt
  deriving DecidableEq, Repr

/-- A poison mark (R61, R72, R76): a region that holds untrustworthy data of a context, with its tag. Space 5 marks the context
itself (R134, R165). -/
structure Poison where
  ctx : Nat
  gen : BitVec 16
  epoch : Nat
  space : Nat
  unit : Nat
  addr : Nat
  len : Nat
  deriving DecidableEq, Repr

/-- A region a record has written, as (space, unit, address, length) in partition addresses. -/
structure Region where
  space : Nat
  unit : Nat
  addr : Nat
  len : Nat
  deriving DecidableEq, Repr

/-- A stretch of a store: the partition of the context (place 0; `unit` is the ward in space 1), or, in LPDDR, the guard's
latest-hasp slot (1), the guard's clear slot (2), the clear area (3) or the replay log (4). -/
structure Spot where
  place : Nat
  space : Nat
  unit : Nat
  addr : Nat
  deriving DecidableEq, Repr

/-- A completion record (R526). -/
structure Completion where
  id : W64
  opcode : Nat
  status : Nat
  deferred : Bool
  gen : BitVec 16
  epoch : Nat
  result : Nat
  deriving DecidableEq, Repr

/-- An EVENT packet of the event ring (R523, R524). -/
structure Event where
  type : Nat
  status : Nat
  ctx : Nat
  epoch : Nat
  tick : Nat
  gen : BitVec 16
  detailA : Nat
  detailB : Nat
  deriving DecidableEq, Repr

/-- An entry of a completion or event ring, or of the hold of R532. -/
inductive RingEntry where
  | completion (r : Completion)
  | event (e : Event)
  | data (id : W64) (off : Nat) (bytes : Bytes)
  deriving DecidableEq, Repr

/-- A Chiram packet that the device sends (R314). -/
structure Packet where
  opcode : Nat
  flags : Nat
  dst : Nat
  src : Nat
  ctx : Nat
  hops : Nat
  gen : BitVec 16
  epoch : Nat
  arg : Nat
  seq : Nat
  pcrc : Nat
  payload : Bytes
  deriving DecidableEq, Repr

/-- What the device hands to the outside, oldest first: packets on links, ring entries in host memory, interrupts, management
answers, levels of its output pins, writes to a host arena, the value that a register read returns, the test port's data and the lands that it
drives. -/
inductive Out where
  | packet (link : Nat) (p : Packet)
  | ring (fn : Nat) (e : RingEntry)
  | msix (fn vec : Nat)
  | mgmt (command status : Nat) (data : Bytes)
  | spdm (code : Nat) (data : Bytes)
  | spdmError (code : Nat)
  | mctp (code : Nat) (data : Bytes)
  | pldm (type code : Nat) (data : Bytes)
  | platformEvent (n : Nat) (data : Nat)
  | pin (name : Nat) (high : Bool)
  | host (fn addr : Nat) (data : Bytes)
  | regRead (fn off v : Nat)
  | tdo (v : Nat)
  | lands (l : List Bool)
  | avs (mv : Nat)
  deriving DecidableEq, Repr

/-- What a deferred effect does when it is released (R85): post an event, complete a host command, program flash blocks, write
a checkpoint record of the unit history, or add a record to the archive (R493). -/
inductive Deferred where
  | event (fn : Nat) (e : Event)
  | done (fn opcode : Nat) (id : W64) (quiet : Bool)
  | flash (block : Nat) (data : Bytes)
  | checkpoint (data : Bytes)
  | archive (frame : Bytes)
  deriving DecidableEq, Repr

/-- A deferred effect, queued with its tag; `released` says that its epoch is committed and that it waits for the supply or for room only
(R86, R87); `stamp` is its place in the order in which the device queued effects (R570). -/
structure Effect where
  gen : BitVec 16
  epoch : Nat
  what : Deferred
  released : Bool := false
  stamp : Nat := 0
  deriving DecidableEq, Repr

/-- A late-ledger entry (R367). KIND 1 EXCLUDED, 2 CARRIED, 3 DROPPED. -/
structure LateEntry where
  pair : Nat
  tick : Nat
  kind : Nat
  link : Nat
  id : Nat
  unit : Nat
  deriving DecidableEq, Repr

/-- Loss-scale bounds (R219). -/
structure LsBounds where
  floor : Nat
  ceil : Nat
  window : Nat
  deriving DecidableEq, Repr

/-- A replay-log entry of one committed epoch (R89); `permute` says that a permute step produced it (R377). -/
structure LogEntry where
  epoch : Nat
  vote : W64
  variant : Nat
  ledger : List LateEntry
  cursor : List Nat
  liveFrames : List Bytes
  bounds : Option LsBounds
  permute : Bool
  deriving DecidableEq, Repr

/-- Tags, phases and the step in progress of a context (R67 to R96). `unclean` lists the epochs with a reported mismatch (R443); `missing`
says that a restore found no good clear hasp (R285, R287); `gate` and `pgate` are the ticks since which a merged READY and a merged POISON
speak of the present epoch and generation; `derived` is the variant derived from the vote for the step that produces an epoch (R34);
`durables` are the durable hasps, oldest first, with the flash area of each, and `durableLeft` the blocks of the one in progress that
the cache has not taken; `clearPlan` and `candPlan` are the PLAN_IDs recorded with the clear hasp and the candidate (R88); `viaFailover` says
that WITHHELD was entered by a Rollback with failover (R428); `committedOnce` that the context has committed an epoch since it left STOPPED (R207); `startTick` and `prevStart` are tick 0 of the last step that began and of the one
before. -/
structure Hasp where
  gen : BitVec 16 := 0
  epoch : Nat := 0
  phase : Phase := .stopped
  held : Phase := .stopped
  eLast : Nat := 0
  target : Nat := 0
  lastCmd : Nat := 0
  viaFailover : Bool := false
  committedOnce : Bool := false
  loaded : Bool := false
  stepOpen : Bool := false
  stepTick : Nat := 0
  stepEpoch : Nat := 0
  startTick : Nat := 0
  prevStart : Nat := 0
  variant : Nat := 0
  votedVariant : Option Nat := none
  vote : W64 := 0
  withhold : Nat := 0
  unclean : List Nat := []
  diverged : Bool := false
  missing : Bool := false
  logFull : Bool := false
  holdWait : Bool := false
  derived : Tbl Nat := []
  gate : Nat := 0
  pgate : Nat := 0
  restoreDone : Bool := false
  copyPending : Bool := false
  run : Bool := false
  reported : Bool := false
  clear : Option Nat := none
  clearPlan : Nat := 0
  candidate : Option Nat := none
  candPlan : Nat := 0
  candidateClean : Bool := false
  durables : List (Nat × Nat) := []
  durableBusy : Option (Nat × Nat) := none
  durableLeft : List (Nat × Bytes) := []
  seed : W32 := 0
  frac : Nat := 0
  carryPolicy : Bool := false
  skipped : List Nat := []
  startAt : Option Nat := none
  startCmd : Option (Nat × HostCmd) := none
  loadCmd : Option (Nat × HostCmd) := none
  deriving DecidableEq, Repr

/-- One slot of the iteration table (R201). STATE as in the slot record; positions prefilled; pages of each layer, 0xFFFF_FFFF for an
absent one; tokens generated. -/
structure Slot where
  state : Nat := 0
  prio : Nat := 0
  len : Nat := 0
  seq : Nat := 0
  entered : Nat := 0
  pre : Nat := 0
  pages : List (List Nat) := []
  history : List Nat := []
  deriving DecidableEq, Repr

/-- A page of a slot: slot, layer, index in the list. -/
structure PageId where
  slot : Nat
  layer : Nat
  idx : Nat
  deriving DecidableEq, Repr

/-- The iteration table as a hasp holds it, with the next admission and sequence numbers (R210). -/
structure KvTable where
  slots : Tbl Slot := []
  nextAdmit : Nat := 0
  nextSeq : Nat := 0
  deriving DecidableEq, Repr

/-- The KV page pool of a context (R199 to R213): free stack, slots, the tables of the committed hasp, of the candidate and of the clear hasp, pages being
swapped out, pages being copied back, host-arena records, the control bits in force, the next admission and sequence numbers, the draw that names the
sequences to be generated, and finished sequences. -/
structure Kv where
  free : List Nat := []
  slots : Tbl Slot := []
  committed : KvTable := {}
  candidate : KvTable := {}
  cleared : KvTable := {}
  outgoing : List PageId := []
  incoming : List PageId := []
  arena : List (PageId × Nat × BitVec 16) := []
  swapEn : Bool := false
  forceDrop : Bool := false
  nextAdmit : Nat := 0
  nextSeq : Nat := 0
  source : Nat := 0
  done : List (Nat × List Nat) := []
  deriving DecidableEq, Repr

/-- A frame of the adapter cache (R289 to R293). -/
structure AdpFrame where
  variant : Option Nat := none
  dirty : Bool := false
  named : Nat := 0
  deriving DecidableEq, Repr

/-- The adapter cache of a context: frames, variants to write back, variants to fill with the tick that named them, variants that the newest batch names and
that the step in progress runs, and the slots of the candidate and of the clear hasp. -/
structure Adapters where
  frames : List AdpFrame := []
  writeBacks : List Nat := []
  fills : List (Nat × Nat) := []
  listed : List Nat := []
  running : List Nat := []
  cand : Tbl Bytes := []
  clear : Tbl Bytes := []
  deriving DecidableEq, Repr

/-- A record held by ingest: number in the order of arrival, cursor (PASS, shard, offset), variant, short and
long marks, its CBOR or compressed bytes, length, bucket, rows of batch data of each slot, how many batches it has waited, its host command, pictures
that decode engines have still to decode with the longest of their times (R484), the engine whose decode of it faulted, all its pictures, and, of a live picture,
stream, width and height. -/
structure IngRecord where
  uid : Nat := 0
  pass : Nat := 0
  shard : Nat := 0
  offset : Nat := 0
  variant : Option Nat := none
  short : Bool := false
  long : Bool := false
  frame : Bytes := []
  lens : List (Nat × Nat) := []
  buckets : List (Nat × Nat) := []
  rows : List (Nat × List Bytes) := []
  age : Nat := 0
  cmd : Option (Nat × HostCmd) := none
  decoded : Bool := false
  pics : Nat := 0
  picTime : Nat := 0
  faulted : Option Nat := none
  picsAll : Nat := 0
  live : Option (Nat × Nat × Nat) := none
  deriving DecidableEq, Repr

/-- A row of a batch: a record and which of its chunks, none for a pad row. -/
structure BatchRow where
  item : IngRecord
  chunk : Nat
  deriving DecidableEq, Repr

/-- A manifest with the rows it names (R468, R469). -/
structure Manifest where
  epoch : Nat
  rows : List (Option BatchRow)
  vote : W64
  readTo : List Nat
  deadline : Bool
  deriving DecidableEq, Repr

/-- Ingest of a context (R462 to R471): where it reads next, records read and not yet placed, records in bins, manifests retained, the last
RECORD accepted, the last teacher sequence taken and how many have been taken (R213). -/
structure Ingest where
  pass : Nat := 0
  shard : Nat := 0
  offset : Nat := 0
  reading : List IngRecord := []
  bins : List (Nat × IngRecord) := []
  batches : List Manifest := []
  pausedReading : Bool := false
  lastRecord : W64 := 0
  lastSeq : Option Nat := none
  taken : Nat := 0
  deriving DecidableEq, Repr

/-- A sensor stream's open frame (R470), with the host command that its completion answers. -/
structure Sensor where
  openFrame : Bool := false
  data : Bytes := []
  cmd : Option (Nat × HostCmd) := none
  deriving DecidableEq, Repr

/-- One granule sent by a mirror reservation and not yet acknowledged (R415). -/
structure Mirrored where
  pair : Nat
  gen : BitVec 16
  granules : List Nat
  sentTick : Nat
  deriving DecidableEq, Repr

/-- A guard directory entry (R410); the parts received of each granule
under one tag (R414); granules completed by the mirror reservation in progress, by pair identifier (R415); whether a guard is mirrored again after
a reset, and what has arrived since; `check` is what awaits the next tick packet for the context after a retained reset: 1 a retained
entry to compare, 2 one to build again (R431). -/
structure Guard where
  state : Nat := 0
  seat : Nat := 0
  epoch : Nat := 0xFFFFFFFF
  clearEpoch : Nat := 0xFFFFFFFF
  seed : W32 := 0
  planId : W64 := 0
  granules : Nat := 0
  clearGranules : Nat := 0
  latest : Nat := 0
  clear : Nat := 0
  parts : Tbl (BitVec 16 × Nat × List Nat) := []
  got : List (Nat × Nat) := []
  rebuild : Bool := false
  rebuilt : List Nat := []
  check : Nat := 0
  deriving DecidableEq, Repr

/-- The twin protocol of a context (R407 to R431). -/
structure Twin where
  guard : Guard := {}
  dirty : List Nat := []
  inflight : List Mirrored := []
  path : Nat := 4
  unguarded : Bool := false
  clearPending : Bool := false
  deriving DecidableEq, Repr

/-- A series of WRITEs that this device sends (R373, R427): KIND 0 a permute piece, 1 a failover piece, 2 a clear piece, 3 a round of a
CYCLE piece; how much has
been acknowledged, the request in flight, and whether it has failed. -/
structure Stream where
  kind : Nat
  ctx : Nat
  dst : Nat
  source : Spot
  target : Spot
  len : Nat
  acked : Nat
  seq : Option Nat
  failed : Bool
  deriving DecidableEq, Repr

/-- A series of WRITEs that this device receives, with the extents that have arrived, as (address, length). -/
structure Expect where
  kind : Nat
  ctx : Nat
  target : Spot
  len : Nat
  got : List (Nat × Nat)
  deriving DecidableEq, Repr

/-- A CYCLE piece that this device sends and receives (R373): the piece, its length, the device of its successor; the next round to
begin, the rounds acknowledged and the rounds installed. -/
structure CycleJob where
  piece : Spot
  len : Nat
  dst : Nat
  next : Nat
  acked : List Nat
  installed : List Nat
  deriving DecidableEq, Repr

/-- A piece that this device moves in a permute step (R373): copied on the device, sent, or part of a cycle; `begun` says that it is under way. -/
inductive PermMove where
  | copy (source target : Spot) (len : Nat)
  | stream (x : Stream) (begun : Bool)
  | cycle (j : CycleJob) (begun : Bool)
  deriving DecidableEq, Repr

/-- The permute step of a context (R370 to R377). STATE as FAB_PERM_STATUS; the tick of its tick 0; whether its copies have begun; the
pieces that have still to move, in the order of the table, the one in progress first. -/
structure Perm where
  state : Nat := 0
  startTick : Nat := 0
  begun : Bool := false
  moves : List PermMove := []
  malformed : Bool := false
  torn : Bool := false
  cycleInstalled : Bool := false
  deriving DecidableEq, Repr

/-- Accounting of a context (R401 to R403): live counters, commit snapshot, latched snapshot. -/
structure Account where
  live : Tbl W64 := []
  snap : Tbl W64 := []
  snapEpoch : W32 := 0xFFFFFFFF#32
  snapGen : BitVec 16 := 0
  latched : Tbl W64 := []
  latchedEpoch : W32 := 0xFFFFFFFF#32
  latchedGen : BitVec 16 := 0
  tickBase : Tbl W64 := []
  deriving DecidableEq, Repr

/-- One update engine's step accumulator (R222). -/
structure Accum where
  sumsq : W32 := 0
  nonfinite : Bool := false
  deriving DecidableEq, Repr

/-- Everything one context holds. `bounds` are the writes of loss-scale bounds that await their step, oldest first, with 0 written, 1 a commit has followed,
2 a step has begun after it; `adopted` the bounds that SCALE records of steps not yet committed took, by epoch, and how many writes that settles (R219). `steps` holds what the replay log will record of the steps not yet committed; `waits` the WAIT_EPOCH
commands. -/
structure Ctx where
  adm : Adm := .free
  reason : Nat := 0
  code : Nat := 0
  hasp : Hasp := {}
  image : Bytes := []
  imageBase : Nat := 0
  home : Tbl Nat := []
  effects : List Effect := []
  log : List LogEntry := []
  late : List LateEntry := []
  lateCommitted : List LateEntry := []
  lateReplay : Option (List LateEntry) := none
  bounds : List (LsBounds × Nat) := []
  adopted : Tbl (LsBounds × Nat) := []
  accum : Tbl Accum := []
  waits : List (Nat × HostCmd) := []
  steps : List LogEntry := []
  kv : Kv := {}
  adp : Adapters := {}
  ing : Ingest := {}
  twin : Twin := {}
  perm : Perm := {}
  acc : Account := {}
  deriving DecidableEq, Repr

/-- A record that has begun on a unit and not retired (R23): its bytes, the regions it has written, its outcome marks. -/
structure OpenRec where
  bytes : Bytes
  ctx : Nat
  gen : BitVec 16
  epoch : Nat
  wrote : List Region
  outputs : List Region
  isWait : Bool
  deriving DecidableEq, Repr

/-- A unit: a logical tile, a mover or an engine; how many records it has retired this tick, how many bytes of its program its op sequencer
has read in the tick (R26), and the records that have begun. -/
structure UnitSt where
  retired : Nat := 0
  read : Nat := 0
  queue : List OpenRec := []
  digests : Tbl W64 := []
  sweepFails : Nat := 0
  deriving DecidableEq, Repr

/-- An arriving reservation of the running frame (R160, R326): pair, context, staging address, length, packet indices received. -/
structure RxRes where
  ctx : Nat
  idx : Nat
  pair : Nat
  stage : Nat
  bytes : Nat
  got : List Nat
  deriving DecidableEq, Repr

/-- A transmit reservation whose send record has retired (R332): context, reservation index, staging address, length. -/
structure Bound where
  ctx : Nat
  idx : Nat
  stage : Nat
  bytes : Nat
  deriving DecidableEq, Repr

/-- A link (R309 to R313, R333 to R338): STATE, REASON, neighbour record, arriving reservations, reservations already sent, credits held for
the other end, and, under `granted`, the credits that this end granted in the tick and that have not been used, by pool: 0 management, 1
detour, 2 + c context c. -/
structure Link where
  state : Nat := 0
  reason : Nat := 0
  record : Option Bytes := none
  rx : List RxRes := []
  bound : List Bound := []
  sent : List (Nat × Nat) := []
  credMgmt : Nat := 0
  credDetour : Nat := 0
  credCtx : Tbl Nat := []
  granted : Tbl Nat := []
  deriving DecidableEq, Repr

/-- A table bank (R322): route entries by address, placements by context × 32,768 + seat, the version, and whether it is sealed. -/
structure Bank where
  route : Tbl W32 := []
  place : Tbl Nat := []
  version : Nat := 0
  sealed : Bool := false
  deriving DecidableEq, Repr

/-- A best-effort request awaiting its answer (R336); `cmd` names the host command that it serves. -/
structure Request where
  seq : Nat
  packet : Packet
  sentTick : Nat
  tries : Nat
  cmd : Option (Nat × HostCmd)
  deriving DecidableEq, Repr

/-- A packet waiting in a switch buffer (R333, R335): the link it leaves on, the port it came in by, the boundaries it has waited
across. -/
structure Waiting where
  link : Nat
  port : Nat
  packet : Packet
  boundaries : Nat
  deriving DecidableEq, Repr

/-- The fabric switch (R314 to R345); `later` holds the clear streams that wait for their context to resume (R427);
`failures` counts the refused requests that asked for no answer (R316). -/
structure Fabric where
  inForce : Bank := {}
  standby : Bank := {}
  nonce : Option Nat := none
  requests : List Request := []
  buffer : List Waiting := []
  streams : List Stream := []
  expects : List Expect := []
  later : List Stream := []
  nextSeq : Nat := 0
  failures : Nat := 0
  missing : Bool := false
  deriving DecidableEq, Repr

/-- A pending hasp command of the tick master (R79). -/
structure Due where
  ctx : Nat
  cmd : Cmd
  arg : Nat
  deadline : Nat
  deriving DecidableEq, Repr

/-- The tick protocol (R16 to R66) and the state of a tick master or deputy (R52 to R56, R420 to R426). `timebase` is the fabric timebase and
`offsetNs` the last measured offset, in 1/65,536 ns; `slew` is what the rate has still to remove (R59); `primarySilent` says that no copy of the ending tick's
packet came from the primary parent (R57); `leader` is the master that a packet of a later term named;
`passed` lists ticks begun whose packet has been forwarded (R49); `stopNext` says that the adrift limit is reached (R64); `seen` lists the
reported ticks whose merged reply carried a flag (R78). -/
structure Tick where
  run : TickRun := .stopped
  now : Nat := 0
  timebase : Int := 0
  offsetNs : Int := 0
  offsetOk : Bool := false
  straggler : Bool := false
  stepPending : Option Int := none
  slew : Int := 0
  primarySilent : Bool := false
  master : Bool := false
  deputy : Bool := false
  term : Nat := 0
  seenTerm : Nat := 0
  firstTick : Nat := 0
  startVersion : Nat := 0
  adriftRun : Nat := 0
  stopNext : Bool := false
  passed : List Nat := []
  poised : Bool := false
  packets : Tbl Bytes := []
  primaryCopy : Bool := false
  selector : W64 := 0
  powerCap : Nat := 0xFFFF
  ready : Nat := 0
  poison : Nat := 0
  count : Nat := 0
  flags : Nat := 0
  heard : List Nat := []
  replied : Bool := true
  flagsNext : Nat := 0
  replyTick : Nat := 0
  mergedReady : Nat := 0
  mergedPoison : Nat := 0
  mergedFlags : Nat := 0
  mergedCount : Nat := 0
  mergedTick : Option Nat := none
  seen : List (Nat × Nat) := []
  tree : Option W32 := none
  due : List Due := []
  votes : Tbl W64 := []
  notices : List Bytes := []
  resumes : List Nat := []
  select : W64 := 0
  placement : Nat := 0
  foGate : Nat := 0
  foVersion : Option Nat := none
  rotation : Nat := 0
  silence : List (Nat × Nat) := []
  presence : List (Nat × Nat) := []
  missCount : Tbl Nat := []
  watch : Option (Nat × Nat) := none
  leader : Option Nat := none
  dead : List Nat := []
  evict : List Nat := []
  deriving DecidableEq, Repr

/-- A queued wait of a bolt (R397): requester, amount, guarded region, record ID, context. -/
structure Wait where
  requester : Nat
  amount : Nat
  guard : Option Region
  id : Nat
  ctx : Nat
  deriving DecidableEq, Repr

/-- An acquisition of a shared bolt (R398). -/
structure Acquisition where
  amount : Nat
  wait : Wait
  deriving DecidableEq, Repr

/-- A bolt (R394): its count, its queue of waits, its acquisitions, oldest first. -/
structure Bolt where
  count : W32 := 0
  waits : List Wait := []
  held : List Acquisition := []
  deriving DecidableEq, Repr

/-- Stacked DRAM besides its contents (R251 to R276): correctable errors per row, rows pending remap, rows fenced, spares used per
bank, remapped rows, rows in error per symbol lane, remaps scheduled, rows whose copies are complete and vaults that have copied a row in this tick;
the bands in force and set for the next tick; the layers' readings; `valid` says that the contents have held since the last bring-up (R275), `tooBad` that a
pending row was read uncorrectably again (R267). -/
structure Stack where
  ce : Tbl Nat := []
  pending : List Nat := []
  fenced : List Nat := []
  spares : Tbl Nat := []
  remapped : Tbl Nat := []
  lanes : Tbl (List Nat) := []
  laneFaults : List Nat := []
  scheduled : List Nat := []
  switching : List Nat := []
  copied : List Nat := []
  band : Nat := 0
  bandNext : Nat := 0
  refreshFloor : Bool := false
  readings : List Nat := []
  selfRefresh : Bool := false
  valid : Bool := false
  tooBad : Bool := false
  deriving DecidableEq, Repr

/-- The flash store (R295 to R303): STATE of MEM_FL_STATUS, whether it takes writes, OVERPROV of the last format; accepted block versions not yet
durable, oldest first, and whether the program of the oldest has begun; durable blocks and the die of each; reads since a block's last program; programs so
far; dies being rebuilt, every die that has failed, blocks lost; FLASH_FLUSH commands with the blocks they wait for; requests held until the mount, with what
a read among them will meet; `stamp` counts the deferred effects that the device has queued (R570). -/
structure Flash where
  mount : Nat := 0
  readOnly : Bool := false
  overprov : Nat := 125
  cache : List (Nat × Bytes) := []
  busy : Bool := false
  durable : Tbl Bytes := []
  dies : Tbl Nat := []
  reads : Tbl Nat := []
  programs : Nat := 0
  rebuilding : List Nat := []
  dead : List Nat := []
  lost : List Nat := []
  flushWaits : List (Nat × HostCmd × List Nat) := []
  held : List (Nat × Nat × HostCmd × Bool) := []
  stamp : Nat := 0
  deriving DecidableEq, Repr

/-- LPDDR besides its contents: whether the contents have held since the last bring-up, whether the last device reset asked for retention (R288, R431), and
the device-owned copies that failed their check at bring-up (R288). -/
structure Lpddr where
  selfRefresh : Bool := false
  valid : Bool := false
  afterRetain : Bool := false
  emptied : List LpCopy := []
  deriving DecidableEq, Repr

/-- An open packet chain of a ring set (R516). -/
structure Chain where
  key1 : Nat
  key2 : W64
  first : HostCmd
  deriving DecidableEq, Repr

/-- STATE of a ring set (R534). -/
inductive RingRun where
  | disabled | starting | running | error
  deriving DecidableEq, Repr

/-- A ring set (R509 to R532). `ready` lists the commands fetched in full that have not begun, by opcode, with FENCE in bit 16 and, for a
SENSOR packet, FIRST in bit 17 and LAST in bit 18. `cmdHead` counts the granules fetched; `kept` holds the first granule and the CMD_ID of each RECORD packet
whose ring entries are not released yet (R462), and `headOut` is the CMD_HEAD last written to the host (R528). -/
structure Ring where
  run : RingRun := .disabled
  reason : Nat := 0
  stalled : Bool := false
  cmdHead : Nat := 0
  kept : List (Nat × W64) := []
  headOut : Nat := 0
  cmdTail : Nat := 0
  cplTail : Nat := 0
  cplHead : Nat := 0
  evtTail : Nat := 0
  evtHead : Nat := 0
  reserved : Nat := 0
  chains : List Chain := []
  ready : List (Nat × HostCmd) := []
  held : List RingEntry := []
  dropped : Nat := 0
  waitingOut : List RingEntry := []
  lostNow : Nat := 0
  unsignalled0 : Nat := 0
  unsignalled1 : Nat := 0
  deriving DecidableEq, Repr

/-- A history record (R449), by its fields. -/
structure HistRec where
  type : Nat
  kind : Nat
  seq : Nat
  time : Nat
  unit : Nat
  event : Nat
  cls : Nat
  timeValid : Bool
  reproduced : Bool
  ctx : Nat
  gen : BitVec 16
  epoch : Nat
  id : Nat
  tick : Nat
  detail : Bytes
  boot : Nat
  deriving DecidableEq, Repr

/-- A ward's tile map (R455): the physical tile of each logical index, the spare, the fenced mask, the pending fence. -/
structure TileMap where
  map : List Nat := []
  spare : Option Nat := none
  fenced : List Nat := []
  pending : Option Nat := none
  deriving DecidableEq, Repr

/-- The checker and the unit history (R435 to R455, R604 to R607). -/
structure Checker where
  maps : Tbl TileMap := []
  mgmtMaps : Tbl TileMap := []
  history : List HistRec := []
  queue : List HistRec := []
  nextSeq : Nat := 0
  classes : Tbl Nat := []
  corrections : Tbl Nat := []
  actions : Tbl Nat := []
  disagreements : Tbl Nat := []
  lastMismatch : List (Nat × Nat × Nat × Nat × Nat × Nat) := []
  suspects : List (Nat × Nat) := []
  degraded : List Nat := []
  cleared : Tbl Nat := []
  deriving DecidableEq, Repr

/-- A live picture waiting for an engine (R486, R488); `rap` says that it is a random-access point, `rasl` that it is an HEVC RASL picture. -/
structure LivePic where
  stream : Nat
  width : Nat
  height : Nat
  rap : Bool
  rasl : Bool
  cmd : Nat × HostCmd
  arrival : Nat
  deriving DecidableEq, Repr

/-- A frame buffer's marks (R481): short-term, long-term, output-pending. -/
structure FrameBuf where
  short : Bool := false
  long : Bool := false
  output : Bool := false
  deriving DecidableEq, Repr

/-- A decode engine (R484 to R489): in service 0, draining 1, out of service 2; admitted load and streams; the live picture, or the record
(context and number) whose picture it decodes, and the frame buffer taken for it. -/
structure Engine where
  service : Nat := 0
  load : Nat := 0
  streams : List Nat := []
  current : Option LivePic := none
  job : Option (Nat × Nat) := none
  buffer : Nat := 0
  deriving DecidableEq, Repr

/-- A live stream (R484 to R489): 0 off, 1 admitted, 2 refused, 3 suspended; whether it skips to the next random-access point, and whether the RASL pictures of the
last one are dropped (R488); pictures consumed by batches; archive groups so far, and the
access units of the group in progress (R491). -/
structure LiveStream where
  status : Nat := 0
  engine : Nat := 0
  load : Nat := 0
  waiting : List LivePic := []
  skipping : Bool := false
  dropRasl : Bool := false
  consumed : Nat := 0
  group : Nat := 0
  units : List Bytes := []
  deriving DecidableEq, Repr

/-- The media front end (R474 to R507): engines, live streams, sensor streams, tokeniser tables; frame-buffer pools, of live stream st at st
and of record n at 64 + n; pictures waiting for the archive encoder as (context, stream, encoding time in ns); the archive shard in progress, its records and
where it begins in the extent; arrivals so far; and whether a firmware switch is under way. -/
structure Media where
  engines : Tbl Engine := []
  streams : Tbl LiveStream := []
  sensors : Tbl Sensor := []
  tokens : Tbl Bytes := []
  pools : Tbl (List FrameBuf) := []
  archQueue : List (Nat × Nat × Nat) := []
  archShard : Bytes := []
  archCount : Nat := 0
  archPos : Nat := 0
  archShards : Nat := 0
  arrivals : Nat := 0
  switching : Bool := false
  deriving DecidableEq, Repr

/-- Option-block settings in use (R547, R587, R591). -/
structure Options where
  refPref : Nat := 0
  tray : W64 := 0
  histBase : Nat := 0
  histSize : Nat := 0
  smbAddr : Nat := 0
  smbSpeed : Nat := 0
  watchdogMs : Nat := 0
  deriving DecidableEq, Repr

/-- Reset sequencing (R535 to R552). -/
structure Reset where
  active : Bool := false
  cold : Bool := false
  external : Bool := false
  driven : Bool := false
  tripHold : Bool := false
  assertions : List Nat := []
  storm : Bool := false
  phase : Nat := 0
  failed : Bool := false
  optFail : Bool := false
  optCopy : Nat := 0
  lastScope : Nat := 0
  holdLinks : Bool := false
  wardPending : List Nat := []
  wardBusy : List Nat := []
  returning : List Nat := []
  hostReset : Bool := false
  slotId : Nat := 0
  deriving DecidableEq, Repr

/-- Reference clocks (R553 to R558): 0 REFCLK_A, 1 REFCLK_B, 2 internal oscillator. -/
structure Clocks where
  source : Nat := 0
  aOk : Bool := false
  bOk : Bool := false
  pcieOk : Bool := false
  holdover : Bool := false
  holdStop : Bool := false
  deriving DecidableEq, Repr

/-- Power, supply and thermal loops (R564 to R588). `stage` is 0 Normal, 1 Inhibit, 2 Throttle, 3 Hold; `hold` is Hold's stop of records
(R571); `capClock` counts the 25 MHz steps of R574, `dieThrottle` the steps of R583 and `dieLow` that Tj has come below 102 °C; `plans` holds
each ward's plan clock; `fill` is the fill that the governor asks for, which runs only in Run; `measured` the last measured power; `holdReady` that a hold began in the tick in progress, whose unfinished records R61 takes; `capLow` and `floorHigh` that a cap below 400 W, and a floor above the cap, have
been reported; `governor` is in mW; `dieHot` counts the samples at or above 105 °C toward the next 100 µs; `beHeld` is the second measure of R574, which holds
best-effort memory work; `rise` is the rise of power that the slew limit has allowed since the clocks were last raised, in mW (R575); `vdd` is the set
point of VDD_CORE in mV (R624). -/
structure Power where
  rung : Nat := 1
  stage : Nat := 0
  samples : List Nat := []
  shed : Bool := false
  governor : Int := 0
  fill : Nat := 0
  capped : Bool := false
  dieThrottle : Nat := 0
  stackThrottle : Bool := false
  capClock : Nat := 0
  plans : Tbl Nat := []
  measured : Nat := 0
  dieLow : Bool := false
  dieHot : Nat := 0
  capLow : Bool := false
  floorHigh : Bool := false
  holdReady : Bool := false
  forecast : List (Nat × Bool) := []
  forecastTick : Nat := 0
  forecastMean : Nat := 0
  latchedFc : List (Nat × Bool) := []
  latchedTick : W64 := 0
  latchedMean : Nat := 0
  energy : W64 := 0
  uncharged : W64 := 0
  railEn : Bool := false
  tj : Nat := 0
  tjSensor : Nat := 0
  hold : Bool := false
  beHeld : Bool := false
  rise : Nat := 0
  vdd : Nat := 750
  deriving DecidableEq, Repr

/-- The management controller (R589 to R607): endpoint IDs on its two bindings; open sessions, by the requester's half of the session number, and
whether each is established; firmware images received and verified, and those in use, by component; the component of the update under way, and whether its
image has been verified. -/
structure Mgmt where
  eid0 : Nat := 0
  eid1 : Nat := 0
  sessions : List (Nat × Bool) := []
  negotiated : Bool := false
  keyUpdates : Nat := 0
  dropped : Nat := 0
  time : Nat := 0
  timeValid : Bool := false
  fabricKey : Option Bytes := none
  receiver : Option Nat := none
  update : Option Nat := none
  ready : Bool := false
  verified : List (Nat × Bytes) := []
  inUse : List (Nat × Bytes) := []
  restarting : Bool := false
  debug : Bool := false
  boot : Nat := 0
  deriving DecidableEq, Repr

/-- Contents of every memory tier: tile stores by ward × 17 + physical tile, ward stores by ward, staging, stacked DRAM, board
LPDDR, and the board SPI NOR that holds the option block. -/
structure Stores where
  tiles : Tbl Mem := []
  wards : Tbl Mem := []
  staging : Mem := []
  dram : Mem := []
  lpddr : Mem := []
  spi : Mem := []
  deriving DecidableEq, Repr

/-- The state of the device. `pending` is the queue of commands that wait, first in, first out; `fresh` counts the free values
drawn so far (the model's own field, log entry 2). -/
structure State where
  regs : Tbl W32
  latches : Tbl W32
  tick : Tick
  ctxs : Tbl Ctx
  units : Tbl UnitSt
  links : Tbl Link
  fabric : Fabric
  stores : Stores
  poison : List Poison
  bolts : Tbl Bolt
  stack : Stack
  lp : Lpddr
  flash : Flash
  rings : Tbl Ring
  chk : Checker
  media : Media
  opt : Options
  rst : Reset
  clk : Clocks
  pwr : Power
  mgmt : Mgmt
  out : List Out
  fresh : Nat
  pending : List Instr
  deriving DecidableEq, Repr

/-- The device right after reset (R12, R563): every register and every field at its reset value, memories listing nothing, no
command waiting. -/
def State.reset : State where
  regs := []
  latches := []
  tick := {}
  ctxs := []
  units := []
  links := []
  fabric := {}
  stores := {}
  poison := []
  bolts := []
  stack := {}
  lp := {}
  flash := {}
  rings := []
  chk := {}
  media := {}
  opt := {}
  rst := {}
  clk := {}
  pwr := {}
  mgmt := {}
  out := []
  fresh := 0
  pending := []

end Sys2Proof.Machine
end

