-- ==== Sys2Proof/Machine/Ops.lean ====
section
/-! DEFINITION. Named operations over the state that every meaning shares: registers and their sticky events and counters, the numbered groups (contexts, units, links, ring sets, bolts), outputs, free values, tags, poison marks, and the ring sets' entries (R523 to R532). -/

namespace Sys2Proof.Machine

/-- A register as it is stored. -/
def State.reg (s : State) (off : Nat) : W32 := tget regReset s.regs off
/-- A stored register as a number. -/
def State.regN (s : State) (off : Nat) : Nat := (s.reg off).toNat
/-- A state with one stored register written. -/
def State.setReg (s : State) (off : Nat) (v : W32) : State := { s with regs := tput s.regs off v }
/-- A state with one stored register written with a number. -/
def State.setRegN (s : State) (off : Nat) (v : Nat) : State := s.setReg off (BitVec.ofNat 32 v)
/-- Sets bit `i` of a sticky event register (R10, W1C). -/
def State.event (s : State) (off i : Nat) : State := s.setReg off (s.reg off ||| (1#32 <<< i))
/-- Sets bit `i` of an event register when `b` holds. -/
def State.eventIf (s : State) (b : Bool) (off i : Nat) : State := if b then s.event off i else s
/-- Raises a saturating counter register by 1. -/
def State.count (s : State) (off : Nat) : State := s.setReg off (satInc (s.reg off))
/-- Raises a saturating counter register by `n`. -/
def State.countBy (s : State) (off n : Nat) : State := s.setReg off (satAdd (s.reg off) n)

/-- A context that nothing has written. -/
def ctxReset : Nat → Ctx := fun _ =>
  { adm := .free, reason := 0, code := 0, hasp := {}, image := [], imageBase := 0, home := [], effects := [], log := [],
    late := [], lateCommitted := [], lateReplay := none, bounds := [], adopted := [], accum := [], waits := [], steps := [], kv := {}, adp := {},
    ing := {}, twin := {}, perm := {}, acc := {} }
/-- Context `c`. -/
def State.ctx (s : State) (c : Nat) : Ctx := tget ctxReset s.ctxs c
/-- A state with context `c` replaced. -/
def State.setCtx (s : State) (c : Nat) (x : Ctx) : State := { s with ctxs := tput s.ctxs c x }
/-- A state with context `c` changed by `f`. -/
def State.modCtx (s : State) (c : Nat) (f : Ctx → Ctx) : State := s.setCtx c (f (s.ctx c))
/-- A state with the hasp of context `c` changed by `f`. -/
def State.modHasp (s : State) (c : Nat) (f : Hasp → Hasp) : State := s.modCtx c (fun x => { x with hasp := f x.hasp })
/-- The hasp of context `c`. -/
def State.hasp (s : State) (c : Nat) : Hasp := (s.ctx c).hasp

/-- Unit `u`: 0 to 255 a logical tile, 256 to 271 a mover, 272 to 287 an engine. -/
def State.unit (s : State) (u : Nat) : UnitSt := tget (fun _ => {}) s.units u
/-- A state with unit `u` changed by `f`. -/
def State.modUnit (s : State) (u : Nat) (f : UnitSt → UnitSt) : State := { s with units := tput s.units u (f (s.unit u)) }

/-- Link `n`. -/
def State.link (s : State) (n : Nat) : Link := tget (fun _ => {}) s.links n
/-- A state with link `n` changed by `f`. -/
def State.modLink (s : State) (n : Nat) (f : Link → Link) : State := { s with links := tput s.links n (f (s.link n)) }

/-- The ring set of function `fn` (0: PF; 1 to 16: a VF). -/
def State.ring (s : State) (fn : Nat) : Ring := tget (fun _ => {}) s.rings fn
/-- A state with the ring set of `fn` changed by `f`. -/
def State.modRing (s : State) (fn : Nat) (f : Ring → Ring) : State := { s with rings := tput s.rings fn (f (s.ring fn)) }

/-- Bolt `b` (R394). -/
def State.bolt (s : State) (b : Nat) : Bolt := tget (fun _ => {}) s.bolts b
/-- A state with bolt `b` replaced. -/
def State.setBolt (s : State) (b : Nat) (x : Bolt) : State := { s with bolts := tput s.bolts b x }

/-- Appends to what the device hands to the outside. -/
def State.emit (s : State) (o : Out) : State := { s with out := s.out ++ [o] }

/-- Draws one free value and advances the counter (log entry 2). -/
def State.draw (s : State) : Nat × State := (s.fresh, { s with fresh := s.fresh + 1 })

/-- A state with the tick protocol's state changed by `f`. -/
def State.modTick (s : State) (f : Tick → Tick) : State := { s with tick := f s.tick }

/-- Number of a phase (R74). -/
def Phase.code : Phase → Nat
  | .stopped => 0
  | .running => 1
  | .restoring => 2
  | .replaying => 3
  | .withheld => 4
  | .halted => 5

/-- Phase of a number; 6 to 15 are reserved (R74). -/
def Phase.ofCode : Nat → Option Phase
  | 0 => some .stopped
  | 1 => some .running
  | 2 => some .restoring
  | 3 => some .replaying
  | 4 => some .withheld
  | 5 => some .halted
  | _ => none

/-- Number of a hasp command (R42). -/
def Cmd.code : Cmd → Nat
  | .none => 0
  | .commit => 1
  | .rollback => 2
  | .failover => 3
  | .halt => 4

/-- Hasp command of a number; 5 to 15 are reserved (R42). -/
def Cmd.ofCode : Nat → Option Cmd
  | 0 => some .none
  | 1 => some .commit
  | 2 => some .rollback
  | 3 => some .failover
  | 4 => some .halt
  | _ => none

/-- The first `n` numbers that satisfy a test. -/
def pick (n : Nat) (p : Nat → Bool) : List Nat := (List.range n).filter p

/-- The bits set in the low `n` of a number. -/
def bitsOf (n v : Nat) : List Nat := pick n (fun i => v.testBit i)

/-- A mask with the bits of a list. -/
def maskOf (l : List Nat) : Nat := l.foldl (fun a i => a ||| (1 <<< i)) 0

/-- Puts an element into a list that `le` orders, after its equals. -/
def insertBy {α : Type} (le : α → α → Bool) (x : α) : List α → List α
  | [] => [x]
  | y :: t => if le y x then y :: insertBy le x t else x :: y :: t

/-- A list in the order of `le`, equals in their old order. -/
def sortBy {α : Type} (le : α → α → Bool) : List α → List α
  | [] => []
  | x :: t => insertBy (fun a b => le a b && !le b a) x (sortBy le t)

/-- Folds a state over a list. -/
def State.over {α : Type} (s : State) (l : List α) (f : State → α → State) : State := l.foldl f s

/-- Whether the context is ZEROING or KEYED (R382). -/
def State.held (s : State) (c : Nat) : Bool := (s.ctx c).adm != .free

/-- The context whose CTX_VF names function `fn` (R509). -/
def State.fnCtx (s : State) (fn : Nat) : Option Nat :=
  if fn = 0 then none else (List.range 16).find? (fun c => s.held c && s.regN (Reg.CTX_VF c) == fn)

/-- The function of context `c`: CTX_VF, 0 for none (R380). -/
def State.ctxFn (s : State) (c : Nat) : Nat := s.regN (Reg.CTX_VF c)

/-- The phase that a WITHHELD context counts as (R92). -/
def Hasp.under (h : Hasp) : Phase := if h.phase = .withheld then h.held else h.phase

/-- The epoch that the work of a context is tagged with: the one that its step in progress produces (R67). -/
def Hasp.tag (h : Hasp) : Nat := if h.stepOpen then h.stepEpoch else h.epoch + 1

/-- Host-visible committed epoch (R92). -/
def Hasp.shown (h : Hasp) : Nat :=
  match h.under with
  | .restoring => h.eLast
  | .replaying => h.eLast
  | _ => h.epoch

/-- Whether a plan is loaded in context `c`. -/
def State.loaded (s : State) (c : Nat) : Bool := (s.hasp c).loaded

/-- Whether any context has a plan loaded. -/
def State.anyLoaded (s : State) : Bool := (List.range 16).any s.loaded

/-- Marks a region of context `c` as poisoned, with the current tag (R72, R76). -/
def State.markPoison (s : State) (c : Nat) (r : Region) : State :=
  let h := s.hasp c
  { s with poison := s.poison ++ [⟨c, h.gen, h.tag, r.space, r.unit, r.addr, r.len⟩] }

/-- Marks several regions of context `c`. -/
def State.markAll (s : State) (c : Nat) (rs : List Region) : State := s.over rs (fun s r => s.markPoison c r)

/-- Marks the context itself as holding poisoned data (R134, R165). -/
def State.poisonCtx (s : State) (c : Nat) : State := s.markPoison c ⟨5, 0, 0, 0⟩

/-- Whether the device holds poisoned data of context `c` (R76). -/
def State.poisoned (s : State) (c : Nat) : Bool := s.poison.any (fun p => p.ctx == c)

/-- Adds to live counter `n` of context `c`, modulo 2^64 (R401). -/
def State.account (s : State) (c n v : Nat) : State :=
  s.modCtx c (fun x => { x with acc := { x.acc with live := tput x.acc.live n (tget (fun _ => 0#64) x.acc.live n + BitVec.ofNat 64 v) } })

/-- Counts bytes of a context's spaces by the tier that holds them: stacked DRAM and LPDDR (R401). -/
def State.countTier (s : State) (c space n : Nat) : State := if space = 3 then s.account c 4 n else if space = 4 then s.account c 5 n else s

/-- Counts PCIe payload bytes of the context behind a function (R401): whole entries of its rings, and its host arena (DESIGN CHOICE, log entry 62). -/
def State.countHost (s : State) (fn n : Nat) : State :=
  match s.fnCtx fn with
  | some c => s.account c 7 n
  | none => s

/-- Sizes of a ring set's rings in entries (R511, RING_SIZES): command granules, completion records, event granules. -/
def State.ringSizes (s : State) (fn : Nat) : Nat × Nat × Nat :=
  let v := s.regN (Reg.RING_SIZES fn)
  (2 ^ bits v 4 0, 2 ^ bits v 12 8, 2 ^ bits v 20 16)

/-- Granules of 64 bytes that an event-ring entry fills (R514, R523). -/
def RingEntry.granules : RingEntry → Nat
  | .completion _ => 0
  | .event _ => 1
  | .data _ _ b => cdiv (64 + b.length) 64

/-- Whether an entry is a completion. -/
def RingEntry.isCpl : RingEntry → Bool
  | .completion _ => true
  | _ => false

/-- Whether an entry is an EVENT packet. -/
def RingEntry.isEvent : RingEntry → Bool
  | .event _ => true
  | _ => false

/-- Whether the entry's ring has room (R511, R525). -/
def State.roomFor (s : State) (fn : Nat) (e : RingEntry) : Bool :=
  let r := s.ring fn
  let z := s.ringSizes fn
  if e.isCpl then decide (r.cplTail - r.cplHead + 1 ≤ z.2.1) else decide (r.evtTail - r.evtHead + e.granules ≤ z.2.2)

/-- Signals vector `v`: MSI-X, or its pending bit while the vector is masked (R529). -/
def State.signal (s : State) (fn v : Nat) : State :=
  if (s.reg (Reg.MSIX fn v 3)).getLsbD 0 then s.event (Reg.MSIX_PBA fn) v else s.emit (.msix fn v)

/-- Counts an entry of vector `v` written since the last signal; signals at RING_IRQ.COUNT (R529). -/
def State.irqEntry (s : State) (fn v : Nat) : State :=
  let r := s.ring fn
  let n := (if v = 0 then r.unsignalled0 else r.unsignalled1) + 1
  let hit := decide (max 1 (bits (s.regN (Reg.RING_IRQ fn)) 7 0) ≤ n)
  let m := if hit then 0 else n
  let s := s.modRing fn (fun r => if v = 0 then { r with unsignalled0 := m } else { r with unsignalled1 := m })
  if hit then s.signal fn v else s

/-- Writes an entry into its ring: the entry, then the tail word (R513, R526). -/
def State.writeEntry (s : State) (fn : Nat) (e : RingEntry) : State :=
  let s := s.modRing fn (fun r => if e.isCpl then { r with cplTail := r.cplTail + 1 } else { r with evtTail := r.evtTail + e.granules })
  ((s.countHost fn (if e.isCpl then 32 else 64 * e.granules)).emit (.ring fn e)).irqEntry fn (if e.isCpl then 0 else 1)

/-- Counts an event lost or dropped (R525, R532). -/
def State.loseEvent (s : State) (fn : Nat) : State := (s.count (Reg.RING_EVT_LOST fn)).event (Reg.RING_EVENT fn) 2

/-- Holds an entry of a ring set that is not RUNNING, dropping the oldest beyond 4,096 (R532). -/
def State.holdEntry (s : State) (fn : Nat) (e : RingEntry) : State :=
  let r := s.ring fn
  if r.held.length < 4096 then s.modRing fn (fun r => { r with held := r.held ++ [e] })
  else
    let s := s.modRing fn (fun r => { r with held := r.held.drop 1 ++ [e], dropped := r.dropped + 1 })
    match r.held.head? with
    | some (.event _) => s.loseEvent fn
    | _ => s

/-- Hands an entry to a ring set: held while it is not RUNNING; written when its ring has room and nothing of that ring waits;
otherwise an immediate event is lost and anything else waits (R525, R532). -/
def State.ringPush (s : State) (fn : Nat) (imm : Bool) (e : RingEntry) : State :=
  let r := s.ring fn
  if r.run ≠ .running then s.holdEntry fn e
  else if s.roomFor fn e && !r.waitingOut.any (fun w => w.isCpl == e.isCpl) then s.writeEntry fn e
  else if imm && e.isEvent then (s.loseEvent fn).modRing fn (fun r => { r with lostNow := r.lostNow + 1 })
  else s.modRing fn (fun r => { r with waitingOut := r.waitingOut ++ [e] })

/-- One pass over the entries that wait for space: state, entries left, and whether each ring is blocked. -/
def drainGo (fn : Nat) : List RingEntry → State → Bool → Bool → State × List RingEntry
  | [], s, _, _ => (s, [])
  | e :: t, s, cb, eb =>
    let blocked := if e.isCpl then cb else eb
    if !blocked && s.roomFor fn e then drainGo fn t (s.writeEntry fn e) cb eb
    else
      let p := drainGo fn t s (cb || e.isCpl) (eb || !e.isCpl)
      (p.1, e :: p.2)

/-- Writes what waits for space, then one OVERFLOW event when events were lost and the ring has room again (R525). -/
def State.ringDrain (s : State) (fn : Nat) : State :=
  if (s.ring fn).run ≠ .running then s
  else
    let p := drainGo fn (s.ring fn).waitingOut s false false
    let s := p.1.modRing fn (fun r => { r with waitingOut := p.2 })
    let r := s.ring fn
    let c := (s.fnCtx fn).getD 0
    let e : Event := ⟨0x000B, 0, if fn = 0 then 0 else c, 0, s.tick.now, if fn = 0 then 0 else (s.hasp c).gen, r.lostNow, 0⟩
    if 0 < r.lostNow ∧ s.roomFor fn (.event e) ∧ !r.waitingOut.any (fun w => !w.isCpl) then
      (s.writeEntry fn (.event e)).modRing fn (fun r => { r with lostNow := 0 })
    else s

/-- The EVENT packet of context `c` (R523). -/
def State.mkEvent (s : State) (c ty status epoch detailA detailB : Nat) : Event :=
  ⟨ty, status, c, epoch, s.tick.now, (s.hasp c).gen, detailA, detailB⟩

/-- Posts an immediate event on the event ring of context `c` (R85, R524); a context that names no VF has no ring. -/
def State.postEvent (s : State) (c ty status epoch detailA detailB : Nat) : State :=
  let fn := s.ctxFn c
  if fn = 0 then s else s.ringPush fn true (.event (s.mkEvent c ty status epoch detailA detailB))

/-- Adds a deferred effect of epoch `x` to the queue of context `c`, with its place in the device's order (R85, R570). -/
def State.queueEffect (s : State) (c x : Nat) (d : Deferred) : State :=
  let y := s.ctx c
  let n := s.flash.stamp
  { s.setCtx c { y with effects := y.effects ++ [⟨y.hasp.gen, x, d, false, n⟩] } with flash := { s.flash with stamp := n + 1 } }

/-- Queues a deferred effect of context `c` with the tag of the step in progress; false when the queue is full (R86). -/
def State.defer (s : State) (c : Nat) (d : Deferred) : State × Bool :=
  let x := s.ctx c
  if 16384 ≤ x.effects.length then (s.event (Reg.HSP_EVENT c) 4, false)
  else (s.queueEffect c x.hasp.tag d, true)

/-- Granules of a command ring that the host may reuse: those fetched, up to the first RECORD packet still kept (R462, R528). -/
def Ring.head (r : Ring) : Nat :=
  match r.kept with
  | k :: _ => k.1
  | [] => r.cmdHead

/-- Releases the ring entries of a RECORD command (R462). -/
def State.releaseRecord (s : State) (fn opcode : Nat) (id : W64) : State :=
  if opcode = 0x20 then s.modRing fn (fun r => { r with kept := r.kept.filter (fun k => k.2 != id) }) else s

/-- Writes the completion of a host command and frees its slot; a QUIET command that succeeds writes nothing (R526, R527). The ring entries of a RECORD
are released with its completion (R462). -/
def State.finish (s : State) (fn opcode : Nat) (id : W64) (quiet : Bool) (status result : Nat) (deferred : Bool) : State :=
  let s := (s.modRing fn (fun r => { r with reserved := r.reserved - 1 })).releaseRecord fn opcode id
  if quiet && status == 0 then s
  else
    let c := (s.fnCtx fn).getD 0
    let h := s.hasp c
    s.ringPush fn false (.completion ⟨id, opcode, status, deferred, if fn = 0 then 0 else h.gen, if fn = 0 then 0 else h.shown, result⟩)

/-- Completes a host command at once (R519, R520). -/
def State.complete (s : State) (fn opcode : Nat) (cmd : HostCmd) (status : Nat) : State :=
  s.finish fn opcode cmd.id cmd.quiet status 0 false

/-- Completes a host command with a RESULT (R526). -/
def State.completeR (s : State) (fn opcode : Nat) (cmd : HostCmd) (status result : Nat) : State :=
  s.finish fn opcode cmd.id cmd.quiet status result false

/-- Splits reply bytes into DATA packets of at most 65,472 bytes (R523). -/
def dataEntries (id : W64) (off : Nat) (b : Bytes) : Nat → List RingEntry
  | 0 => []
  | f + 1 => if b = [] then [] else .data id off (b.take 65472) :: dataEntries id (off + 65472) (b.drop 65472) f

/-- Writes reply bytes on the event ring as DATA (R523). -/
def State.replyData (s : State) (fn : Nat) (id : W64) (b : Bytes) : State :=
  s.over (dataEntries id 0 b (b.length / 65472 + 1)) (fun s e => s.ringPush fn false e)

/-- An op fault of R166: counted, latched, and posted as OP_FAULT on the context's event ring. -/
def State.opFault (s : State) (c u id code : Nat) : State :=
  let s := s.count Reg.TCK_OPFAULTS
  let s := s.setRegN Reg.TCK_OPFAULT_ID (c * 2 ^ 24 + code * 2 ^ 16 + id % 2 ^ 16)
  let s := s.setRegN Reg.TCK_OPFAULT_UNIT u
  s.postEvent c 0x0007 code (s.hasp c).tag (u + id * 2 ^ 16) 0

/-- The generator of R127 on 32-bit numbers. -/
def helwa (seed stream epoch index : Nat) : Nat :=
  let m := 2 ^ 32
  let rot := ((stream * 2 ^ 16) % m) ||| (stream % m / 2 ^ 16)
  let step := fun (p : Nat × Nat × Nat) (_ : Nat) =>
    let x := p.1 ^^^ p.2.1 ^^^ p.2.2
    let x := (x * 0x2F6B1D35) % m
    (x ^^^ (x >>> 15), p.2.1, (p.2.2 + 0x9A3C5E71) % m)
  ((List.range 4).foldl step (index % m, (epoch % m) ^^^ (index / m % m), (seed % m) ^^^ rot)).1

end Sys2Proof.Machine
end

