-- ==== Sys2Proof/Machine/Image.lean ====
section
/-! DEFINITION. Reading a plan image (R27 to R30, R632, R633): header, directory, roles, variants and tick lists, frames, unit programs, link reservations and the memory ledger; and which seat and role of it this device runs. -/

namespace Sys2Proof.Machine

/-- PLAN_ID of an image (R27). -/
def imgPlanId (b : Bytes) : Nat := u64 b 16
/-- PLAN_CLOCK_MHZ. -/
def imgClock (b : Bytes) : Nat := u16 b 32
/-- SEAT_COUNT. -/
def imgSeats (b : Bytes) : Nat := u16 b 34
/-- ROLE_COUNT. -/
def imgRoles (b : Bytes) : Nat := u16 b 36
/-- VARIANT_COUNT. -/
def imgVariants (b : Bytes) : Nat := byteAt b 38
/-- VOTE_FIELDS. -/
def imgVoteFields (b : Bytes) : Nat := byteAt b 39
/-- FRAME_COUNT. -/
def imgFrames (b : Bytes) : Nat := u32 b 40

/-- A used directory entry (R28). -/
structure Section where
  type : Nat
  crc : Nat
  off : Nat
  size : Nat
  deriving DecidableEq, Repr

/-- Directory entry `i` of the eight (R28). -/
def imgSectionAt (b : Bytes) (i : Nat) : Section :=
  let o := 64 + 24 * i
  ⟨u16 b o, u32 b (o + 4), u64 b (o + 8), u64 b (o + 16)⟩

/-- The used directory entries. -/
def imgSections (b : Bytes) : List Section := ((List.range 8).map (imgSectionAt b)).filter (fun s => s.type != 0)

/-- The section of a type; an empty one where the image has none. -/
def imgSection (b : Bytes) (ty : Nat) : Section := ((imgSections b).find? (fun s => s.type == ty)).getD ⟨ty, 0, 0, 0⟩

/-- Role of a seat (R28, ROLES). -/
def imgRole (b : Bytes) (seat : Nat) : Nat := u16 b ((imgSection b 1).off + 2 * seat)

/-- Byte offset of variant entry `v` in the image (R29). -/
def imgVariantAt (b : Bytes) (v : Nat) : Nat := (imgSection b 2).off + 32 * v
/-- CEILINGS of a variant. -/
def imgCeilings (b : Bytes) (v : Nat) : Nat := u64 b (imgVariantAt b v)
/-- TICKS L of a variant. -/
def imgTicks (b : Bytes) (v : Nat) : Nat := u32 b (imgVariantAt b v + 8)
/-- VOTE_TICK of a variant. -/
def imgVoteTick (b : Bytes) (v : Nat) : Nat := u32 b (imgVariantAt b v + 12)
/-- LIST_OFFSET of a variant, within the VARIANTS section. -/
def imgListOff (b : Bytes) (v : Nat) : Nat := u64 b (imgVariantAt b v + 16)
/-- Frame index and frame argument of tick `t` of variant `v` (R29). -/
def imgTick (b : Bytes) (v t : Nat) : Nat × Nat :=
  let o := (imgSection b 2).off + imgListOff b v + 8 * t
  (u32 b o, u32 b (o + 4))

/-- Byte offset in the image of the frame directory of a role's frame (R28, FRAMES; R30). -/
def imgFrameDir (b : Bytes) (role frame : Nat) : Nat :=
  (imgSection b 4).off + u64 b ((imgSection b 3).off + 16 * (role * imgFrames b + frame))
/-- Directory entry `i` of a frame: offset and count (R30). Record offsets are within PROGRAMS and reservation offsets within LINKS
(DEDUCED, log entry 4). -/
def imgDirEnt (b : Bytes) (role frame i : Nat) : Nat × Nat :=
  let o := imgFrameDir b role frame + 8 * i
  (le b o 6, u16 b (o + 6))

/-- Whether a record is 128 bytes long (R132). -/
def recLong (r : Bytes) : Bool := bit (byteAt r 1) 0
/-- Length of a record in bytes (R132). -/
def recLen (r : Bytes) : Nat := if recLong r then 128 else 64

/-- `n` records lying back to back from byte `o`. -/
def recsAt (b : Bytes) : Nat → Nat → List Bytes
  | _, 0 => []
  | o, n + 1 =>
    let l := if bit (byteAt b (o + 1)) 0 then 128 else 64
    sliceZ b o l :: recsAt b (o + l) n

/-- The records of unit `u` in a role's frame (R30). -/
def imgRecords (b : Bytes) (role frame u : Nat) : List Bytes :=
  let e := imgDirEnt b role frame u
  recsAt b ((imgSection b 4).off + e.1) e.2

/-- A link reservation (R28, LINKS). -/
structure Resv where
  off : Nat
  len : Nat
  bytes : Nat
  pair : Nat
  deriving DecidableEq, Repr

/-- The reservations of link `n` in a role's frame, transmit or receive (R30). -/
def imgResvs (b : Bytes) (role frame n : Nat) (tx : Bool) : List Resv :=
  let e := imgDirEnt b role frame (288 + 2 * n + (if tx then 0 else 1))
  (List.range e.2).map (fun i => let o := (imgSection b 5).off + e.1 + 16 * i; ⟨u32 b o, u32 b (o + 4), u32 b (o + 8), u32 b (o + 12)⟩)

/-- A LEDGER region entry (R632). -/
structure Ledger where
  kind : Nat
  space : Nat
  unit : Nat
  flags : Nat
  base : Nat
  size : Nat
  half : Nat
  tag : Nat
  deriving DecidableEq, Repr

/-- The region entries of a role, in LEDGER order (R632). -/
def imgLedger (b : Bytes) (role : Nat) : List Ledger :=
  let s := (imgSection b 6).off
  let blk := s + u64 b (s + 16 * role)
  (List.range (u32 b (s + 16 * role + 8))).map (fun i =>
    let o := blk + 32 * i
    ⟨byteAt b o, byteAt b (o + 1), u16 b (o + 2), byteAt b (o + 4), u64 b (o + 8), u64 b (o + 16), u32 b (o + 24), u32 b (o + 28)⟩)

/-- Address of half `v` mod 2 of a two-half region (R71). -/
def Ledger.halfAt (l : Ledger) (v : Nat) : Nat := l.base + (v % 2) * l.half * 64

/-- Units of the tumbler area, window and guard at a plan clock (R17): u_tick, u_win, u_guard. -/
def tickUnits (p w g f : Nat) : Nat × Nat × Nat :=
  let ut := p * f / 16
  (ut, cdiv (w * f) 16000, cdiv (ut * g) 1000)

/-- The tumbler area a of R17. -/
def tumblerArea (p w g f : Nat) : Nat := let u := tickUnits p w g f; u.1 - u.2.1 - u.2.2

/-- The tumbler area of an image's own geometry. -/
def imgArea (b : Bytes) : Nat := tumblerArea (u32 b 24) (u16 b 28) (u16 b 30) (imgClock b)

/-- Number of 256-unit power intervals (R633). -/
def imgIntervals (b : Bytes) : Nat := cdiv (imgArea b) 256

/-- Planned energy in mJ of interval `i` of a role's frame, as its FP32 code (R633). -/
def imgPower (b : Bytes) (role frame i : Nat) : Nat :=
  u32 b ((imgSection b 7).off + 4 * ((role * imgFrames b + frame) * imgIntervals b + i))

/-- The variant that a vote word selects: the first whose every ceiling reaches the vote (R32). -/
def imgVariantOf (b : Bytes) (vote : Nat) : Nat :=
  ((List.range (imgVariants b)).find? (fun v =>
    (List.range (imgVoteFields b)).all (fun m => decide (bits vote (4 * m + 3) (4 * m) ≤ bits (imgCeilings b v) (4 * m + 3) (4 * m))))).getD
    (imgVariants b - 1)

/-- The seat address table of a context in a bank: key context * 32,768 + seat (R322). -/
def Bank.seatAddr (k : Bank) (c seat : Nat) : Nat := tget (fun _ => 0xFFFF) k.place (c * 32768 + seat)

/-- The seat of context `c` whose holder in the placement in force is this device (R324), below the image's seat count. -/
def State.seatOf (s : State) (c : Nat) : Option Nat :=
  let a := s.regN Reg.FAB_ADDR % 65536
  let hit := s.fabric.inForce.place.find? (fun p => p.2 == a && p.1 / 32768 == c)
  if a = 0xFFFF then none else hit.map (fun p => p.1 % 32768)

/-- The role that this device runs in context `c`; a device that holds no seat runs none. -/
def State.roleOf (s : State) (c : Nat) : Option Nat := (s.seatOf c).map (imgRole (s.ctx c).image)

/-- The LEDGER regions of this device's role in context `c`. -/
def State.ledger (s : State) (c : Nat) : List Ledger :=
  match s.roleOf c with
  | some r => imgLedger (s.ctx c).image r
  | none => []

/-- The version-arena regions of this device's role (R71, kind ARENA). -/
def State.arenas (s : State) (c : Nat) : List Ledger := (s.ledger c).filter (fun l => l.kind == 1)

/-- The mirrored regions of this device's role, in LEDGER order (R409, R632). -/
def State.mirrored (s : State) (c : Nat) : List Ledger := (s.ledger c).filter (fun l => l.flags % 4 / 2 == 1)

/-- The role and the frame that context `c` runs in the tick in progress (R25); a permute step has none (R372). -/
def State.frameOf (s : State) (c : Nat) : Option (Nat × Nat) :=
  let h := s.hasp c
  match s.roleOf c with
  | some r => if h.loaded ∧ h.stepOpen ∧ (s.ctx c).perm.state < 2 ∧ h.stepTick < imgTicks (s.ctx c).image h.variant then some (r, (imgTick (s.ctx c).image h.variant h.stepTick).1) else none
  | none => none

/-- The records of unit `u` in the frame that context `c` runs. -/
def State.frameRecords (s : State) (c u : Nat) : List Bytes :=
  match s.frameOf c with
  | some p => imgRecords (s.ctx c).image p.1 p.2 u
  | none => []

/-- The reservations of link `n` in the frame that context `c` runs. -/
def State.frameResvs (s : State) (c n : Nat) (tx : Bool) : List Resv :=
  match s.frameOf c with
  | some p => imgResvs (s.ctx c).image p.1 p.2 n tx
  | none => []

/-- Granules of 64 KiB of a mirrored region, both halves counted (R409). -/
def Ledger.granules (l : Ledger) : Nat := l.size / 65536 * (if l.half = 0 then 1 else 2)

/-- Granules of this device's seat in context `c`, log granules apart (R409). -/
def State.granules (s : State) (c : Nat) : Nat := ((s.mirrored c).map Ledger.granules).foldl (· + ·) 0

/-- Space, unit and address of granule `g` of a list of mirrored regions (R409). -/
def granuleAt : List Ledger → Nat → Option (Nat × Nat × Nat)
  | [], _ => none
  | l :: t, g =>
    let n := l.size / 65536
    if g < n then some (l.space, l.unit, l.base + g * 65536)
    else if g < l.granules then some (l.space, l.unit, l.base + l.half * 64 + (g - n) * 65536)
    else granuleAt t (g - l.granules)

/-- Granules of a list of mirrored regions that an extent touches. -/
def granulesOf : List Ledger → Nat → Nat → Nat → Nat → Nat → List Nat
  | [], _, _, _, _, _ => []
  | l :: t, first, space, unit, a, n =>
    (if l.space = space ∧ (space ≠ 1 ∨ l.unit = unit) then
      (pick l.granules (fun g => match granuleAt [l] g with | some p => decide (a < p.2.2 + 65536 ∧ p.2.2 < a + n) | none => false)).map (· + first)
    else []) ++ granulesOf t (first + l.granules) space unit a n

/-- Marks the mirrored granules of an extent dirty (R412). -/
def State.dirty (s : State) (c space unit a n : Nat) : State :=
  if n = 0 then s else
  let gs := granulesOf (s.mirrored c) 0 space unit a n
  if gs.isEmpty then s
  else s.modCtx c (fun x => { x with twin := { x.twin with dirty := x.twin.dirty ++ gs.filter (fun g => !x.twin.dirty.contains g) } })

end Sys2Proof.Machine
end

