-- ==== Sys2Proof/Machine/MediaBase.lean ====
section
/-! DEFINITION. Decode engines and live streams (R484 to R489): admission, the pictures that wait, what an idle engine takes, and an engine that leaves service. -/

namespace Sys2Proof.Machine

/-- A state with the media front end changed. -/
def State.modMedia (s : State) (f : Media → Media) : State := { s with media := f s.media }
/-- Decode engine `e`. -/
def State.engine (s : State) (e : Nat) : Engine := tget (fun _ => {}) s.media.engines e
/-- A state with engine `e` changed. -/
def State.modEngine (s : State) (e : Nat) (f : Engine → Engine) : State := s.modMedia (fun m => { m with engines := tput m.engines e (f (tget (fun _ => {}) m.engines e)) })
/-- Live stream `st`. -/
def State.stream (s : State) (st : Nat) : LiveStream := tget (fun _ => {}) s.media.streams st
/-- A state with live stream `st` changed. -/
def State.modLive (s : State) (st : Nat) (f : LiveStream → LiveStream) : State :=
  s.modMedia (fun m => { m with streams := tput m.streams st (f (tget (fun _ => {}) m.streams st)) })
/-- A pool of frame buffers: of live stream st at st, of record n at 64 + n. -/
def State.pool (s : State) (k : Nat) : List FrameBuf := tget (fun _ => []) s.media.pools k
/-- A state with a pool replaced; an empty one is freed. -/
def State.setPool (s : State) (k : Nat) (l : List FrameBuf) : State := s.modMedia (fun m => { m with pools := if l.isEmpty then tdel m.pools k else tput m.pools k l })
/-- Whether a buffer has no mark (R481). -/
def FrameBuf.unused (b : FrameBuf) : Bool := !b.short && !b.long && !b.output
/-- The lowest-numbered unused buffer of a pool (R482). -/
def firstUnused (l : List FrameBuf) : Option Nat := l.findIdx? FrameBuf.unused

/-- Worst-case decode time in ns (R484). -/
def decodeNs (w h bits : Nat) : Nat := max (cdiv (w * h) 4) (cdiv bits 8) + 2000
/-- Declared width and height of a live stream (MED_LIVE_GEOM). -/
def State.liveGeom (s : State) (st : Nat) : Nat × Nat := let v := s.regN (Reg.MED_LIVE_GEOM st); (v % 65536, v / 65536)
/-- Decode time of a live stream's pictures (R484). -/
def State.liveNs (s : State) (st : Nat) : Nat := decodeNs (s.liveGeom st).1 (s.liveGeom st).2 (s.regN (Reg.MED_LIVE_MAXBITS st))
/-- Load of a live stream, per mille of an engine (R484). -/
def State.liveLoad (s : State) (st : Nat) : Nat := cdiv (s.liveNs st * s.regN (Reg.MED_LIVE_FPS st)) 1000000000
/-- Buffers of a live stream's pool: 10 for AV1, 18 otherwise (R481). -/
def State.livePool (s : State) (st : Nat) : Nat := if bits (s.regN (Reg.MED_LIVE_CTRL st)) 29 28 = 2 then 10 else 18
/-- The context of a live stream. -/
def State.liveCtx (s : State) (st : Nat) : Nat := s.regN (Reg.MED_LIVE_CTRL st) % 16

/-- Drops a live picture: counted, and its command completes (R488, R520). -/
def State.dropPic (s : State) (p : LivePic) : State := (s.count (Reg.MED_LIVE_DROPPED p.stream)).complete p.cmd.1 0x21 p.cmd.2 0

/-- Drops every picture of a stream that waits. -/
def State.dropWaiting (s : State) (st : Nat) : State :=
  let w := (s.stream st).waiting
  s.over w State.dropPic |>.modLive st (fun v => { v with waiting := [] })

/-- Drops the waiting pictures of a stream up to its next random-access point, and the RASL pictures of that one; while none waits, those that arrive (R488). -/
def State.skipToRap (s : State) (st : Nat) : State :=
  let w := (s.stream st).waiting
  let gone := w.takeWhile (fun p => !p.rap)
  match w.dropWhile (fun p => !p.rap) with
  | [] => s.over gone State.dropPic |>.modLive st (fun v => { v with waiting := [], skipping := true })
  | r :: t =>
    let here := t.takeWhile (fun p => !p.rap)
    let later := t.dropWhile (fun p => !p.rap)
    s.over (gone ++ here.filter LivePic.rasl) State.dropPic |>.modLive st (fun v =>
      { v with waiting := r :: here.filter (fun p => !p.rasl) ++ later, skipping := false, dropRasl := later.isEmpty })

/-- The engine that a stream of load `ld` is admitted on: the lowest-numbered in service whose load allows it (R485). -/
def State.engineFor (s : State) (ld : Nat) : Option Nat :=
  (List.range 4).find? (fun e => (s.engine e).service == 0 && decide ((s.engine e).load + ld ≤ s.regN (Reg.MED_ENG_RESERVE e) % 2048))

/-- Admits a stream, or leaves it with status `other` (R485, R489); the second result says whether it was admitted. -/
def State.admitStream (s : State) (st other : Nat) : State × Bool :=
  let ld := s.liveLoad st
  match s.engineFor ld with
  | some e =>
    ((s.modEngine e (fun x => { x with load := x.load + ld, streams := x.streams ++ [st] })).modLive st (fun v => { v with status := 1, engine := e, load := ld }), true)
  | none => (s.modLive st (fun v => { v with status := other, engine := 0, load := ld }), false)

/-- Takes a stream off its engine. -/
def State.releaseStream (s : State) (st : Nat) : State :=
  let v := s.stream st
  if v.status = 1 then s.modEngine v.engine (fun x => { x with load := x.load - v.load, streams := x.streams.filter (fun y => y != st) }) else s

/-- Re-admits the stream of an engine that left service; one that does not fit is suspended, and its pictures are dropped (R489). -/
def State.readmit (s : State) (st : Nat) : State :=
  match (s.releaseStream st).admitStream st 3 with
  | (s, true) => s
  | (s, false) => ((s.event (Reg.MED_LIVE_EVENT st) 5).event Reg.MED_FE_EVENT 1).dropWaiting st

/-- A live picture that its engine does not finish is dropped, with what follows it (R488, R505). -/
def State.abandonPic (s : State) (e : Nat) : State :=
  match (s.engine e).current with
  | some p => (((s.modEngine e (fun x => { x with current := none })).dropPic p).event (Reg.MED_LIVE_EVENT p.stream) 3).skipToRap p.stream
  | none => s

/-- A decode engine leaves service (R489, R505): its streams are admitted elsewhere in increasing number. -/
def State.engineOut (s : State) (e : Nat) : State :=
  if (s.engine e).service ≠ 0 then s
  else
    let s := (s.abandonPic e).modEngine e (fun x => { x with service := 2, job := none })
    let sts := sortBy (fun a b => decide (a ≤ b)) (s.engine e).streams
    s.over sts State.readmit |>.event Reg.MED_FE_EVENT 0

/-- The live picture that engine `e` takes: of its streams, the one whose LAST packet arrived first (R486). -/
def State.oldestLive (s : State) (e : Nat) : Option LivePic :=
  let heads := (s.engine e).streams.filterMap (fun st => (s.stream st).waiting.head?)
  (sortBy (fun (a b : LivePic) => decide (a.arrival ≤ b.arrival)) heads).head?

/-- Whether engine `e` takes a record picture of a decode time in ns (R486). -/
def State.recordFits (s : State) (e ns : Nat) : Bool :=
  let m := s.regN (Reg.MED_ENG_RECMAX e) % 65536
  m == 0xFFFF || (m != 0 && decide (ns ≤ m * 1000))

/-- Records with pictures to decode that no engine works on, in cursor order: context and record. -/
def State.videoJobs (s : State) : List (Nat × IngRecord) :=
  let busy := (List.range 4).filterMap (fun e => (s.engine e).job.map (·.2))
  ((List.range 16).map (fun c => (((s.ctx c).ing.reading.filter (fun r => !r.decoded && decide (0 < r.pics) && !busy.contains r.uid)).map (fun r => (c, r))))).flatten

/-- Lets an engine that is free take its next picture: live pictures first, a stream without an unused buffer dropping what it holds (R483),
then a record picture (R486). While a firmware switch is under way a live stream waits at its picture boundary (R506). -/
def feedGo (e : Nat) : Nat → State → State
  | 0, s => s
  | f + 1, s =>
    let x := s.engine e
    if x.service ≠ 0 ∨ x.current.isSome ∨ x.job.isSome then s
    else match (if s.media.switching then none else s.oldestLive e) with
      | some p =>
        let s := s.modLive p.stream (fun v => { v with waiting := v.waiting.drop 1 })
        match firstUnused (s.pool p.stream) with
        | some i => s.modEngine e (fun x => { x with current := some p, buffer := i })
        | none => feedGo e f ((s.dropPic p).skipToRap p.stream)
      | none =>
        match s.videoJobs.find? (fun j => s.recordFits e j.2.picTime && j.2.faulted != some e) with
        | some j => s.modEngine e (fun x => { x with job := some (j.1, j.2.uid), buffer := (firstUnused (s.pool (64 + j.2.uid))).getD 0 })
        | none => s

/-- Lets every free engine take a picture, the lowest-numbered first (R486). -/
def State.feedEngines (s : State) : State :=
  s.over (List.range 4) (fun s e => feedGo e (((s.engine e).streams.map (fun st => (s.stream st).waiting.length)).foldl (· + ·) 1) s)

end Sys2Proof.Machine
end

