-- ==== Sys2Proof/Machine/Packet.lean ====
section
/-! DEFINITION. Chiram packets: header, checks and tags (R314 to R318), the route table and the link a packet takes (R328, R329), credits and the switch buffer (R333 to R335), and the packets that this device sends. -/

namespace Sys2Proof.Machine

/-! Format. -/

/-- Header bytes 0 to 29 (R314). -/
def Packet.head (p : Packet) : Bytes :=
  toLe 1 p.opcode ++ toLe 1 p.flags ++ toLe 2 p.dst ++ toLe 2 p.src ++ toLe 2 p.payload.length ++ toLe 1 p.ctx ++ toLe 1 p.hops ++
    toLe 2 p.gen.toNat ++ toLe 4 p.epoch ++ toLe 8 p.arg ++ toLe 2 p.seq ++ toLe 4 p.pcrc

/-- A packet's bytes (R314). -/
def Packet.bytes (p : Packet) : Bytes := p.head ++ toLe 2 (crc16 p.head) ++ p.payload

/-- PCRC of a payload (R314). -/
def payloadCrc (b : Bytes) : Nat := if b = [] then 0 else crc32c b

/-- The opcodes of R315. -/
def opcodes : List Nat := [0x01, 0x02, 0x03, 0x04, 0x05, 0x06, 0x07, 0x08, 0x10, 0x11, 0x12, 0x13, 0x14, 0x18, 0x20, 0x21]

/-- Whether an address is 0xFFFF or has z below 18 (R320). -/
def addrOk (a : Nat) : Bool := a == 0xFFFF || decide (bits a 7 3 ≤ 17)

/-- The header checks of R317: HCRC, reserved fields and encodings, and NOTAG with a tag. -/
def packetOk (b : Bytes) : Bool :=
  let op := byteAt b 0
  let fl := byteAt b 1
  let len := u16 b 6
  decide (32 ≤ b.length) && decide (crc16 (b.take 30) = u16 b 30) && opcodes.contains op && decide (fl < 64) && decide (len ≤ 4096) &&
    decide (b.length = 32 + len) && decide (byteAt b 8 < 16) && addrOk (u16 b 2) && addrOk (u16 b 4) &&
    (!bit fl 3 || (byteAt b 8 == 0 && u16 b 10 == 0 && u32 b 12 == 0)) &&
    (!(op == 0x10 || op == 0x11 || op == 0x12) || (byteAt b 17 == 0 && decide (1 ≤ byteAt b 16 % 16 ∧ byteAt b 16 % 16 ≤ 4)))

/-- The packet that bytes hold. -/
def parsePacket (b : Bytes) : Packet :=
  ⟨byteAt b 0, byteAt b 1, u16 b 2, u16 b 4, byteAt b 8, byteAt b 9, BitVec.ofNat 16 (u16 b 10), u32 b 12, u64 b 16, u16 b 24, u32 b 26, b.drop 32⟩

/-- ACKREQ. -/
def Packet.ackReq (p : Packet) : Bool := bit p.flags 0
/-- ADAPT, which SCHED packets, management packets and replies never use (R329). -/
def Packet.adapt (p : Packet) : Bool := bit p.flags 1 && (p.opcode == 0x10 || p.opcode == 0x11)
/-- DETOUR. -/
def Packet.detour (p : Packet) : Bool := bit p.flags 2
/-- NOTAG. -/
def Packet.noTag (p : Packet) : Bool := bit p.flags 3
/-- AUTH. -/
def Packet.auth (p : Packet) : Bool := bit p.flags 4
/-- REPLY. -/
def Packet.isReply (p : Packet) : Bool := bit p.flags 5
/-- Whether a packet is a control packet (R315). -/
def Packet.control (p : Packet) : Bool := decide (2 ≤ p.opcode ∧ p.opcode ≤ 7)
/-- Whether PCRC agrees with the payload (R317). -/
def Packet.payloadOk (p : Packet) : Bool := p.pcrc == payloadCrc p.payload
/-- Whether the tag of a packet is stale (R318). -/
def State.stale (s : State) (p : Packet) : Bool := !p.control && !p.noTag && decide (p.gen ≠ (s.hasp p.ctx).gen)

/-! Routing. -/

/-- Own fabric address (R320). -/
def State.addr (s : State) : Nat := s.regN Reg.FAB_ADDR % 65536

/-- Whether link `n` is up (FAB_LINKn_STATUS.STATE 0x2). -/
def State.linkUp (s : State) (n : Nat) : Bool := (s.link n).state == 2

/-- The route entry of a destination in the bank in force (R328). -/
def State.route (s : State) (dst : Nat) : Nat := (tget (fun _ => 0#32) s.fabric.inForce.route dst).toNat

/-- The pool that a packet draws on (R333): 0 none, 1 management, 2 detour, 3 context. -/
def Packet.pool (p : Packet) : Nat :=
  if p.control then 0
  else if p.opcode = 1 then (if p.detour then 2 else 0)
  else if p.noTag ∨ p.opcode = 0x08 ∨ p.opcode = 0x18 ∨ p.opcode = 0x20 ∨ p.opcode = 0x21 then 1
  else 3

/-- Credits of 256 bytes that a packet needs (R334). -/
def Packet.credits (p : Packet) : Nat := cdiv (32 + p.payload.length) 256

/-- Credits held on a link for a packet's pool (R334, R400). -/
def Link.credit (l : Link) (p : Packet) : Nat :=
  match p.pool with
  | 1 => l.credMgmt
  | 2 => l.credDetour
  | 3 => tget (fun _ => 0) l.credCtx p.ctx
  | _ => 0

/-- A link whose credits a packet has taken. -/
def Link.spend (l : Link) (p : Packet) : Link :=
  match p.pool with
  | 1 => { l with credMgmt := l.credMgmt - p.credits }
  | 2 => { l with credDetour := l.credDetour - p.credits }
  | 3 => { l with credCtx := tput l.credCtx p.ctx (tget (fun _ => 0) l.credCtx p.ctx - p.credits) }
  | _ => l

/-- The better of two links: more credits for the packet, then the lower number (R329). -/
def State.better (s : State) (p : Packet) (a b : Nat) : Nat :=
  let x := (s.link a).credit p
  let y := (s.link b).credit p
  if x < y ∨ (x = y ∧ b < a) then b else a

/-- The link that a packet takes to its destination (R329). -/
def State.chooseLink (s : State) (p : Packet) : Option Nat :=
  let e := s.route p.dst
  let usable := fun l => decide (l < 24) && s.linkUp l
  if !bit e 31 then none
  else if p.adapt then
    match ([bits e 4 0, bits e 9 5, bits e 14 10, bits e 19 15].filter usable) with
    | [] => none
    | l :: t => some (t.foldl (s.better p) l)
  else if usable (bits e 4 0) then some (bits e 4 0) else none

/-- The number under which a packet to the device itself, or from it, names its port: no link (DESIGN CHOICE, log entry 5). -/
def selfLink : Nat := 31

/-- Whether credits pace the links: only while a tick runs, since credits are granted in its window (DEDUCED, log entry 12). -/
def State.paced (s : State) : Bool := s.tick.run != .stopped

/-- Whether a packet may begin on a link (R334), as far as credits go. -/
def State.mayBegin (s : State) (l : Nat) (p : Packet) : Bool := p.pool == 0 || !s.paced || decide (p.credits ≤ (s.link l).credit p)

/-- The class of a packet (R315): 0 control, 1 scheduled, 2 best-effort, 3 management. -/
def Packet.cls (p : Packet) : Nat :=
  if p.control then 0 else if p.opcode = 1 then 1 else if 0x10 ≤ p.opcode ∧ p.opcode ≤ 0x14 then 2 else 3

/-- Whether an earlier packet on the same link holds a later one: they draw on the same pool, or the order of R330 binds them, packets of one class
from one source to one destination, neither with ADAPT. -/
def Packet.holds (a b : Packet) : Bool :=
  (a.pool == b.pool && (b.pool != 3 || a.ctx == b.ctx)) || (a.cls == b.cls && a.src == b.src && a.dst == b.dst && !a.adapt && !b.adapt)

/-- The pool of a packet as CREDIT numbers it: 0 management, 1 detour, 2 + c context c. -/
def Packet.poolKey (p : Packet) : Nat := if p.pool = 3 then 2 + p.ctx else p.pool - 1

/-- The counter that payload bytes sent on a link add to (R401). -/
def linkCounter (l : Nat) : Nat := if l < 7 then 8 else if l < 19 then 9 else if l < 21 then 10 else 11

/-- Begins a packet on a link: its credits are spent, and its payload counts for its context at the source device (R401). -/
def State.begin (s : State) (l : Nat) (p : Packet) : State :=
  let s := if s.paced then s.modLink l (fun k => k.spend p) else s
  let s := if p.src = s.addr ∧ !p.noTag ∧ !p.control then s.account p.ctx (linkCounter l) p.payload.length else s
  s.emit (.packet l p)

/-- Hands a packet to a link: it begins when credits allow and no packet that goes before it waits there, and waits otherwise (R330, R334). -/
def State.transmit (s : State) (port l : Nat) (p : Packet) : State :=
  if s.linkUp l && s.mayBegin l p && !s.fabric.buffer.any (fun w => w.link == l && w.packet.holds p) then s.begin l p
  else { s with fabric := { s.fabric with buffer := s.fabric.buffer ++ [⟨l, port, p, 0⟩] } }

/-- One pass over the packets that wait for a link, in order: a packet that cannot begin holds those that it goes before. -/
def drainLinkGo (l : Nat) : List Waiting → State → List Packet → State × List Waiting
  | [], s, _ => (s, [])
  | w :: t, s, held =>
    if w.link = l ∧ !held.any (fun h => h.holds w.packet) ∧ s.linkUp l ∧ s.mayBegin l w.packet then drainLinkGo l t (s.begin l w.packet) held
    else
      let r := drainLinkGo l t s (if w.link = l then w.packet :: held else held)
      (r.1, w :: r.2)

/-- Sends what waits for a link and may begin: detour packets ahead of the others (R331). -/
def State.drainLink (s : State) (l : Nat) : State :=
  let b := s.fabric.buffer
  let r := drainLinkGo l (b.filter (fun w => w.packet.pool == 2) ++ b.filter (fun w => w.packet.pool != 2)) s []
  { r.1 with fabric := { r.1.fabric with buffer := r.2 } }

/-- Sends a packet of this device by the route table; an unreachable destination discards it and counts it (R329). The second result
is the status code that a request with ACKREQ completes with. -/
def State.trySend (s : State) (p : Packet) : State × Nat :=
  if p.dst = s.addr then (s.emit (.packet selfLink p), 0)
  else
    match s.chooseLink p with
    | some l => (s.transmit selfLink l p, 0)
    | none => (s.count Reg.FAB_DROP_AGED, 2)

/-- As `trySend`, for a packet whose fate nothing waits for. -/
def State.sendRouted (s : State) (p : Packet) : State := (s.trySend p).1

/-- A packet of this device: HOPS 32 (R319), a tag when it acts for a context and NOTAG otherwise (R318). -/
def State.mkPacket (s : State) (opcode flags dst : Nat) (c : Option Nat) (arg seq : Nat) (payload : Bytes) : Packet :=
  match c with
  | some c => ⟨opcode, flags, dst, s.addr, c, 32, (s.hasp c).gen, (s.hasp c).tag, arg, seq, payloadCrc payload, payload⟩
  | none => ⟨opcode, flags ||| 8, dst, s.addr, 0, 32, 0#16, 0, arg, seq, payloadCrc payload, payload⟩

/-- Sends a management message to another device (MSG, R315), under the tag of the context that it acts for, if there is one (R318). -/
def State.sendMsg (s : State) (dst : Nat) (c : Option Nat) (payload : Bytes) : State :=
  s.sendRouted (s.mkPacket 0x18 0 dst c 0 0 payload)

/-- Sends a control packet on a link that is up: DST is 0xFFFF and it carries no tag (R315, R320). -/
def State.sendControl (s : State) (l opcode arg : Nat) (payload : Bytes) : State :=
  if s.linkUp l then s.emit (.packet l { s.mkPacket opcode 0 0xFFFF none arg 0 payload with hops := 1 }) else s

/-- The answer to a request: it carries the request's tag and SEQ (R316; the tag is DEDUCED, log entry 13). -/
def State.answer (s : State) (q : Packet) (opcode : Nat) (payload : Bytes) : State :=
  s.sendRouted ⟨opcode, q.flags &&& 8, q.src, s.addr, q.ctx, 32, q.gen, q.epoch, if opcode = 0x12 then q.arg else 0, q.seq, payloadCrc payload, payload⟩

/-- ERROR to the source of a request with ACKREQ (R315, R316). -/
def State.answerError (s : State) (q : Packet) (code : Nat) : State :=
  if q.ackReq then s.answer q 0x14 (toLe 1 code ++ toLe 1 q.opcode ++ zeros 2) else s

/-- Refuses a request at its destination: ERROR where it asks for an answer; otherwise the failure is counted only (R316). -/
def State.refuse (s : State) (q : Packet) (code : Nat) : State :=
  if q.ackReq then s.answerError q code else { s with fabric := { s.fabric with failures := s.fabric.failures + 1 } }

/-- A packet that has arrived on a link is no longer under way: what the link granted for its pool is used (R334). -/
def State.landed (s : State) (l : Nat) (p : Packet) : State :=
  if p.pool = 0 then s
  else s.modLink l (fun k => { k with granted := tput k.granted p.poolKey (tget (fun _ => 0) k.granted p.poolKey - p.credits) })

/-- Whether a link carries a packet to the device: it is up, or MISWIRED and the packet a HELLO (R338). -/
def State.linkTakes (s : State) (l : Nat) (b : Bytes) : Bool := s.linkUp l || ((s.link l).state == 5 && byteAt b 0 == 7)

/-- A packet as a switch or a destination takes it from a link: nothing on a link that is not up, one that fails R317 or R318
discarded and counted. -/
def State.accept (s : State) (l : Nat) (b : Bytes) : State × Option Packet :=
  if !s.linkTakes l b then (s, none)
  else if !packetOk b then (s.count Reg.FAB_DROP_CRC, none)
  else
    let p := parsePacket b
    let s := s.landed l p
    if s.stale p then (s.count Reg.FAB_DROP_STALE, none) else (s, some p)

/-- Takes a packet of one opcode that ends here, with the destination's check of PCRC (R317). A packet of another opcode, or for another
device, is not this command's packet and leaves the state as it is (DEDUCED, log entry 14). -/
def State.takePacket (s : State) (l : Nat) (b : Bytes) (opcode : Nat) (f : Packet → State → State) : State :=
  match s.accept l b with
  | (s, none) => s
  | (s, some p) =>
    if p.opcode ≠ opcode ∨ (!p.control ∧ p.dst ≠ s.addr ∧ !(opcode == 1 && !p.detour)) then s
    else if !p.payloadOk then s.count Reg.FAB_DROP_CRC
    else f p s

/-- Takes a MSG whose payload has this type (R9, R317): a payload of another defined type is another command's message, and one of an undefined type is
discarded and counted. -/
def State.takeMsg (s : State) (l : Nat) (b : Bytes) (type : Nat) (f : Bytes → State → State) : State :=
  s.takePacket l b 0x18 (fun p s =>
    let t := u16 p.payload 0
    if t = type then f p.payload s else if 1 ≤ t ∧ t ≤ 4 then s else s.count Reg.FAB_DROP_CRC)

end Sys2Proof.Machine
end

