-- ==== Sys2Proof/Machine/Report.lean ====
section
/-! DEFINITION. What the device reports beyond its registers and rings: management events (R603), and the unit history with its classes, pending fences and permanence notices (R444, R445, R448 to R453). -/

namespace Sys2Proof.Machine

/-- Address of the tick master (R52). -/
def State.masterAddr (s : State) : Nat := s.tick.leader.getD (s.regN Reg.TCK_MASTER % 65536)

/-- A management event to the registered receiver; dropped while there is none (R603). -/
def State.platformEvent (s : State) (n data : Nat) : State :=
  match s.mgmt.receiver with
  | some _ => s.emit (.platformEvent n data)
  | none => s

/-- Whether the supply holds flash and history writes inhibited: any stage but Normal (R570). -/
def State.inhibited (s : State) : Bool := s.pwr.stage != 0

/-- The key of a unit in the history's tables: kind and unit index of R449. -/
def unitKey (kind unit : Nat) : Nat := kind * 2 ^ 24 + unit

/-- Event codes that count toward a class (R449). -/
def countedEvent (code : Nat) : Bool := [0x01, 0x02, 0x03, 0x04, 0x05, 0x06, 0x0B].contains code

/-- Whether a record lies in a window of `w` seconds: by the clock with TIME_VALID, otherwise within the current BOOT (R451). -/
def HistRec.within (r : HistRec) (now boot w : Nat) : Bool := if r.timeValid then decide (now - r.time ≤ w) else r.boot == boot

/-- All records written and waiting to be written. -/
def State.records (s : State) : List HistRec := s.chk.history ++ s.chk.queue

/-- The class of a unit by its counted events (R451); PERMANENT stays until management clears it. -/
def State.classify (s : State) (kind unit : Nat) : Nat :=
  let since := tget (fun _ => 0) s.chk.cleared (unitKey kind unit)
  let ev := s.records.filter (fun r => r.type == 1 && r.kind == kind && r.unit == unit && countedEvent r.event && decide (since ≤ r.seq))
  let n := (ev.filter (fun r => r.within s.mgmt.time s.mgmt.boot 2592000)).length
  if tget (fun _ => 0) s.chk.classes (unitKey kind unit) = 5 ∨ ev.any (fun r => r.reproduced) then 5
  else if 3 ≤ n then 4
  else if n = 2 then 3
  else if n = 1 then (if ev.any (fun r => r.within s.mgmt.time s.mgmt.boot 259200) then 1 else 2)
  else 0

/-- Appends a history record, or queues it while writes are inhibited: 512 entries, the oldest correction count dropped first, then
the oldest event (R450). -/
def State.putRecord (s : State) (r : HistRec) : State :=
  if !s.inhibited && !s.mgmt.restarting then { s with chk := { s.chk with history := s.chk.history ++ [r] } }
  else if s.chk.queue.length < 512 then { s with chk := { s.chk with queue := s.chk.queue ++ [r] } }
  else
    let drop := fun (ty : Nat) => s.chk.queue.findIdx? (fun x => x.type == ty)
    match (drop 2).orElse (fun _ => drop 1) with
    | some i =>
      let s := { s with chk := { s.chk with queue := s.chk.queue.eraseIdx i ++ [r] } }
      (s.count Reg.CHK_HIST_LOST).event Reg.CHK_EVENT 8
    | none => { s with chk := { s.chk with queue := s.chk.queue ++ [r] } }

/-- A history record of now, with the next SEQ and no tag (R449). -/
def State.newRecord (s : State) (type kind unit : Nat) : HistRec :=
  { type := type, kind := kind, seq := s.chk.nextSeq, time := s.mgmt.time, unit := unit, event := 0, cls := 0, timeValid := s.mgmt.timeValid,
    reproduced := false, ctx := 0, gen := 0#16, epoch := 0, id := 0, tick := s.tick.now, detail := zeros 16, boot := s.mgmt.boot }

/-- Tile map of ward `w`: physical tile `i` for index `i`, tile 16 spare, until a map is recorded (R455). -/
def State.tileMap (s : State) (w : Nat) : TileMap := tget (fun _ => ⟨List.range 16, some 16, [], none⟩) s.chk.maps w

/-- The physical tile that carries logical tile `u` (R4). -/
def State.physTile (s : State) (u : Nat) : Nat := (s.tileMap (u / 16)).map.getD (u % 16) (u % 16)

/-- Index of a tile as history unit: physical tile in [12:8], ward in [3:0] (R449). -/
def tileUnit (ward phys : Nat) : Nat := phys * 256 + ward

/-- Marks a ward degraded (R453), with its event record, CHK_EVENT and management event. -/
def State.degradeWard (s : State) (w kind unit : Nat) : State :=
  if s.chk.degraded.contains w then s
  else
    let r := s.newRecord 1 kind unit
    let s := { s with chk := { s.chk with degraded := s.chk.degraded ++ [w], nextSeq := s.chk.nextSeq + 1 } }
    ((s.putRecord { r with event := 0x0D, cls := s.classify kind unit }).event Reg.CHK_EVENT 6).platformEvent 4 w

/-- What a class asks of a unit (R451 to R453): a tile of class 4 or 5 becomes its ward's pending fence, or leaves the ward degraded
without a spare; a ward store, engine or mover degrades its ward; a decoder leaves service (R505). -/
def State.classAction (s : State) (kind unit cls : Nat) : State :=
  if cls < 4 then s
  else if kind = 1 then
    let w := unit % 16
    let p := unit / 256
    let m := s.tileMap w
    if !m.map.contains p then s
    else if m.spare = none then s.degradeWard w kind unit
    else if m.pending.isSome then s
    else { s with chk := { s.chk with maps := tput s.chk.maps w { m with pending := some p } } }
  else if kind = 2 ∨ kind = 3 ∨ kind = 4 then s.degradeWard (unit % 16) kind unit
  else if kind = 10 then s.engineOut (unit % 4)
  else s

/-- Reclasses a unit and does what its class asks (R451). -/
def State.reclass (s : State) (kind unit : Nat) : State :=
  let c := s.classify kind unit
  ({ s with chk := { s.chk with classes := tput s.chk.classes (unitKey kind unit) c } }).classAction kind unit c

/-- Writes an event record against a unit and reclasses it (R449 to R451). -/
def State.unitEvent (s : State) (kind unit code : Nat) (reproduced : Bool) (tag : Option (Nat × Nat)) : State :=
  let r := s.newRecord 1 kind unit
  let r := match tag with
    | some (c, id) => { r with ctx := c, gen := (s.hasp c).gen, epoch := (s.hasp c).tag, id := id }
    | none => r
  let r := { r with event := code, reproduced := reproduced }
  let s := { s with chk := { s.chk with nextSeq := s.chk.nextSeq + 1 } }
  -- the record shows the class after it (R449)
  let cls := ({ s with chk := { s.chk with history := s.chk.history ++ [r] } }).classify kind unit
  (s.putRecord { r with cls := cls }).reclass kind unit

/-- Counts a correctable error of a unit toward its hourly TYPE 2 record (R450). -/
def State.correction (s : State) (kind unit : Nat) : State :=
  let k := unitKey kind unit
  { s with chk := { s.chk with corrections := tput s.chk.corrections k (tget (fun _ => 0) s.chk.corrections k + 1) } }

/-- The contexts whose CTX_WARDS includes ward `w`, as a mask (R445). -/
def State.wardMask (s : State) (w : Nat) : Nat := maskOf (pick 16 (fun c => s.held c && (s.reg (Reg.CTX_WARDS c)).getLsbD w))

/-- The permanence notice of a unit, sent to the tick master as MSG (R445). -/
def State.permanence (s : State) (kind unit ward : Nat) : State :=
  s.sendMsg s.masterAddr none (toLe 2 0x0004 ++ toLe 2 (s.wardMask ward) ++ toLe 2 s.addr ++ toLe 1 kind ++ toLe 1 0 ++ toLe 4 unit)

/-- Makes a unit PERMANENT and sends its notice (R444, R445). -/
def State.makePermanent (s : State) (kind unit : Nat) : State :=
  let s := { s with chk := { s.chk with classes := tput s.chk.classes (unitKey kind unit) 5 } }
  (s.classAction kind unit 5).permanence kind unit (unit % 16)

/-- History unit of a tile, mover or engine number: kind and unit index (R449). -/
def State.histUnit (s : State) (u : Nat) : Nat × Nat :=
  if u < 256 then (1, tileUnit (u / 16) (s.physTile u)) else if u < 272 then (4, u - 256) else (3, u - 272)

/-- CHK_LAST of a mismatch: ward, physical tile (0x1F for an engine) and record ID (R455). -/
def State.setLast (s : State) (u id : Nat) : State :=
  let ward := if u < 256 then u / 16 else u % 16
  s.setRegN Reg.CHK_LAST (ward * 2 ^ 24 + (if u < 256 then s.physTile u else 0x1F) * 2 ^ 16 + id % 2 ^ 16)

/-- Whether a mismatch recurs under R444: same kind, record ID, tick index and physical unit, in the generation after the first. -/
def State.recurs (s : State) (c kind id punit : Nat) : Bool :=
  let h := s.hasp c
  s.chk.lastMismatch.any (fun p => p == (c, kind, id, h.stepTick, punit, (h.gen - 1#16).toNat))

/-- Remembers a mismatch for R444. -/
def State.noteMismatch (s : State) (c kind id punit : Nat) : State :=
  let h := s.hasp c
  { s with chk := { s.chk with lastMismatch := s.chk.lastMismatch ++ [(c, kind, id, h.stepTick, punit, h.gen.toNat)] } }

/-- The verdict of the epoch that the step in progress produces is no longer clean (R443). -/
def State.unclean (s : State) (c : Nat) : State := s.modHasp c (fun h => { h with unclean := h.unclean ++ [h.tag] })

/-- A checksum mismatch (`lane` false, R437) or an engine lane mismatch (R438) of a record: an op fault, poisoned outputs, an event
record against the unit that ran it, and, when it recurs, a PERMANENT unit (R444). -/
def State.sumMismatch (s : State) (c u id : Nat) (lane : Bool) (outs : List Region) : State :=
  let k := s.histUnit u
  let kind := if lane then 1 else 0
  let again := s.recurs c kind id (unitKey k.1 k.2)
  let s := (((s.opFault c u id 0x0B).markAll c outs).unclean c).count Reg.CHK_SUM_COUNT
  let s := ((s.event Reg.CHK_EVENT (if lane then 2 else 0)).setLast u id).noteMismatch c kind id (unitKey k.1 k.2)
  let s := s.unitEvent k.1 k.2 (if lane then 0x03 else 0x01) again (some (c, id))
  if again then (s.event Reg.CHK_EVENT 4).makePermanent k.1 k.2 else s

end Sys2Proof.Machine
end

