-- ==== Sys2Proof/Machine/Mem.lean ====
section
/-! DEFINITION. The memory tiers as records and commands reach them: partition-relative addresses (R136), the adapter window (R289, R290), the guard against late version writes (R72), the stacked DRAM address map and its error handling (R252, R266 to R273), LPDDR errors (R287). -/

namespace Sys2Proof.Machine

/-- Base and size in bytes of a context's partition of a space (R380). -/
def State.partition (s : State) (c space : Nat) : Nat × Nat :=
  let f := fun (v hi : Nat) => (bits v hi 0 * 65536, bits v (16 + hi) 16 * 65536)
  match space with
  | 0 => f (s.regN (Reg.CTX_TS c)) 6
  | 1 => f (s.regN (Reg.CTX_WS c)) 8
  | 2 => f (s.regN (Reg.CTX_STG c)) 8
  | 3 => (s.regN (Reg.CTX_DRAM_BASE c) * 2097152, s.regN (Reg.CTX_DRAM_SIZE c) * 2097152)
  | _ => (s.regN (Reg.CTX_LP_BASE c) * 2097152, s.regN (Reg.CTX_LP_SIZE c) * 2097152)

/-- The memory of a store: a physical tile's, a ward's, staging, stacked DRAM or LPDDR. `unit` is the logical tile in space 0 and the
ward in space 1. -/
def State.store (s : State) (space unit : Nat) : Mem :=
  match space with
  | 0 => tget (fun _ => []) s.stores.tiles (unit / 16 * 17 + s.physTile unit)
  | 1 => tget (fun _ => []) s.stores.wards unit
  | 2 => s.stores.staging
  | 3 => s.stores.dram
  | _ => s.stores.lpddr

/-- A state with the memory of a store replaced. -/
def State.setStore (s : State) (space unit : Nat) (m : Mem) : State :=
  match space with
  | 0 => { s with stores := { s.stores with tiles := tput s.stores.tiles (unit / 16 * 17 + s.physTile unit) m } }
  | 1 => { s with stores := { s.stores with wards := tput s.stores.wards unit m } }
  | 2 => { s with stores := { s.stores with staging := m } }
  | 3 => { s with stores := { s.stores with dram := m } }
  | _ => { s with stores := { s.stores with lpddr := m } }

/-- Slot bytes of the adapter cache of context `c` (R289). -/
def State.adpPitch (s : State) (c : Nat) : Nat := s.regN (Reg.MEM_ADP_PITCH c) * 64

/-- The variant whose window slot holds a stacked DRAM partition address, if the address lies in the adapter window (R289). -/
def State.adpVariant (s : State) (c a : Nat) : Option Nat :=
  let w := s.regN (Reg.MEM_ADP_WIN c) * 2097152
  let p := s.adpPitch c
  if p = 0 ∨ a < w ∨ w + 4096 * p ≤ a then none else some ((a - w) / p)

/-- The frame that holds a variant (R289). -/
def State.adpFrame (s : State) (c v : Nat) : Option Nat := (s.ctx c).adp.frames.findIdx? (fun f => f.variant == some v)

/-- Device address of a partition byte address of a space; none for an adapter slot that no frame holds (R136, R289, R290). -/
def State.devAddr (s : State) (c space a : Nat) : Option Nat :=
  let b := (s.partition c space).1
  match (if space = 3 then s.adpVariant c a else none) with
  | none => some (b + a)
  | some v =>
    let p := s.adpPitch c
    (s.adpFrame c v).map (fun f => b + s.regN (Reg.MEM_ADP_POOL c) * 2097152 + f * p + (a - s.regN (Reg.MEM_ADP_WIN c) * 2097152) % p)

/-- Whether an extent of a context's partition touches an adapter slot that no frame holds (R290). -/
def State.adpMiss (s : State) (c space a n : Nat) : Bool :=
  space == 3 && n != 0 &&
    (match s.adpVariant c a, s.adpVariant c (a + n - 1) with
     | none, none => false
     | x, y => (pick 4096 (fun v => decide ((x.getD 0) ≤ v ∧ v ≤ (y.getD 4095)))).any (fun v => (s.adpFrame c v).isNone))

/-- `n` bytes of a context's partition (R136); a byte that no frame holds reads as 0 and is poison (R290). -/
def State.rd (s : State) (c space unit a n : Nat) : Bytes :=
  if space = 3 ∧ ((s.adpVariant c a).isSome ∨ (s.adpVariant c (a + n - 1)).isSome) then
    (List.range n).map (fun i => match s.devAddr c 3 (a + i) with | some d => mget s.stores.dram d | none => 0#8)
  else mread (s.store space unit) ((s.partition c space).1 + a) n

/-- Writes bytes into a context's partition, with no guard. -/
def State.wrRaw (s : State) (c space unit a : Nat) (b : Bytes) : State :=
  if space = 3 ∧ ((s.adpVariant c a).isSome ∨ (s.adpVariant c (a + b.length - 1)).isSome) then
    { s with stores := { s.stores with dram := (List.zip (List.range b.length) b).foldl (fun m p =>
        match s.devAddr c 3 (a + p.1) with | some d => mset m d p.2 | none => m) s.stores.dram } }
  else s.setStore space unit (mwrite (s.store space unit) ((s.partition c space).1 + a) b)

/-- Whether an extent overlaps a half of a two-half region. -/
def Ledger.overlaps (l : Ledger) (space unit a n : Nat) : Bool :=
  l.space == space && (space != 1 || l.unit == unit) &&
    [l.base, l.base + l.half * 64].any (fun b => decide (a < b + l.size ∧ b < a + n))

/-- Whether the guard of R72 holds for a context: from tick 4 of a step, while the epoch of the previous step is uncommitted. -/
def State.lateWrites (s : State) (c : Nat) : Bool :=
  let h := s.hasp c
  h.stepOpen && decide (4 ≤ h.stepTick) && decide (h.epoch + 1 < h.stepEpoch)

/-- A record's write: suppressed and poisoned when R72 or an adapter miss (R290) asks for it. -/
def State.wr (s : State) (c space unit a : Nat) (b : Bytes) : State :=
  if s.adpMiss c space a b.length then (s.markPoison c ⟨space, unit, a, b.length⟩).event (Reg.MEM_ADP_EVENT c) 1
  else if s.lateWrites c && (space == 1 || space == 3) && ((s.arenas c).any (fun l => l.overlaps space unit a b.length) || (space == 3 && (s.adpVariant c a).isSome)) then
    s.markPoison c ⟨space, unit, a, b.length⟩
  else s.wrRaw c space unit a b

/-- Vault, layer, bank and row of a stacked DRAM device address (R252). -/
def dramLoc (a : Nat) : Nat × Nat × Nat × Nat :=
  (bits a 16 11 ^^^ bits a 31 26, bits a 25 23, bits a 22 19 ^^^ bits a 35 32, bits a 37 26)

/-- Bank number vault * 128 + layer * 16 + bank of a device address (R276). -/
def dramBank (a : Nat) : Nat := let l := dramLoc a; l.1 * 128 + l.2.1 * 16 + l.2.2.1

/-- Row number bank * 4,096 + row of a device address, the key of the row tables. -/
def dramRow (a : Nat) : Nat := dramBank a * 4096 + (dramLoc a).2.2.2

/-- Whether a device extent touches a fenced row (R272). -/
def State.fencedExtent (s : State) (a n : Nat) : Bool :=
  !s.stack.fenced.isEmpty && (List.range (cdiv (a % 2048 + n) 2048)).any (fun i => s.stack.fenced.contains (dramRow (a / 2048 * 2048 + 2048 * i)))

/-- Latches the location of a stacked DRAM error (MEM_STK_ERR_ADDR, MEM_STK_ERR_LOC). -/
def State.setErrLoc (s : State) (a : Nat) (ue : Bool) : State :=
  let l := dramLoc a
  (s.setRegN Reg.MEM_STK_ERR_ADDR (a / 64)).setRegN Reg.MEM_STK_ERR_LOC
    (b2n ue * 2 ^ 31 + l.1 * 2 ^ 23 + l.2.1 * 2 ^ 20 + l.2.2.1 * 2 ^ 16 + l.2.2.2)

/-- Counts a row against a symbol position of a vault; 64 different rows are a lane fault (R268). -/
def State.laneCount (s : State) (vault sym row : Nat) : State :=
  let k := vault * 256 + sym
  let rows := tget (fun _ => []) s.stack.lanes k
  if rows.contains row ∨ s.stack.laneFaults.contains k then s
  else
    let s := { s with stack := { s.stack with lanes := tput s.stack.lanes k (rows ++ [row]) } }
    if rows.length + 1 < 64 then s
    else
      let s := { s with stack := { s.stack with laneFaults := s.stack.laneFaults ++ [k] } }
      (s.event Reg.MEM_STK_EVENT 7).unitEvent 6 (vault * 2 ^ 16 + sym) 0x07 false none

/-- CE_THRESH (R276). -/
def State.ceThresh (s : State) : Nat := max 1 (bits (s.regN Reg.MEM_STK_CTRL) 15 8)

/-- Spare rows left in a bank (R251, R276). -/
def State.sparesLeft (s : State) (bank : Nat) : Nat := tget (fun _ => 128) s.stack.spares bank

/-- The symbols of a beat in error, each once: the symbol code does not see what the layer corrected inside itself (R265). -/
def badSymbols (e : MemErr) : List Nat := (e.symbols.filter (fun i => decide (i < 136))).eraseDups

/-- Whether a symbol position of a beat's vault is under a lane fault (R268). -/
def State.laneFaulty (s : State) (a sym : Nat) : Bool := s.stack.laneFaults.contains ((dramLoc a).1 * 256 + sym)

/-- What the symbol code makes of a beat (R265, R268). -/
inductive Beat where
  | clean | corrected | detected | escaped
  deriving DecidableEq, Repr

/-- The fate of a beat: up to 3 symbols are corrected and up to 5 detected; with a lane fault in the vault, 2 and 4 besides the faulty lane. An
error beyond that is a free choice between detection and escape (log entry 2). -/
def State.beat (s : State) (e : MemErr) : Beat :=
  let lane := s.stack.laneFaults.any (fun k => k / 256 == (dramLoc e.addr).1)
  let n := ((badSymbols e).filter (fun i => !s.laneFaulty e.addr i)).length
  if (badSymbols e).isEmpty then .clean
  else if n ≤ (if lane then 2 else 3) then .corrected
  else if n ≤ (if lane then 4 else 5) then .detected
  else if Config.escapes s.fresh e.addr e.symbols then .escaped else .detected

/-- A correctable stacked DRAM error (R266), with the remap threshold of R270 and R272: a beat counts toward its row unless every symbol in
error lies in a faulty lane (R268). -/
def State.dramCe (s : State) (e : MemErr) : State :=
  let a := e.addr
  let row := dramRow a
  let s := (((s.count Reg.MEM_STK_CE_TOTAL).event Reg.MEM_STK_EVENT 3).setErrLoc a false).correction 5 (dramBank a)
  if (badSymbols e).all (s.laneFaulty a) then s else
    let n := tget (fun _ => 0) s.stack.ce row + 1
    let s := { s with stack := { s.stack with ce := tput s.stack.ce row n } }
    if n < s.ceThresh ∨ s.stack.scheduled.contains row ∨ s.stack.pending.contains row then s
    else if s.sparesLeft (dramBank a) = 0 then s.event Reg.MEM_STK_EVENT 6
    else { s with stack := { s.stack with scheduled := s.stack.scheduled ++ [row] } }

/-- Writes a remap record of a row (R273, R449): the spare row that it takes, and 0 remapped on the fly, 1 pending, 2 remapped at reset, 3
fenced. -/
def State.remapRecord (s : State) (row spare code : Nat) : State :=
  let bank := row / 4096
  let r := { s.newRecord 3 5 bank with cls := tget (fun _ => 0) s.chk.classes (unitKey 5 bank), detail := toLe 2 (row % 4096) ++ toLe 1 spare ++ toLe 1 code ++ zeros 12 }
  ({ s with chk := { s.chk with nextSeq := s.chk.nextSeq + 1 } }).putRecord r

/-- A row joins the pending list (R267, R270); a second uncorrectable read of a row on it makes the device report degraded. -/
def State.pendRow (s : State) (row : Nat) : State :=
  if s.stack.pending.contains row then { s with stack := { s.stack with tooBad := true } }
  else { s with stack := { s.stack with pending := s.stack.pending ++ [row], scheduled := s.stack.scheduled.filter (fun r => r != row) } }.remapRecord row 0 1

/-- An uncorrectable stacked DRAM error (R267): counted, located, recorded, and the row joins the pending list. -/
def State.dramUe (s : State) (a : Nat) : State :=
  ((((s.count Reg.MEM_STK_UE_TOTAL).event Reg.MEM_STK_EVENT 4).setErrLoc a true).unitEvent 5 (dramBank a) 0x06 false none).pendRow (dramRow a)

/-- The symbols of a beat count toward their lanes, whether or not the beat could be corrected (R268). -/
def State.beatLanes (s : State) (e : MemErr) : State := s.over (badSymbols e) (fun s i => s.laneCount (dramLoc e.addr).1 i (dramRow e.addr))

/-- What the device does about a beat read with errors, its fate being known (R265 to R268): on-die corrections go to the history store alone. -/
def State.noteBeat (s : State) (e : MemErr) (b : Beat) : State :=
  let s := s.over (List.range e.onDie) (fun s _ => s.correction 5 (dramBank e.addr))
  match b with
  | .clean => s
  | .escaped => s
  | .corrected => (s.dramCe e).beatLanes e
  | .detected => (s.dramUe e.addr).beatLanes e

/-- The stacked DRAM errors that a read meets, in order; what may escape the code is drawn once for the read. -/
def State.dramErrs (s : State) (es : List MemErr) : State :=
  let fate := es.map (fun e => (e, s.beat e))
  let t := s.over fate (fun t p => t.noteBeat p.1 p.2)
  if es.isEmpty then t else t.draw.2

/-- Whether some beat of a read is found uncorrectable. -/
def State.anyUe (s : State) (es : List MemErr) : Bool := es.any (fun e => s.beat e == .detected)

/-- The 128 bytes of each beat whose error escapes the code read as free bytes (R265, log entry 2). -/
def State.escapeBytes (s : State) (es : List MemErr) : State :=
  s.over (es.filter (fun e => s.beat e == .escaped)) (fun t e =>
    { t with stores := { t.stores with dram := mwrite t.stores.dram (e.addr / 128 * 128) ((List.range 128).map (fun i => Config.freeByte s.fresh (e.addr / 128 * 128 + i))) } })

/-- Posts MEM_ERROR on the context's event ring (R267, R524). -/
def State.memErrorEvent (s : State) (c : Nat) : State :=
  s.postEvent c 0x0008 0 (s.hasp c).tag 0 (s.regN Reg.MEM_STK_ERR_LOC + s.regN Reg.MEM_STK_ERR_ADDR * 2 ^ 32)

/-- LPDDR channel of a device address (R279). -/
def lpChannel (b : Nat) : Nat := bits b 15 11 ^^^ bits b 20 16

/-- A failed LPDDR read: UE, its count, and an event against the channel (R287, R449). -/
def State.lpUe (s : State) (channel : Nat) : State :=
  ((s.count Reg.MEM_LP_UE_TOTAL).event Reg.MEM_LP_EVENT 2).unitEvent 7 channel 0x08 false none

/-- The LPDDR bursts that a read meets with an error (R287): link ECC corrects a single bit, and counts it. -/
def State.lpErrs (s : State) (es : List LpErr) : State :=
  s.over es (fun s e => if e.failed then s.lpUe (lpChannel e.addr) else (s.count Reg.MEM_LP_CE_TOTAL).correction 7 (lpChannel e.addr))

/-- Whether some LPDDR burst of a read failed. -/
def anyLpUe (es : List LpErr) : Bool := es.any (fun e => e.failed)

/-- Kind and index in the unit history of the SRAM that an error names (R102, R449). -/
def sramUnit (e : SramErr) : Nat × Nat :=
  match e.space with
  | 0 => (1, tileUnit (e.unit / 17) (e.unit % 17))
  | 1 => (2, e.unit)
  | 2 => (11, 0)
  | _ => (11, 1)

/-- The SRAM errors that a read meets (R102): a single bit is corrected and counted, a double one is an event against the unit, with the tag and
record given. -/
def State.sramErrs (s : State) (es : List SramErr) (tag : Option (Nat × Nat)) : State :=
  s.over es (fun s e => let k := sramUnit e; if e.double then s.unitEvent k.1 k.2 0x05 false tag else s.correction k.1 k.2)

/-- Whether some SRAM error of a read is uncorrectable. -/
def anySram (es : List SramErr) : Bool := es.any (fun e => e.double)

/-- What a read of the device's own, outside any record, makes of the errors that it meets. -/
def State.noteErrs (s : State) (es : ReadErrs) : State := ((s.sramErrs es.sram none).dramErrs es.dram).lpErrs es.lp

/-- Whether a read meets an error that no code corrects. -/
def State.readFails (s : State) (es : ReadErrs) : Bool := anySram es.sram || s.anyUe es.dram || anyLpUe es.lp

/-- Zeroes a device extent of a store. -/
def State.zeroExtent (s : State) (space unit a n : Nat) : State := s.setStore space unit (mzero (s.store space unit) a n)

/-- Whether an extent lies in a context's partition, the adapter window counting as part of it (R136, R289). -/
def State.inPart (s : State) (c space a n : Nat) : Bool :=
  decide (a + n ≤ (s.partition c space).2) ||
    (space == 3 && n != 0 && (s.adpVariant c a).isSome && (s.adpVariant c (a + n - 1)).isSome)

/-- Whether an extent of a context's partition delivers poison when it is read: it meets a fenced row (R272) or an adapter slot that no frame holds
(R290). -/
def State.sourcePoison (s : State) (c space a n : Nat) : Bool :=
  space == 3 && (s.adpMiss c 3 a n || (match s.devAddr c 3 a with | some d => s.fencedExtent d n | none => true))

end Sys2Proof.Machine
end

