-- ==== Sys2Proof/Machine/Record.lean ====
section
/-! DEFINITION. What every op record shares: the head (R132, R133), the logical index (R141), operand regions (R634), issue and the CTX check (R134), digests (R137, R439), what a record's faults do to its outputs (R102, R166, R267, R437), and its place in its unit's queue until it retires (R23). -/

namespace Sys2Proof.Machine

/-- CLASS. -/
def recClass (r : Bytes) : Nat := byteAt r 0
/-- FLAGS [1] DIGEST. -/
def recDigest (r : Bytes) : Bool := bit (byteAt r 1) 1
/-- FLAGS [2] SHADOW. -/
def recShadow (r : Bytes) : Bool := bit (byteAt r 1) 2
/-- FLAGS [3] ARG. -/
def recArg (r : Bytes) : Bool := bit (byteAt r 1) 3
/-- FLAGS [4] NEXT_VARIANT. -/
def recNext (r : Bytes) : Bool := bit (byteAt r 1) 4
/-- OFFSET in 16-tc units. -/
def recOffset (r : Bytes) : Nat := le r 2 3
/-- LENGTH in 16-tc units. -/
def recLength (r : Bytes) : Nat := le r 5 3
/-- CTX. -/
def recCtx (r : Bytes) : Nat := byteAt r 8 % 16
/-- DSLOT. -/
def recDslot (r : Bytes) : Nat := byteAt r 8 / 16
/-- ROUND [1:0]. -/
def recRound (r : Bytes) : Nat := byteAt r 9 % 4
/-- SAT. -/
def recSat (r : Bytes) : Bool := bit (byteAt r 9) 2
/-- ID. -/
def recId (r : Bytes) : Nat := u16 r 10
/-- STREAM. -/
def recStream (r : Bytes) : Nat := u32 r 12

/-- Size in bytes that a class fixes; 0 for a reserved class (R133). -/
def classSize (c : Nat) : Nat :=
  if [0x01, 0x02, 0x03, 0x04, 0x05, 0x07, 0x08, 0x09, 0x0B].contains c then 128
  else if [0x06, 0x0A, 0x0C, 0x0D, 0x0E, 0x0F, 0x10].contains c then 64
  else if 0x20 ≤ c ∧ c ≤ 0x29 then 128 else 0

/-- Whether a unit may run a class (R133): tiles 0 to 255, movers 256 to 271, engines 272 to 287. -/
def classOn (c u : Nat) : Bool :=
  if c = 0x0F then true
  else if c = 0x0E then 256 ≤ u && u < 272
  else if 0x20 ≤ c ∧ c ≤ 0x29 then 272 ≤ u
  else u < 256

/-- Whether a class performs no narrowing conversion, so that ROUND and SAT must be 0 (R133). -/
def classNoRound (c : Nat) : Bool := [0x06, 0x0A, 0x0C, 0x0D, 0x0E, 0x0F, 0x10, 0x24].contains c

/-- The rules of R132, R133, R137 and R138 on a record's head, on unit `u`. -/
def headLegal (r : Bytes) (u : Nat) : Bool :=
  let c := recClass r
  classSize c == r.length && recLen r == r.length && classOn c u && decide (1 ≤ recLength r) && byteAt r 1 < 32 && byteAt r 9 < 8 &&
    recRound r != 3 && (!classNoRound c || byteAt r 9 == 0) && (!(recDigest r || recShadow r) || decide (1 ≤ c ∧ c ≤ 0x0B)) &&
    (!recShadow r || recDigest r) && (!recNext r || c == 0x0E)

/-- Rows of `len` bytes, `pitch` apart; one region when they lie back to back (R634). -/
def rowRegions (space unit base pitch n len : Nat) : List Region :=
  if n = 0 ∨ len = 0 then []
  else if pitch = len ∨ n = 1 then [⟨space, unit, base, n * len⟩]
  else (List.range n).map (fun i => ⟨space, unit, base + i * pitch, len⟩)

/-- Whether regions in a tile store lie in its 6 MiB: an address above is illegal (R100). -/
def regionsFit (rs : List Region) : Bool := rs.all (fun r => r.space != 0 || decide (r.addr + r.len ≤ 0x600000))

/-- Whether two regions share a byte. -/
def Region.meets (a b : Region) : Bool :=
  a.space == b.space && (a.unit == b.unit || 2 ≤ a.space) && decide (a.addr < b.addr + b.len ∧ b.addr < a.addr + a.len)

/-- One write of a record. -/
structure Wr where
  space : Nat
  unit : Nat
  addr : Nat
  data : Bytes
  deriving DecidableEq, Repr

/-- What a record's run produces: its writes, region by region in field-table order (R439), indices met out of range (R156), an
undefined encoding in a rule or schedule block (R230), and non-finite results to report (R229). -/
structure RunOut where
  groups : List (List Wr)
  range : Nat := 0
  malformed : Bool := false
  nonfinite : Bool := false
  deriving DecidableEq, Repr

/-- What a run reads of its surroundings: context, unit, Helwa seed and epoch, stream, rounding mode and SAT. -/
structure RunCtx where
  c : Nat
  u : Nat
  seed : Nat
  epoch : Nat
  stream : Nat
  mode : Rnd
  sat : Bool
  deriving DecidableEq, Repr

/-- The frame argument of the tick that context `c` runs (R25). -/
def State.frameArg (s : State) (c : Nat) : Nat :=
  let h := s.hasp c
  if h.loaded ∧ h.stepOpen then (imgTick (s.ctx c).image h.variant h.stepTick).2 else 0

/-- The surroundings of a record of context `c` on unit `u`, with ARG applied to STREAM (R128, R131, R135). -/
def State.runCtx (s : State) (c u : Nat) (r : Bytes) : RunCtx :=
  let h := s.hasp c
  ⟨c, u, h.seed.toNat, h.tag, (recStream r + (if recArg r then s.frameArg c else 0)) % 2 ^ 32, Rnd.of (recRound r), recSat r⟩

/-- The logical index of an LDESC at byte `o` of a record (R141). -/
def ldesc (r : Bytes) (o b row col : Nat) : Nat := (u64 r o + b * u32 r (o + 12) + row * u32 r (o + 8) + col) % 2 ^ 64

/-- The 16-bit random value of an element for stochastic rounding (R130). -/
def RunCtx.rand (k : RunCtx) (idx : Nat) : Nat := helwa k.seed k.stream k.epoch idx % 65536

/-- Converts a value to a plain format of a record code in the head's mode (R109 to R113). -/
def RunCtx.cvt (k : RunCtx) (code idx : Nat) (x : Fp) : Nat :=
  (plainFmt code).convert k.mode k.sat (if k.mode = .sr then k.rand idx else 0) x

/-- Converted element as its bytes. -/
def RunCtx.out (k : RunCtx) (code idx : Nat) (x : Fp) : Bytes := toLe (fmtBytes code) (k.cvt code idx x)

/-- The value of a plain element of a tile store or another space. -/
def State.val (s : State) (c space unit code a : Nat) : Fp :=
  (plainFmt code).decode (le (s.rd c space unit a (fmtBytes code)) 0 (fmtBytes code))

/-- The digest of folded bytes (R439). -/
def digestWords : Bytes → Nat → Nat → Nat
  | _, 0, d => d
  | b, n + 1, d =>
    let x := ((d ^^^ le b 0 8) * 0x9E3779B97F4A7C15) % 2 ^ 64
    digestWords (b.drop 8) n (x ^^^ (x >>> 29))

/-- The digest of R439 over a byte string. -/
def digestOf (b : Bytes) : W64 := BitVec.ofNat 64 (digestWords b (cdiv b.length 8) 0 ^^^ b.length)

/-- The bytes of an output region's writes in increasing address order; a byte written twice counts once, with its last value. -/
def foldedBytes (ws : List Wr) : Bytes :=
  (ws.foldl (fun (m : List (Nat × Byte)) w => (List.zip (List.range w.data.length) w.data).foldl (fun m p => tput m (w.addr + p.1) p.2) m) []).map (·.2)

/-- Context that the ward of a unit serves by the SELECTOR in force (R42, R134). -/
def State.selected (s : State) (u : Nat) : Nat :=
  let w := if u < 256 then u / 16 else u % 16
  bits s.tick.selector.toNat (4 * w + 3) (4 * w)

/-- Whether units of the context begin records now: a run tick (R386, R388) of a device in Run, whose tiles are not idle (R564), no supply Hold, nor a step
whose tick 0 fell in one (R571), and no permute step (R372). -/
def State.issues (s : State) (c : Nat) : Bool := (s.hasp c).run && s.pwr.rung == 0 && !s.pwr.hold && !(s.hasp c).holdWait && decide ((s.ctx c).perm.state < 2)

/-- Whether a record runs passes of an array, which the checksum unit checks (R182, R214, R435): matmul, convolution, attention but for APPEND,
and the matrix products of an engine. -/
def recSums (r : Bytes) : Bool :=
  match recClass r with
  | 0x01 => true
  | 0x07 => byteAt r 16 == 0
  | 0x08 => byteAt r 16 % 4 != 2
  | c => decide (0x25 ≤ c ∧ c ≤ 0x28)

/-- Whether a record computes element-wise results on an update engine, in two lanes (R438). -/
def recLanes (r : Bytes) : Bool := decide (0x20 ≤ recClass r ∧ recClass r ≤ 0x29) && recClass r != 0x24

/-- The region of a write. -/
def Wr.region (w : Wr) : Region := ⟨w.space, w.unit, w.addr, w.data.length⟩

/-- Bytes of a list of regions in one space. -/
def regionBytes (rs : List Region) (space : Nat) : Nat := ((rs.filter (fun r => r.space == space)).map (fun r => r.len)).foldl (· + ·) 0

/-- Whether a record's reads meet a fenced row (R272) or an adapter slot that no frame holds (R290). -/
def State.readsPoison (s : State) (c : Nat) (rs : List Region) : Bool :=
  rs.any (fun r => s.sourcePoison c r.space r.addr r.len)

/-- What uncorrectable SRAM words that a record reads do (R102): an op fault, poisoned outputs, and an event against each unit. -/
def State.sramFaults (s : State) (c u id : Nat) (es : List SramErr) (outs : List Region) : State :=
  let s := if anySram es then ((s.opFault c u id 0x0B).markAll c outs).unclean c else s
  s.sramErrs es (some (c, id))

/-- What poison that a record reads does (R267, R272, R287, R290): every region it writes is poisoned, and a memory-error event posted. -/
def State.readFaults (s : State) (c : Nat) (es : ReadErrs) (reads outs : List Region) : State :=
  let bad := s.anyUe es.dram || anyLpUe es.lp || s.readsPoison c reads
  let s := ((s.dramErrs es.dram).lpErrs es.lp).eventIf (reads.any (fun r => s.adpMiss c r.space r.addr r.len)) (Reg.MEM_ADP_EVENT c) 1
  if bad then (s.markAll c outs).memErrorEvent c else s

/-- A record that has run: its writes made unless SHADOW, its digest folded, its faults applied to its outputs, and its place in the
unit's queue taken until it retires. -/
def State.afterRun (s : State) (c u : Nat) (r : Bytes) (env : RunEnv) (reads outs : List Region) (o : RunOut) : State :=
  let id := recId r
  let outs := if recShadow r then [] else outs
  let s := if recDigest r then s.modUnit u (fun x => { x with digests := tput x.digests (recDslot r) (digestOf (o.groups.map foldedBytes).flatten) }) else s
  let s := s.readFaults c env.errs reads outs
  let s := if recShadow r ∨ o.malformed then s else s.over o.groups.flatten (fun s w => s.wr c w.space w.unit w.addr w.data)
  let s := (s.account c 4 (regionBytes reads 3 + regionBytes outs 3)).account c 5 (regionBytes reads 4 + regionBytes outs 4)
  let s := s.over (List.range o.range) (fun s _ => (s.count Reg.TCK_RANGE).opFault c u id 0x01)
  let s := if o.malformed then (s.opFault c u id 0x07).markAll c outs else s
  let s := if o.nonfinite then (s.event (Reg.UPD_EVENT c) 3).postEvent c 0x0009 0 (s.hasp c).tag id 0 else s
  let s := s.sramFaults c u id env.errs.sram outs
  let s := if env.sumBad && recSums r then s.sumMismatch c u id false outs else s
  let s := if env.laneBad && recLanes r then s.sumMismatch c u id true outs else s
  s.modUnit u (fun x => { x with queue := x.queue ++ [⟨r, c, (s.hasp c).gen, (s.hasp c).tag, outs, outs, false⟩] })

/-- Whether a ward is in reset or has not returned to service (R551, R552). -/
def State.wardGone (s : State) (w : Nat) : Bool := s.rst.wardBusy.contains w || s.rst.returning.contains w

/-- Whether a unit's ward is in reset or has not returned to service (R551, R552). -/
def State.wardOut (s : State) (u : Nat) : Bool := s.wardGone (if u < 256 then u / 16 else u % 16)

/-! The op sequencers (R23, R26, R38). -/

/-- Records that a unit has begun in the tick. -/
def UnitSt.begun (x : UnitSt) : Nat := x.retired + x.queue.length

/-- Store unit of a program or entry region: the tile itself, or the ward of its mover or engine. -/
def Ledger.seqUnit (l : Ledger) : Nat := if l.space = 0 then l.unit else l.unit % 16

/-- Where the sequencer of unit `u` reads context `c`'s records in the tick in progress, as space, store unit and address: tick `t` ≥ 1 from half
`t` mod 2 of the program region (R26), tick 0 from the half of the entry region that the epoch of the step selects (R38). -/
def State.seqAt (s : State) (c u : Nat) : Option (Nat × Nat × Nat) :=
  let h := s.hasp c
  let first := h.stepTick == 0
  ((s.ledger c).find? (fun l => l.kind == (if first then 4 else 3) && l.unit == u)).map (fun l => (l.space, l.seqUnit, l.halfAt (if first then h.stepEpoch else h.stepTick)))

/-- Records that the frame directory gives unit `u` for the tick in progress (R26, R30). -/
def State.seqCount (s : State) (c u : Nat) : Nat :=
  match s.frameOf c with
  | some p => (imgDirEnt (s.ctx c).image p.1 p.2 u).2
  | none => 0

/-- `n` records lying back to back in a store. -/
def State.recsFrom (s : State) (c space unit : Nat) : Nat → Nat → List Bytes
  | _, 0 => []
  | a, n + 1 =>
    let l := if bit (byteAt (s.rd c space unit (a + 1) 1) 0) 0 then 128 else 64
    s.rd c space unit a l :: s.recsFrom c space unit (a + l) n

/-- At most `n` of the records that the sequencer of unit `u` has still to read in the tick. -/
def State.seqRest (s : State) (c u n : Nat) : List Bytes :=
  match s.seqAt c u with
  | some p => s.recsFrom c p.1 p.2.1 (p.2.2 + (s.unit u).read) (min n (s.seqCount c u - (s.unit u).begun))
  | none => []

/-- The record that the sequencer of unit `u` hands out next, while the unit runs none (R23: records begin in order, each after its predecessor has
retired). -/
def State.seqNext (s : State) (c u : Nat) : Option Bytes := if (s.unit u).queue.isEmpty then (s.seqRest c u 1).head? else none

/-! Issue. -/

/-- The sequencer moves past a record that it has handed out. -/
def State.takeRecord (s : State) (u : Nat) (r : Bytes) : State := s.modUnit u (fun x => { x with read := x.read + recLen r })

/-- A record that does not run: its unit is done with it, and an op fault names it. -/
def State.refuseRecord (s : State) (c u : Nat) (r : Bytes) (code : Nat) : State :=
  (s.modUnit u (fun x => { x with retired := x.retired + 1 })).opFault c u (recId r) code

/-- A record whose CTX differs from the context of its ward: not run, the context poisoned, an op fault (R134). The context meant is the record's
(DESIGN CHOICE, log entry 39). -/
def State.ctxClash (s : State) (c u : Nat) (r : Bytes) : State := (s.poisonCtx c).refuseRecord c u r 0x07

/-- The state in which a record begins: its sequencer is past it, and TUMBLER_LATE is set where it begins after its tumbler because its predecessor retired
late (R62). -/
def State.issued (s : State) (u : Nat) (r : Bytes) (late : Bool) : State :=
  (s.takeRecord u r).eventIf (late && decide (0 < (s.unit u).begun)) Reg.TCK_EVENT 1

/-- Issues record `r` on unit `u` (R23, R26, R134): it must be what the sequencer hands out, in a run tick. A CTX that differs is a fault. A record
that breaks the rules of its class, or names bytes or bolts outside its context's, cannot come from an image that passed checks 6 and 11; where a
store no longer holds what the plan placed there it is rejected whole with the code of that check (R9, R40, R166; DEDUCED, log entry 40).
Otherwise the record does what `go` says for its context. `late` says that it begins after its tumbler. -/
def issueG (u : Nat) (r : Bytes) (late legal reach : Bool) (regions : List Region) (go : Nat → State → State) (s : State) : Host.Outcome State Fault Refusal :=
  let c := recCtx r
  let sel := s.selected u
  if !s.issues sel ∨ s.wardOut u ∨ s.seqNext sel u ≠ some r then .next s
  else
    .next (
      if c ≠ sel then (s.takeRecord u r).ctxClash c u r
      else if !(headLegal r u && legal && regionsFit regions) then (s.takeRecord u r).refuseRecord c u r 0x07
      else if !(reach && regions.all (fun g => s.inPart c g.space g.addr g.len)) then (s.takeRecord u r).refuseRecord c u r 0x08
      else go c (s.issued u r late))

/-- Issues a record that reads its operands, computes `out` and writes its outputs. An error that escapes the symbol code changes what it reads. -/
def issue (u : Nat) (r : Bytes) (env : RunEnv) (legal : Bool) (reads writes : List Region) (out : State → RunCtx → RunOut) (s : State) :
    Host.Outcome State Fault Refusal :=
  issueG u r env.late legal true (reads ++ writes) (fun c s => s.afterRun c u r env reads writes (out (s.escapeBytes env.errs.dram) (s.runCtx c u r))) s

end Sys2Proof.Machine
end

