-- ==== Sys2Proof/Machine/TileOps.lean ====
section
/-! DEFINITION. The arithmetic that tile records share: MX planes (R107, R114 to R118), the cell accumulation (R121 to R123), the vector unit's reductions (R125), the rotation stage (R119), argmax (R179). -/

namespace Sys2Proof.Machine

/-- Element code `k` of a row of an MX element plane with elements of `w` bits (R107). -/
def mxCode (row : Bytes) (w k : Nat) : Nat := (le row (w * k / 8) 2 >>> (w * k % 8)) % 2 ^ w

/-- The value of an MX element under its block's scale byte; scale 0xFF stands for NaN (R107, R117, R118). -/
def mxVal (code e scale : Nat) : Fp := if scale = 0xFF then .nan else ((mxElem code).decode e).scale ((scale : Int) - 127)

/-- Packs `w`-bit element codes into bytes, element j in bits [w j + w - 1 : w j] (R107). -/
def mxPack (w : Nat) (codes : List Nat) : Bytes :=
  toLe (w * codes.length / 8) (codes.reverse.foldl (fun acc c => acc * 2 ^ w + c % 2 ^ w) 0)

/-- Operand element (b, row, col) of a stored matrix: a plain element, or an MX one whose scale plane is dense with `rows` rows of
kdim / 32 bytes per batch entry (R144, R145). -/
def State.opVal (s : State) (k : RunCtx) (fmt addr saddr ld bst rows kdim b row col : Nat) : Fp :=
  let base := addr + b * bst + row * ld
  if isMx fmt then
    let w := mxWidth fmt
    let bytes := s.rd k.c 0 k.u (base + w * col / 8) 2
    let e := (le bytes 0 2 >>> (w * col % 8)) % 2 ^ w
    mxVal fmt e (byteAt (s.rd k.c 0 k.u (saddr + (b * rows + row) * (kdim / 32) + col / 32) 1) 0)
  else s.val k.c 0 k.u fmt (base + col * fmtBytes fmt)

/-- One cell: the sum over k of `term k`, `rho` terms to a group, each group rounded once (R121, R122); the last group is completed
with +0 products. -/
def dotAcc (rho : Nat) (init : Fp) (n : Nat) (term : Nat → Fp) : Fp :=
  (List.range (cdiv n rho)).foldl (fun acc g =>
    r32 (fsum (acc :: (List.range rho).map (fun t => if g * rho + t < n then term (g * rho + t) else fpZero)))) init

/-- Pairs neighbours of a list (R125). -/
def pairUp {α : Type} (f : α → α → α) : List α → List α
  | a :: b :: t => f a b :: pairUp f t
  | l => l

/-- Applies the binary tree of R125, level by level. -/
def treeFold {α : Type} (f : α → α → α) : Nat → List α → List α
  | 0, l => l
  | n + 1, l => treeFold f n (pairUp f l)

/-- A vector-unit reduction (R125): 128 lanes, each from its first term `t0` and folded by `step`, then a tree by `comb`. -/
def laneReduce (ident : Fp) (t0 : Fp → Fp) (step : Fp → Fp → Fp) (comb : Fp → Fp → Fp) (xs : List Fp) : Fp :=
  let lane := fun L =>
    match pick xs.length (fun i => i % 128 == L) with
    | [] => ident
    | i :: t => t.foldl (fun acc j => step acc (xs.getD j fpZero)) (t0 (xs.getD i fpZero))
  (treeFold comb 7 ((List.range 128).map lane)).headD ident

/-- Sum of R125. -/
def vsum (xs : List Fp) : Fp := laneReduce fpZero id fadd fadd xs
/-- Maximum of R125. -/
def vmax (xs : List Fp) : Fp := laneReduce (.inf true) id fmax fmax xs
/-- Minimum of R125. -/
def vmin (xs : List Fp) : Fp := laneReduce (.inf false) id fmin fmin xs
/-- Sum of squares of R125. -/
def vsumsq (xs : List Fp) : Fp := laneReduce fpZero (fun x => fmulR x x) (fun a x => fma x x a) fadd xs

/-- FP32(1 / n) in RNE (R151, R176). -/
def rnOf (n : Nat) : Fp := r32 (fdiv fpOne (.fin false n 0))

/-- The MX quantiser on one block (R114 to R117): scale byte and element codes. `rnd j` is the random value of element j. -/
def mxBlock (code : Nat) (mode : Rnd) (rnd : Nat → Nat) (xs : List Fp) : Nat × List Nat :=
  if xs.any (fun x => !x.isFin) then (0xFF, xs.map (fun _ => 0))
  else
    let ex := fun (x : Fp) => match x with | .fin _ m e => if m = 0 then none else some ((Nat.log2 m : Int) + e) | _ => none
    let top := (xs.filterMap ex).foldl (fun (a : Option Int) e => match a with | none => some e | some b => some (max b e)) none
    let e : Int := match top with
      | none => -127
      | some t => min 127 (max (-127) (t - mxEmax code))
    ((e + 127).toNat, (List.zip (List.range xs.length) xs).map (fun p => (mxElem code).convert mode true (rnd p.1) (p.2.scale (-e))))

/-- One level of the rotation's butterflies at half-width `h` (R119). -/
def butterfly (v : List Fp) (h : Nat) : List Fp :=
  (List.range v.length).map (fun i =>
    if i / h % 2 = 0 then fadd (v.getD i fpZero) (v.getD (i + h) fpZero) else fsub (v.getD (i - h) fpZero) (v.getD i fpZero))

/-- The rotation stage on one segment of n = 2^k elements (R119). -/
def rotate (seed stream epoch k : Nat) (right : Bool) (v : List Fp) : List Fp :=
  let v := (List.zip (List.range v.length) v).map (fun p => if (helwa seed stream epoch p.1).testBit 31 then p.2.neg else p.2)
  let v := (List.range k).foldl (fun v i => butterfly v (2 ^ i)) v
  if right then v.map (fun x => r32 (x.scale (-(k : Int)))) else v

/-- Splits a list into pieces of `n`. -/
def chunks {α : Type} (n : Nat) : Nat → List α → List (List α)
  | 0, _ => []
  | f + 1, l => if l.isEmpty then [] else l.take n :: chunks n f (l.drop n)

/-- Channel argmax over output codes (R179): index and value; NaN ignored, ties to the lowest index, all NaN gives 0xFFFF. -/
def argmaxOf (code : Nat) (cs : List Nat) : Nat × Nat :=
  let f := plainFmt code
  let r := (List.zip (List.range cs.length) cs).foldl (fun (a : Option (Nat × Nat)) p =>
    if f.decode p.2 = .nan then a
    else match a with
      | none => some p
      | some b => if flt (f.decode b.2) (f.decode p.2) then some p else a) none
  r.getD (0xFFFF, f.nan)

/-- A list of values read from consecutive plain elements. -/
def State.vals (s : State) (c space unit code a n : Nat) : List Fp :=
  let b := s.rd c space unit a (n * fmtBytes code)
  (List.range n).map (fun i => (plainFmt code).decode (le b (i * fmtBytes code) (fmtBytes code)))

end Sys2Proof.Machine
end

