-- ==== Sys2Proof/Machine/Late.lean ====
section
/-! DEFINITION. The late ledger of a context (R364 to R369): its pending entries, their place in memory, and what a replay takes from it. -/

namespace Sys2Proof.Machine

/-- The LATE region of this device's role (R367, R632). -/
def State.lateRegion (s : State) (c : Nat) : Option Ledger := (s.ledger c).find? (fun l => l.kind == 6)

/-- Entries that fit the late ledger. -/
def State.lateCapacity (s : State) (c : Nat) : Nat :=
  match s.lateRegion c with
  | some l => (l.size - 16) / 16
  | none => 0

/-- The order of R367: TICK, then LINK, then PAIR. -/
def lateBefore (a b : LateEntry) : Bool :=
  if a.tick ≠ b.tick then decide (a.tick < b.tick) else if a.link ≠ b.link then decide (a.link < b.link) else decide (a.pair ≤ b.pair)

/-- Puts an entry in its place. -/
def lateInsert (e : LateEntry) : List LateEntry → List LateEntry
  | [] => [e]
  | x :: t => if lateBefore x e then x :: lateInsert e t else e :: x :: t

/-- An entry's 16 bytes (R367). -/
def lateBytes (e : LateEntry) : Bytes := toLe 4 e.pair ++ toLe 4 e.tick ++ toLe 1 e.kind ++ toLe 1 e.link ++ toLe 2 e.id ++ toLe 2 e.unit ++ zeros 2

/-- Writes the pending half of the late ledger: header, then entries (R71, R367). Until the previous epoch is committed that half holds
the committed version, and nothing is written (R71; DEDUCED, log entry 21); from tick 4 on the write is suppressed, and its destination poisoned (R72). -/
def State.writeLate (s : State) (c : Nat) : State :=
  match s.lateRegion c with
  | none => s
  | some l =>
    let x := s.ctx c
    let h := x.hasp
    let a := l.halfAt h.tag
    let b := toLe 4 h.tag ++ toLe 4 x.late.length ++ toLe 4 (s.lateCapacity c) ++ zeros 4 ++ (x.late.map lateBytes).flatten
    if h.tag = h.epoch + 1 then (s.wrRaw c l.space l.unit a b).dirty c l.space l.unit a b.length
    else if h.stepOpen ∧ 4 ≤ h.stepTick then s.markPoison c ⟨l.space, l.unit, a, b.length⟩
    else s

/-- Whether the ledger has no room (R368). -/
def State.lateFull (s : State) (c : Nat) : Bool := decide (s.lateCapacity c ≤ (s.ctx c).late.length)

/-- Appends an entry to the pending ledger. -/
def State.appendLate (s : State) (c : Nat) (e : LateEntry) : State :=
  (s.modCtx c (fun x => { x with late := lateInsert e x.late })).writeLate c

/-- Whether the ledger recorded for a replayed epoch holds an entry of a kind for a pair in this tick (R369). -/
def State.replayed (s : State) (c kind pair : Nat) : Bool :=
  match (s.ctx c).lateReplay with
  | some l => l.any (fun e => e.kind == kind && e.pair == pair && e.tick == (s.hasp c).stepTick)
  | none => false

/-- Whether the context follows a recorded ledger (R369). -/
def State.replaying (s : State) (c : Nat) : Bool := decide ((s.hasp c).under = .replaying)

end Sys2Proof.Machine
end

