-- ==== Sys2Proof/Machine/Transfer.lean ====
section
/-! DEFINITION. Records that move data: send and receive, classes 0x0C and 0x0D (R159 to R161, R364, R368, R369); the DMA move, class 0x0E (R135, R162), with its next-variant form (R36, R38, R163). -/

namespace Sys2Proof.Machine

/-! Send and receive. -/

/-- LINK. -/
def xfLink (r : Bytes) : Nat := byteAt r 16
/-- MODE. -/
def xfMode (r : Bytes) : Nat := byteAt r 17
/-- RES. -/
def xfRes (r : Bytes) : Nat := u16 r 18
/-- SPACE. -/
def xfSpace (r : Bytes) : Nat := byteAt r 20
/-- EXCL. -/
def xfExcl (r : Bytes) : Bool := bit (byteAt r 22) 0
/-- ADDR. -/
def xfAddr (r : Bytes) : Nat := u32 r 24
/-- STAGE. -/
def xfStage (r : Bytes) : Nat := u32 r 28
/-- BYTES. -/
def xfBytes (r : Bytes) : Nat := u32 r 32
/-- Bytes of an incoming element. -/
def xfElem (r : Bytes) : Nat := fmtBytes (byteAt r 21)

/-- Fields that send and receive share. -/
def xfFields (r : Bytes) : Bool :=
  byteAt r 16 < 24 && decide (xfRes r < 512) && (xfSpace r == 0 || xfSpace r == 2) && zeroAt r 23 1 && zeroAt r 36 28

/-- Legality of a send (R159). -/
def sendLegal (r : Bytes) : Bool := recClass r == 0x0C && xfFields r && xfMode r == 0 && byteAt r 21 == 0 && byteAt r 22 == 0

/-- Legality of a receive of mode `m` (R160, R360). -/
def recvLegal (m : Nat) (r : Bytes) : Bool :=
  recClass r == 0x0D && xfFields r && xfMode r == m && byteAt r 22 < 2 && (!xfExcl r || m == 1) &&
    (if m = 0 then byteAt r 21 == 0 else decide (byteAt r 21 ≤ 2) && xfBytes r % xfElem r == 0)

/-- Whether a send only binds its buffer (R159). -/
def sendBinds (r : Bytes) : Bool := xfSpace r == 2 && xfAddr r == xfStage r

/-- Source of a send. -/
def sendReads (r : Bytes) (u : Nat) : List Region := [⟨xfSpace r, if xfSpace r = 0 then u else 0, xfAddr r, xfBytes r⟩]
/-- Staging buffer of a send. -/
def sendWrites (r : Bytes) : List Region := [⟨2, 0, xfStage r, xfBytes r⟩]

/-- The run of a send (R159). -/
def sendOut (r : Bytes) (s : State) (k : RunCtx) : RunOut :=
  { groups := if sendBinds r then [] else [[⟨2, 0, xfStage r, s.rd k.c (xfSpace r) k.u (xfAddr r) (xfBytes r)⟩]] }

/-- SEND (R159). -/
def execSend (u : Fin 256) (r : Bytes) (env : RunEnv) (s : State) : Host.Outcome State Fault Refusal :=
  issue u r env (sendLegal r) (sendReads r u) (if sendBinds r then [] else sendWrites r) (sendOut r) s

/-- Destination of a receive: FP32 in the add and max modes (R160). -/
def recvDst (r : Bytes) (u : Nat) : Region :=
  ⟨xfSpace r, if xfSpace r = 0 then u else 0, xfAddr r, if xfMode r = 0 then xfBytes r else xfBytes r / xfElem r * 4⟩

/-- The bytes that a receive writes (R160). -/
def State.recvData (s : State) (k : RunCtx) (r : Bytes) : Bytes :=
  if xfMode r = 0 then s.rd k.c 2 0 (xfStage r) (xfBytes r)
  else
    let f := if xfMode r = 1 then fadd else fmax
    catN (xfBytes r / xfElem r) (fun i =>
      toLe 4 (enc32 (f (s.val k.c (xfSpace r) k.u 0 (xfAddr r + 4 * i)) (s.val k.c 2 0 (byteAt r 21) (xfStage r + i * xfElem r)))))

/-- The run of a complete receive (R160). -/
def recvOut (r : Bytes) (s : State) (k : RunCtx) : RunOut :=
  { groups := [[⟨xfSpace r, (recvDst r k.u).unit, xfAddr r, s.recvData k r⟩]] }

/-- The arriving reservation that a receive names. -/
def State.rxOf (s : State) (c link idx : Nat) : Option RxRes := (s.link link).rx.find? (fun x => x.ctx == c && x.idx == idx)

/-- Whether every packet of a receive's reservation has arrived (R160). -/
def State.arrived (s : State) (c : Nat) (r : Bytes) : Bool :=
  match s.rxOf c (xfLink r) (xfRes r) with
  | some x => (List.range (cdiv (xfBytes r) 4096)).all (fun i => x.got.contains i)
  | none => xfBytes r == 0

/-- Pair identifier of the reservation that a receive names. -/
def State.recvPair (s : State) (c : Nat) (r : Bytes) : Nat := (((s.frameResvs c (xfLink r) false)[xfRes r]?).map (fun x => x.pair)).getD 0

/-- What a receive does about its reservation: combine, leave its destination untouched (with an entry to append or not), or poison
its destination (R160, R161, R364, R368, R369). -/
inductive RecvFate where
  | combine
  | untouched (append : Bool)
  | poison (full : Bool)
  deriving DecidableEq, Repr

/-- The fate of a receive. -/
def State.recvFate (s : State) (c : Nat) (r : Bytes) : RecvFate :=
  if s.replaying c ∧ s.replayed c 1 (s.recvPair c r) then .untouched true
  else if s.arrived c r then .combine
  else if s.replaying c ∨ !xfExcl r then .poison false
  else if s.lateFull c then .poison true
  else .untouched true

/-- What a receive does once it runs. -/
def State.runReceive (s : State) (c u : Nat) (r : Bytes) (env : RunEnv) : State :=
  let dst := recvDst r u
  let stage : Region := ⟨2, 0, xfStage r, xfBytes r⟩
  match s.recvFate c r with
  | .combine => s.afterRun c u r env (stage :: (if xfMode r = 0 then [] else [dst])) [dst] (recvOut r (s.escapeBytes env.errs.dram) (s.runCtx c u r))
  | .untouched app =>
    let s := s.afterRun c u r env [] [] { groups := [] }
    if app && !s.lateFull c then s.appendLate c ⟨s.recvPair c r, (s.hasp c).stepTick, 1, xfLink r, recId r, u⟩ else s
  | .poison full =>
    let s := s.afterRun c u r env [] [] { groups := [] }
    ((s.eventIf full (Reg.FAB_PERM_EVENT c) 6).markPoison c dst).opFault c u (recId r) 0x09

/-- Issues a receive of mode `m`. -/
def issueReceive (m u : Nat) (r : Bytes) (env : RunEnv) (s : State) : Host.Outcome State Fault Refusal :=
  issueG u r env.late (recvLegal m r) true [⟨2, 0, xfStage r, xfBytes r⟩, recvDst r u] (fun c s => s.runReceive c u r env) s

/-- RECEIVE_COPY (R160). -/
def execReceiveCopy (u : Fin 256) (r : Bytes) (env : RunEnv) (s : State) : Host.Outcome State Fault Refusal := issueReceive 0 u r env s
/-- RECEIVE_ADD (R160). -/
def execReceiveAdd (u : Fin 256) (r : Bytes) (env : RunEnv) (s : State) : Host.Outcome State Fault Refusal := issueReceive 1 u r env s
/-- RECEIVE_MAX (R160). -/
def execReceiveMax (u : Fin 256) (r : Bytes) (env : RunEnv) (s : State) : Host.Outcome State Fault Refusal := issueReceive 2 u r env s

/-! DMA moves. -/

/-- Source and destination space codes. -/
def dmSpace (r : Bytes) (dst : Bool) : Nat := byteAt r (if dst then 17 else 16)
/-- Whether a space is stacked DRAM or LPDDR. -/
def isDram (space : Nat) : Bool := space == 3 || space == 4
/-- Unit of one side: the named tile of the mover's ward, or the ward. -/
def dmUnit (r : Bytes) (w : Nat) (dst : Bool) : Nat :=
  match dmSpace r dst with
  | 0 => w * 16 + byteAt r (if dst then 19 else 18)
  | 1 => w
  | _ => 0
/-- ROW_BYTES. -/
def dmRow (r : Bytes) : Nat := u32 r 32
/-- ROWS. -/
def dmRows (r : Bytes) : Nat := u32 r 36

/-- Fields of a move (R162). -/
def dmFields (r : Bytes) : Bool :=
  let a := dmSpace r false
  let b := dmSpace r true
  recClass r == 0x0E && decide (a ≤ 4 ∧ b ≤ 4) && !(isDram a && isDram b) && decide (byteAt r 18 < 16 ∧ byteAt r 19 < 16) &&
    (a == 0 || byteAt r 18 == 0) && (b == 0 || byteAt r 19 == 0) && decide (1 ≤ dmRow r ∧ dmRow r < 2 ^ 24 ∧ 1 ≤ dmRows r ∧ dmRows r < 65536) &&
    (if isDram a || isDram b then decide (1 ≤ u32 r 56 ∧ u32 r 56 ≤ 2048) else u32 r 56 == 0) && zeroAt r 60 4

/-- Address of row `i` of one side, with frame argument `arg` applied to stacked DRAM and LPDDR addresses (R135). -/
def dmAddr (r : Bytes) (dst : Bool) (arg i : Nat) : Nat :=
  (le r (if dst then 26 else 20) 6 + (if recArg r && isDram (dmSpace r dst) then arg * u64 r 48 else 0)) % 2 ^ 64 + i * u32 r (if dst then 44 else 40)

/-- Regions of one side. -/
def dmRegion (r : Bytes) (w arg : Nat) (dst : Bool) : List Region :=
  rowRegions (dmSpace r dst) (dmUnit r w dst) (dmAddr r dst arg 0) (u32 r (if dst then 44 else 40)) (dmRows r) (dmRow r)

/-- One row copied byte by byte upwards: where the destination begins inside the source of the same store, the bytes before it repeat
(R162). -/
def rowCopy (same : Bool) (src dst : Nat) (b : Bytes) : Bytes :=
  if same ∧ src < dst ∧ dst < src + b.length then (List.range b.length).map (fun i => b.getD (i % (dst - src)) 0#8) else b

/-- The run of a move: rows in increasing order, each reading what the earlier rows wrote (R162). -/
def dmaOut (r : Bytes) (w : Nat) (s : State) (k : RunCtx) : RunOut :=
  let arg := s.frameArg k.c
  let sp := dmSpace r false
  let su := dmUnit r w false
  let dp := dmSpace r true
  let du := dmUnit r w true
  let step := fun (p : State × List Wr) (i : Nat) =>
    let a := dmAddr r false arg i
    let d := dmAddr r true arg i
    let b := rowCopy (sp == dp && su == du) a d (p.1.rd k.c sp su a (dmRow r))
    (p.1.wrRaw k.c dp du d b, p.2 ++ [(⟨dp, du, d, b⟩ : Wr)])
  { groups := [((List.range (dmRows r)).foldl step (s, [])).2] }

/-- DMA_MOVE (R162): on mover `w`, unit 256 + w. -/
def execDmaMove (w : Fin 16) (r : Bytes) (env : RunEnv) (s : State) : Host.Outcome State Fault Refusal :=
  let arg := s.frameArg (recCtx r)
  issue (256 + w) r env (dmFields r && !recNext r) (dmRegion r w arg false) (dmRegion r w arg true) (dmaOut r w) s

/-- The variant of the step that follows (R33, R36): VARIANTS of the first packet held that starts a step of the context. When the context pauses
before that tick 0 and no packet held announces it yet, the variant that the device derives from the vote (R34), which is the one the master will
announce, and before any vote that of the newest packet held (DEDUCED, log entry 41). -/
def State.announcedVariant (s : State) (c : Nat) : Nat :=
  let held := s.tick.packets.filter (fun p => decide (s.tick.now < p.1))
  let field := fun (p : Nat × Bytes) => le p.2 40 12 / 64 ^ c % 64
  match held.find? (fun p => bit (u16 p.2 52) c) with
  | some p => field p
  | none => ((s.hasp c).votedVariant.orElse (fun _ => held.getLast?.map field)).getD (s.hasp c).variant

/-- The entry region whose half 0 a next-variant move names (R38, R163): of its tile, or of the mover or the engine of its ward. -/
def State.entryOf (s : State) (c : Nat) (r : Bytes) (w : Nat) : Option Ledger :=
  (s.ledger c).find? (fun l => l.kind == 4 && l.space == dmSpace r true && l.base == le r 26 6 &&
    (if dmSpace r true = 0 then l.unit == w * 16 + byteAt r 19 else l.unit == 256 + w || l.unit == 272 + w))

/-- Bytes that unit `u`'s records take in the first frame of variant `v` of a role. -/
def firstFrameBytes (b : Bytes) (role v u : Nat) : Nat := ((imgRecords b role (imgTick b v 0).1 u).map recLen).foldl (· + ·) 0

/-- Image offset of the records of unit `u` in the first frame of variant `v`. -/
def firstFrameOff (b : Bytes) (role v u : Nat) : Nat := (imgSection b 4).off + (imgDirEnt b role (imgTick b v 0).1 u).1

/-- Source, destination and length of the copy of a first frame into an entry region, into the half that epoch `x` selects (R38, R39). -/
def State.firstFrameCopy (s : State) (c v x : Nat) (l : Ledger) : Region × Region :=
  let b := (s.ctx c).image
  let role := (s.roleOf c).getD 0
  let n := firstFrameBytes b role v l.unit
  (⟨3, 0, (s.ctx c).imageBase + firstFrameOff b role v l.unit, n⟩, ⟨l.space, if l.space = 0 then l.unit else l.unit % 16, l.halfAt x, n⟩)

/-- Source and destination of a next-variant move into entry region `l`: the first frame of the announced variant into half (x + 1) mod 2, at most
ROWS × ROW_BYTES bytes (R163). -/
def State.nextMove (s : State) (c : Nat) (r : Bytes) (l : Ledger) : Region × Region :=
  let p := s.firstFrameCopy c (s.announcedVariant c) ((s.hasp c).tag + 1) l
  let n := min p.1.len (dmRow r * dmRows r)
  ({ p.1 with len := n }, { p.2 with len := n })

/-- NEXT_VARIANT_MOVE (R163). A move that names no entry region of its unit is what plan check 15 rejects. -/
def execNextVariantMove (w : Fin 16) (r : Bytes) (env : RunEnv) (s : State) : Host.Outcome State Fault Refusal :=
  let c := recCtx r
  let legal := dmFields r && recNext r && dmSpace r false == 3 && decide (dmSpace r true ≤ 1)
  match s.entryOf c r w with
  | none => issue (256 + w) r env false [] [] (fun _ _ => { groups := [] }) s
  | some l =>
    let p := s.nextMove c r l
    issue (256 + w) r env legal [p.1] [p.2] (fun s k => { groups := [[⟨p.2.space, p.2.unit, p.2.addr, s.rd k.c 3 0 p.1.addr p.1.len⟩]] }) s

end Sys2Proof.Machine
end

