-- ==== Sys2Proof/Machine/EngineBase.lean ====
section
/-! DEFINITION. What update records share (R215 to R220, R222, R225 to R231, R237 to R239): fields and legality, the loss-scale record, the verdict, rule and schedule blocks, masters and state planes, and the halves they read and write. -/

namespace Sys2Proof.Machine

/-! Fields (R237). -/

/-- Arena space. -/
def upSpace (r : Bytes) : Nat := byteAt r 16 % 16
/-- Gradient space. -/
def upGspace (r : Bytes) : Nat := byteAt r 16 / 16
/-- SPLIT. -/
def upSplit (r : Bytes) : Bool := bit (byteAt r 19) 0
/-- RUNAHEAD. -/
def upAhead (r : Bytes) : Bool := bit (byteAt r 19) 1
/-- CLIP. -/
def upClip (r : Bytes) : Nat := byteAt r 19 / 4 % 4
/-- NESTEROV. -/
def upNesterov (r : Bytes) : Bool := bit (byteAt r 19) 4
/-- BF16. -/
def upBf16 (r : Bytes) : Bool := bit (byteAt r 19) 5
/-- COUNT. -/
def upCount (r : Bytes) : Nat := u32 r 40
/-- M. -/
def upM (r : Bytes) : Nat := u16 r 44
/-- N. -/
def upN (r : Bytes) : Nat := u16 r 46
/-- Bytes of a gradient element. -/
def upGz (r : Bytes) : Nat := fmtBytes (byteAt r 17)
/-- Bytes of a state element. -/
def upSz (r : Bytes) : Nat := fmtBytes (byteAt r 18)
/-- Bytes of a master plane's element: the high plane, or the FP32 master. -/
def upWz (r : Bytes) : Nat := if upSplit r then 2 else 4

/-- The classes that use a field at a byte of the record (R237). -/
def upUses (c : Nat) (field : Nat) (r : Bytes) : Bool :=
  let ahead := upAhead r
  match field with
  | 17 | 20 => [0x20, 0x21, 0x25, 0x26, 0x28, 0x29].contains c
  | 18 | 32 | 36 => [0x20, 0x24, 0x25, 0x29].contains c
  | 24 | 28 => [0x20, 0x24, 0x25, 0x27, 0x28, 0x29].contains c
  | 40 => [0x20, 0x21, 0x24, 0x29].contains c
  | 44 | 46 => [0x24, 0x25, 0x26, 0x27, 0x28].contains c
  | 48 => c != 0x22 && c != 0x23
  | 52 | 53 => c == 0x24
  | 56 => [0x20, 0x25, 0x26, 0x27, 0x28, 0x29].contains c
  | 60 => [0x20, 0x25, 0x28, 0x29].contains c
  | 64 => c != 0x22 && c != 0x27
  | 68 => c == 0x22 || c == 0x23 || c == 0x24 || (c != 0x21 && !ahead)
  | 72 | 76 => [0x25, 0x26, 0x27, 0x28].contains c
  | 80 | 84 => c == 0x26 || c == 0x28 || (c == 0x24 && byteAt r 52 == 0x26)
  | 92 | 96 | 100 => c == 0x29
  | 104 | 108 => [0x20, 0x25, 0x29].contains c
  | _ => true

/-- Workspace that the cycle table asks of a class (R240). -/
def upWorkspace (r : Bytes) : Nat :=
  let m := upM r
  let n := upN r
  let p := min m n
  let u := max m n
  match recClass r with
  | 0x25 => (if upBf16 r then 2 else 4) * (2 * p * u + 2 * p * p)
  | 0x26 => 4 * (m * n + m * m + n * n)
  | 0x27 => 20 * m * m
  | 0x28 => 4 * (3 * m * n + m * m + n * n)
  | _ => 0

/-- Legality of an update record of class `c` (R237, R238). -/
def upLegal (c : Nat) (r : Bytes) : Bool :=
  let f4 := [20, 24, 28, 32, 36, 40, 48, 56, 60, 64, 68, 72, 76, 80, 84, 92, 96, 100, 104, 108]
  let g := upUses c 17 r
  let covered := byteAt r 52
  let mats := fun (hi : Nat) => decide (1 ≤ upM r ∧ upM r ≤ hi ∧ 1 ≤ upN r ∧ upN r ≤ hi)
  recClass r == c && f4.all (fun f => upUses c f r || u32 r f == 0) && (upUses c 44 r || (upM r == 0 && upN r == 0)) &&
    (if g then byteAt r 17 == 0 || byteAt r 17 == 2 else byteAt r 17 == 0) && (if upUses c 18 r then byteAt r 18 ≤ 1 else byteAt r 18 == 0) &&
    (if c = 0x22 then byteAt r 16 == 0 else (upSpace r == 1 || upSpace r == 3) && (if g then upGspace r == 1 || upGspace r == 2 else upGspace r == 0)) &&
    byteAt r 19 < 64 && (!upSplit r || [0x20, 0x24, 0x25, 0x28, 0x29].contains c) && (!upAhead r || ([0x20, 0x25, 0x26, 0x28].contains c && upClip r != 1)) &&
    upClip r != 3 && (upClip r == 0 || [0x20, 0x25, 0x26, 0x28, 0x29].contains c) && ((!upNesterov r && !upBf16 r) || c == 0x25) &&
    (!([0x20, 0x21, 0x29].contains c || (c == 0x24 && covered == 0x20)) || decide (1 ≤ upCount r ∧ upCount r < 2 ^ 24)) &&
    (c != 0x25 || mats 8192) && (!([0x26, 0x27, 0x28].contains c) || mats 1024) && (c != 0x27 || upM r == upN r) &&
    (if c = 0x24 then [0x20, 0x25, 0x26, 0x28].contains covered && byteAt r 53 ≤ 2 else covered == 0 && byteAt r 53 == 0) && zeroAt r 54 2 &&
    decide (upWorkspace r ≤ u32 r 76) && (byteAt r 9 == 0 || byteAt r 18 == 1) &&
    (if upSpace r = 3 then decide (1 ≤ u32 r 88 ∧ u32 r 88 ≤ 2048) else u32 r 88 == 0) &&
    (if c = 0x29 then decide (1 ≤ u32 r 96 ∧ u32 r 96 ≤ 4096) else true) && zeroAt r 112 16

/-! Where an engine's operands lie. -/

/-- Unit of a space for engine `w`: its ward's store; one store otherwise. -/
def upUnit (w space : Nat) : Nat := if space = 1 then w else 0

/-- Byte address of half `h` mod 2 of the arena region that the field at byte `f` names (R237, R239). -/
def upHalf (r : Bytes) (f h : Nat) : Nat := (u32 r f + h % 2 * u32 r 48) * 64

/-- What a run of an update record of context `c` on engine `w` reads of its surroundings: the epoch x = E + 1 that the step produces, and
the run context (R128, R217). -/
structure UpCtx where
  c : Nat
  w : Nat
  x : Nat
  k : RunCtx
  deriving DecidableEq, Repr

/-- The surroundings of a run. -/
def State.upCtx (s : State) (c w : Nat) (r : Bytes) : UpCtx := ⟨c, w, (s.hasp c).tag, s.runCtx c (272 + w) r⟩

/-- Bytes of a space as engine `w` reaches it. -/
def State.erd (s : State) (q : UpCtx) (space a n : Nat) : Bytes := s.rd q.c space (upUnit q.w space) a n

/-- Plain elements of a space as engine `w` reaches it. -/
def State.evals (s : State) (q : UpCtx) (space code a n : Nat) : List Fp := s.vals q.c space (upUnit q.w space) code a n

/-! The loss-scale record (R218, R221). -/

/-- A loss-scale record. -/
structure LossScale where
  s : Int
  floor : Int
  ceil : Int
  window : Nat
  clean : Nat
  sumsq : Nat
  skips : Nat
  deriving DecidableEq, Repr

/-- Reads a loss-scale record. -/
def lsParse (b : Bytes) : LossScale :=
  ⟨toSigned 8 (byteAt b 0), toSigned 8 (byteAt b 1), toSigned 8 (byteAt b 2), u16 b 4, u32 b 8, u32 b 12, u32 b 16⟩

/-- FP32 2^s. -/
def pow2 (s : Int) : Fp := .fin false 1 s

/-- The 64 bytes of a loss-scale record. -/
def LossScale.bytes (l : LossScale) : Bytes :=
  toLe 1 (ofSigned 8 l.s) ++ toLe 1 (ofSigned 8 l.floor) ++ toLe 1 (ofSigned 8 l.ceil) ++ zeros 1 ++ toLe 2 l.window ++ zeros 2 ++ toLe 4 l.clean ++
    toLe 4 l.sumsq ++ toLe 4 l.skips ++ toLe 4 (enc32 (pow2 l.s)) ++ toLe 4 (enc32 (pow2 (-l.s))) ++ zeros 36

/-- Distance in bytes between the halves of the loss-scale record whose half 0 lies at `a` (R218). -/
def State.lsStride (s : State) (c space unit a : Nat) : Nat :=
  match (s.ledger c).find? (fun l => l.kind == 1 && l.space == space && (space != 1 || l.unit == unit) && decide (l.base ≤ a ∧ a < l.base + l.size)) with
  | some l => l.half * 64
  | none => 0

/-- Address of half `h` mod 2 of the loss-scale record that an update record names. -/
def State.lsAt (s : State) (q : UpCtx) (r : Bytes) (h : Nat) : Nat :=
  u32 r 64 * 64 + h % 2 * s.lsStride q.c (upSpace r) (upUnit q.w (upSpace r)) (u32 r 64 * 64)

/-- The committed loss-scale record: half E mod 2 (R218). -/
def State.lsRead (s : State) (q : UpCtx) (r : Bytes) : LossScale := lsParse (s.erd q (upSpace r) (s.lsAt q r (q.x - 1)) 64)

/-- INV of the committed loss-scale record, as the record holds it. -/
def State.lsInv (s : State) (q : UpCtx) (r : Bytes) : Fp := dec32 (u32 (s.erd q (upSpace r) (s.lsAt q r (q.x - 1)) 64) 24)

/-! The verdict (R223 to R225). -/

/-- SUMSQ and NONFINITE of a fused word. -/
def State.verdict (s : State) (q : UpCtx) (r : Bytes) : Fp × Bool :=
  let b := s.erd q 2 (u32 r 68) 8
  (dec32 (u32 b 0), bit (byteAt b 4) 0)

/-- Whether the verdict skips the step (R225). -/
def State.skips (s : State) (q : UpCtx) (r : Bytes) : Bool :=
  let v := s.verdict q r
  v.2 || v.1 == .inf false

/-- Whether a record acts on the verdict: a SCALE, a CARRY, or an update record without RUNAHEAD (R225, R241). -/
def upReadsVerdict (r : Bytes) : Bool := [0x23, 0x24].contains (recClass r) || ([0x20, 0x25, 0x26, 0x27, 0x28, 0x29].contains (recClass r) && !upAhead r)

/-! Rule and schedule blocks (R230, R231). -/

/-- A rule block's bytes. -/
def State.upRule (s : State) (q : UpCtx) (r : Bytes) : Bytes := s.erd q 1 (u32 r 56) 64
/-- A schedule block's bytes, 264 of them (R634). -/
def State.upSched (s : State) (q : UpCtx) (r : Bytes) : Bytes := s.erd q 1 (u32 r 60) 264

/-- FP32 field of a rule block. -/
def ruleF (b : Bytes) (o : Nat) : Fp := dec32 (u32 b o)
/-- State planes of an element-wise rule (R237). -/
def rulePlanes (b : Bytes) : Nat := if byteAt b 0 = 1 then 2 else 1

/-- Encodings of a rule block that R230 accepts, for records whose CLIP is `clip`. -/
def ruleOk (clip : Nat) (b : Bytes) : Bool :=
  let it := u32 b 44
  byteAt b 0 ≤ 2 && byteAt b 1 < 2 && zeroAt b 2 2 && decide (1 ≤ it % 256 ∧ it % 256 ≤ 15) && [1, 2, 4, 8].contains (it / 256 % 256) &&
    decide (1 ≤ it / 65536 % 256 ∧ it / 65536 % 256 ≤ 31) && it / 2 ^ 24 == 0 && zeroAt b 56 8 && (clip == 0 || flt fpZero (ruleF b 24))

/-- Encodings of a schedule block that R230 accepts. -/
def muScheduleOk (b : Bytes) : Bool :=
  let n := byteAt b 0
  decide (1 ≤ n ∧ n ≤ 32) && zeroAt b 1 7 && (List.range (n - 1)).all (fun i => decide (u32 b (8 + 8 * i) < u32 b (16 + 8 * i)))

/-- Whether the blocks that a record reads hold only defined encodings. -/
def State.blocksOk (s : State) (q : UpCtx) (r : Bytes) : Bool :=
  (!upUses (recClass r) 56 r || ruleOk (upClip r) (s.upRule q r)) && (!upUses (recClass r) 60 r || muScheduleOk (s.upSched q r))

/-- A natural number as FP32 in RNE. -/
def fp32Nat (n : Nat) : Fp := r32 (.fin false n 0)

/-- The schedule factor of R231. -/
def schedFactor (b : Bytes) (x : Nat) : Fp :=
  let n := byteAt b 0
  let e := fun i => u32 b (8 + 8 * i)
  let f := fun i => dec32 (u32 b (12 + 8 * i))
  if x ≤ e 0 then f 0
  else if e (n - 1) ≤ x then f (n - 1)
  else
    let i := ((List.range (n - 1)).find? (fun i => decide (e i ≤ x ∧ x < e (i + 1)))).getD 0
    let t := fmulR (fp32Nat (x - e i)) (r32 (frecip (fp32Nat (e (i + 1) - e i))))
    fma t (fsub (f (i + 1)) (f i)) (f i)

/-- What a record computes once: lr, rc1 and rc2 (R231), kc (R226) and INV. -/
structure UpConst where
  lr : Fp
  rc1 : Fp
  rc2 : Fp
  kc : Fp
  inv : Fp
  deriving DecidableEq, Repr

/-- Bias correction 1 / (1 - B^x) (R231). -/
def biasCorr (x : Nat) (b : Fp) : Fp := r32 (frecip (fsub fpOne (r32 (fexp2 (fmulR (fp32Nat x) (r32 (flog2 b)))))))

/-- The clip factor of R226. -/
def State.clipFactor (s : State) (q : UpCtx) (r : Bytes) : Fp :=
  let by_ := fun (sumsq : Fp) => fmin (fmulR (ruleF (s.upRule q r) 24) (r32 (frsqrt sumsq))) fpOne
  match upClip r with
  | 1 => by_ (s.verdict q r).1
  | 2 => by_ (dec32 (s.lsRead q r).sumsq)
  | _ => fpOne

/-- The constants of a record. -/
def State.upConst (s : State) (q : UpCtx) (r : Bytes) : UpConst :=
  let b := s.upRule q r
  ⟨fmulR (ruleF b 4) (schedFactor (s.upSched q r) q.x), biasCorr q.x (ruleF b 8), biasCorr q.x (ruleF b 12), s.clipFactor q r, s.lsInv q r⟩

/-- Unscaled and clipped gradients of `n` elements from element `o` (R232). -/
def State.upGrad (s : State) (q : UpCtx) (r : Bytes) (k : UpConst) (o n : Nat) : List Fp :=
  (s.evals q (upGspace r) (byteAt r 17) (u32 r 20 + o * upGz r) n).map (fun g =>
    let g := fmulR g k.inv
    if flt k.kc fpOne then fmulR g k.kc else g)

/-! Masters and state planes (R217, R227 to R229). -/

/-- `n` masters whose high plane or FP32 values lie at `wa` and whose low plane or working copy lies at `la`. -/
def State.masters (s : State) (q : UpCtx) (r : Bytes) (wa la n : Nat) : List Fp :=
  if upSplit r then
    let hi := s.erd q (upSpace r) wa (2 * n)
    let lo := s.erd q (upSpace r) la (2 * n)
    (List.range n).map (fun i => dec32 (u16 hi (2 * i) * 65536 + u16 lo (2 * i)))
  else s.evals q (upSpace r) 0 wa n

/-- The writes of new masters (R227, R228). -/
def masterWrites (r : Bytes) (q : UpCtx) (wa la : Nat) (ws : List Fp) : List Wr :=
  let sp := upSpace r
  let u := upUnit q.w sp
  if upSplit r then
    [⟨sp, u, wa, (ws.map (fun x => toLe 2 (enc32 x / 65536))).flatten⟩, ⟨sp, u, la, (ws.map (fun x => toLe 2 (enc32 x % 65536))).flatten⟩]
  else
    [⟨sp, u, wa, (ws.map (fun x => toLe 4 (enc32 x))).flatten⟩, ⟨sp, u, la, (ws.map (fun x => toLe 2 (bf16.convert .rne false 0 x))).flatten⟩]

/-- A state plane narrowed to S_FMT (R217): plane 1 draws from STREAM xor 0x2000_0000; the index counts from LBASE plus `o`. -/
def statePlane (r : Bytes) (q : UpCtx) (plane o : Nat) (xs : List Fp) : Bytes :=
  let k := if plane = 0 then q.k else { q.k with stream := q.k.stream ^^^ 0x20000000 }
  catN xs.length (fun i => k.out (byteAt r 18) ((u64 r 104 + o + i) % 2 ^ 64) (xs.getD i fpZero))

/-- Whether some master is not finite (R229). -/
def anyNonfinite (ws : List Fp) : Bool := ws.any (fun x => !x.isFin)

/-- Regions that the master, low plane or working copy, and `k` state planes of a record take in half `h`, for `n` elements. -/
def upPlanes (r : Bytes) (w n k h : Nat) : List Region :=
  let sp := upSpace r
  let u := upUnit w sp
  [⟨sp, u, upHalf r 24 h, n * upWz r⟩, ⟨sp, u, upHalf r 28 h, n * 2⟩] ++
    (List.range k).map (fun i => ⟨sp, u, upHalf r 32 h + i * u32 r 36 * 64, n * upSz r⟩)

/-- The copy of regions from one half to the other that a skipped step makes (R225). -/
def State.copyRegions (s : State) (q : UpCtx) (src dst : List Region) : List Wr :=
  (List.zip src dst).map (fun p => ⟨p.2.space, p.2.unit, p.2.addr, s.rd q.c p.1.space p.1.unit p.1.addr p.1.len⟩)

/-- What a record that reads the verdict does besides its writes: the skip is noted for the commit, NORM_OVF is set when the sum
overflowed (R225), and a poisoned verdict poisons its outputs (R249). -/
def State.afterVerdict (s : State) (q : UpCtx) (r : Bytes) (outs : List Region) : State :=
  if !upReadsVerdict r then s else
  let v := s.verdict q r
  let s := if s.skips q r then s.modHasp q.c (fun h => if h.skipped.contains q.x then h else { h with skipped := h.skipped ++ [q.x] }) else s
  let s := s.eventIf (v.1 == .inf false) (Reg.UPD_EVENT q.c) 1
  let vr : Region := ⟨2, 0, u32 r 68, 8⟩
  if s.poison.any (fun p => p.ctx == q.c && vr.meets ⟨p.space, p.unit, p.addr, p.len⟩) then s.markAll q.c outs else s

/-- Issues an update record of class `cls` on engine `w`: `reads` and `outs` are its regions for a run in this state, `run` its results, `post`
what else it brings about. -/
def issueUpdate (cls w : Nat) (r : Bytes) (env : RunEnv) (reads outs : UpCtx → State → List Region)
    (run : UpCtx → State → RunOut) (post : UpCtx → State → State) (s : State) : Host.Outcome State Fault Refusal :=
  let q := s.upCtx (recCtx r) w r
  let rd := reads q s
  let wr := outs q s
  issueG (272 + w) r env.late (upLegal cls r) true (rd ++ wr) (fun c s =>
    let view := s.escapeBytes env.errs.dram
    let o := if view.blocksOk q r then run q view else { groups := [], malformed := true }
    (post q (s.afterRun c (272 + w) r env rd wr o)).afterVerdict q r wr) s

end Sys2Proof.Machine
end

