-- ==== Sys2Proof/Machine/EngineElem.lean ====
section
/-! DEFINITION. The element-wise update records: ELEM (R232), NORM (R222), FUSE (R223), SCALE (R221), CARRY (R225, R242) and VARIANT (R245 to R248). -/

namespace Sys2Proof.Machine

/-- Regions of the rule and schedule blocks, the loss-scale record and the verdict that a record reads. -/
def State.upCommon (s : State) (q : UpCtx) (r : Bytes) : List Region :=
  let c := recClass r
  (if upUses c 56 r then [⟨1, q.w, u32 r 56, 64⟩] else []) ++ (if upUses c 60 r then [⟨1, q.w, u32 r 60, 264⟩] else []) ++
    (if upUses c 64 r then [⟨upSpace r, upUnit q.w (upSpace r), s.lsAt q r (q.x - 1), 64⟩] else []) ++
    (if upReadsVerdict r || upClip r == 1 then [⟨2, 0, u32 r 68, 8⟩] else [])

/-- Region of `n` gradient elements. -/
def upGregion (r : Bytes) (w n : Nat) : Region := ⟨upGspace r, upUnit w (upGspace r), u32 r 20, n * upGz r⟩

/-- One element of an element-wise update (R232): new master, first and second state. -/
def elemStep (b : Bytes) (k : UpConst) (g w m v : Fp) : Fp × Fp × Fp :=
  let b1 := ruleF b 8
  let b2 := ruleF b 12
  let wd := ruleF b 20
  let lr := k.lr.neg
  let cfac := fun (x : Fp) => fsub fpOne x
  match byteAt b 0 with
  | 0 =>
    let m := fma b1 m g
    (fma lr (fma wd w m) w, m, v)
  | 1 =>
    let m := fma b1 m (fmulR (cfac b1) g)
    let v := fma b2 v (fmulR (fmulR (cfac b2) g) g)
    let bc := bit (byteAt b 1) 0
    let mh := if bc then fmulR m k.rc1 else m
    let vh := if bc then fmulR v k.rc2 else v
    let sq := if feq vh fpZero then fpZero else fmulR vh (r32 (frsqrt vh))
    (fma lr (fma wd w (fmulR mh (r32 (frecip (fadd sq (ruleF b 16)))))) w, m, v)
  | _ =>
    let c := fma b1 m (fmulR (cfac b1) g)
    let u := if flt fpZero c then fpOne else if flt c fpZero then fpOne.neg else fpZero
    (fma lr (fma wd w u) w, fma b2 m (fmulR (cfac b2) g), v)

/-- An element-wise update of `n` elements: gradient from element `go`, old planes at `rw`, `rl`, `rs` (the second state `pitch` bytes above),
new ones at `ww`, `wl`, `ws` (R217, R227 to R232). -/
def State.elemRun (s : State) (q : UpCtx) (r : Bytes) (n go so : Nat) (rw rl rs ww wl ws : Nat) : List Wr × Bool :=
  let b := s.upRule q r
  let k := s.upConst q r
  let pitch := u32 r 36 * 64
  let two := rulePlanes b == 2
  let sp := upSpace r
  let u := upUnit q.w sp
  let g := s.upGrad q r k go n
  let w := s.masters q r rw rl n
  let m := s.evals q sp (byteAt r 18) rs n
  let v := if two then s.evals q sp (byteAt r 18) (rs + pitch) n else []
  let out := (List.range n).map (fun i => elemStep b k (g.getD i fpZero) (w.getD i fpZero) (m.getD i fpZero) (v.getD i fpZero))
  let nw := out.map (fun o => o.1)
  (masterWrites r q ww wl nw ++ [⟨sp, u, ws, statePlane r q 0 so (out.map (fun o => o.2.1))⟩] ++
    (if two then [⟨sp, u, ws + pitch, statePlane r q 1 so (out.map (fun o => o.2.2))⟩] else []), anyNonfinite nw)

/-- Output regions of ELEM. -/
def State.elemOuts (s : State) (q : UpCtx) (r : Bytes) (h : Nat) : List Region := upPlanes r q.w (upCount r) (rulePlanes (s.upRule q r)) h

/-- The run of ELEM (R225, R232). -/
def elemOut (r : Bytes) (q : UpCtx) (s : State) : RunOut :=
  if !upAhead r && s.skips q r then { groups := [s.copyRegions q (s.elemOuts q r (q.x - 1)) (s.elemOuts q r q.x)] }
  else
    let h := q.x - 1
    let p := s.elemRun q r (upCount r) 0 0 (upHalf r 24 h) (upHalf r 28 h) (upHalf r 32 h) (upHalf r 24 q.x) (upHalf r 28 q.x) (upHalf r 32 q.x)
    { groups := [p.1], nonfinite := p.2 }

/-- ELEM (R232). -/
def execElem (w : Fin 16) (r : Bytes) (env : RunEnv) (s : State) : Host.Outcome State Fault Refusal :=
  issueUpdate 0x20 w r env (fun q s => upGregion r w (upCount r) :: s.elemOuts q r (q.x - 1) ++ s.upCommon q r) (fun q s => s.elemOuts q r q.x)
    (elemOut r) (fun _ s => s) s

/-- NORM (R222): the unscaled gradient's sum of squares joins the engine's accumulator. -/
def State.normAdd (s : State) (q : UpCtx) (r : Bytes) : State :=
  let g := (s.evals q (upGspace r) (byteAt r 17) (u32 r 20) (upCount r)).map (fun x => fmulR x (s.lsInv q r))
  let a := tget (fun _ => {}) (s.ctx q.c).accum q.w
  let a' : Accum := ⟨BitVec.ofNat 32 (enc32 (fadd (dec32 a.sumsq.toNat) (vsumsq g))), a.nonfinite || anyNonfinite g⟩
  s.modCtx q.c (fun x => { x with accum := tput x.accum q.w a' })

/-- NORM (R222). -/
def execNorm (w : Fin 16) (r : Bytes) (env : RunEnv) (s : State) : Host.Outcome State Fault Refusal :=
  issueUpdate 0x21 w r env (fun q s => upGregion r w (upCount r) :: s.upCommon q r) (fun _ _ => []) (fun _ _ => { groups := [] })
    (fun q s => s.normAdd q r) s

/-- The fused word of a seat (R223). -/
def State.fusedWord (s : State) (c : Nat) : Bytes :=
  let a := fun w => tget (fun _ => ({} : Accum)) (s.ctx c).accum w
  let sum := (List.range 15).foldl (fun acc i => fadd acc (dec32 (a (i + 1)).sumsq.toNat)) (dec32 (a 0).sumsq.toNat)
  toLe 4 (enc32 sum) ++ toLe 1 (b2n ((List.range 16).any (fun w => (a w).nonfinite))) ++ zeros 3

/-- FUSE (R223). -/
def execFuse (w : Fin 16) (r : Bytes) (env : RunEnv) (s : State) : Host.Outcome State Fault Refusal :=
  issueUpdate 0x22 w r env (fun _ _ => []) (fun _ _ => [⟨2, 0, u32 r 68, 8⟩]) (fun q s => { groups := [[⟨2, 0, u32 r 68, s.fusedWord q.c⟩]] })
    (fun _ s => s) s

/-- The pending bounds that are due, with how many writes they settle (R219). -/
def Ctx.dueBounds (x : Ctx) : Option (LsBounds × Nat) :=
  ((List.range x.bounds.length).filterMap (fun i => (x.bounds[i]?).bind (fun b => if 2 ≤ b.2 then some (b.1, i + 1) else none))).getLast?

/-- The bounds that a SCALE record adopts (R219): those recorded for the epoch in a replay, else the pending ones when they are due. -/
def State.scaleBounds (s : State) (q : UpCtx) : Option LsBounds :=
  if s.replaying q.c then ((s.ctx q.c).log.find? (fun e => e.epoch == q.x)).bind (fun e => e.bounds)
  else (s.ctx q.c).dueBounds.map (·.1)

/-- The pending loss-scale record of R221. -/
def scaleStep (l : LossScale) (b : Option LsBounds) (v : Fp × Bool) : LossScale :=
  let l := match b with
    | some b => { l with floor := toSigned 8 b.floor, ceil := toSigned 8 b.ceil, window := b.window }
    | none => l
  let l :=
    if v.2 ∨ v.1 = .inf false then { l with s := l.s - 1, clean := 0, skips := min (l.skips + 1) 0xFFFFFFFF }
    else
      let l := { l with clean := l.clean + 1, sumsq := enc32 v.1 }
      if l.window ≤ l.clean then { l with s := l.s + 1, clean := 0 } else l
  { l with s := min (max l.s l.floor) l.ceil }

/-- Region of half `h` of the loss-scale record. -/
def State.lsRegion (s : State) (q : UpCtx) (r : Bytes) (h : Nat) : Region := ⟨upSpace r, upUnit q.w (upSpace r), s.lsAt q r h, 64⟩

/-- The run of SCALE (R221). -/
def scaleOut (r : Bytes) (q : UpCtx) (s : State) : RunOut :=
  let g := s.lsRegion q r q.x
  { groups := [[⟨g.space, g.unit, g.addr, (scaleStep (s.lsRead q r) (s.scaleBounds q) (s.verdict q r)).bytes⟩]] }

/-- SCALE (R221). -/
def execScale (w : Fin 16) (r : Bytes) (env : RunEnv) (s : State) : Host.Outcome State Fault Refusal :=
  issueUpdate 0x23 w r env (fun q s => s.upCommon q r) (fun q s => [s.lsRegion q r q.x]) (scaleOut r)
    (fun q s => match (if s.replaying q.c then none else (s.ctx q.c).dueBounds) with
      | some b => s.modCtx q.c (fun x => { x with adopted := tput x.adopted q.x b })
      | none => s) s

/-- Regions that a CARRY covers, in half `h` (R237, R242). -/
def carryRegions (r : Bytes) (w h : Nat) : List Region :=
  let sp := upSpace r
  let u := upUnit w sp
  match byteAt r 52 with
  | 0x26 => [⟨sp, u, upHalf r 80 h, upM r * upM r * 4⟩, ⟨sp, u, upHalf r 84 h, upN r * upN r * 4⟩]
  | 0x20 => upPlanes r w (upCount r) (byteAt r 53) h
  | _ => upPlanes r w (upM r * upN r) (byteAt r 53) h

/-- CARRY (R242): in a skipped step it restores the pending half to the committed version; otherwise it does nothing. -/
def execCarry (w : Fin 16) (r : Bytes) (env : RunEnv) (s : State) : Host.Outcome State Fault Refusal :=
  issueUpdate 0x24 w r env (fun q s => s.upCommon q r ++ (if s.skips q r then carryRegions r w (q.x - 1) else []))
    (fun q s => if s.skips q r then carryRegions r w q.x else [])
    (fun q s => { groups := if s.skips q r then [s.copyRegions q (carryRegions r w (q.x - 1)) (carryRegions r w q.x)] else [] }) (fun _ s => s) s

/-! Variant adapters. -/

/-- Entry `i` of the variant list; none when it breaks the order or the limit of R248. -/
def State.vlist (s : State) (q : UpCtx) (r : Bytes) (i : Nat) : Option Nat :=
  let e := fun i => u32 (s.erd q 1 (u32 r 92 + 4 * i) 4) 0
  if e i < 4096 ∧ (i = 0 ∨ e (i - 1) < e i) then some (e i) else none

/-- The current half of a slot in committed epoch `e` (R246). -/
def slotHalf (tag0 tag1 e : Nat) : Nat := if tag1 ≤ e ∧ (e < tag0 ∨ tag0 < tag1) then 1 else 0

/-- Byte offset of variant `v`'s slot from slot 0 (R248). -/
def slotOff (r : Bytes) (v : Nat) : Nat := v * u32 r 100 * 64

/-- Byte address of a plane of variant `v` in half `h`. The header takes the first unit at W_ADDR, so the master begins one unit above it;
LO_ADDR and S_ADDR name their planes in half 0 of slot 0 (R245; DEDUCED, log entry 10). -/
def slotPlane (r : Bytes) (f v h : Nat) : Nat := upHalf r f h + slotOff r v + (if f = 24 then 64 else 0)

/-- Regions of a slot's half. -/
def State.slotRegions (s : State) (q : UpCtx) (r : Bytes) (v h : Nat) : List Region :=
  let sp := upSpace r
  let u := upUnit q.w sp
  let n := upCount r
  [⟨sp, u, slotPlane r 24 v h, n * upWz r⟩, ⟨sp, u, slotPlane r 28 v h, n * 2⟩] ++
    (List.range (rulePlanes (s.upRule q r))).map (fun i => ⟨sp, u, slotPlane r 32 v h + i * u32 r 36 * 64, n * upSz r⟩)

/-- Address of a slot's header. -/
def slotHead (r : Bytes) (v : Nat) : Nat := u32 r 24 * 64 + slotOff r v

/-- The extents of every slot that a VARIANT record can update, both halves and the headers: whatever variants arrive (R248, R634; DEDUCED, log entry
54). -/
def slotExtents (k : Nat) (r : Bytes) (w : Nat) : List Region :=
  let sp := upSpace r
  let u := upUnit w sp
  let n := upCount r
  ((List.range 4096).map (fun v => (⟨sp, u, slotHead r v, 64⟩ : Region) :: ((List.range 2).map (fun h =>
    [⟨sp, u, slotPlane r 24 v h, n * upWz r⟩, ⟨sp, u, slotPlane r 28 v h, n * 2⟩] ++
      (List.range k).map (fun i => (⟨sp, u, slotPlane r 32 v h + i * u32 r 36 * 64, n * upSz r⟩ : Region)))).flatten)).flatten

/-- The half that an update of variant `v` reads. -/
def State.slotCur (s : State) (q : UpCtx) (r : Bytes) (v : Nat) : Nat :=
  let b := s.erd q (upSpace r) (slotHead r v) 8
  slotHalf (u32 b 0) (u32 b 4) (q.x - 1)

/-- Variants that a record updates, with their entry numbers. -/
def State.vlistGood (s : State) (q : UpCtx) (r : Bytes) : List (Nat × Nat) := (List.range (u32 r 96)).filterMap (fun i => (s.vlist q r i).map (fun v => (i, v)))

/-- Entries that R248 skips. -/
def State.vlistBad (s : State) (q : UpCtx) (r : Bytes) : Nat := u32 r 96 - (s.vlistGood q r).length

/-- The run of VARIANT (R246, R248): each listed slot's other half, with its tag; nothing in a skipped step. -/
def variantOut (r : Bytes) (q : UpCtx) (s : State) : RunOut :=
  let sp := upSpace r
  let u := upUnit q.w sp
  let n := upCount r
  if s.skips q r then { groups := [], range := s.vlistBad q r }
  else
    let one := fun (p : Nat × Nat) =>
      let h := s.slotCur q r p.2
      let a := fun f h => slotPlane r f p.2 h
      let e := s.elemRun q r n (p.1 * n) (p.1 * n) (a 24 h) (a 28 h) (a 32 h) (a 24 (h + 1)) (a 28 (h + 1)) (a 32 (h + 1))
      (e.1 ++ [⟨sp, u, slotHead r p.2 + 4 * ((h + 1) % 2), toLe 4 q.x⟩], e.2)
    let es := (s.vlistGood q r).map one
    { groups := [(es.map (fun e => e.1)).flatten], nonfinite := es.any (fun e => e.2), range := s.vlistBad q r }

/-- Output regions of VARIANT. -/
def State.variantOuts (s : State) (q : UpCtx) (r : Bytes) : List Region :=
  if s.skips q r then [] else
  ((s.vlistGood q r).map (fun p =>
    ⟨upSpace r, upUnit q.w (upSpace r), slotHead r p.2, 64⟩ :: s.slotRegions q r p.2 (s.slotCur q r p.2 + 1))).flatten

/-- VARIANT (R248). -/
def execVariant (w : Fin 16) (r : Bytes) (env : RunEnv) (s : State) : Host.Outcome State Fault Refusal :=
  issueUpdate 0x29 w r env
    (fun q s => ⟨1, w, u32 r 92, u32 r 96 * 4⟩ :: upGregion r w (u32 r 96 * upCount r) ::
      ((s.vlistGood q r).map (fun p => s.slotRegions q r p.2 (s.slotCur q r p.2))).flatten ++ s.upCommon q r)
    (fun q s => s.variantOuts q r) (variantOut r) (fun q s => s.eventIf (decide (0 < s.vlistBad q r)) (Reg.UPD_EVENT q.c) 4) s

end Sys2Proof.Machine
end

