-- ==== Sys2Proof/Machine/Adapter.lean ====
section
/-! DEFINITION. The adapter cache (R289 to R294): slots, their home and their frames, write-backs, fills, what a batch names, and the slots of a candidate and of a restore. -/

namespace Sys2Proof.Machine

/-- The adapter cache of context `c`. -/
def State.adp (s : State) (c : Nat) : Adapters := (s.ctx c).adp
/-- A state with the adapter cache of a context changed. -/
def State.modAdp (s : State) (c : Nat) (f : Adapters → Adapters) : State := s.modCtx c (fun x => { x with adp := f x.adp })

/-- Partition address of variant `v`'s slot in the home bank (R289). -/
def State.slotHome (s : State) (c v : Nat) : Nat := s.regN (Reg.MEM_ADP_HOME c) * 2097152 + v * s.adpPitch c
/-- Partition address of frame `f` (R289). -/
def State.framePool (s : State) (c f : Nat) : Nat := s.regN (Reg.MEM_ADP_POOL c) * 2097152 + f * s.adpPitch c

/-- Slots of a context: those that the ADAPTER regions of its role hold (R632). -/
def State.adpSlots (s : State) (c : Nat) : Nat :=
  let n := (((s.ledger c).filter (fun l => l.kind == 11)).map (fun l => l.size)).foldl (· + ·) 0
  if s.adpPitch c = 0 then 0 else min 4096 (n / s.adpPitch c)

/-- Distance in bytes between the halves of a slot: VSTRIDE of the role's VARIANT records (R245). -/
def State.slotStride (s : State) (c : Nat) : Nat :=
  let b := (s.ctx c).image
  match s.roleOf c with
  | none => 0
  | some role => (((List.range (imgFrames b)).findSome? (fun f =>
      (List.range 16).findSome? (fun w => (imgRecords b role f (272 + w)).find? (fun r => recClass r == 0x29)))).map (fun r => u32 r 48 * 64)).getD 0

/-- Offset in a slot and length of half `h` (R245). -/
def State.slotHalfAt (s : State) (c h : Nat) : Nat × Nat :=
  let v := s.slotStride c
  if h = 0 then (64, v) else (64 + v, s.adpPitch c - 64 - v)

/-- The current half of a slot by its header (R246). -/
def headHalf (b : Bytes) (e : Nat) : Nat := slotHalf (u32 b 0) (u32 b 4) e

/-- The 64-byte header of variant `v`'s slot: in its frame when it is resident, else in the home. -/
def State.slotHeader (s : State) (c v : Nat) : Bytes :=
  match s.adpFrame c v with
  | some f => s.rd c 3 0 (s.framePool c f) 64
  | none => s.rd c 4 0 (s.slotHome c v) 64

/-- The whole slot of variant `v` (R294). -/
def State.slotBytes (s : State) (c v : Nat) : Bytes :=
  match s.adpFrame c v with
  | some f => s.rd c 3 0 (s.framePool c f) (s.adpPitch c)
  | none => s.rd c 4 0 (s.slotHome c v) (s.adpPitch c)

/-- Copies a slot's header and its current half between its frame and its home (R291, R292). -/
def State.copySlot (s : State) (c v f : Nat) (fill : Bool) : State :=
  let src := if fill then s.slotHome c v else s.framePool c f
  let dst := if fill then s.framePool c f else s.slotHome c v
  let sp := if fill then 4 else 3
  let dp := if fill then 3 else 4
  let head := s.rd c sp 0 src 64
  let h := s.slotHalfAt c (headHalf head (s.hasp c).epoch)
  let s := s.wrRaw c dp 0 dst head
  let s := s.wrRaw c dp 0 (dst + h.1) (s.rd c sp 0 (src + h.1) h.2)
  let s := (s.account c 4 (64 + h.2)).account c 5 (64 + h.2)
  if fill then s else (s.dirty c 4 0 dst 64).dirty c 4 0 (dst + h.1) h.2

/-- Variants that the step in progress or the next one names (R293). -/
def Adapters.needed (a : Adapters) : List Nat := a.listed ++ a.running

/-- The frame that a fill takes: an empty one, else the clean frame whose variant was least recently named, the lowest variant among equals
(R293). -/
def State.fillFrame (s : State) (c : Nat) : Option Nat :=
  let a := s.adp c
  let n := min a.frames.length (s.regN (Reg.MEM_ADP_FRAMES c) % 2 ^ 14)
  let fs := List.zip (List.range n) a.frames
  match fs.find? (fun p => p.2.variant.isNone) with
  | some p => some p.1
  | none =>
    let ok := fs.filter (fun p => !p.2.dirty && !a.needed.contains (p.2.variant.getD 0))
    ((sortBy (fun (x y : Nat × AdpFrame) => decide (x.2.named < y.2.named ∨ (x.2.named = y.2.named ∧ x.2.variant.getD 0 ≤ y.2.variant.getD 0))) ok).head?).map (·.1)

/-- The adapter cache with frames for MEM_ADP_FRAMES, none of them filled. -/
def State.emptyFrames (s : State) (c : Nat) : State :=
  let n := s.regN (Reg.MEM_ADP_FRAMES c) % 2 ^ 14
  s.modAdp c (fun a => { a with frames := List.replicate n {}, writeBacks := [], fills := [] })

/-- Tags of every slot when the plan is loaded (R245). -/
def State.initSlots (s : State) (c : Nat) : State :=
  let s := s.over (List.range (s.adpSlots c)) (fun s v => s.wrRaw c 4 0 (s.slotHome c v) (toLe 4 0 ++ toLe 4 0xFFFFFFFF))
  (s.modAdp c (fun _ => {})).emptyFrames c

/-- ADAPTER_TRANSFER_DONE (R291 to R293): write-backs come before fills, each kind in increasing variant order; a transfer that is not the
next one changes nothing. -/
def execAdapterTransferDone (c : Fin 16) (v : Nat) (fill : Bool) (s : State) : Host.Outcome State Fault Refusal :=
  let a := s.adp c
  if s.pwr.beHeld then .next s
  else if !fill then
    match s.adpFrame c v with
    | some f =>
      if a.writeBacks.head? = some v then
        .next ((s.copySlot c v f false).modAdp c (fun a => { a with
          writeBacks := a.writeBacks.drop 1
          frames := a.frames.map (fun x => if x.variant = some v then { x with dirty := false } else x) }))
      else .next s
    | none => .next s
  else
    match a.writeBacks, a.fills with
    | [], (x, named) :: t =>
      if x ≠ v then .next s
      else match s.fillFrame c with
        | some f =>
          .next ((s.copySlot c v f true).modAdp c (fun a => { a with fills := t, frames := a.frames.set f { variant := some v, dirty := false, named := named } }))
        | none => .next s
    | _, _ => .next s

/-- The variants that a completed batch names (R291): frames that hold them are named now, and those that no frame holds are to be filled,
after what earlier batches have still to fill. Dirty frames still unwritten set WRITEBACK_LATE. -/
def State.batchVariants (s : State) (c : Nat) (vs : List Nat) : State :=
  let vs := sortBy (fun a b => decide (a ≤ b)) vs.eraseDups
  let s := s.eventIf (!(s.adp c).writeBacks.isEmpty) (Reg.MEM_ADP_EVENT c) 0
  s.modAdp c (fun a => { a with
    listed := vs
    fills := a.fills.map (fun p => if vs.contains p.1 then (p.1, s.tick.now) else p) ++
      (vs.filter (fun v => !a.frames.any (fun f => f.variant == some v) && !a.fills.any (fun p => p.1 == v))).map (fun v => (v, s.tick.now))
    frames := a.frames.map (fun f => match f.variant with
      | some v => if vs.contains v then { f with named := s.tick.now } else f
      | none => f) })

/-- Frames that a commit of epoch `x` makes dirty, to be written back (R292). -/
def State.commitAdapters (s : State) (c x : Nat) : State :=
  let fs := (s.adp c).frames
  let wrote := (List.zip (List.range fs.length) fs).filterMap (fun p => match p.2.variant with
    | some v => let h := s.rd c 3 0 (s.framePool c p.1) 8; if u32 h 0 = x ∨ u32 h 4 = x then some v else none
    | none => none)
  if wrote = [] then s
  else s.modAdp c (fun a => { a with
    frames := a.frames.map (fun f => if f.variant.any wrote.contains then { f with dirty := true } else f)
    writeBacks := sortBy (fun a b => decide (a ≤ b)) (a.writeBacks ++ wrote).eraseDups })

/-- The slots that a candidate copies: those whose tags changed since the previous one, every slot when there was none (R294). -/
def State.candidateSlots (s : State) (c : Nat) : Tbl Bytes :=
  let a := s.adp c
  let old := fun v => (a.cand.find? (fun p => p.1 == v)).orElse (fun _ => a.clear.find? (fun p => p.1 == v))
  (List.range (s.adpSlots c)).filterMap (fun v => match old v with
    | some p => if p.2.take 8 = (s.slotHeader c v).take 8 then none else some (v, s.slotBytes c v)
    | none => some (v, s.slotBytes c v))

/-- The candidate's slots join the clear ones (R294). -/
def State.clearSlots (s : State) (c : Nat) : State :=
  s.modAdp c (fun a => { a with clear := a.cand.foldl (fun t p => tput t p.1 p.2) a.clear, cand := [] })

/-- A restore of the slots (R247): each slot of the clear hasp goes whole to its home; the frames were invalidated as the context began to restore (R294). -/
def State.restoreSlots (s : State) (c : Nat) : State :=
  s.over (s.adp c).clear (fun s p => (s.wrRaw c 4 0 (s.slotHome c p.1) p.2).dirty c 4 0 (s.slotHome c p.1) p.2.length)

end Sys2Proof.Machine
end

