-- ==== Sys2Proof/Machine/Bolts.lean ====
section
/-! DEFINITION. Bolts: their operations (R394 to R398), the records that perform them, class 0x0F (R164), and the wait that its tumbler outlasts. -/

namespace Sys2Proof.Machine

/-- Whether a bolt lies in the shared range (R394). -/
def sharedBolt (b : Nat) : Bool := decide (0xF00 ≤ b % 4096)

/-- Whether a bolt lies in the CTX_BOLTS range of context `c`, in any ward (R394). -/
def State.ownBolt (s : State) (c b : Nat) : Bool :=
  let v := s.regN (Reg.CTX_BOLTS c)
  let base := bits v 11 0
  decide (base ≤ b % 4096 ∧ b % 4096 < base + bits v 27 16)

/-- Serves the queue of waits from its head and stops at the first that it cannot satisfy: the count, the waits left, and the
acquisitions of satisfied waits when the bolt is shared (R397, R398). -/
def serveWaits (shared : Bool) : W32 → List Wait → W32 × List Wait × List Acquisition
  | n, [] => (n, [], [])
  | n, w :: t =>
    if w.amount ≤ n.toNat then
      let p := serveWaits shared (n - BitVec.ofNat 32 w.amount) t
      (p.1, p.2.1, (if shared && decide (w.requester < 288) then [⟨w.amount, w⟩] else []) ++ p.2.2)
    else (n, w :: t, [])

/-- A bolt after its count has changed (R397). -/
def Bolt.serve (x : Bolt) (shared : Bool) : Bolt :=
  let p := serveWaits shared x.count x.waits
  { count := p.1, waits := p.2.1, held := x.held ++ p.2.2 }

/-- Set `v` (R395). -/
def State.boltSet (s : State) (b : Nat) (v : W32) : State := s.setBolt b ({ s.bolt b with count := v }.serve (sharedBolt b))

/-- Reduces a context's acquisitions, oldest first, by `v` (R398). -/
def spendHeld (c : Nat) : Nat → List Acquisition → List Acquisition
  | _, [] => []
  | v, a :: t =>
    if a.wait.ctx = c then
      if v < a.amount then { a with amount := a.amount - v } :: t else spendHeld c (v - a.amount) t
    else a :: spendHeld c v t

/-- Add `v` by context `c`, saturating (R395, R398). -/
def State.boltAdd (s : State) (c b : Nat) (v : W32) : State :=
  let x := s.bolt b
  let sum := x.count.toNat + v.toNat
  let x := { x with count := BitVec.ofNat 32 (min sum 0xFFFFFFFF), held := if sharedBolt b then spendHeld c v.toNat x.held else x.held }
  (s.setBolt b (x.serve (sharedBolt b))).eventIf (decide (0xFFFFFFFF < sum)) (Reg.CTX_EVENT c) 4

/-- A wait joins the queue and is served when it can be (R395, R397). -/
def State.boltWait (s : State) (b : Nat) (w : Wait) : State :=
  let x := s.bolt b
  s.setBolt b ({ x with waits := x.waits ++ [w] }.serve (sharedBolt b))

/-- BOLT of a bolt record. -/
def boltNo (r : Bytes) : Nat := u16 r 18
/-- VALUE of a bolt record. -/
def boltVal (r : Bytes) : W32 := BitVec.ofNat 32 (u32 r 20)

/-- The guarded region of a bolt record on unit `u`. -/
def boltGuard (r : Bytes) (u : Nat) : Option Region :=
  if u32 r 28 = 0 then none
  else some ⟨byteAt r 17, if byteAt r 17 = 0 then u else if u < 256 then u / 16 else u % 16, u32 r 24, u32 r 28⟩

/-- Legality of a bolt record of operation `op` (R164, R395). -/
def boltLegal (op : Nat) (r : Bytes) : Bool :=
  recClass r == 0x0F && byteAt r 16 == op && byteAt r 17 ≤ 1 && zeroAt r 32 32 && (op != 0 || u32 r 20 != 0)

/-- The bolts that a record of the context may act on (R396). -/
def State.boltReach (s : State) (c op b : Nat) : Bool := s.ownBolt c b || (op != 2 && sharedBolt b)

/-- A record that has begun on a unit and waits for its retirement. -/
def State.begun (s : State) (c u : Nat) (r : Bytes) (isWait : Bool) : State :=
  s.modUnit u (fun x => { x with queue := x.queue ++ [⟨r, c, (s.hasp c).gen, (s.hasp c).tag, [], [], isWait⟩] })

/-- Issues a bolt record of operation `op` (R164): a bolt out of the context's reach is what plan check 11 rejects. -/
def issueBolt (op u : Nat) (r : Bytes) (late : Bool) (go : Nat → State → State) (s : State) : Host.Outcome State Fault Refusal :=
  issueG u r late (boltLegal op r) (s.boltReach (recCtx r) op (boltNo r)) [] (fun c s => (go c s).begun c u r (op == 0)) s

/-- BOLT_WAIT (R395). -/
def execBoltWait (u : Fin 288) (r : Bytes) (late : Bool) (s : State) : Host.Outcome State Fault Refusal :=
  issueBolt 0 u r late (fun c s => s.boltWait (boltNo r) ⟨u, u32 r 20, boltGuard r u, recId r, c⟩) s
/-- BOLT_ADD (R395). -/
def execBoltAdd (u : Fin 288) (r : Bytes) (late : Bool) (s : State) : Host.Outcome State Fault Refusal :=
  issueBolt 1 u r late (fun c s => s.boltAdd c (boltNo r) (boltVal r)) s
/-- BOLT_SET (R395). -/
def execBoltSet (u : Fin 288) (r : Bytes) (late : Bool) (s : State) : Host.Outcome State Fault Refusal :=
  issueBolt 2 u r late (fun _ s => s.boltSet (boltNo r) (boltVal r)) s

/-- Whether unit `u` waits on a bolt for the record (R164). -/
def State.unsatisfied (s : State) (u : Nat) (o : OpenRec) : Bool := o.isWait && (s.bolt (boltNo o.bytes)).waits.any (fun w => w.requester == u)

/-- The wait of unit `u` at its tumbler's end: it retires unsatisfied, poisons its guarded region and posts TIMEOUT (R164). -/
def State.waitTimeout (s : State) (u : Nat) (o : OpenRec) : State :=
  let b := boltNo o.bytes
  let s := s.setBolt b { s.bolt b with waits := (s.bolt b).waits.filter (fun w => w.requester != u) }
  let s := s.modUnit u (fun x => { x with queue := x.queue.drop 1, retired := x.retired + 1 })
  (s.markAll o.ctx ((boltGuard o.bytes u).toList)).opFault o.ctx u (recId o.bytes) 0x09

/-- BOLT_WAIT_TIMEOUT (R164): nothing happens to a unit that runs no unsatisfied wait. -/
def execBoltWaitTimeout (u : Fin 288) (s : State) : Host.Outcome State Fault Refusal :=
  match (s.unit u).queue with
  | o :: _ => if s.unsatisfied u o then .next (s.waitTimeout u o) else .next s
  | [] => .next s

end Sys2Proof.Machine
end

