-- ==== Sys2Proof/Machine/Signal.lean ====
section
/-! DEFINITION. The media front end's arithmetic, bit for bit: the picture path (R477, R480), the inverse DCT of JPEG (R495), audio conversion, resampling, transform and mel bands (R496 to R500), and tokenisation (R502, R503). -/

namespace Sys2Proof.Machine

/-! Exact constants. A number in units of 2^-fpWork is rounded once where it is used. -/

/-- A fixed-point number as a value; what lies below 2^-300 is zero. -/
def fixFp (v : Int) : Fp := if v.natAbs < 2 ^ 100 then fpZero else r32 (fpOfInt v (-(fpWork : Int)))

/-- The rational p / q, rounded once. -/
def ratFp (p : Int) (q : Nat) : Fp := r32 (fdiv (fpOfInt p 0) (fpOfInt q 0))

/-- Product of two fixed-point numbers. -/
def fixMul (a b : Int) : Int := a * b / (2 ^ fpWork : Nat)

/-- One in fixed point. -/
def fixOne : Int := (2 ^ fpWork : Nat)

/-- Sums of the cosine and sine series at x, x squared given, in units of 2^-fpWork: t is the term x^i / i!. -/
def trigGo (x : Int) : Nat → Int → Nat → Int → Int → Int × Int
  | 0, _, _, c, s => (c, s)
  | f + 1, t, i, c, s =>
    let n := fixMul t x / ((i : Int) + 1)
    match i % 4 with
    | 0 => trigGo x f n (i + 1) (c + t) s
    | 1 => trigGo x f n (i + 1) c (s + t)
    | 2 => trigGo x f n (i + 1) (c - t) s
    | _ => trigGo x f n (i + 1) c (s - t)

/-- Cosine and sine of pi * p / q. -/
def trigPi (p : Int) (q : Nat) : Int × Int :=
  let r := p % (2 * (q : Int))
  let r := if (q : Int) < r then r - 2 * q else r
  trigGo ((piw : Int) * r / q) 180 fixOne 0 0 0

/-- Cosine of pi * p / q. -/
def cosPi (p : Int) (q : Nat) : Int := (trigPi p q).1
/-- Sine of pi * p / q. -/
def sinPi (p : Int) (q : Nat) : Int := (trigPi p q).2

/-! The picture path. -/

/-- A sample plane: width, height, values row by row. -/
structure Plane where
  w : Nat
  h : Nat
  v : List Fp
  deriving DecidableEq, Repr

/-- Sample (y, x) of a plane. -/
def Plane.at (p : Plane) (y x : Nat) : Fp := p.v.getD (y * p.w + x) fpZero

/-- A plane of the given size by its samples. -/
def planeOf (w h : Nat) (f : Nat → Nat → Fp) : Plane := ⟨w, h, ((List.range h).map (fun y => (List.range w).map (f y))).flatten⟩

/-- The coordinate q of R177 with ALIGN 0. -/
def resizeCoord (ni no o : Nat) : Nat := min ((2 * o + 1) * ni * 65536 / (2 * no) - 32768) ((ni - 1) * 65536)

/-- Bilinear resize of a plane (R177, R178, R480). -/
def Plane.resize (p : Plane) (w h : Nat) : Plane :=
  let wt := fun (q : Nat) => ((.fin false (65536 - q % 65536) (-16) : Fp), (.fin false (q % 65536) (-16) : Fp))
  planeOf w h (fun y x =>
    let qy := resizeCoord p.h h y
    let qx := resizeCoord p.w w x
    let y1 := min (qy / 65536 + 1) (p.h - 1)
    let x1 := min (qx / 65536 + 1) (p.w - 1)
    let top := fma (p.at (qy / 65536) x1) (wt qx).2 (fmulR (p.at (qy / 65536) (qx / 65536)) (wt qx).1)
    let bot := fma (p.at y1 x1) (wt qx).2 (fmulR (p.at y1 (qx / 65536)) (wt qx).1)
    fma bot (wt qy).2 (fmulR top (wt qy).1))

/-- Kr and Kb in units of 1/10,000, by matrix coefficients and coded height (R480). -/
def lumaCoeffs (matrix height : Nat) : Nat × Nat :=
  if matrix = 1 then (2126, 722) else if matrix = 5 ∨ matrix = 6 then (2990, 1140) else if matrix = 9 then (2627, 593)
  else if 720 ≤ height then (2126, 722) else (2990, 1140)

/-- The constants a, b, c, d of R480, each exact value rounded once. -/
def colourConsts (k : Nat × Nat) : Fp × Fp × Fp × Fp :=
  let kg : Nat := 10000 - k.1 - k.2
  (ratFp (2 * (10000 - k.1 : Nat)) 10000, ratFp (2 * (10000 - k.2 : Nat)) 10000,
   ratFp (2 * k.2 * (10000 - k.2) : Nat) (10000 * kg), ratFp (2 * k.1 * (10000 - k.1) : Nat) (10000 * kg))

/-- Normalised luma of a sample (R480). -/
def normY (full : Bool) (b v : Nat) : Fp :=
  if full then fmulR (fpOfInt v 0) (ratFp 1 (2 ^ b - 1))
  else fmulR (fpOfInt ((v : Int) - (16 * 2 ^ (b - 8) : Nat)) 0) (ratFp 1 (219 * 2 ^ (b - 8)))

/-- Normalised chroma of a sample (R480). -/
def normC (full : Bool) (b v : Nat) : Fp :=
  if full then fmulR (fpOfInt ((v : Int) - (2 ^ (b - 1) : Nat)) 0) (ratFp 1 (2 ^ b - 1))
  else fmulR (fpOfInt ((v : Int) - (128 * 2 ^ (b - 8) : Nat)) 0) (ratFp 1 (224 * 2 ^ (b - 8)))

/-- The chroma of a picture without chroma planes: the manual gives it no value (log entry 2). -/
def greyChroma : Fp := dec32 Config.greyChroma.toNat

/-- A picture's channels before scaling (R480, steps 1 to 3): replicated chroma, normalised samples, the colour that COLOUR asks for. -/
def picChannels (p : RawPic) (colour : Nat) : List Plane :=
  let y := planeOf p.width p.height (fun r c => normY p.fullRange p.depth (p.luma.getD (r * p.width + c) 0))
  let chroma := fun (l : List Nat) => planeOf p.width p.height (fun r c =>
    if l.isEmpty ∨ p.chromaW = 0 ∨ p.chromaH = 0 then greyChroma
    else normC p.fullRange p.depth (l.getD ((r * p.chromaH / p.height) * p.chromaW + c * p.chromaW / p.width) 0))
  if colour = 2 then [y]
  else
    let cb := chroma p.cb
    let cr := chroma p.cr
    if colour = 0 then [y, cb, cr]
    else
      let (a, b, c, d) := colourConsts (lumaCoeffs p.matrix p.height)
      let mk := fun (f : Fp → Fp → Fp → Fp) => planeOf p.width p.height (fun r x => f (y.at r x) (cb.at r x) (cr.at r x))
      [mk (fun y _ v => fma a v y), mk (fun y u v => fma d.neg v (fma c.neg u y)), mk (fun y u _ => fma b u y)]

/-- Bytes of an element in an output format, rounded in RNE. -/
def outElem (fmt : Nat) (x : Fp) : Bytes := toLe (fmtBytes fmt) ((plainFmt fmt).convert .rne false 0 x)

/-- A picture of a row: planar as channel, row, column (R477, R480). -/
def picOutput (p : RawPic) (fmt colour w h : Nat) : Bytes :=
  ((picChannels p colour).map (fun c => (((if c.w = w ∧ c.h = h then c else c.resize w h).v).map (outElem fmt)).flatten)).flatten

/-- Taken pictures of an item (R479). -/
def takenPics (stride most : Nat) (ps : List RawPic) : List RawPic :=
  (((List.zip (List.range ps.length) ps).filter (fun p => p.1 % stride == 0)).map (·.2)).take most

/-! JPEG. -/

/-- IDCT coefficient of output x and frequency u, rounded once (R495). -/
def idctCoeff (x u : Nat) : Fp :=
  -- C(0) / 2 = cos(pi / 4) / 2
  if u = 0 then fixFp (cosPi 1 4 / 2) else fixFp (cosPi ((2 * x + 1) * u) 16 / 2)

/-- One pass over 8 values. -/
def idct8 (v : List Fp) : List Fp :=
  (List.range 8).map (fun x => (List.range 8).foldl (fun a u => fma (idctCoeff x u) (v.getD u fpZero) a) fpZero)

/-- A value rounded to an integer in RNE. -/
def fpRint : Fp → Int
  | .fin s m e =>
    let n : Nat := if 0 ≤ e then m <<< e.toNat
      else
        let sh := (-e).toNat
        let q := m >>> sh
        let r := m % 2 ^ sh
        if 2 * r > 2 ^ sh ∨ (2 * r = 2 ^ sh ∧ q % 2 = 1) then q + 1 else q
    if s then -(n : Int) else n
  | _ => 0

/-- Samples of one 8 x 8 block (R495): rows, then columns, then an integer of 0 to 255. -/
def idctBlock (b : List Int) : List Nat :=
  let rows := (List.range 8).map (fun r => idct8 ((List.range 8).map (fun c => fpOfInt (b.getD (8 * r + c) 0) 0)))
  let cols := (List.range 8).map (fun c => idct8 ((List.range 8).map (fun r => (rows.getD r []).getD c fpZero)))
  ((List.range 8).map (fun r => (List.range 8).map (fun c => (min (max (fpRint ((cols.getD c []).getD r fpZero) + 128) 0) 255).toNat))).flatten

/-- The sample plane of a JPEG component, row by row. -/
def jpegSamples (c : JpegComp) : List Nat :=
  let bs := c.blocks.map idctBlock
  ((List.range (8 * c.blocksH)).map (fun y => (List.range (8 * c.blocksW)).map (fun x =>
    (bs.getD (y / 8 * c.blocksW + x / 8) []).getD (y % 8 * 8 + x % 8) 0))).flatten

/-- A JPEG image as a picture of full range with coefficients 5 (R495), its chroma replicated to the luma grid. -/
def jpegPic (w h : Nat) (comps : List JpegComp) : RawPic :=
  let most := fun (f : JpegComp → Nat) => (comps.map f).foldl max 1
  let grid := fun (i : Nat) => match comps[i]? with
    | none => []
    | some c =>
      let s := jpegSamples c
      ((List.range h).map (fun y => (List.range w).map (fun x =>
        s.getD ((y * c.blocksH / most (·.blocksH)) * (8 * c.blocksW) + x * c.blocksW / most (·.blocksW)) 0))).flatten
  { width := w, height := h, depth := 8, fullRange := true, matrix := 5, chromaW := w, chromaH := h, luma := grid 0, cb := grid 1, cr := grid 2 }

/-! Audio. -/

/-- A sample as FP32 (R497): `unsigned8` says an 8-bit sample counts from 0. -/
def audioSample (bits : Nat) (isFloat unsigned8 : Bool) (v : Int) : Fp :=
  if isFloat then dec32 (ofSigned 32 v)
  else if unsigned8 ∧ bits = 8 then r32 (fpOfInt (v - 128) (-7))
  else r32 (fpOfInt v (1 - (bits : Int)))

/-- Channels added in order and scaled by FP32(1/C) (R497). -/
def monoMix (chs : List (List Fp)) : List Fp :=
  let n := (chs.map List.length).foldl max 0
  let k := ratFp 1 chs.length
  (List.range n).map (fun i => match chs with
    | [] => fpZero
    | a :: t => fmulR (t.foldl (fun s c => fadd s (c.getD i fpZero)) (a.getD i fpZero)) k)

/-- The filter value h(z) at z = (j * l - p) / l (R498), for the ratio L / M = l / m, with `hh` as H: exact, rounded once. -/
def resampleTap (l m hh : Nat) (j : Int) (p : Nat) : Fp :=
  let num : Int := j * l - p
  -- s = min(1, L / M) * 9 / 10 = sn / sd
  let sn := 9 * min l m
  let sd := 10 * m
  let s : Int := fixOne * sn / sd
  let win := (42 * fixOne + 50 * cosPi num (hh * l) + 8 * cosPi (2 * num) (hh * l)) / 100
  if num = 0 then fixFp s
  else
    -- s * sinc(s z) = sin(pi s z) / (pi z)
    let sinc := sinPi (num * sn) (sd * l) * fixOne * l / ((piw : Int) * num)
    fixFp (fixMul sinc win)

/-- H of R498: min(ceil(16 / s), 1024). -/
def resampleHalf (l m : Nat) : Nat := min (cdiv (160 * m) (9 * min l m)) 1024

/-- Resampling of a channel from `fi` to `rate` (R498). -/
def resample (fi rate : Nat) (x : List Fp) : List Fp :=
  if fi = rate then x
  else
    let g := Nat.gcd fi rate
    let l := rate / g
    let m := fi / g
    let hh := resampleHalf l m
    (List.range (x.length * l / m)).map (fun t =>
      let i := t * m / l
      let p := t * m % l
      (List.range (2 * hh)).foldl (fun y (k : Nat) =>
        let j : Int := (k : Int) - hh + 1
        let n : Int := (i : Int) + j
        fma (resampleTap l m hh j p) (if n < 0 then fpZero else x.getD n.toNat fpZero) y) fpZero)

/-- Frames T of a signal of `n` samples (R499). -/
def stftFrames (center : Bool) (n nfft hop : Nat) : Nat :=
  if center then n / hop + 1 else if n < nfft then 0 else (n - nfft) / hop + 1

/-- Bit reversal of `b` bits. -/
def bitRev : Nat → Nat → Nat
  | 0, _ => 0
  | b + 1, v => (v % 2) * 2 ^ b + bitRev b (v / 2)

/-- One fftPair with twiddle w (R499): p := w * b, then a + p and a - p. -/
def fftPair (w a b : Fp × Fp) : (Fp × Fp) × (Fp × Fp) :=
  let p := (fma w.1 b.1 (fmulR w.2 b.2).neg, fma w.1 b.2 (fmulR w.2 b.1))
  ((fadd a.1 p.1, fadd a.2 p.2), (fsub a.1 p.1, fsub a.2 p.2))

/-- A stage of half-width `h` over one block of 2h. -/
def fftBlock (h : Nat) (tw : List (Fp × Fp)) (x : List (Fp × Fp)) : List (Fp × Fp) :=
  let r := List.zipWith (fun w ab => fftPair w ab.1 ab.2) tw (List.zip (x.take h) (x.drop h))
  r.map (·.1) ++ r.map (·.2)

/-- The blocks of a stage. -/
def fftBlocks (h : Nat) (tw : List (Fp × Fp)) : Nat → List (Fp × Fp) → List (Fp × Fp)
  | 0, _ => []
  | n + 1, x => fftBlock h tw (x.take (2 * h)) ++ fftBlocks h tw n (x.drop (2 * h))

/-- Twiddles e^(-2 pi i k / 2h) for k below h. -/
def twiddles (h : Nat) : List (Fp × Fp) := (List.range h).map (fun (k : Nat) => (fixFp (cosPi k h), fixFp (-(sinPi k h))))

/-- Stages h = 2^i for i from `i`. -/
def fftStages (n : Nat) : Nat → Nat → List (Fp × Fp) → List (Fp × Fp)
  | 0, _, x => x
  | k + 1, i, x => fftStages n k (i + 1) (fftBlocks (2 ^ i) (twiddles (2 ^ i)) (n / 2 ^ (i + 1)) x)

/-- The FFT of a real frame of n = 2^b samples (R499). -/
def fftOf (b : Nat) (x : List Fp) : List (Fp × Fp) :=
  fftStages (2 ^ b) b 0 ((List.range (2 ^ b)).map (fun i => (x.getD (bitRev b i) fpZero, fpZero)))

/-- Window w[j] = 0.5 - 0.5 cos(2 pi j / NFFT) (R499). -/
def hann (nfft j : Nat) : Fp := fixFp ((fixOne - cosPi (2 * j) nfft) / 2)

/-- Power of bins 0 to NFFT / 2 of frame `f` (R499). -/
def stftPower (center : Bool) (nfft hop : Nat) (x : List Fp) (f : Nat) : List Fp :=
  let at_ := fun (j : Nat) =>
    let n : Int := (f * hop + j : Nat) - (if center then (nfft / 2 : Nat) else (0 : Nat))
    if n < 0 then fpZero else x.getD n.toNat fpZero
  let y := fftOf (Nat.log2 nfft) ((List.range nfft).map (fun j => fmulR (at_ j) (hann nfft j)))
  (y.take (nfft / 2 + 1)).map (fun z => fma z.1 z.1 (fmulR z.2 z.2))

/-- ln of p / q, for q ≤ p, in units of 2^-fpWork. -/
def lnFix (p q : Nat) : Nat :=
  let n := Nat.log2 (p / q)
  n * ln2w + lnRatio p (q * 2 ^ n)

/-- e to the power of a fixed-point number. -/
def expFix (y : Nat) : Nat :=
  let n := y / ln2w
  (expGo (y % ln2w) 110 (2 ^ fpWork) 0 0) <<< n

/-- Mel band edge i of B bands in units of 2^-fpWork Hz (R500): equal steps of mel, that is of ln(1 + f / 700). -/
def melEdge (fmin fmax bands i : Nat) : Int :=
  let a := lnFix (700 + fmin) 700
  let b := lnFix (700 + fmax) 700
  let y := a + (b - a) * i / (bands + 1)
  700 * ((expFix y : Nat) - fixOne)

/-- Weight of frequency `f` in the band with edges e0, e1, e2 (R500): exact, rounded once. -/
def melWeight (f e0 e1 e2 : Int) : Fp :=
  if f ≤ e0 ∨ e2 ≤ f then fpZero
  else if f ≤ e1 then fixFp ((f - e0) * fixOne / (e1 - e0))
  else fixFp ((e2 - f) * fixOne / (e2 - e1))

/-- Band energies of a power spectrum (R500). -/
def melBands (rate nfft bands fmin fmax : Nat) (log : Bool) (p : List Fp) : List Fp :=
  let e := (List.range (bands + 2)).map (melEdge fmin fmax bands)
  (List.range bands).map (fun m =>
    let en := (List.range (nfft / 2 + 1)).foldl (fun a k =>
      fma (melWeight (((k * rate : Nat) : Int) * fixOne / nfft) (e.getD m 0) (e.getD (m + 1) 0) (e.getD (m + 2) 0)) (p.getD k fpZero) a) fpZero
    if log then fmulR (r32 (flog2 (fadd en (.fin false 1 (-24))))) (dec32 0x3F317218) else en)

/-! Text. -/

/-- Cuts a text into chunks (R503): with PRESPLIT a chunk begins at a space that follows something else, at a line feed, and after one.
`cur` is the chunk in progress, reversed. -/
def presplit : Bytes → Option Byte → Bytes → List Bytes
  | [], _, cur => if cur.isEmpty then [] else [cur.reverse]
  | b :: t, prev, cur =>
    let starts := (b == 0x20#8 && prev != some 0x20#8) || b == 0x0A#8 || prev == some 0x0A#8
    if starts ∧ !cur.isEmpty then cur.reverse :: presplit t (some b) [b] else presplit t (some b) (b :: cur)

/-- Largest cut at most `n` that begins a character of the text. -/
def charStart (b : Bytes) : Nat → Nat
  | 0 => 0
  | n + 1 => if byteAt b (n + 1) / 64 = 2 then charStart b n else n + 1

/-- Cuts a chunk at the last character start at or before each 4,096-byte point. -/
def cutChunk : Nat → Bytes → List Bytes
  | 0, b => [b]
  | f + 1, b =>
    if b.length ≤ 4096 then [b]
    else
      let n := charStart b 4096
      b.take n :: cutChunk f (b.drop n)

/-- The chunks of a text (R503). -/
def textChunks (pre : Bool) (b : Bytes) : List Bytes :=
  ((if pre then presplit b none [] else if b.isEmpty then [] else [b]).map (fun c => cutChunk (c.length / 4000) c)).flatten

/-- A tokeniser table as loaded (R502). -/
structure TokTable where
  base : List Nat
  merges : List (Nat × Nat × Nat)
  deriving DecidableEq, Repr

/-- The table of its bytes. -/
def tokTable (b : Bytes) : TokTable :=
  ⟨(List.range 256).map (fun i => u32 b (64 + 4 * i)),
   (List.range (u32 b 4)).map (fun i => let o := 1088 + 12 * i; (u32 b o, u32 b (o + 4), u32 b (o + 8)))⟩

/-- Rank and result of a pair: its lowest entry. -/
def TokTable.rank (t : TokTable) (a b : Nat) : Option (Nat × Nat) :=
  (t.merges.findIdx? (fun m => m.1 == a && m.2.1 == b)).map (fun i => (i, (t.merges.getD i (0, 0, 0)).2.2))

/-- Lowest rank among the adjacent pairs. -/
def TokTable.lowest (t : TokTable) : List Nat → Option Nat
  | a :: b :: r =>
    match (t.rank a b).map (·.1), t.lowest (b :: r) with
    | some x, some y => some (min x y)
    | some x, none => some x
    | none, y => y
  | _ => none

/-- Replaces every pair of one rank, from left to right; `skip` says that the first token was the right part of a pair just replaced. -/
def TokTable.merge (t : TokTable) (r : Nat) : List Nat → Bool → List Nat
  | a :: b :: l, false =>
    match t.rank a b with
    | some (k, v) => if k = r then v :: t.merge r (b :: l) true else a :: t.merge r (b :: l) false
    | none => a :: t.merge r (b :: l) false
  | _ :: l, true => t.merge r l false
  | l, _ => l

/-- Merges a chunk until no pair has a rank; each round makes the sequence shorter. -/
def TokTable.run (t : TokTable) : Nat → List Nat → List Nat
  | 0, l => l
  | f + 1, l =>
    match t.lowest l with
    | none => l
    | some r => t.run f (t.merge r l false)

/-- Tokens of a text (R503): BOS, the chunks in order, EOS. -/
def tokenise (t : TokTable) (pre : Bool) (bos eos : Nat) (b : Bytes) : List Nat :=
  let some1 := fun (v : Nat) => if v = 0xFFFFFFFF then [] else [v]
  some1 bos ++ ((textChunks pre b).map (fun c => t.run c.length (c.map (fun x => t.base.getD x.toNat 0)))).flatten ++ some1 eos

end Sys2Proof.Machine
end

