-- ==== Sys2Proof/Machine/Cbor.lean ====
section
/-! DEFINITION. Record frames as bytes (R456 to R458, R501): shard headers, the CBOR that the device accepts, UTF-8, and the keys of record and item maps. -/

namespace Sys2Proof.Machine

/-- Shard header (R456): whether it stands, and DATA_BYTES. -/
def shardOk (b : Bytes) : Bool :=
  b.length == 64 && u32 b 0 == 0x534C534E && byteAt b 4 == 1 && byteAt b 5 == 0 && u16 b 6 == 64 && zeroAt b 32 28 && u32 b 60 == crc32c (b.take 60 ++ zeros 4)

/-! UTF-8 (R501). -/

/-- Whether the next `n` bytes are continuation bytes; what follows them. -/
def utf8Tail : Nat → Bytes → Option Bytes
  | 0, b => some b
  | _ + 1, [] => none
  | n + 1, x :: t => if x.toNat / 64 = 2 then utf8Tail n t else none

/-- One character off the front (RFC 3629): no overlong form, surrogate, code point above U+10FFFF or truncation. -/
def utf8Char (b : Bytes) : Option Bytes :=
  let x := byteAt b 0
  let y := byteAt b 1
  if b = [] then none
  else if x < 0x80 then some (b.drop 1)
  else if x < 0xC2 then none
  else if x < 0xE0 then utf8Tail 1 (b.drop 1)
  else if x < 0xF0 then (if (x = 0xE0 ∧ y < 0xA0) ∨ (x = 0xED ∧ 0xA0 ≤ y) then none else utf8Tail 2 (b.drop 1))
  else if x < 0xF5 then (if (x = 0xF0 ∧ y < 0x90) ∨ (x = 0xF4 ∧ 0x90 ≤ y) then none else utf8Tail 3 (b.drop 1))
  else none

/-- Whether a byte string is UTF-8. -/
def utf8Go : Nat → Bytes → Bool
  | 0, b => b.isEmpty
  | f + 1, b => if b.isEmpty then true else match utf8Char b with
    | some t => utf8Go f t
    | none => false

/-- Whether a byte string is UTF-8 (R501). -/
def utf8Ok (b : Bytes) : Bool := utf8Go b.length b

/-! CBOR (R458). -/

/-- A big-endian number. -/
def beNat (b : Bytes) : Nat := b.foldl (fun a x => a * 256 + x.toNat) 0

/-- An initial byte with its argument: major type, additional information, argument, what follows. None for an indefinite length, a reserved
form or a truncated argument. -/
def cborHead (b : Bytes) : Option (Nat × Nat × Nat × Bytes) :=
  match b with
  | [] => none
  | x :: t =>
    let m := x.toNat / 32
    let i := x.toNat % 32
    if i < 24 then some (m, i, i, t)
    else if 27 < i then none
    else
      let n := 2 ^ (i - 24)
      if t.length < n then none else some (m, i, beNat (t.take n), t.drop n)

/-- An array or map in progress: items still to come, whether it is a map, and 1 more than its last key. -/
structure CborFrame where
  left : Nat
  isMap : Bool
  last : Nat
  deriving DecidableEq, Repr

/-- Closes what is complete after an item. -/
def cborPop : List CborFrame → List CborFrame
  | [] => []
  | f :: t => if f.left ≤ 1 then cborPop t else { f with left := f.left - 1 } :: t

/-- Limits that hold while CBOR is parsed: nesting depth and entries (R460). -/
structure CborLimits where
  depth : Nat
  entries : Nat
  deriving DecidableEq, Repr

/-- One item, whose head has been read: what follows, and the containers still open; or the reason of a rejection (R458 to R461). -/
def cborItem (lim : CborLimits) (st : List CborFrame) (m i v : Nat) (rest : Bytes) : Except Nat (List CborFrame × Bytes) :=
  let str := decide (m = 2 ∨ m = 3)
  let box := decide (m = 4 ∨ m = 5)
  if str then
    if rest.length < v then .error 0x03
    else if m = 3 ∧ !utf8Ok (rest.take v) then .error 0x03
    else .ok (cborPop st, rest.drop v)
  else if box then
    if lim.depth < st.length + 1 then .error 0x12
    else if lim.entries < v then .error 0x13
    else if v = 0 then .ok (cborPop st, rest)
    else .ok (⟨if m = 5 then 2 * v else v, decide (m = 5), 0⟩ :: st, rest)
  else if m ≤ 1 then .ok (cborPop st, rest)
  else if m = 7 ∧ ((20 ≤ i ∧ i ≤ 22) ∨ (25 ≤ i ∧ i ≤ 27)) then .ok (cborPop st, rest)
  else .error 0x03

/-- Parses one data item off the front of a byte string: what follows it, or the reason of a rejection. -/
def cborGo (lim : CborLimits) : Nat → List CborFrame → Bytes → Except Nat Bytes
  | 0, _, _ => .error 0x03
  | f + 1, st, b =>
    match cborHead b with
    | none => .error 0x03
    | some (m, i, v, rest) =>
      let key := match st with
        | x :: _ => x.isMap && x.left % 2 == 0
        | [] => false
      let bad := match st with
        | x :: _ => key && (m != 0 || decide (v < x.last))
        | [] => false
      let st := if key then (match st with | x :: t => { x with last := v + 1 } :: t | [] => []) else st
      if bad then .error 0x03
      else match cborItem lim st m i v rest with
        | .error e => .error e
        | .ok ([], r) => .ok r
        | .ok (st, r) => cborGo lim f st r

/-- One data item: what follows it. -/
def cborSkip (lim : CborLimits) (b : Bytes) : Except Nat Bytes := cborGo lim (b.length + 1) [] b

/-- The entries of a map whose head has been read: key and the bytes from its value on. Only used on CBOR that has been parsed. -/
def cborPairs : Nat → Bytes → List (Nat × Bytes)
  | 0, _ => []
  | n + 1, b =>
    match cborHead b with
    | none => []
    | some (_, _, k, v) =>
      match cborSkip ⟨64, 2 ^ 64⟩ v with
      | .ok r => (k, v) :: cborPairs n r
      | .error _ => [(k, v)]

/-- The items of an array whose head has been read. -/
def cborArr : Nat → Bytes → List Bytes
  | 0, _ => []
  | n + 1, b =>
    match cborSkip ⟨64, 2 ^ 64⟩ b with
    | .ok r => b :: cborArr n r
    | .error _ => [b]

/-- Entries of a map; none for another type. -/
def cborMap (b : Bytes) : Option (List (Nat × Bytes)) :=
  match cborHead b with
  | some (5, _, n, r) => some (cborPairs n r)
  | _ => none

/-- Items of an array; none for another type. -/
def cborList (b : Bytes) : Option (List Bytes) :=
  match cborHead b with
  | some (4, _, n, r) => some (cborArr n r)
  | _ => none

/-- An unsigned integer; none for another type. -/
def cborUint (b : Bytes) : Option Nat :=
  match cborHead b with
  | some (0, _, v, _) => some v
  | _ => none

/-- A string of a major type. -/
def cborStr (m : Nat) (b : Bytes) : Option Bytes :=
  match cborHead b with
  | some (k, _, n, r) => if k = m then some (r.take n) else none
  | none => none

/-! Record and item maps (R458). -/

/-- An item of a record. -/
structure Item where
  slot : Nat
  kind : Nat
  data : Bytes
  shape : List Nat
  codec : Nat
  format : Nat
  deriving DecidableEq, Repr

/-- A record's content. -/
structure RecordMap where
  sample : Nat
  variant : Option Nat
  items : List Item
  deriving DecidableEq, Repr

/-- The value of a key. -/
def keyOf (m : List (Nat × Bytes)) (k : Nat) : Option Bytes := (m.find? (fun p => p.1 == k)).map (·.2)

/-- Whether a key stands exactly where `want` says, with a value that `ok` accepts. -/
def keyWhen (m : List (Nat × Bytes)) (k : Nat) (want : Bool) (ok : Bytes → Bool) : Bool :=
  match keyOf m k with
  | some v => want && ok v
  | none => !want

/-- Whether a number is one of a list. -/
def isOneOf (l : List Nat) (b : Bytes) : Bool := ((cborUint b).map (fun v => l.contains v)).getD false

/-- SHAPE: 1 to 4 extents. -/
def shapeOf (b : Bytes) : Option (List Nat) :=
  match cborList b with
  | some l => let v := l.filterMap cborUint; if v.length = l.length ∧ 1 ≤ v.length ∧ v.length ≤ 4 then some v else none
  | none => none

/-- An item map; none when it breaks the schema. SHAPE, CODEC and FORMAT stand exactly where the KIND has them (DEDUCED, log entry 19). -/
def itemOf (b : Bytes) : Option Item :=
  match cborMap b with
  | none => none
  | some m =>
    let kind := ((keyOf m 1).bind cborUint).getD 6
    let str := if kind = 0 then 3 else 2
    let good := m.all (fun p => decide (p.1 ≤ 5 ∨ 64 ≤ p.1)) && keyWhen m 0 true (isOneOf (List.range 16)) && decide (kind ≤ 5) &&
      keyWhen m 2 true (fun v => (cborStr str v).isSome) && keyWhen m 3 (kind == 5) (fun v => (shapeOf v).isSome) &&
      keyWhen m 4 (kind == 3 || kind == 4) (isOneOf [0, 1, 2]) && keyWhen m 5 (kind == 5) (isOneOf [0, 1, 2, 3, 4, 0xB, 0xC])
    if good then
      some ⟨((keyOf m 0).bind cborUint).getD 0, kind, ((keyOf m 2).bind (cborStr str)).getD [], ((keyOf m 3).bind shapeOf).getD [],
        ((keyOf m 4).bind cborUint).getD 0, ((keyOf m 5).bind cborUint).getD 0⟩
    else none

/-- Whether no number stands twice. -/
def noTwice (l : List Nat) : Bool := l.eraseDups.length == l.length

/-- A record map; none when it breaks the schema. `classV` says that the context keeps variants. -/
def recordOf (classV : Bool) (b : Bytes) : Option RecordMap :=
  match cborMap b with
  | none => none
  | some m =>
    let items := ((keyOf m 3).bind cborList).getD []
    let its := items.filterMap itemOf
    let good := m.all (fun p => decide (p.1 ≤ 3 ∨ 64 ≤ p.1)) && keyWhen m 0 true (isOneOf [1]) && keyWhen m 1 true (fun v => (cborUint v).isSome) &&
      keyWhen m 2 classV (fun v => ((cborUint v).map (fun x => decide (x < 4096))).getD false) && keyWhen m 3 true (fun v => (cborList v).isSome) &&
      its.length == items.length && noTwice (its.map (·.slot))
    if good then some ⟨((keyOf m 1).bind cborUint).getD 0, (keyOf m 2).bind cborUint, its⟩ else none

end Sys2Proof.Machine
end

