-- ==== Sys2Proof/Machine/Flash.lean ====
section
/-! DEFINITION. The flash store (R295 to R303): the write-back cache, programming, read disturb, die failures, and the commands that complete when blocks are durable. -/

namespace Sys2Proof.Machine

/-- User capacity in 4 KiB blocks (R296). -/
def State.flashBlocks (s : State) : Nat := Config.nandBlocks * 15 * (1000 - s.flash.overprov) / 16000

/-- Content of a logical block: the newest accepted version, else the durable one, else zeros (R297, R302). -/
def State.flashBlock (s : State) (b : Nat) : Bytes :=
  match (s.flash.cache.filter (fun e => e.1 == b)).getLast? with
  | some e => e.2
  | none => tget (fun _ => zeros 4096) s.flash.durable b

/-- Bytes of the store from a byte address. -/
def State.flashRead (s : State) (a n : Nat) : Bytes :=
  if n = 0 then [] else
  ((((List.range (cdiv (a % 4096 + n) 4096)).map (fun i => s.flashBlock (a / 4096 + i))).flatten).drop (a % 4096)).take n

/-- Frames of 64 KiB in the flash cache (R284, R297). -/
def State.flashFrames (s : State) : Nat := (s.regN Reg.MEM_LP_FLCACHE / 65536) * 1024

/-- Frames that hold a dirty block. -/
def State.dirtyFrames (s : State) : List Nat := (s.flash.cache.map (fun e => e.1 / 16)).eraseDups

/-- Whether every cache frame is dirty (R300). -/
def State.cacheFull (s : State) : Bool := decide (s.flashFrames ≤ s.dirtyFrames.length)

/-- The program of the oldest dirty block begins, on a mounted store, while programs are not inhibited (R298, R301). One block is in flush at a time, in the
order of acceptance (DESIGN CHOICE, log entry 20). -/
def State.nextFlush (s : State) : State :=
  if s.flash.busy then s
  else { s with flash := { s.flash with busy := s.flash.mount == 2 && !s.inhibited && !s.flash.cache.isEmpty } }

/-- Accepts one block into the cache: a version whose flush is in progress stays, and any other version of the block is replaced (R297, R298). -/
def State.acceptBlock (s : State) (b : Nat) (data : Bytes) : State :=
  let c := s.flash.cache
  let n := b2n s.flash.busy
  let c := c.take n ++ (c.drop n).filter (fun e => e.1 != b)
  { s with flash := { s.flash with cache := c ++ [(b, padTo 4096 data)] } }.nextFlush

/-- Accepts the blocks of one write in order, until one finds neither its frame dirty nor another frame (R299, R300; DESIGN CHOICE, log entry 60). The second
result says whether all were taken. -/
def acceptGo : List (Nat × Bytes) → State → State × Bool
  | [], s => (s, true)
  | e :: t, s => if s.cacheFull && !s.dirtyFrames.contains (e.1 / 16) then (s, false) else acceptGo t (s.acceptBlock e.1 e.2)

/-- Status code of a write that the store does not take: SUPPLY_INHIBIT (R301), NO_SPACE (R300, R302), UNIT_GONE (R303); 0 when it does. -/
def State.flashRefusal (s : State) : Nat :=
  if s.flash.mount = 3 then 2
  else if s.flash.readOnly then 8
  else if s.inhibited then 10
  else if s.cacheFull then 8 else 0

/-- A deferred flash write: taken, or left queued; CACHE_FULL says that every frame is dirty (R86, R87, R300). The second result says
whether it was taken. -/
def State.deferredWrite (s : State) (b : Nat) (data : Bytes) : State × Bool :=
  if s.flashRefusal = 0 then (s.acceptBlock b data, true)
  else (s.eventIf (!s.inhibited && !s.flash.readOnly && s.cacheFull) Reg.MEM_FL_EVENT 0, false)

/-- Takes one version of a block, or with `all` every version, off the flushes that wait for it, and completes those that wait for nothing more (R298,
R519). -/
def State.settleFlushes (s : State) (all : Bool) (b : Nat) : State :=
  let w := s.flash.flushWaits.map (fun e => (e.1, e.2.1, if all then e.2.2.filter (fun x => x != b) else e.2.2.erase b))
  let s := { s with flash := { s.flash with flushWaits := w.filter (fun e => !e.2.2.isEmpty) } }
  s.over (w.filter (fun e => e.2.2.isEmpty)) (fun s e => s.complete e.1 0x0007 e.2.1 0)

/-- First logical number of the blocks of area `i` of the durable hasps of context `c`: above the user capacity (DESIGN CHOICE, log entry 20). -/
def State.durableBase (s : State) (c i : Nat) : Nat := s.flashBlocks + (c * 32 + i) * 2 ^ 24

/-- Hands blocks of the durable hasp in progress to the cache, as many as it takes (R87, R300). -/
def pumpGo (c : Nat) : List (Nat × Bytes) → State → State
  | [], s => s.modHasp c (fun h => { h with durableLeft := [] })
  | e :: t, s =>
    let p := s.deferredWrite e.1 e.2
    if p.2 then pumpGo c t p.1 else p.1.modHasp c (fun h => { h with durableLeft := e :: t })

/-- Hands on what it can of the durable hasp in progress of a context. -/
def State.pumpDurable (s : State) (c : Nat) : State := if (s.hasp c).durableLeft = [] then s else pumpGo c (s.hasp c).durableLeft s

/-- Erases the blocks of a durable hasp's area. -/
def State.eraseDurable (s : State) (c i : Nat) : State :=
  let lo := s.durableBase c i
  { s with flash := { s.flash with durable := s.flash.durable.filter (fun p => p.1 < lo || lo + 2 ^ 24 ≤ p.1) } }

/-- The durable hasp of a context is complete once none of its blocks waits or is dirty (R298); the newest HSP_DURABLE_KEEP are kept, and
older ones erased (R95). -/
def State.settleDurable (s : State) (c : Nat) : State :=
  match (s.hasp c).durableBusy with
  | none => s
  | some (e, i) =>
    let lo := s.durableBase c i
    if (s.hasp c).durableLeft ≠ [] ∨ s.flash.cache.any (fun x => decide (lo ≤ x.1 ∧ x.1 < lo + 2 ^ 24)) then s
    else
      let all := (s.hasp c).durables ++ [(e, i)]
      let keep := max 1 (s.regN (Reg.HSP_DURABLE_KEEP c) % 32)
      let s := s.over (all.take (all.length - keep)) (fun s d => s.eraseDurable c d.2)
      s.modHasp c (fun h => { h with durableBusy := none, durables := all.drop (all.length - keep) })

/-- The die that a block's next program goes to (R302). -/
def State.programDie (s : State) (b : Nat) : Nat := Config.blockDie b s.flash.programs % Config.nandDies

/-- Blocks of the raw capacity that hold data: 15 of 16 dies of a group, without the dies that have failed (R296, R302). -/
def State.flashUsable (s : State) : Nat := Config.nandBlocks * 15 / 16 - s.flash.dead.length * (Config.nandBlocks / Config.nandDies)

/-- Whether the free blocks have fallen below the overprovision minimum (R302), which is taken as the least OVERPROV, 70 per mille (DESIGN CHOICE, log
entry 61). -/
def State.spareOut (s : State) : Bool :=
  let used := (s.flash.durable.filter (fun p => decide (p.1 < s.flashBlocks))).length
  decide ((s.flashUsable - used) * 1000 < 70 * (Config.nandBlocks * 15 / 16))

/-- The store becomes read-only (R302). -/
def State.flashReadOnly (s : State) : State :=
  if s.flash.readOnly then s else { s with flash := { s.flash with readOnly := true } }.event Reg.MEM_FL_EVENT 2

/-- A die fails (R302): its rebuild begins, with a history record; a second die of a group whose rebuild is in progress loses the blocks on both and makes
the store read-only. -/
def State.dieFails (s : State) (d : Nat) : State :=
  if s.flash.dead.contains d then s
  else
    let group := s.flash.rebuilding.filter (fun x => x / 16 == d / 16)
    let s := { s with flash := { s.flash with dead := s.flash.dead ++ [d], rebuilding := s.flash.rebuilding ++ [d] } }.unitEvent 8 d 0x0A false none
    if group.isEmpty then s.event Reg.MEM_FL_EVENT 1
    else
      let on := fun (b : Nat) => (d :: group).contains (tget (fun _ => 256) s.flash.dies b)
      let gone := (s.flash.durable.map (·.1)).filter on
      { s with flash := { s.flash with lost := s.flash.lost ++ gone, durable := s.flash.durable.filter (fun p => !on p.1) } }.flashReadOnly

/-- NAND_PROGRAM_DONE (R298, R302): the program in progress, that of the oldest accepted version, ends, and its block is durable; the next program begins
unless programs are inhibited (R301). The end of a program that is not in progress changes nothing. -/
def execNandProgramDone (block : Nat) (dieFail : Bool) (s : State) : Host.Outcome State Fault Refusal :=
  match s.flash.cache with
  | [] => .next s
  | e :: t =>
    if !s.flash.busy ∨ e.1 ≠ block then .next s
    else
      let d := s.programDie block
      let s := { s with flash := { s.flash with
        cache := t, busy := false, durable := tput s.flash.durable block e.2, dies := tput s.flash.dies block d, reads := tdel s.flash.reads block
        programs := s.flash.programs + 1, lost := s.flash.lost.filter (fun b => b != block) } }
      let s := s.settleFlushes false block
      let s := s.over (List.range 16) (fun s c => (s.pumpDurable c).settleDurable c)
      let s := if dieFail then s.dieFails d else s
      .next (if s.spareOut then s.flashReadOnly else s).nextFlush

/-- REBUILD_COMPLETE (R302). -/
def execRebuildComplete (group : Nat) (s : State) : Host.Outcome State Fault Refusal :=
  .next { s with flash := { s.flash with rebuilding := s.flash.rebuilding.filter (fun d => d / 16 != group) } }

/-- Whether some block of a list is lost (R302). -/
def State.flashLost (s : State) (bs : List Nat) : Bool :=
  bs.any (fun b => s.flash.lost.contains b && !s.flash.cache.any (fun e => e.1 == b))

/-- Counts a read of durable blocks toward read disturb (R302); cached blocks are not read from NAND. -/
def State.countReads (s : State) (bs : List Nat) : State :=
  s.over bs (fun s b => if s.flash.cache.any (fun e => e.1 == b) then s
    else { s with flash := { s.flash with reads := tput s.flash.reads b (tget (fun _ => 0) s.flash.reads b + 1) } })

/-- READ_DISTURB_RELOCATE (R302): a block that has reached its limit is programmed elsewhere, unless programs are inhibited (R301). -/
def execReadDisturbRelocate (block : Nat) (s : State) : Host.Outcome State Fault Refusal :=
  if tget (fun _ => 0) s.flash.reads block < (if Config.qlcNand then 20000 else 100000) ∨ s.inhibited ∨ s.pwr.beHeld then .next s
  else .next ({ s with flash := { s.flash with
    reads := tdel s.flash.reads block, dies := tput s.flash.dies block (s.programDie block), programs := s.flash.programs + 1 } }.count Reg.MEM_FL_RELOCS)

/-- The history record of an unrecoverable read, against the die of its first block (R302, R449). -/
def State.flashUnrecoverable (s : State) (b : Nat) : State := s.unitEvent 8 (tget (fun _ => 0) s.flash.dies b) 0x09 false none

end Sys2Proof.Machine
end

