-- ==== Sys2Proof/Machine/Kv.lean ====
section
/-! DEFINITION. The key-value page allocator (R199 to R213): the free stack, the iteration table and its publication, pre-emption by swap or drop, pages copied back, and what a rollback and a host reset do to the pool. -/

namespace Sys2Proof.Machine

/-- The mark of an absent page (R188). -/
def noPage : Nat := 0xFFFFFFFF

/-- LAYERS of a context's pool. -/
def State.kvLayers (s : State) (c : Nat) : Nat := s.regN (Reg.MEM_KV_GEOM c) / 65536
/-- LISTLEN of a context's pool. -/
def State.kvListLen (s : State) (c : Nat) : Nat := s.regN (Reg.MEM_KV_GEOM c) % 65536
/-- Slots of a context's iteration table. -/
def State.kvSlots (s : State) (c : Nat) : Nat := s.regN (Reg.MEM_KV_SLOTS c) % 8192
/-- PREFILL_ROWS. -/
def State.kvRows (s : State) (c : Nat) : Nat := bits (s.regN (Reg.MEM_KV_CTRL c)) 23 8
/-- Whether a context generates: it has slots. -/
def State.generates (s : State) (c : Nat) : Bool := s.kvSlots c != 0
/-- The pool of a context. -/
def State.kv (s : State) (c : Nat) : Kv := (s.ctx c).kv
/-- A state with the pool of a context changed. -/
def State.modKv (s : State) (c : Nat) (f : Kv → Kv) : State := s.modCtx c (fun x => { x with kv := f x.kv })
/-- Slot `i`. -/
def Kv.slot (k : Kv) (i : Nat) : Slot := tget (fun _ => {}) k.slots i
/-- A pool with slot `i` changed. -/
def Kv.modSlot (k : Kv) (i : Nat) (f : Slot → Slot) : Kv := { k with slots := tput k.slots i (f (k.slot i)) }

/-- Device-partition address of page `p` (R199). -/
def State.pageAddr (s : State) (c p : Nat) : Nat := s.regN (Reg.MEM_KV_BASE c) * 4096 + p * s.regN (Reg.MEM_KV_PAGE_BYTES c)

/-- Byte address of the iteration table (R201). -/
def State.kvTable (s : State) (c : Nat) : Nat := s.regN (Reg.MEM_KV_TABLE c) * 4096
/-- Byte address of Part B. -/
def State.kvPartB (s : State) (c : Nat) : Nat := s.kvTable c + s.kvSlots c * 64
/-- Byte address of Part C. -/
def State.kvPartC (s : State) (c : Nat) : Nat := s.kvPartB c + s.kvRows c * 16
/-- Byte address of Part D. -/
def State.kvPartD (s : State) (c : Nat) : Nat := s.kvPartC c + s.kvSlots c * s.kvLayers c * s.kvListLen c * 4

/-- Pages that R202 asks for a slot, in each layer. -/
def Slot.needed (x : Slot) : Nat := cdiv (x.len + 64) 64

/-- Pages that a slot holds, over all layers. -/
def Slot.held (x : Slot) : Nat := ((x.pages.map (fun l => (l.filter (fun p => p != noPage)).length)).foldl (· + ·) 0)

/-- Pages that a slot still lacks. -/
def Slot.lacks (x : Slot) (layers : Nat) : Nat := x.needed * layers - x.held

/-- The free stack with every page: allocation returns pages 0, 1, 2 and so on (R200). -/
def State.freshStack (s : State) (c : Nat) : List Nat := List.range (s.regN (Reg.MEM_KV_PAGES c) % 2 ^ 24)

/-- The slot that a record of the iteration table describes (R201). -/
def slotOf (b : Bytes) : Slot := { state := byteAt b 16, prio := byteAt b 17 % 8, len := u32 b 20, seq := u64 b 24, entered := u64 b 32 }

/-- A pool as the context leaves STOPPED: every page free, and the slots that software has written into the iteration table; a slot that
was live there is recomputed (R200, R201; DEDUCED, log entry 18). -/
def State.initPool (s : State) (c : Nat) : State :=
  let t := (List.range (s.kvSlots c)).map (fun i =>
    let x := slotOf (s.rd c 3 0 (s.kvTable c + 64 * i) 64)
    (i, if 1 ≤ x.state ∧ x.state ≤ 5 then { x with state := 5 } else { x with state := 0 }))
  let v := s.regN (Reg.MEM_KV_CTRL c)
  let above := fun (f : Slot → Nat) => (t.map (fun p => f p.2 + 1)).foldl max 0
  let tab : KvTable := ⟨t, above (fun x => x.entered), above (fun x => x.seq)⟩
  let p := s.draw
  p.2.modKv c (fun _ => { free := s.freshStack c, slots := t, committed := tab, swapEn := bit v 0, forceDrop := bit v 1,
                          nextAdmit := tab.nextAdmit, nextSeq := tab.nextSeq, source := p.1 })

/-- Whether a self-test of the device runs: a ward that resets tests its stores (R551), and a suspect tile awaits its sweep (R444, R447). -/
def State.selfTests (s : State) : Bool := !s.rst.wardBusy.isEmpty || s.chk.suspects.any (fun p => p.2 == 0)

/-- Whether the allocator drops rather than swaps (R207); swapping needs the VF's ring set RUNNING (R533). -/
def State.dropMode (s : State) (c : Nat) : Bool :=
  let k := s.kv c
  let h := s.hasp c
  k.forceDrop || !k.swapEn || h.under == .restoring || h.under == .replaying || !h.committedOnce || s.selfTests || s.rst.hostReset ||
    (s.ring (s.ctxFn c)).run != .running

/-- Host-arena records of the VF of a context (R304). -/
def State.arenaRecords (s : State) (c : Nat) : Nat :=
  let unit := cdiv (s.regN (Reg.MEM_KV_PAGE_BYTES c) + 64) 4096
  if s.ctxFn c = 0 then 0 else s.regN (Reg.RING_ARENA_SIZE (s.ctxFn c)) % 2 ^ 28 / unit

/-- The pages of a slot that it holds. -/
def Slot.pageIds (x : Slot) (i : Nat) : List PageId :=
  (List.zip (List.range x.pages.length) x.pages).flatMap (fun p =>
    ((List.zip (List.range p.2.length) p.2).filter (fun q => q.2 != noPage)).map (fun q => ⟨i, p.1, q.1⟩))

/-- The page number of a page of a slot. -/
def Kv.pageNo (k : Kv) (p : PageId) : Nat := ((k.slot p.slot).pages.getD p.layer []).getD p.idx noPage

/-- A slot's lists with one page replaced. -/
def Slot.setPage (x : Slot) (layer idx p : Nat) : Slot :=
  let l := x.pages.getD layer []
  let l := (l ++ List.replicate (idx + 1 - l.length) noPage).set idx p
  { x with pages := (x.pages ++ List.replicate (layer + 1 - x.pages.length) []).set layer l }

/-- Frees every page that a slot holds. -/
def Kv.freeSlot (k : Kv) (i : Nat) : Kv :=
  let ps := ((k.slot i).pages.flatten).filter (fun p => p != noPage)
  { (k.modSlot i (fun x => { x with pages := [] })) with free := ps.reverse ++ k.free }

/-- Frees the arena records of a slot. -/
def Kv.freeArena (k : Kv) (i : Nat) : Kv := { k with arena := k.arena.filter (fun a => a.1.slot != i), incoming := k.incoming.filter (fun p => p.slot != i) }

/-- Pre-empts a slot: swapped out when swap mode applies and the arena has room for all its pages, dropped otherwise (R205 to R207). -/
def State.preempt (s : State) (c i : Nat) : State :=
  -- LEN counted the coming iteration, which the slot does not run
  let s := s.modKv c (fun k => k.modSlot i (fun x => if x.state ≠ 2 ∧ x.len ≤ x.pre then { x with len := x.len - 1, pre := x.len - 1 } else x))
  let k := s.kv c
  let ids := (k.slot i).pageIds i
  let taken := k.arena.map (fun a => a.2.1)
  let rooms := pick (s.arenaRecords c) (fun r => !taken.contains r)
  if !s.dropMode c && decide (ids.length ≤ rooms.length) then
    let recs := (List.zip ids rooms).map (fun p => (p.1, p.2, (s.hasp c).gen))
    ((s.modKv c (fun k => { (k.modSlot i (fun x => { x with state := 4 })) with outgoing := k.outgoing ++ ids, arena := k.arena ++ recs })).event
      (Reg.MEM_KV_EVENT c) 0).count (Reg.MEM_KV_SWAPOUTS c)
  else
    ((s.modKv c (fun k => (k.freeSlot i).modSlot i (fun x => { x with state := 5, pre := 0 }))).event (Reg.MEM_KV_EVENT c) 1).count (Reg.MEM_KV_DROPS c)

/-- Pages that the swap-outs in progress will free. -/
def Kv.leaving (k : Kv) : Nat := k.outgoing.length

/-- Slots in the order of R204: decreasing PRIO, then increasing ADMIT. -/
def Kv.inOrder (k : Kv) (p : Slot → Bool) : List Nat :=
  ((sortBy (fun (a b : Nat × Slot) => decide (b.2.prio < a.2.prio ∨ (a.2.prio = b.2.prio ∧ a.2.entered ≤ b.2.entered))) (k.slots.filter (fun q => p q.2))).map (·.1))

/-- Whether a slot is running, prefilling or held. -/
def Slot.live (x : Slot) : Bool := decide (1 ≤ x.state ∧ x.state ≤ 3)

/-- The victim of R205: lowest PRIO, then highest ADMIT. -/
def Kv.victim (k : Kv) : Option Nat := (k.inOrder Slot.live).getLast?

/-- Gives a slot the pages it lacks from the free stack, layer by layer. -/
def Kv.grant (k : Kv) (i layers : Nat) : Kv :=
  let n := (k.slot i).needed
  (List.range layers).foldl (fun k l => (List.range n).foldl (fun k j =>
    if k.pageNo ⟨i, l, j⟩ = noPage then
      (match k.free with
       | [] => k
       | p :: t => { (k.modSlot i (fun x => x.setPage l j p)) with free := t })
    else k) k) k

/-- Meets the demand of one live slot (R205): it takes what is free, and counts on the pages that swap-outs in progress will free, less the `owed` that slots
before it in the order wait for; while that falls short, victims are pre-empted, until the slot itself has been. -/
def demandGo (c i layers owed : Nat) : Nat → State → State
  | 0, s => s
  | f + 1, s =>
    if !((s.kv c).slot i).live then s
    else
      let s := s.modKv c (fun k => k.grant i layers)
      let k := s.kv c
      if (k.slot i).lacks layers = 0 ∨ owed + (k.slot i).lacks layers ≤ k.leaving then s
      else
        match k.victim with
        | some v => demandGo c i layers owed f (s.preempt c v)
        | none => s

/-- The demand of live slots in the order of R204, with the pages that the earlier ones wait for. -/
def serveGo (c layers : Nat) : List Nat → Nat → State → State
  | [], _, s => s
  | i :: t, owed, s =>
    let s := demandGo c i layers owed ((s.kv c).slots.length + 1) s
    let x := (s.kv c).slot i
    serveGo c layers t (if x.live then owed + x.lacks layers else owed) s

/-- Item 1 of R204: a slot whose pages have not all been obtained is published held (R202). -/
def State.serveLive (s : State) (c : Nat) : State :=
  let l := s.kvLayers c
  let s := serveGo c l ((s.kv c).inOrder Slot.live) 0 s
  s.over ((s.kv c).inOrder Slot.live) (fun s i =>
    let x := (s.kv c).slot i
    if 0 < x.lacks l then (s.modKv c (fun k => k.modSlot i (fun x => { x with state := 3 }))).event (Reg.MEM_KV_EVENT c) 2
    else if x.state = 3 then s.modKv c (fun k => k.modSlot i (fun x => { x with state := if x.pre < x.len then 2 else 1 }))
    else s)

/-- Whether `n` pages can be taken and the reserve left whole (R204). -/
def State.fits (s : State) (c n : Nat) : Bool := decide (n + s.regN (Reg.MEM_KV_RESERVE c) % 2 ^ 24 ≤ (s.kv c).free.length)

/-- Items 2 to 4 of R204: swapped slots, recompute slots, new admissions. -/
def State.serveRest (s : State) (c : Nat) : State :=
  let l := s.kvLayers c
  let s := s.over ((s.kv c).inOrder (fun x => x.state == 4)) (fun s i =>
    let k := s.kv c
    if k.outgoing.any (fun p => p.slot == i) ∨ k.incoming.any (fun p => p.slot == i) then s
    else if s.dropMode c then s.modKv c (fun k => (k.freeArena i).modSlot i (fun x => { x with state := 5, pre := 0, pages := [] }))
    else if s.fits c ((k.slot i).lacks l) then
      s.modKv c (fun k => { (k.grant i l) with incoming := k.incoming ++ (k.arena.filter (fun a => a.1.slot == i)).map (·.1) })
    else s)
  let s := s.over ((s.kv c).inOrder (fun x => x.state == 5)) (fun s i =>
    if s.fits c (((s.kv c).slot i).lacks l) then s.modKv c (fun k => (k.grant i l).modSlot i (fun x => if x.len = 0 then { x with state := 1, len := 1, pre := 1 } else { x with state := 2, pre := 0 }))
    else s)
  s.over (List.range (s.kvSlots c)) (fun s i =>
    let k := s.kv c
    let x := k.slot i
    match (if x.state = 0 ∨ x.state = 6 then Config.prompt k.source k.nextSeq else none) with
    | none => s
    | some (prio, len) =>
      let y : Slot := { state := if len = 0 then 1 else 2, prio := prio % 8, len := max 1 len, pre := if len = 0 then 1 else 0, seq := k.nextSeq, entered := k.nextAdmit }
      if s.fits c (y.lacks l) then
        s.modKv c (fun k => ({ (k.modSlot i (fun _ => y)) with nextAdmit := k.nextAdmit + 1, nextSeq := k.nextSeq + 1 }).grant i l)
      else s)

/-- Whether a student already took a sequence of this context (R213). -/
def State.seqTaken (s : State) (c q : Nat) : Bool :=
  (List.range 16).any (fun t => t != c && (s.ctx t).ing.lastSeq.any (fun l => decide (q ≤ l)))

/-- Takes the status words: each running slot's token joins its history and advances it by one position; FINISH ends it (R212). -/
def State.takeTokens (s : State) (c : Nat) : State :=
  s.over ((s.kv c).inOrder (fun x => x.state == 1)) (fun s i =>
    let w := s.rd c 3 0 (s.kvPartD c + 8 * i) 8
    let x := (s.kv c).slot i
    let h := x.history ++ [u32 w 0]
    if byteAt w 4 ≠ 0 then
      s.modKv c (fun k => { ((k.freeSlot i).modSlot i (fun x => { x with state := 6, history := h })) with
        done := if k.done.any (fun d => d.1 == x.seq) || s.seqTaken c x.seq then k.done
                else sortBy (fun a b => decide (a.1 ≤ b.1)) (k.done ++ [(x.seq, h)]) })
    else s.modKv c (fun k => k.modSlot i (fun x => { x with len := x.len + 1, pre := x.len + 1, history := h })))

/-- A slot whose prefill is complete, or whose pages have come back, decodes from the coming iteration on (R208, R209). -/
def State.promote (s : State) (c : Nat) : State :=
  s.modKv c (fun k => { k with slots := k.slots.map (fun p =>
    if p.2.state = 2 ∧ p.2.len ≤ p.2.pre then (p.1, { p.2 with state := 1, len := p.2.len + 1, pre := p.2.len + 1 }) else p) })

/-- The prefill rows of an iteration, as (slot, position): a row is one query at one position, in ADMIT order, at most PREFILL_ROWS of them (R189, R209). -/
def State.prefillRows (s : State) (c : Nat) : List (Nat × Nat) :=
  let k := s.kv c
  let byAdmit := sortBy (fun (a b : Nat × Slot) => decide (a.2.entered ≤ b.2.entered)) (k.slots.filter (fun q => q.2.state == 2))
  (byAdmit.flatMap (fun q => (List.range (q.2.len - q.2.pre)).map (fun j => (q.1, q.2.pre + j)))).take (s.kvRows c)

/-- A row descriptor (R189). -/
def rowDesc (list qpos klen flags : Nat) : Bytes := toLe 4 list ++ toLe 4 qpos ++ toLe 4 klen ++ toLe 1 flags ++ zeros 3

/-- A slot record (R201): a running slot decodes its last position; any other row is on HOLD. -/
def Slot.bytes (x : Slot) (i : Nat) : Bytes :=
  (if x.state = 1 then rowDesc i (x.len - 1) x.len 0 else rowDesc i 0 0 1) ++ toLe 1 x.state ++ toLe 1 x.prio ++ zeros 2 ++ toLe 4 x.len ++
    toLe 8 x.seq ++ toLe 8 x.entered ++ zeros 24

/-- Writes the published version: Parts A, B and C (R201). -/
def State.writeTable (s : State) (c : Nat) : State :=
  let k := s.kv c
  let a := (List.range (s.kvSlots c)).flatMap (fun i => (k.slot i).bytes i)
  let rows := s.prefillRows c
  let b := (List.range (s.kvRows c)).flatMap (fun j => match rows[j]? with
    | some (i, p) => rowDesc i p (p + 1) 0
    | none => rowDesc 0 0 0 2)
  let lists := (List.range (s.kvSlots c)).flatMap (fun i => (List.range (s.kvLayers c)).flatMap (fun l =>
    (List.range (s.kvListLen c)).flatMap (fun j => toLe 4 (if (k.slot i).live then k.pageNo ⟨i, l, j⟩ else noPage))))
  s.wrRaw c 3 0 (s.kvTable c) (a ++ b ++ lists)

/-- Publication at the boundary of tick L − 1 (R201, R204, R212): tokens are taken, demand is served in order, the version is written;
the rows it names are prefilled in the coming iteration; SWAP_EN and FORCE_DROP as they stand now govern the next version (R203). -/
def State.publish (s : State) (c : Nat) : State :=
  if !s.generates c then s
  else
    let s := (((s.takeTokens c).promote c).serveLive c).serveRest c
    let rows := s.prefillRows c
    let s := s.writeTable c
    let s := s.over rows (fun s r => s.modKv c (fun k => k.modSlot r.1 (fun x => { x with pre := max x.pre (r.2 + 1) })))
    let v := s.regN (Reg.MEM_KV_CTRL c)
    s.modKv c (fun k => { k with swapEn := bit v 0, forceDrop := bit v 1 })

/-- The trailer of a swapped page (R206). -/
def State.pageTrailer (s : State) (c : Nat) (p : PageId) (gen : BitVec 16) (page : Bytes) : Bytes :=
  let t := toLe 1 c ++ zeros 3 ++ toLe 4 p.slot ++ toLe 2 p.layer ++ toLe 2 gen.toNat ++ toLe 4 p.idx ++ toLe 8 ((s.kv c).slot p.slot).seq ++ zeros 36
  t ++ toLe 4 (crc32c (page ++ t))

/-- Byte offset of a swap record in the host arena (R304). -/
def State.arenaOff (s : State) (c r : Nat) : Nat := r * (cdiv (s.regN (Reg.MEM_KV_PAGE_BYTES c) + 64) 4096 * 4096)

/-- SWAP_PAGE_SENT (R206): the page reaches its arena record, with its trailer, and is freed. A page that delivers poison (R267, R272) is not sent: the
victim is dropped instead (DESIGN CHOICE, log entry 56). -/
def execSwapPageSent (c : Fin 16) (slot layer idx : Nat) (errs : ReadErrs) (s : State) : Host.Outcome State Fault Refusal :=
  let p : PageId := ⟨slot, layer, idx⟩
  let k := s.kv c
  if !k.outgoing.contains p ∨ s.pwr.beHeld then .next s
  else
    match k.arena.find? (fun a => a.1 == p) with
    | none => .next s
    | some (_, r, gen) =>
      let n := k.pageNo p
      let bad := s.readFails errs || s.sourcePoison c 3 (s.pageAddr c n) (s.regN (Reg.MEM_KV_PAGE_BYTES c))
      let s := (s.escapeBytes errs.dram).noteErrs errs
      if bad then
        .next (((s.modKv c (fun k => { (((k.freeSlot slot).freeArena slot).modSlot slot (fun x => { x with state := 5, pre := 0 })) with
          outgoing := k.outgoing.filter (fun q => q.slot != slot) })).event (Reg.MEM_KV_EVENT c) 1).count (Reg.MEM_KV_DROPS c))
      else
      let page := s.rd c 3 0 (s.pageAddr c n) (s.regN (Reg.MEM_KV_PAGE_BYTES c))
      let base := s.regN (Reg.RING_ARENA_LO (s.ctxFn c)) + s.regN (Reg.RING_ARENA_HI (s.ctxFn c)) * 2 ^ 32
      let s := (s.emit (.host (s.ctxFn c) (base + s.arenaOff c r) (page ++ s.pageTrailer c p gen page))).account c 7 (page.length + 64) |>.account c 4 page.length
      .next (s.modKv c (fun k => { (k.modSlot slot (fun x => x.setPage layer idx noPage)) with
        free := n :: k.free, outgoing := k.outgoing.filter (fun q => q != p) }))

/-- Whether a page copied back passes its check (R208). -/
def State.pageGood (s : State) (c : Nat) (p : PageId) (b : Bytes) : Bool :=
  let n := s.regN (Reg.MEM_KV_PAGE_BYTES c)
  decide (b.length = n + 64) && decide (b.drop n = s.pageTrailer c p (s.hasp c).gen (b.take n))

/-- SWAP_IN_PAGE (R208): a page that passes is placed and its arena record freed, and the slot runs again once every page has passed; one
that fails sets SWAP_BAD, and the slot is recomputed. -/
def execSwapInPage (c : Fin 16) (slot layer idx : Nat) (page : Bytes) (s : State) : Host.Outcome State Fault Refusal :=
  let p : PageId := ⟨slot, layer, idx⟩
  let k := s.kv c
  if !k.incoming.contains p ∨ s.pwr.beHeld then .next s
  else
    let s := s.account c 7 page.length
    if s.pageGood c p page then
      let s := (s.wrRaw c 3 0 (s.pageAddr c (k.pageNo p)) (page.take (s.regN (Reg.MEM_KV_PAGE_BYTES c)))).account c 4 (s.regN (Reg.MEM_KV_PAGE_BYTES c))
      .next (s.modKv c (fun k =>
        let k := { k with incoming := k.incoming.filter (fun q => q != p), arena := k.arena.filter (fun a => a.1 != p) }
        if k.incoming.any (fun q => q.slot == slot) then k else k.modSlot slot (fun x => { x with state := 2 })))
    else
      .next ((s.modKv c (fun k => ((k.freeSlot slot).freeArena slot).modSlot slot (fun x => { x with state := 5, pre := 0 }))).event (Reg.MEM_KV_EVENT c) 3)

/-- The pool at the boundary of a rollback (R210): every page free, the slots of the hasp, live ones to be recomputed, no arena record, and the iteration
table as it now stands. -/
def State.resetPool (s : State) (c : Nat) : State :=
  if !s.generates c then s
  else
    let redo := fun (x : Slot) => if 1 ≤ x.state ∧ x.state ≤ 4 then { x with state := 5, pre := 0, pages := [] } else { x with pages := [] }
    let s := s.modKv c (fun k =>
      { k with free := s.freshStack c, slots := k.committed.slots.map (fun p => (p.1, redo p.2)), nextAdmit := k.committed.nextAdmit, nextSeq := k.committed.nextSeq,
               outgoing := [], incoming := [], arena := [] })
    (s.writeTable c).event (Reg.MEM_KV_EVENT c) 4

/-- The slots as a commit records them with the hasp (R210). -/
def State.commitPool (s : State) (c : Nat) : State :=
  if s.generates c then s.modKv c (fun k => { k with committed := ⟨k.slots, k.nextAdmit, k.nextSeq⟩ }) else s

/-- A host reset (R211, R305): every swapped slot is recomputed; pages not yet sent stay with it; arena records are freed. -/
def State.hostResetPool (s : State) (c : Nat) : State :=
  s.modKv c (fun k =>
    { k with
      slots := k.slots.map (fun p => if p.2.state = 4 then (p.1, { p.2 with state := 5, pre := 0 }) else p)
      outgoing := [], incoming := [], arena := [] })

end Sys2Proof.Machine
end

