-- ==== Sys2Proof/Machine/Ingest.lean ====
section
/-! DEFINITION. Ingest (R456 to R471): the ingest table (DESIGN CHOICE, log entry 19), limits before allocation, rejections, what items decode to (R477), placement in bins, batches, their manifests and their delivery. -/

namespace Sys2Proof.Machine

/-- Ingest of context `c`. -/
def State.ing (s : State) (c : Nat) : Ingest := (s.ctx c).ing
/-- A state with ingest of a context changed. -/
def State.modIng (s : State) (c : Nat) (f : Ingest → Ingest) : State := s.modCtx c (fun x => { x with ing := f x.ing })

/-! The ingest table. -/

/-- `n` bytes of the ingest table from offset `o`. -/
def State.ingTable (s : State) (c o n : Nat) : Bytes := s.rd c 4 0 (s.regN (Reg.MED_ING_TABLE c) * 4096 + o) n

/-- The hard maximum of limit `i` (R460). -/
def hardLimit (i : Nat) : Nat :=
  [0, 268435456, 8, 65536, 16777216, 4194304, 268435456, 16384, 67108864, 8192, 35651584, 65536, 8, 192000, 268435456, 4194304].getD i 0

/-- Limit `i` of a context: 0 means the hard maximum, which also clamps (R460). -/
def State.ingLimit (s : State) (c i : Nat) : Nat :=
  let v := u32 (s.ingTable c (4 * (i - 1)) 4) 0
  if v = 0 then hardLimit i else min v (hardLimit i)

/-- Whether an entry of the limits table lies above its hard maximum (R460). -/
def State.limitsHigh (s : State) (c : Nat) : Bool := (List.range 15).any (fun i => decide (hardLimit (i + 1) < u32 (s.ingTable c (4 * i) 4) 0))

/-- The decode block of a slot, with its bucket edges and its region of a row (R197, R464, R476). -/
structure SlotPlan where
  fmt : Nat
  colour : Nat
  w : Nat
  h : Nat
  stride : Nat
  most : Nat
  rate : Nat
  nfft : Nat
  hop : Nat
  bands : Nat
  aflags : Nat
  tflags : Nat
  fmin : Nat
  fmax : Nat
  bos : Nat
  eos : Nat
  clean : Bool
  edges : List Nat
  off : Nat
  size : Nat
  deriving DecidableEq, Repr

/-- The decode block of slot `m`. -/
def State.slotPlan (s : State) (c m : Nat) : SlotPlan :=
  let b := s.ingTable c (64 + 256 * m) 256
  { fmt := byteAt b 0, colour := byteAt b 1, w := u16 b 2, h := u16 b 4, stride := u16 b 6, most := u32 b 8, rate := u32 b 12, nfft := u16 b 16,
    hop := u16 b 18, bands := u16 b 20, aflags := byteAt b 22, tflags := byteAt b 23, fmin := u32 b 24, fmax := u32 b 28, bos := u32 b 32, eos := u32 b 36,
    clean := zeroAt b 40 24, edges := ((List.range 16).map (fun i => u32 b (64 + 4 * i))).takeWhile (fun e => e != 0), off := u32 b 128, size := u32 b 132 }

/-- Whether a context uses a slot: the slot has a region. -/
def SlotPlan.used (p : SlotPlan) : Bool := p.size != 0
/-- The top bucket edge. -/
def SlotPlan.top (p : SlotPlan) : Nat := p.edges.getLastD 0
/-- The bucket of a length: the lowest whose edge reaches it, the top one beyond (R197, R198). -/
def SlotPlan.bucket (p : SlotPlan) (n : Nat) : Nat := (p.edges.findIdx? (fun e => decide (n ≤ e))).getD (p.edges.length - 1)
/-- Channels of a picture slot. -/
def SlotPlan.channels (p : SlotPlan) : Nat := if p.colour = 2 then 1 else 3
/-- Planes of an audio slot (R477). -/
def SlotPlan.planes (p : SlotPlan) : Nat := if bit p.aflags 0 then 1 else 8

/-- Slots of a context. -/
def State.ingSlots (s : State) (c : Nat) : List (Nat × SlotPlan) :=
  ((List.range 16).map (fun m => (m, s.slotPlan c m))).filter (fun p => p.2.used)

/-- Whether the decode block of a slot stands (R197, R476): its fields in range, those of pictures where it has a picture size and those of audio
where it has an NFFT, and its top-edge output within its region (DEDUCED, log entry 19). -/
def SlotPlan.ok (p : SlotPlan) : Bool :=
  let pic := p.w != 0 || p.h != 0
  let audio := p.nfft != 0
  let side := fun (n : Nat) => decide (16 ≤ n ∧ n ≤ 16384) && n % 16 == 0
  let fits := fun (n : Nat) => decide (8 + p.top * n ≤ p.size)
  decide (p.colour < 3 ∧ p.aflags < 8 ∧ p.tflags < 8) && p.clean && !p.edges.isEmpty &&
    p.edges.all (fun e => e % 64 == 0 && decide (e ≤ 65536)) && (List.zip p.edges (p.edges.drop 1)).all (fun e => decide (e.1 < e.2)) &&
    (if pic || audio then decide (p.fmt ≤ 2) else p.fmt == 0 && fits 4) &&
    (!pic || (side p.w && side p.h && decide (1 ≤ p.stride ∧ p.stride ≤ 256 ∧ 1 ≤ p.most ∧ p.most ≤ 65536) && fits (256 * p.channels * fmtBytes p.fmt))) &&
    (!audio || (decide (8000 ≤ p.rate ∧ p.rate ≤ 192000 ∧ 64 ≤ p.nfft ∧ p.nfft ≤ 4096 ∧ 1 ≤ p.hop ∧ p.hop ≤ p.nfft ∧ 1 ≤ p.bands ∧ p.bands ≤ 256) &&
      2 ^ Nat.log2 p.nfft == p.nfft && decide (p.fmin < p.fmax ∧ 2 * p.fmax ≤ p.rate) && fits (p.planes * p.bands * fmtBytes p.fmt)))

/-- Whether every slot of a context may be used as it leaves STOPPED (R476). -/
def State.slotsOk (s : State) (c : Nat) : Bool := (s.ingSlots c).all (fun p => p.2.ok)

/-- Shards of the list, first flash byte and size of shard `i`, row pitch and buffer pitch. -/
def State.shardCount (s : State) (c : Nat) : Nat := u32 (s.ingTable c 60 4) 0
/-- First flash byte and size of shard `i`. -/
def State.shardAt (s : State) (c i : Nat) : Nat × Nat := let b := s.ingTable c (4224 + 16 * i) 16; (u64 b 0, u64 b 8)
/-- Distance between rows of a batch buffer. -/
def State.rowPitch (s : State) (c : Nat) : Nat := u32 (s.ingTable c 4160 4) 0
/-- Distance between the two batch buffers. -/
def State.bufferPitch (s : State) (c : Nat) : Nat := u64 (s.ingTable c 4168 8) 0

/-- SOURCE (R462). -/
def State.ingSource (s : State) (c : Nat) : Nat := s.regN (Reg.MED_ING_CTRL c) % 4
/-- SORT_SLOT (R464). -/
def State.sortSlot (s : State) (c : Nat) : Nat := bits (s.regN (Reg.MED_ING_CTRL c)) 7 4
/-- Rows of a batch, R. -/
def State.batchRows (s : State) (c : Nat) : Nat := max 1 (s.regN (Reg.MED_BATCH_ROWS c) % 8192)
/-- Run tick D of the deadline. -/
def State.batchTick (s : State) (c : Nat) : Nat := s.regN (Reg.MED_BATCH_TICK c) % 2 ^ 20
/-- Whether the context keeps variants: it has an adapter cache (class V). -/
def State.keepsVariants (s : State) (c : Nat) : Bool := s.adpPitch c != 0 && s.regN (Reg.MEM_ADP_FRAMES c) != 0

/-! Pass 1. -/

/-- Positions of an item, where pass 1 can tell them (R458, R477, R499). -/
def itemPositions (p : SlotPlan) (it : Item) (h : HeaderScan) : Nat :=
  let px := p.w * p.h / 256
  match it.kind with
  | 1 => it.data.length / 4
  | 2 => px
  | 3 => min (cdiv h.pictures p.stride) p.most * px
  | 4 => stftFrames (bit p.aflags 1) (if h.rate = 0 then 0 else if h.rate = p.rate then h.samples else h.samples * p.rate / h.rate) p.nfft p.hop
  | 5 => it.shape.getD 0 0
  | _ => 0

/-- The first entry of a list of checks that fails, as its reason. -/
def firstFail : List (Bool × Nat) → Option Nat
  | [] => none
  | (bad, r) :: t => if bad then some r else firstFail t

/-- Elements of a tensor. -/
def shapeSize (l : List Nat) : Nat := l.foldl (· * ·) 1

/-- Limit checks of one item (R460, R461, R478, R494, R496, R498, R504): the reason of its rejection. -/
def itemReason (lim : Nat → Nat) (p : SlotPlan) (it : Item) (h : HeaderScan) : Option Nat :=
  let past := fun (i v : Nat) => (decide (lim i < v), 0x10 + i)
  let pos := past 15 (itemPositions p it h)
  match it.kind with
  | 0 => firstFail [past 4 it.data.length]
  | 1 => firstFail [(it.data.length % 4 != 0, 0x04), past 5 (it.data.length / 4), pos]
  | 2 => firstFail [(!h.supported, 0x20), past 7 h.width, past 7 h.height, past 8 (h.width * h.height), pos]
  | 3 => firstFail [(!h.supported, 0x20), past 9 h.width, past 9 h.height, past 10 (h.width * h.height), past 11 h.pictures, pos]
  | 4 => firstFail [(!h.supported, 0x20), past 12 h.channels, (decide (h.rate < 8000), 0x1D), past 13 h.rate, past 14 h.samples,
      (h.rate != p.rate && decide (4096 < p.rate / Nat.gcd h.rate p.rate), 0x20), pos]
  | _ => firstFail [(it.data.length != shapeSize it.shape * fmtBytes it.format, 0x04), past 6 (shapeSize it.shape), pos]

/-- The header scan of a slot's item. -/
def scanOf (scans : List HeaderScan) (slot : Nat) : HeaderScan := (scans.find? (fun h => h.slot == slot)).getD ⟨slot, 0, 0, 0, 0, 0, 0, 0, 0, true⟩

/-- The first rejection among items. -/
def State.itemsReason (s : State) (c : Nat) (scans : List HeaderScan) (its : List Item) : Option Nat :=
  its.findSome? (fun it => itemReason (s.ingLimit c) (s.slotPlan c it.slot) it (scanOf scans it.slot))

/-- CBOR and schema of a record, and the limits of its items (R458 to R461): its content, or the reason of its rejection. -/
def State.passOne (s : State) (c : Nat) (b : Bytes) (scans : List HeaderScan) : Except Nat RecordMap :=
  match cborSkip ⟨s.ingLimit c 2, s.ingLimit c 3⟩ b with
  | .error r => .error r
  | .ok (_ :: _) => .error 0x03
  | .ok [] =>
    if (cborMap b).isNone then .error 0x03
    else match recordOf (s.keepsVariants c) b with
      | none => .error 0x04
      | some m => match s.itemsReason c scans m.items with
        | some r => .error r
        | none => .ok m

/-- Bytes of a whole record frame with LEN bytes of CBOR (R457). -/
def frameSize (len : Nat) : Nat := cdiv (8 + len) 8 * 8

/-- A record frame as bytes (R457 to R461): its CBOR and content, or the reason of its rejection. -/
def State.frameCheck (s : State) (c : Nat) (f : Bytes) (scans : List HeaderScan) : Except Nat (Bytes × RecordMap) :=
  let len := u32 f 0
  let b := slice f 8 len
  if f.length < 8 ∨ len = 0 then .error 0x02
  else if s.ingLimit c 1 < len then .error 0x11
  else if f.length ≠ frameSize len ∨ !zeroAt f (8 + len) (f.length - (8 + len)) ∨ u32 f 4 ≠ crc32c b then .error 0x02
  else match s.passOne c b scans with
    | .error r => .error r
    | .ok m => .ok (b, m)

/-! Rejections. -/

/-- Status code of a rejection reason (R461). -/
def rejectCode (r : Nat) : Nat := if r = 0x05 then 11 else if 0x10 ≤ r ∧ r ≤ 0x20 then 1 else 7

/-- A rejection (R461): counted, latched, posted; a host command completes with its code. -/
def State.rejectRec (s : State) (c reason shard off : Nat) (cmd : Option (Nat × HostCmd)) : State :=
  let code := rejectCode reason
  let s := (s.count (Reg.MED_REJECTS c)).setRegN (Reg.MED_REJ_LAST c) (reason % 256 * 2 ^ 24 + code * 2 ^ 16 + shard % 65536)
  let s := (s.event (Reg.MED_ING_EVENT c) 0).postEvent c 0x000A code (s.hasp c).tag (reason % 256) (shard % 65536 * 2 ^ 48 + off % 2 ^ 48)
  match cmd with
  | some (fn, x) => s.complete fn 0x20 x code
  | none => s

/-! Decoding. -/

/-- A row's slot region: n, the pad bit, the data (R468). -/
def slotRegion (p : SlotPlan) (n : Nat) (pad : Bool) (d : Bytes) : Bytes := padTo p.size (toLe 4 n ++ toLe 4 (b2n pad) ++ d)

/-- Chunks of a sequence: 1 up to the top edge, then one for each top edge of positions (R198). -/
def chunksOf (p : SlotPlan) (n : Nat) : Nat := if n ≤ p.top ∨ p.top = 0 then 1 else cdiv n p.top

/-- Cuts data of `unit` bytes a position into chunks (R198). -/
def cutChunks (p : SlotPlan) (n unit : Nat) (d : Bytes) : List Bytes :=
  let k := chunksOf p n
  if k ≤ 1 then [d] else (List.range k).map (fun i => slice d (i * p.top * unit) (p.top * unit))

/-- Mel frames of an audio item: for each plane, the bands of each frame (R497 to R500). -/
def audioFrames (p : SlotPlan) (wav : Bool) (rate b : Nat) (isFloat : Bool) (chs : List (List Int)) : List (List (List Fp)) :=
  let x := chs.map (fun l => l.map (audioSample b isFloat wav))
  let x := if bit p.aflags 0 then [monoMix x] else x
  x.map (fun ch =>
    let y := resample rate p.rate ch
    (List.range (stftFrames (bit p.aflags 1) y.length p.nfft p.hop)).map (fun f =>
      melBands p.rate p.nfft p.bands p.fmin p.fmax (bit p.aflags 2) (stftPower (bit p.aflags 1) p.nfft p.hop y f)))

/-- One chunk of an audio item, planar as channel, band, frame, with the top edge as frame pitch (R477). -/
def audioChunk (p : SlotPlan) (fr : List (List (List Fp))) (k : Nat) : Bytes :=
  ((List.range p.planes).map (fun ch => ((List.range p.bands).map (fun b => ((List.range p.top).map (fun f =>
    match (fr.getD ch [])[k * p.top + f]? with
    | some e => outElem p.fmt (e.getD b fpZero)
    | none => zeros (fmtBytes p.fmt))).flatten)).flatten)).flatten

/-- What an item decodes to (R477, R504): its length n and the data of its chunks, or the reason of its rejection. -/
def decodeItem (tok : Nat → Option TokTable) (lim : Nat → Nat) (p : SlotPlan) (it : Item) (src : ItemSource) : Except Nat (Nat × List Bytes) :=
  let tokens := fun (l : List Nat) => (l.length, cutChunks p l.length 4 (l.map (toLe 4)).flatten)
  let pics := fun (ps : List RawPic) =>
    let n := ps.length * (p.w * p.h / 256)
    (n, cutChunks p n (256 * p.channels * fmtBytes p.fmt) (ps.map (fun q => picOutput q p.fmt p.colour p.w p.h)).flatten)
  match it.kind, src with
  | 0, _ =>
    match tok (p.tflags % 4) with
    | none => .error 0x21
    | some t =>
      let l := tokenise t (bit p.tflags 2) p.bos p.eos it.data
      if lim 5 < l.length then .error 0x15 else if lim 15 < l.length then .error 0x1F else .ok (tokens l)
  | 1, _ => .ok (tokens ((List.range (it.data.length / 4)).map (fun i => u32 it.data (4 * i))))
  | 2, .jpeg w h comps => .ok (pics [jpegPic w h comps])
  | 3, .pictures ps => .ok (pics (takenPics p.stride p.most ps))
  | 4, .pcm rate b isFloat chs =>
    let fr := audioFrames p (it.codec == 0) rate b isFloat chs
    let n := (fr.map List.length).foldl max 0
    .ok (n, (List.range (chunksOf p n)).map (audioChunk p fr))
  | 5, _ =>
    let n := it.shape.getD 0 0
    .ok (n, cutChunks p n (if n = 0 then 0 else it.data.length / n) it.data)
  | _, _ => .error 0x21

/-- A tokeniser table that is loaded. -/
def State.tokenTable (s : State) (i : Nat) : Option TokTable := (s.media.tokens.find? (fun p => p.1 == i)).map (fun p => tokTable p.2)

/-- Decodes the items of a record that fall into slots of the context: slot, n and chunks of each. -/
def State.decodeItems (s : State) (c : Nat) (its : List Item) (srcs : List ItemSource) : Except Nat (List (Nat × Nat × List Bytes)) :=
  (List.zip its (srcs ++ List.replicate its.length .own)).foldl (fun acc q =>
    match acc with
    | .error r => .error r
    | .ok l =>
      let p := s.slotPlan c q.1.slot
      if !p.used then .ok l
      else match decodeItem s.tokenTable (s.ingLimit c) p q.1 q.2 with
        | .error r => .error r
        | .ok (n, d) => .ok (l ++ [(q.1.slot, n, d)])) (.ok [])

/-- A record with what its items decoded to. -/
def State.decodedRec (s : State) (c : Nat) (r : IngRecord) (l : List (Nat × Nat × List Bytes)) : IngRecord :=
  { r with decoded := true, pics := 0, lens := l.map (fun x => (x.1, x.2.1)), buckets := l.map (fun x => (x.1, (s.slotPlan c x.1).bucket x.2.1)), rows := l.map (fun x => (x.1, x.2.2)) }

/-- Rows that a record fills: the most chunks of its items (R198). -/
def IngRecord.height (r : IngRecord) : Nat := (r.rows.map (fun x => x.2.length)).foldl max 1

/-! Bins. -/

/-- The cursor (R463): a point before which every read record is placed; and the count of teacher sequences consumed (R213). -/
def Ingest.cursor (i : Ingest) : List Nat :=
  match i.reading with
  | r :: _ => [r.pass, r.shard, r.offset, i.taken]
  | [] => [i.pass, i.shard, i.offset, i.taken]

/-- The bin of a record (R464). -/
def State.binOf (s : State) (c : Nat) (r : IngRecord) : Nat :=
  if s.ingSource c = 2 then 0 else ((r.buckets.find? (fun p => p.1 == s.sortSlot c)).map (·.2)).getD 0

/-- Reading pauses while the bins, with the records on their way, hold MED_BIN_CAP (R471). -/
def State.settleCap (s : State) (c : Nat) : State :=
  s.modIng c (fun i => { i with pausedReading := decide (s.regN (Reg.MED_BIN_CAP c) % 65536 ≤ i.bins.length + i.reading.length) })

/-- Places the decoded records at the front of what was read (R463, R464). A record with more chunks than a batch has rows can be in no
batch, and is rejected under limit 15 (DEDUCED, log entry 19). -/
def placeGo (c : Nat) : List IngRecord → State → State
  | [], s => s.modIng c (fun i => { i with reading := [] })
  | r :: t, s =>
    if !r.decoded then s.modIng c (fun i => { i with reading := r :: t })
    else if s.batchRows c < r.height then placeGo c t (s.rejectRec c 0x1F r.shard r.offset r.cmd)
    else placeGo c t (s.modIng c (fun i => { i with bins := i.bins ++ [(s.binOf c r, { r with frame := if r.live.isSome || r.cmd.isSome then r.frame else [] })] }))

/-! Batches. -/

/-- The vote word of a batch (R466): field m is the highest bucket of slot m. -/
def batchVote (rs : List IngRecord) : Nat :=
  (List.range 16).foldl (fun v m =>
    v + ((rs.map (fun r => ((r.buckets.find? (fun p => p.1 == m)).map (·.2)).getD 0)).foldl max 0 % 16) * 2 ^ (4 * m)) 0

/-- The rows of a record. -/
def recordRows (r : IngRecord) : List (Option BatchRow) := (List.range r.height).map (fun k => some ⟨r, k⟩)

/-- The first records of a bin that fit into `n` rows. -/
def takeRows : Nat → List IngRecord → List IngRecord
  | _, [] => []
  | n, r :: t => if r.height ≤ n then r :: takeRows (n - r.height) t else []

/-- Whether a bin holds a record that has waited MED_AGE_MAX batches; bin 15 can only fill (R465). -/
def State.agedBin (s : State) (c : Nat) : Option Nat :=
  let a := s.regN (Reg.MED_AGE_MAX c) % 256
  (List.range 15).find? (fun b => (s.ing c).bins.any (fun p => p.1 == b && decide (a ≤ p.2.age)))

/-- Records of a bin, in cursor order. -/
def Ingest.bin (i : Ingest) (b : Nat) : List IngRecord := (i.bins.filter (fun p => p.1 == b)).map (·.2)

/-- The bin with the most records, the lowest-numbered among equals (R465); bin 15 can only fill. -/
def Ingest.fullest (i : Ingest) : Option Nat :=
  let best := (List.range 15).foldl (fun a b => if (i.bin a).length < (i.bin b).length then b else a) 0
  if (i.bin best).isEmpty then none else some best

/-- 16 bytes of a cursor: PASS, shard, offset. -/
def cursorBytes (l : List Nat) : Bytes := padTo 16 (toLe 2 (l.getD 0 0) ++ toLe 2 (l.getD 1 0) ++ toLe 8 (l.getD 2 0))

/-- Manifest entry of a row (R468). -/
def rowEntry : Option BatchRow → Bytes
  | none => zeros 14 ++ toLe 1 1 ++ zeros 1
  | some r => toLe 2 r.item.pass ++ toLe 2 r.item.shard ++ toLe 8 r.item.offset ++ toLe 2 (r.item.variant.getD 0) ++ toLe 1 (2 * b2n r.item.short + 4 * b2n r.item.long) ++ zeros 1

/-- Rows of a manifest that carry records. -/
def Manifest.filled (m : Manifest) : Nat := (m.rows.filter Option.isSome).length

/-- A manifest's header and entries (R468). -/
def Manifest.bytes (m : Manifest) : Bytes :=
  let h := toLe 4 m.epoch ++ toLe 4 m.rows.length ++ toLe 4 m.filled ++ toLe 8 m.vote.toNat ++ cursorBytes m.readTo ++
    toLe 1 (b2n m.deadline + 2 * b2n (m.filled == 0)) ++ zeros 23
  h ++ toLe 4 (crc32c h) ++ (m.rows.map rowEntry).flatten

/-- Writes one row of a batch (R464, R468). -/
def State.writeRow (s : State) (c base : Nat) (slots : List (Nat × SlotPlan)) (r : Option BatchRow) : State :=
  s.over slots (fun s p =>
    let here := r.bind (fun x => ((x.item.rows.find? (fun y => y.1 == p.1)).bind (fun y => y.2[x.chunk]?)).map (fun d => (x.item, d)))
    let b := match here with
      | some (it, d) => slotRegion p.2 (((it.lens.find? (fun y => y.1 == p.1)).map (·.2)).getD 0) false d
      | none => slotRegion p.2 0 true []
    (s.wrRaw c 3 0 (base + p.2.off) b).account c 4 b.length)

/-- Variants that a batch names. -/
def Manifest.variants (m : Manifest) : List Nat := m.rows.filterMap (fun r => r.bind (fun x => x.item.variant))

/-- Delivers a manifest (R466, R469): buffer x mod 2, the vote vector, the variants, and 1 added to the bolt of every ward. -/
def State.deliver (s : State) (c : Nat) (m : Manifest) : State :=
  let base := s.regN (Reg.MED_BATCH_BASE c) * 2097152 + m.epoch % 2 * s.bufferPitch c
  let b := m.bytes
  let s := (s.wrRaw c 3 0 base b).account c 4 b.length
  let first := base + cdiv b.length 64 * 64
  let slots := s.ingSlots c
  let s := s.over (List.zip (List.range m.rows.length) m.rows) (fun s r => s.writeRow c (first + r.1 * s.rowPitch c) slots r.2)
  let vec := ((List.range 16).map (fun i => toLe 4 (enc32 (fpOfInt (bits m.vote.toNat (4 * i + 3) (4 * i)) 0)))).flatten
  let s := (s.wrRaw c 2 0 (s.regN (Reg.MED_VOTE_ADDR c)) vec).batchVariants c m.variants
  let bolt := s.regN (Reg.MED_BATCH_BOLT c) % 4096
  s.over (bitsOf 16 (s.regN (Reg.CTX_WARDS c))) (fun s w => if s.ownBolt c bolt then s.boltAdd c (w * 4096 + bolt) 1#32 else s)

/-! Manifests of the steps. -/

/-- The effects of a batch that the step in progress consumes (R85, R90, R520): the completions of its RECORD commands, refused when the queue is
full (R86), and the references that the replay log will hold of its live frames. -/
def State.consumeBatch (s : State) (c : Nat) (m : Manifest) : State :=
  let items := m.rows.filterMap (fun r => r.bind (fun x => if x.chunk = 0 then some x.item else none))
  let s := s.over (items.filterMap (fun r => r.cmd)) (fun s p =>
    let q := s.defer c (.done p.1 0x20 p.2.id p.2.quiet)
    if q.2 then q.1 else q.1.complete p.1 0x20 p.2 8)
  let refs := (m.rows.filter (fun r => (r.map (fun x => x.item.live.isSome || x.item.cmd.isSome)).getD false)).map rowEntry
  s.modCtx c (fun x => { x with steps := x.steps.map (fun e => if e.epoch = x.hasp.stepEpoch then { e with liveFrames := refs } else e) })

/-- Frees the manifests of epochs up to `e` (R90, R469). -/
def State.freeBatches (s : State) (c e : Nat) : State := s.modIng c (fun i => { i with batches := i.batches.filter (fun m => decide (e < m.epoch)) })

/-! The archive. -/

/-- A picture that is not archived closes its stream's group once what is queued before it is coded: a mark in the queue, with the context raised
by 16 (R490, R491). -/
def State.archiveSkip (s : State) (c st : Nat) : State :=
  let s := (s.count Reg.MED_ARCH_SKIPS).event Reg.MED_FE_EVENT 3
  let last := (s.media.archQueue.filter (fun q => q.2.1 == st)).getLast?
  if last.any (fun (q : Nat × Nat × Nat) => decide (16 ≤ q.1)) then s else s.modMedia (fun m => { m with archQueue := m.archQueue ++ [(c + 16, st, 0)] })

/-- The archive queue takes the pictures of live streams that a step consumes, every ARCHIVE_EVERY-th of a stream, up to 64 (R490), each with its encoding time (R491). -/
def State.archivePic (s : State) (c : Nat) (p : Nat × Nat × Nat) : State :=
  let every := bits (s.regN (Reg.MED_LIVE_CTRL p.1)) 23 16
  let n := (s.stream p.1).consumed + 1
  let s := s.modLive p.1 (fun v => { v with consumed := n })
  if every = 0 ∨ n % every ≠ 0 ∨ !bit (s.regN Reg.MED_ARCH_CTRL) 31 then s
  else if 64 ≤ (s.media.archQueue.filter (fun q => decide (q.1 < 16))).length ∨ 3840 < p.2.1 ∨ 2160 < p.2.2 then s.archiveSkip c p.1
  else s.modMedia (fun m => { m with archQueue := m.archQueue ++ [(c, p.1, 2 * p.2.1 * p.2.2 + 10000)] })

/-- What the step in progress consumes with its batch (R85, R90, R490). -/
def State.consume (s : State) (c : Nat) (m : Manifest) : State :=
  let s := s.consumeBatch c m
  s.over (m.rows.filterMap (fun r => r.bind (fun x => if x.chunk = 0 then x.item.live else none))) (fun s p => s.archivePic c p)

/-- The step that begins, or that its batch reaches while it runs, runs the variants listed for it (R293). -/
def State.runVariants (s : State) (c : Nat) (vs : List Nat) : State := s.modAdp c (fun a => { a with running := vs })

/-! Completing a batch. -/

/-- The epoch of the next batch: the lowest up to the step after the one in progress that has no manifest (R466; DEDUCED, log entry 19). -/
def State.nextBatch (s : State) (c : Nat) : Option Nat :=
  let h := s.hasp c
  if !h.stepOpen then none else [h.stepEpoch, h.stepEpoch + 1].find? (fun x => !(s.ing c).batches.any (fun m => m.epoch == x))

/-- Completes the batch of epoch `x` (R465, R466): `filled` is the bin that filled, none at the deadline. -/
def State.completeBatch (s : State) (c x : Nat) (filled : Option Nat) : State :=
  let i := s.ing c
  let aged := s.agedBin c
  let bin := aged.orElse (fun _ => filled.orElse (fun _ => i.fullest))
  let rs := match bin with
    | some b => takeRows (s.batchRows c) (i.bin b)
    | none => []
  let rows := (rs.map recordRows).flatten
  let pads := s.batchRows c - rows.length
  let m : Manifest := ⟨x, rows ++ List.replicate pads none, BitVec.ofNat 64 (batchVote rs), i.cursor, filled.isNone⟩
  let uids := rs.map (·.uid)
  let s := s.modIng c (fun i => { i with
    bins := (i.bins.filter (fun p => !uids.contains p.2.uid)).map (fun p => (p.1, { p.2 with age := p.2.age + 1 }))
    batches := i.batches ++ [m] })
  let s := ((s.countBy (Reg.MED_PAD_ROWS c) pads).eventIf filled.isNone (Reg.MED_ING_EVENT c) 1).eventIf aged.isSome (Reg.MED_ING_EVENT c) 2
  let s := (s.deliver c m).settleCap c
  -- the batch of the step in progress is consumed as it completes
  if (s.hasp c).stepOpen ∧ (s.hasp c).stepEpoch = x then (s.consume c m).runVariants c m.variants else s

/-- Completes batches while a bin holds R records and a step awaits one (R465). With SOURCE 2 a batch completes at its deadline only. -/
def fillGo (c : Nat) : Nat → State → State
  | 0, s => s
  | f + 1, s =>
    if s.ingSource c = 2 then s
    else match s.nextBatch c, (List.range 16).find? (fun b => decide (s.batchRows c ≤ ((s.ing c).bin b).length)) with
      | some x, some b => fillGo c f (s.completeBatch c x (some b))
      | _, _ => s

/-- Places what is decoded and completes the batches that it fills. -/
def State.settleIngest (s : State) (c : Nat) : State := fillGo c 2 ((placeGo c (s.ing c).reading s).settleCap c)

/-- Tick 0 of a step (R466, R469): the manifest of the step, when a rollback asks for it again, and that of the step after it, when it is
retained; what the step consumes; and batches that were only waiting for the step. -/
def State.startBatches (s : State) (c : Nat) (again : Bool) : State :=
  let y := (s.hasp c).stepEpoch
  let find := fun (x : Nat) => (s.ing c).batches.find? (fun m => m.epoch == x)
  let s := match find y with
    | some m => (((if again then s.deliver c m else s).runVariants c m.variants).consume c m)
    | none => s.runVariants c []
  let s := match find (y + 1) with
    | some m => s.deliver c m
    | none => s
  fillGo c 2 s

end Sys2Proof.Machine
end

