-- ==== Sys2Proof/Machine/Archive.lean ====
section
/-! DEFINITION. The archive encoder (R490 to R493): groups become Nasolis records, records fill shards of a flash extent. -/

namespace Sys2Proof.Machine

/-- A CBOR head in its shortest form. -/
def cborEnc (m v : Nat) : Bytes :=
  let h := fun (i : Nat) => toLe 1 (m * 32 + i)
  if v < 24 then h v else if v < 2 ^ 8 then h 24 ++ toLe 1 v else if v < 2 ^ 16 then h 25 ++ (toLe 2 v).reverse
  else if v < 2 ^ 32 then h 26 ++ (toLe 4 v).reverse else h 27 ++ (toLe 8 v).reverse

/-- The record of a group (R492): VERSION 1, SAMPLE, one item of KIND 3 and CODEC 1. -/
def groupCbor (st slot n : Nat) (data : Bytes) : Bytes :=
  cborEnc 5 3 ++ cborEnc 0 0 ++ cborEnc 0 1 ++ cborEnc 0 1 ++ cborEnc 0 (st * 2 ^ 48 + n) ++ cborEnc 0 3 ++ cborEnc 4 1 ++
    cborEnc 5 4 ++ cborEnc 0 0 ++ cborEnc 0 slot ++ cborEnc 0 1 ++ cborEnc 0 3 ++ cborEnc 0 2 ++ cborEnc 2 data.length ++ data ++ cborEnc 0 4 ++ cborEnc 0 1

/-- A record frame of CBOR bytes (R457). -/
def frameOfCbor (b : Bytes) : Bytes := padTo (frameSize b.length) (toLe 4 b.length ++ toLe 4 (crc32c b) ++ b)

/-- A shard header (R456). -/
def shardHead (id records bytes : Nat) : Bytes :=
  let h := toLe 4 0x534C534E ++ toLe 1 1 ++ toLe 1 0 ++ toLe 2 64 ++ toLe 8 id ++ toLe 8 records ++ toLe 8 bytes ++ zeros 28
  h ++ toLe 4 (crc32c (h ++ zeros 4))

/-- Closes the group in progress of a stream: its record is a deferred effect of context `c` (R491 to R493). -/
def State.closeGroup (s : State) (c st : Nat) : State :=
  let v := s.stream st
  if v.units = [] then s
  else
    let f := frameOfCbor (groupCbor st (bits (s.regN (Reg.MED_LIVE_CTRL st)) 7 4) v.group v.units.flatten)
    ((s.modLive st (fun v => { v with units := [], group := v.group + 1 })).defer c (.archive f)).1

/-- Blocks of a shard that bytes `lo` to `hi - 1` of it touch, with their contents. -/
def State.shardBlocks (s : State) (shard : Bytes) (lo hi : Nat) : List (Nat × Bytes) :=
  let base := (s.regN Reg.MED_ARCH_BASE * 65536 + s.media.archPos) / 4096
  (List.range (cdiv hi 4096 - lo / 4096)).map (fun i => (base + lo / 4096 + i, padTo 4096 (slice shard (4096 * (lo / 4096 + i)) 4096)))

/-- Hands blocks to the flash cache, with their bytes accounted to context `c`; the second result says whether it took them all. -/
def State.archiveBlocks (s : State) (c : Nat) (l : List (Nat × Bytes)) : State × Bool :=
  let p := acceptGo l s
  (if p.2 then p.1.account c 6 (4096 * l.length) else p.1.event Reg.MEM_FL_EVENT 0, p.2)

/-- Closes the shard in progress: its header is written, and the next one begins at the next 64 KiB unit, or at the start of the extent
(R492). -/
def State.closeShard (s : State) (c : Nat) (wrap : Bool) : State :=
  let m := s.media
  let shard := shardHead m.archShards m.archCount (m.archShard.length - 64) ++ m.archShard.drop 64
  let s := if m.archCount = 0 then s else (s.archiveBlocks c (s.shardBlocks shard 0 64)).1
  let next := m.archPos + cdiv shard.length 65536 * 65536
  let round := wrap || decide (s.regN Reg.MED_ARCH_BLOCKS * 65536 < next + 65536)
  (s.modMedia (fun m => { m with archShard := [], archCount := 0, archShards := m.archShards + 1, archPos := if round then 0 else next })).eventIf round Reg.MED_FE_EVENT 4

/-- Adds a record to the shard in progress and writes it (R492, R493): the state, and whether it is done or stays queued for the store (R86,
R87). A record larger than the extent is left out. -/
def State.archiveRecord (s : State) (c : Nat) (f : Bytes) : State × Bool :=
  let size := s.regN Reg.MED_ARCH_BLOCKS * 65536
  let room := fun (m : Media) => decide (m.archPos + max 64 m.archShard.length + f.length ≤ size)
  if size < 64 + f.length then (s, true)
  else
    let blocks := fun (s : State) => s.shardBlocks (padTo (max 64 s.media.archShard.length) s.media.archShard ++ f) (max 64 s.media.archShard.length) (max 64 s.media.archShard.length + f.length)
    let t := if room s.media then s else s.closeShard c true
    if s.flashRefusal ≠ 0 then (s.eventIf (!s.inhibited && !s.flash.readOnly && s.cacheFull) Reg.MEM_FL_EVENT 0, false)
    else
      let p := t.archiveBlocks c (blocks t)
      if !p.2 then ({ p.1 with media := s.media }, false)
      else
        let t := p.1.modMedia (fun m => { m with archShard := padTo (max 64 m.archShard.length) m.archShard ++ f, archCount := m.archCount + 1 })
        (if max 1 (s.regN Reg.MED_ARCH_SHARD % 8192) ≤ t.media.archCount then t.closeShard c false else t, true)

/-- Closes the groups that marks at the front of the archive queue name. -/
def marksGo : List (Nat × Nat × Nat) → State → State
  | [], s => s.modMedia (fun m => { m with archQueue := [] })
  | q :: t, s => if q.1 < 16 then s.modMedia (fun m => { m with archQueue := q :: t }) else marksGo t (s.closeGroup (q.1 - 16) q.2.1)

/-- ARCHIVE_ENCODE_DONE (R491): the access unit of the picture at the front of the queue joins its stream's group; a group of GOP pictures, or one
that a skip ends, closes. The encoder's time counts for the context (R401). -/
def execArchiveEncodeDone (unit : Bytes) (s : State) : Host.Outcome State Fault Refusal :=
  let s := marksGo s.media.archQueue s
  match s.media.archQueue with
  | [] => .next s
  | q :: t =>
    let s := (s.modMedia (fun m => { m with archQueue := t })).account q.1 3 q.2.2 |>.modLive q.2.1 (fun v => { v with units := v.units ++ [unit] })
    let s := if max 1 (bits (s.regN Reg.MED_ARCH_CTRL) 21 16) ≤ (s.stream q.2.1).units.length then s.closeGroup q.1 q.2.1 else s
    .next (marksGo s.media.archQueue s)

end Sys2Proof.Machine
end

