-- ==== Sys2Proof/Machine/Fence.lean ====
section
/-! DEFINITION. Fences, unit actions and sweeps: substitution of a tile (R452, R454), pending unit actions (R604, R605), the management controller's copy of the unit map (R607), sweeps (R444, R447), hourly classes (R450, R451), permanence notices at the master (R446), compaction of the history (R448). -/

namespace Sys2Proof.Machine

/-! Unit maps. -/

/-- DETAIL of a unit-map record (R449): the map, 5 bits per logical index; the fenced mask; the spare. -/
def TileMap.detail (m : TileMap) : Bytes :=
  toLe 10 ((List.range 16).foldl (fun a i => a + m.map.getD i 0 * 32 ^ i) 0) ++ toLe 3 (maskOf m.fenced) ++ toLe 1 (m.spare.getD 0x1F) ++ zeros 2

/-- Writes a unit-map record of ward `w` (R449, R452), which is the management controller's copy of its map (R604). The record names the
unit that it is written for. -/
def State.mapRecord (s : State) (w kind unit : Nat) : State :=
  let m := s.tileMap w
  let r := { s.newRecord 4 kind unit with cls := tget (fun _ => 0) s.chk.classes (unitKey kind unit), detail := m.detail }
  ({ s with chk := { s.chk with nextSeq := s.chk.nextSeq + 1, mgmtMaps := tput s.chk.mgmtMaps w m } }).putRecord r

/-- The management controller's copy of a ward's map. -/
def State.mgmtMap (s : State) (w : Nat) : TileMap := tget (fun _ => ⟨List.range 16, some 16, [], none⟩) s.chk.mgmtMaps w

/-- Replaces the tile map of a ward. -/
def State.setMap (s : State) (w : Nat) (m : TileMap) : State := { s with chk := { s.chk with maps := tput s.chk.maps w m } }

/-- The spare of ward `w` takes the number of physical tile `p`, with a copy of its whole tile store (R452); nothing happens without a
spare or to a tile that holds no logical number. -/
def State.fenceTile (s : State) (w p : Nat) : State :=
  let m := s.tileMap w
  match m.spare with
  | none => s
  | some q =>
    if !m.map.contains p then s
    else
      let s := { s with stores := { s.stores with tiles := tput s.stores.tiles (w * 17 + q) (tget (fun _ => []) s.stores.tiles (w * 17 + p)) } }
      let s := s.setMap w { map := m.map.map (fun x => if x = p then q else x), spare := none, fenced := m.fenced ++ [p],
                            pending := if m.pending = some p then none else m.pending }
      let u := tileUnit w p
      let r := { s.newRecord 1 1 u with event := 0x0C, cls := tget (fun _ => 0) s.chk.classes (unitKey 1 u) }
      let s := ({ s with chk := { s.chk with nextSeq := s.chk.nextSeq + 1 } }).putRecord r
      let s := (s.mapRecord w 1 u).event Reg.CHK_EVENT 5
      -- another tile of the ward that asks for a fence now finds no spare (R453)
      s.over (m.map.filter (fun x => x != p)) (fun s x => s.classAction 1 (tileUnit w x) (tget (fun _ => 0) s.chk.classes (unitKey 1 (tileUnit w x))))

/-- A fenced tile becomes its ward's spare, if the ward has none (R605). -/
def State.restoreTile (s : State) (w p : Nat) : State :=
  let m := s.tileMap w
  if m.spare.isSome ∨ !m.fenced.contains p then s
  else (s.setMap w { m with spare := some p, fenced := m.fenced.filter (fun x => x != p) }).mapRecord w 1 (tileUnit w p)

/-- The class of a unit becomes CLEAN: what was counted so far counts no more, and a unit-map record says so (R605). -/
def State.clearClass (s : State) (kind unit : Nat) : State :=
  let k := unitKey kind unit
  let s := { s with chk := { s.chk with classes := tput s.chk.classes k 0, cleared := tput s.chk.cleared k s.chk.nextSeq } }
  s.mapRecord (unit % 16) kind unit

/-- Takes a unit's pending action off the list. -/
def State.dropAction (s : State) (k : Nat) : State := { s with chk := { s.chk with actions := tdel s.chk.actions k } }

/-- The pending actions in order: fences of one ward beyond the first wait for a later boundary, as all do where the checker fenced in
that ward (R605). `busy` lists the wards that have had their substitution. -/
def actionsGo : List (Nat × Nat) → List Nat → State → State
  | [], _, s => s
  | (k, a) :: t, busy, s =>
    let kind := k / 2 ^ 24
    let unit := k % 2 ^ 24
    let w := unit % 16
    if kind ≤ 4 ∧ busy.contains w then actionsGo t busy s
    else
      let s := s.dropAction k
      if a = 1 ∧ kind = 1 then actionsGo t (w :: busy) (s.fenceTile w (unit / 256))
      else if a = 2 ∧ kind = 1 then actionsGo t (w :: busy) (s.restoreTile w (unit / 256))
      else if a = 3 then actionsGo t busy (s.clearClass kind unit)
      else actionsGo t busy s

/-- Units of a ward whose place differs between the committed map and the controller's copy. -/
def TileMap.differing (a b : TileMap) : List Nat :=
  pick 17 (fun p => a.map.findIdx? (fun x => x == p) != b.map.findIdx? (fun x => x == p) || a.fenced.contains p != b.fenced.contains p || (a.spare == some p) != (b.spare == some p))

/-- The controller compares its copy with the committed map (R607). -/
def State.compareMaps (s : State) : State :=
  s.over (List.range 16) (fun s w =>
    match (s.tileMap w).differing (s.mgmtMap w) with
    | [] => s
    | p :: t =>
      let bump := fun (d : Tbl Nat) (q : Nat) => let k := unitKey 1 (tileUnit w q); tput d k (tget (fun _ => 0) d k + 1)
      let s := { s with chk := { s.chk with disagreements := (p :: t).foldl bump s.chk.disagreements } }
      (s.mapRecord w 1 (tileUnit w p)).platformEvent 5 w)

/-- Substitutions and unit actions of a boundary at which R452 allows them (R452, R605), then the controller's comparison (R607). -/
def State.fenceBoundary (s : State) : State :=
  let wards := pick 16 (fun w => (s.tileMap w).pending.isSome)
  let old := s.chk.maps
  let s := s.over wards (fun s w => s.fenceTile w ((s.tileMap w).pending.getD 0))
  let s := actionsGo s.chk.actions wards s
  if s.chk.maps = old then s else s.compareMaps

/-! Sweeps. -/

/-- Notes a suspect's sweep: 0 awaited, 1 passed, 2 failed. -/
def State.markSuspect (s : State) (u mark : Nat) : State :=
  { s with chk := { s.chk with suspects := s.chk.suspects.map (fun (p : Nat × Nat) => if p.1 = u then (p.1, mark) else p) } }

/-- Once both tiles of a reproduced digest mismatch have been swept: both become PERMANENT when neither failed (R444). -/
def State.settleSuspects (s : State) : State :=
  let l := s.chk.suspects
  if l.any (fun p => p.2 == 0) then s
  else
    let s := { s with chk := { s.chk with suspects := [] } }
    if l.all (fun p => p.2 == 1) then s.over l (fun s p => let k := s.histUnit p.1; s.makePermanent k.1 k.2) else s

/-- SWEEP_COMPLETE (R447): a failure is an event against the tile, two in a row make it PERMANENT, and so does one failure of a suspect
(R444). -/
def execSweepComplete (u : Fin 256) (pass : Bool) (s : State) : Host.Outcome State Fault Refusal :=
  let k := s.histUnit u
  let suspect := s.chk.suspects.any (fun p => p.1 == u.val)
  if pass then
    let s := s.modUnit u (fun x => { x with sweepFails := 0 })
    .next (s.markSuspect u 1).settleSuspects
  else
    let twice := decide (1 ≤ (s.unit u).sweepFails)
    let s := ((s.modUnit u (fun x => { x with sweepFails := x.sweepFails + 1 })).count Reg.CHK_SWEEP_COUNT).event Reg.CHK_EVENT 3
    let s := s.unitEvent k.1 k.2 0x04 false none
    let s := if suspect ∨ twice then s.makePermanent k.1 k.2 else s
    .next (s.markSuspect u 2).settleSuspects

/-! The unit history. -/

/-- UNIT_CLASS_HOURLY (R450, R451): the clock comes to `now`; a correction-count record for every unit with corrections in the hour, then
every unit with a class is classed again. -/
def execUnitClassHourly (now : Nat) (s : State) : Host.Outcome State Fault Refusal :=
  let s := { s with mgmt := { s.mgmt with time := max s.mgmt.time now } }
  let counts := s.chk.corrections.filter (fun p => p.2 != 0)
  let s := { s with chk := { s.chk with corrections := [] } }
  let s := s.over counts (fun s p =>
    let kind := p.1 / 2 ^ 24
    let unit := p.1 % 2 ^ 24
    let r := { s.newRecord 2 kind unit with cls := s.classify kind unit, detail := toLe 4 p.2 ++ zeros 12 }
    ({ s with chk := { s.chk with nextSeq := s.chk.nextSeq + 1 } }).putRecord r)
  .next (s.over s.chk.classes (fun s p => s.reclass (p.1 / 2 ^ 24) (p.1 % 2 ^ 24)))

/-- Whether compaction keeps a record that `later` follow (R448): the newest remap and unit-map record of each unit, events of the last
30 days, the newest 16 checkpoint records. Of the remap records of a bank, the newest of each row is kept, since R273 keeps the table there (DEDUCED,
log entry 58). -/
def keepRecord (now boot : Nat) (r : HistRec) (later : List HistRec) : Bool :=
  let newest := !later.any (fun x => x.type == r.type && x.kind == r.kind && x.unit == r.unit && (r.type != 3 || le x.detail 0 2 == le r.detail 0 2))
  match r.type with
  | 1 => r.within now boot 2592000
  | 3 => newest
  | 4 => newest
  | 5 => decide ((later.filter (fun x => x.type == 5)).length < 16)
  | _ => false

/-- The records that compaction keeps. -/
def compactGo (now boot : Nat) : List HistRec → List HistRec
  | [] => []
  | r :: t => if keepRecord now boot r t then r :: compactGo now boot t else compactGo now boot t

/-- HISTORY_COMPACT (R448): at 7/8 of the log's region, 64 bytes a record. -/
def execHistoryCompact (s : State) : Host.Outcome State Fault Refusal :=
  if 8 * 64 * s.chk.history.length < 7 * s.opt.histSize then .next s
  else .next { s with chk := { s.chk with history := compactGo s.mgmt.time s.mgmt.boot s.chk.history } }

/-- Whether bytes are a permanence notice (R9, R445). -/
def permanenceOk (b : Bytes) : Bool := decide (b.length = 12) && u16 b 0 == 4 && decide (1 ≤ byteAt b 6 ∧ byteAt b 6 ≤ 11) && byteAt b 7 == 0

/-- PERMANENCE_NOTICE (R445, R446): the tick master keeps the notice until it has announced what it asks for. -/
def execPermanenceNotice (link : Fin 24) (b : Bytes) (s : State) : Host.Outcome State Fault Refusal :=
  .next (s.takeMsg link b 4 (fun b s =>
    if !permanenceOk b then s.count Reg.FAB_DROP_CRC
    else if !s.tick.master then s
    else s.modTick (fun t => { t with notices := t.notices ++ [b] })))

end Sys2Proof.Machine
end

