-- ==== Sys2Proof/Machine/Logical.lean ====
section
/-! DEFINITION. Logical links and twins: which address a link reaches (R307, R308), home peers and whether a logical link is direct (R324 to R327), the twin seat and the mirror path (R407, R408, R417, R418), the device-owned LPDDR areas (R284), the guard arena (R410), and the receive reservations of the frame that runs (R326). -/

namespace Sys2Proof.Machine

/-- Ring sizes n_X, n_Y, n_Z of FAB_GEOM (R308, R345). -/
def State.geom (s : State) : Nat × Nat × Nat :=
  let v := s.regN Reg.FAB_GEOM
  (bits v 4 0, bits v 12 8, bits v 20 16)

/-- A coordinate moved along a ring. -/
def ringMove (n c d : Nat) : Nat := (c + d) % n

/-- An address of its coordinates (R320). -/
def mkAddr (x y z slot : Nat) : Nat := x * 4096 + y * 256 + z * 8 + slot

/-- The coordinate, its ring and how to put it back, for dimension `d` of an address. -/
def moveDim (rings : Nat × Nat × Nat) (a d step : Nat) : Nat :=
  let x := bits a 15 12
  let y := bits a 11 8
  let z := bits a 7 3
  let t := a % 8
  if d = 0 then mkAddr (ringMove rings.1 x step) y z t
  else if d = 1 then mkAddr x (ringMove rings.2.1 y step) z t
  else mkAddr x y (ringMove rings.2.2 z step) t

/-- Ring size of a dimension. -/
def ringOf (rings : Nat × Nat × Nat) (d : Nat) : Nat := if d = 0 then rings.1 else if d = 1 then rings.2.1 else rings.2.2

/-- The address that link `l` reaches from address `a`; none for a link that R308 leaves uncabled. -/
def reach (rings : Nat × Nat × Nat) (a l : Nat) : Option Nat :=
  if l < 7 then some (a / 8 * 8 + (a % 8 + 1 + l) % 8)
  else if l < 19 then
    let d := (l - 7) / 4
    let n := ringOf rings d
    if n ≤ 1 then none else some (moveDim rings a d (if (l - 7) % 4 < 2 then 1 else n - 1))
  else if l < 21 then some (a ^^^ 8)
  else
    let d := l - 21
    let n := ringOf rings d
    if n < 4 ∨ n % 2 = 1 then none else some (moveDim rings a d (n / 2))

/-- The peer link of a link (R307). -/
def peerLink (l : Nat) : Nat :=
  if l < 7 then 6 - l
  else if l < 19 then (if (l - 7) % 4 < 2 then l + 2 else l - 2)
  else l

/-- Home address of a seat (R324). -/
def State.homeAddr (s : State) (c seat : Nat) : Nat := tget (fun _ => 0xFFFF) (s.ctx c).home seat

/-- The seat whose home address is `a`. -/
def State.homeSeat (s : State) (c a : Nat) : Option Nat := ((s.ctx c).home.find? (fun p => p.2 == a)).map (·.1)

/-- The device that holds a seat by the placement in force (R321). -/
def State.holder (s : State) (c seat : Nat) : Nat := s.fabric.inForce.seatAddr c seat

/-- The home peer of logical link `l` of the seat this device holds (R324). -/
def State.homePeer (s : State) (c l : Nat) : Option Nat :=
  match s.seatOf c with
  | some seat => (reach s.geom (s.homeAddr c seat) l).bind (s.homeSeat c)
  | none => none

/-- The current address of the home peer of logical link `l` (R325). -/
def State.peerAddr (s : State) (c l : Nat) : Option Nat := (s.homePeer c l).map (s.holder c)

/-- Address in the neighbour record of link `l`. -/
def State.recordAddr (s : State) (l : Nat) : Option Nat := (s.link l).record.map (fun r => u16 r 20)

/-- Whether logical link `l` of context `c` is direct (R325). -/
def State.directLink (s : State) (c l : Nat) : Bool :=
  match s.peerAddr c l with
  | some a => s.linkUp l && s.recordAddr l == some a
  | none => false

/-- Classes every logical link of every context as direct or routed, for FAB_ROUTED (R325). -/
def State.resolveLinks (s : State) : State :=
  s.over (List.range 16) (fun s c => s.setRegN (Reg.FAB_ROUTED c) (maskOf (pick 24 (fun l => (s.peerAddr c l).isSome && !s.directLink c l))))

/-- Whether a logical link is routed in the tick in progress. -/
def State.isRouted (s : State) (c l : Nat) : Bool := (s.reg (Reg.FAB_ROUTED c)).getLsbD l

/-- Sets a flag of the next reply (R45). -/
def State.flag (s : State) (i : Nat) : State := s.modTick (fun t => { t with flagsNext := t.flagsNext ||| (1 <<< i) })

/-- Sets a flag of the next reply when `b` holds. -/
def State.flagIf (s : State) (b : Bool) (i : Nat) : State := if b then s.flag i else s

/-! Device-owned LPDDR areas. -/

/-- Base and size in bytes of a device-owned LPDDR region (R284). -/
def State.lpRegion (s : State) (off : Nat) : Nat × Nat := ((s.regN off % 65536) * 2 ^ 26, (s.regN off / 65536) * 2 ^ 26)

/-- The share of context `c` in a device-owned region: one sixteenth, by context number (DESIGN CHOICE, log entry 16). -/
def State.lpShare (s : State) (off c : Nat) : Nat × Nat := let r := s.lpRegion off; (r.1 + c * (r.2 / 16), r.2 / 16)

/-- A read of LPDDR by device address. -/
def State.lpRead (s : State) (a n : Nat) : Bytes := mread s.stores.lpddr a n
/-- A write of LPDDR by device address. -/
def State.lpWrite (s : State) (a : Nat) (b : Bytes) : State := { s with stores := { s.stores with lpddr := mwrite s.stores.lpddr a b } }

/-! Twins. -/

/-- The twin seat of a seat (R407). -/
def State.twinSeatOf (s : State) (c seat : Nat) : Option Nat := s.homeSeat c (s.homeAddr c seat ^^^ 8)

/-- The twin seat of this device's seat. -/
def State.twinSeat (s : State) (c : Nat) : Option Nat := (s.seatOf c).bind (s.twinSeatOf c)

/-- Address of the holder of the twin seat; 0xFFFF for none (R407, R434). -/
def State.twinAddr (s : State) (c : Nat) : Nat := ((s.twinSeat c).map (s.holder c)).getD 0xFFFF

/-- Whether the pair is direct, as far as this holder's neighbour records say (R408). -/
def State.pairDirect (s : State) (c : Nat) : Bool :=
  let a := s.twinAddr c
  a != 0xFFFF && (s.recordAddr 19 == some a || s.recordAddr 20 == some a)

/-- The lowest Z link that is up and whose neighbour is the twin's holder (R417, path 2). -/
def State.zLink (s : State) (c : Nat) : Option Nat :=
  let a := s.twinAddr c
  if a = 0xFFFF then none else [15, 16, 17, 18].find? (fun l => s.linkUp l && s.recordAddr l == some a)

/-- The mirror path of context `c` (R417). -/
def State.mirrorPath (s : State) (c : Nat) : Nat :=
  let n := b2n (s.linkUp 19) + b2n (s.linkUp 20)
  if s.pairDirect c ∧ n = 2 then 0
  else if s.pairDirect c ∧ n = 1 then 1
  else if (s.zLink c).isSome then 2
  else if s.twinAddr c ≠ 0xFFFF ∧ bit (s.route (s.twinAddr c)) 31 then 3
  else 4

/-- Log granules of a seat: the share of the replay log, in 64 KiB granules (R409; the layout is a DESIGN CHOICE, log entry 16). -/
def State.logGranules (s : State) (c : Nat) : Nat := (s.lpShare Reg.MEM_LP_REPLAY c).2 / 65536

/-- Every granule of this device's seat, log granules included (R409). -/
def State.seatGranules (s : State) (c : Nat) : Nat := s.granules c + s.logGranules c

/-- The 64 KiB of granule `g` of this device's seat (R409). -/
def State.granuleData (s : State) (c g : Nat) : Bytes :=
  match granuleAt (s.mirrored c) g with
  | some p => s.rd c p.1 p.2.1 p.2.2 65536
  | none => s.lpRead ((s.lpShare Reg.MEM_LP_REPLAY c).1 + (g - s.granules c) * 65536) 65536

/-- Writes 4,096-byte part `p` of granule `g` of this device's seat. -/
def State.putGranulePart (s : State) (c g p : Nat) (b : Bytes) : State :=
  match granuleAt (s.mirrored c) g with
  | some q => s.wrRaw c q.1 q.2.1 (q.2.2 + 4096 * p) b
  | none => s.lpWrite ((s.lpShare Reg.MEM_LP_REPLAY c).1 + (g - s.granules c) * 65536 + 4096 * p) b

/-- Marks every granule of this device's seat dirty (R416, R431). -/
def State.dirtyAll (s : State) (c : Nat) : State :=
  let n := s.seatGranules c
  s.modCtx c (fun x => { x with twin := { x.twin with dirty := List.range n } })

/-- Granules dirty or unacknowledged (HSP_DIRTY). -/
def State.unclean64 (s : State) (c : Nat) : List Nat :=
  let t := (s.ctx c).twin
  pick (s.seatGranules c) (fun g => t.dirty.contains g || t.inflight.any (fun m => m.granules.contains g))

/-- Whether the device reports unguarded for context `c` (R418, R431). -/
def State.isUnguarded (s : State) (c : Nat) : Bool :=
  let t := (s.ctx c).twin
  s.loaded c && (s.seatOf c).isSome &&
    ((t.path != 0 && !(t.dirty.isEmpty && t.inflight.isEmpty)) || s.twinAddr c == 0xFFFF || t.guard.state == 0 || t.guard.rebuild)

/-- Chooses the mirror paths at a boundary, with their events (R417, R418, R434). -/
def State.chooseMirrorPaths (s : State) : State :=
  s.over (List.range 16) (fun s c =>
    if !s.loaded c then s
    else
      let p := s.mirrorPath c
      let old := (s.ctx c).twin
      let s := s.modCtx c (fun x => { x with twin := { x.twin with path := p } })
      let u := s.isUnguarded c
      let s := s.modCtx c (fun x => { x with twin := { x.twin with unguarded := u } })
      (s.eventIf (p != old.path) Reg.HSP_TWIN_EVENT 2).eventIf (u && !old.unguarded) Reg.HSP_TWIN_EVENT 3)

/-! The guard arena. -/

/-- Device address of the guard arena. -/
def State.guardBase (s : State) : Nat := (s.lpRegion Reg.MEM_LP_GUARD).1

/-- A directory entry's 64 bytes (R410). -/
def Guard.bytes (g : Guard) : Bytes :=
  let b := toLe 1 g.state ++ zeros 1 ++ toLe 2 g.seat ++ toLe 4 g.epoch ++ toLe 4 g.clearEpoch ++ toLe 4 g.seed.toNat ++ toLe 8 g.planId.toNat ++
    toLe 4 g.granules ++ toLe 4 g.clearGranules ++ toLe 8 g.latest ++ toLe 8 g.clear ++ zeros 12
  b ++ toLe 4 (crc32c b)

/-- The entry that 64 bytes hold (R410). -/
def guardOf (b : Bytes) : Guard :=
  { state := byteAt b 0, seat := u16 b 2, epoch := u32 b 4, clearEpoch := u32 b 8, seed := BitVec.ofNat 32 (u32 b 12), planId := BitVec.ofNat 64 (u64 b 16),
    granules := u32 b 24, clearGranules := u32 b 28, latest := u64 b 32, clear := u64 b 40 }

/-- Replaces a guard entry, in the state and in the guard arena. -/
def State.putGuard (s : State) (c : Nat) (g : Guard) : State :=
  let s := s.modCtx c (fun x => { x with twin := { x.twin with guard := g } })
  if 0 < (s.lpRegion Reg.MEM_LP_GUARD).2 then s.lpWrite (s.guardBase + 64 * c) g.bytes else s

/-- Changes a guard entry. -/
def State.modGuard (s : State) (c : Nat) (f : Guard → Guard) : State := s.putGuard c (f (s.ctx c).twin.guard)

/-- The granules of the committed half of a seat, which its clear slot holds: one half of a two-half region, the one copy of another
(R410). -/
def committedGranules (l : List Ledger) : Nat := (l.map (fun r => r.size / 65536)).foldl (· + ·) 0

/-- Where the slots of a guard end, within the region. -/
def Guard.stop (g : Guard) : Nat := if g.state = 0 then 0 else max (g.latest + g.granules * 65536) (g.clear + g.clearGranules * 65536)

/-- Lays out the guard of context `c` for a seat (R410): above every other guard. A guard that does not fit sets LP_FULL and stays
empty. -/
def State.layGuardFor (s : State) (c : Nat) (seat : Option Nat) : State :=
  let x := s.ctx c
  match seat with
  | none => s.modGuard c (fun _ => {})
  | some t =>
    let l := (imgLedger x.image (imgRole x.image t)).filter (fun r => r.flags % 4 / 2 == 1)
    let n := (l.map Ledger.granules).foldl (· + ·) 0 + s.logGranules c
    let m := committedGranules l
    let low := (((List.range 16).filter (fun d => d != c)).map (fun d => (s.ctx d).twin.guard.stop)).foldl max 65536
    let g : Guard := { state := 1, seat := t, epoch := 0, planId := BitVec.ofNat 64 (imgPlanId x.image), granules := n, clearGranules := m,
                       latest := low, clear := low + n * 65536 }
    if g.stop ≤ (s.lpRegion Reg.MEM_LP_GUARD).2 then s.putGuard c g
    else (s.modGuard c (fun _ => {})).event Reg.MEM_LP_EVENT 3

/-- Lays out the guard of context `c` for its twin seat when its plan is loaded (R410). -/
def State.layGuard (s : State) (c : Nat) : State := s.layGuardFor c (s.twinSeat c)

/-- The guard entry takes the seed in use at the guarded seat (R410). -/
def State.noteSeed (s : State) (c : Nat) : State :=
  if (s.ctx c).twin.guard.state = 0 then s else let p := s.draw; p.2.modGuard c (fun g => { g with seed := Config.seatSeed p.1 })

/-- A device that takes a seat uses the seed that the seat uses (R131). -/
def State.takeSeed (s : State) (c : Nat) : State := let p := s.draw; p.2.modHasp c (fun h => { h with seed := Config.seatSeed p.1 })

/-! Receive reservations. -/

/-- The receive record of a frame that names a reservation, with the tile that runs it. -/
def State.recvRecord (s : State) (c l idx : Nat) : Option (Nat × Bytes) :=
  (List.range 256).findSome? (fun u => ((s.frameRecords c u).find? (fun r => recClass r == 0x0D && byteAt r 16 == l && u16 r 18 == idx)).map (fun r => (u, r)))

/-- The send record of a frame that names a reservation, with the tile that runs it. -/
def State.sendRecord (s : State) (c l idx : Nat) : Option (Nat × Bytes) :=
  (List.range 256).findSome? (fun u => ((s.frameRecords c u).find? (fun r => recClass r == 0x0C && byteAt r 16 == l && u16 r 18 == idx)).map (fun r => (u, r)))

/-- Whether a reservation is a mirror reservation (R413). -/
def mirrorResv (l pair : Nat) : Bool := (l == 19 || l == 20) && pair / 2 ^ 28 == 4

/-- The receive reservations of the frame that context `c` begins, on every link (R160, R326). -/
def State.openReservations (s : State) (c : Nat) : State :=
  s.over (List.range 24) (fun s l =>
    let rs := s.frameResvs c l false
    let mk := fun i => match rs[i]? with
      | some r => [(⟨c, i, r.pair, ((s.recvRecord c l i).map (fun p => u32 p.2 28)).getD 0, r.bytes, []⟩ : RxRes)]
      | none => []
    s.modLink l (fun k => { k with rx := k.rx ++ ((List.range rs.length).map mk).flatten }))

/-- At a boundary the reservations of the ending tick are gone (R332). -/
def State.closeReservations (s : State) : State := s.over (List.range 24) (fun s l => s.modLink l (fun k => { k with rx := [], bound := [], sent := [] }))

end Sys2Proof.Machine
end

