-- ==== Sys2Proof/Machine/PowerBase.lean ====
section
/-! DEFINITION. Power as every tick uses it: the effective cap (R573), ward clocks (R574, R575, R583, R584), planned power, PEAK_W and the heat forecast (R576, R580), Run and Poised (R565), the stack's temperature band (R260). -/

namespace Sys2Proof.Machine

/-- A state with the power unit's state changed by `f`. -/
def State.modPwr (s : State) (f : Power → Power) : State := { s with pwr := f s.pwr }

/-! Caps. -/

/-- The lowest of the caps in force with its source, by R573's order: 1 software, 2 fabric, 3 shed, 4 sag; 0xFFFF and 0 for none. -/
def State.rawCap (s : State) : Nat × Nat :=
  let l := [(s.regN Reg.PWR_CAP % 65536, 1), (s.tick.powerCap, 2)] ++
    (if s.pwr.shed then [(s.regN Reg.PWR_SHED_CAP % 65536, 3)] else []) ++ (if 2 ≤ s.pwr.stage then [(s.regN Reg.PWR_SAG_CAP % 65536, 4)] else [])
  (l.filter (fun p => p.1 != 0xFFFF)).foldl (fun a p => if p.1 < a.1 then p else a) (0xFFFF, 0)

/-- The effective cap in W: one below 400 W acts as 400 W (R573). -/
def State.cap (s : State) : Nat := max 400 s.rawCap.1

/-- Shows the effective cap, and reports one that falls below 400 W (R573). -/
def State.showCap (s : State) : State :=
  let c := s.rawCap
  let low := decide (c.1 < 400)
  let s := s.setRegN Reg.PWR_CAP_NOW (c.2 * 65536 + max 400 c.1)
  (s.eventIf (low && !s.pwr.capLow) Reg.PWR_EVENT 5).modPwr (fun p => { p with capLow := low })

/-! Clocks. -/

/-- A clock rounded down to a 25 MHz step. -/
def step25 (f : Nat) : Nat := f / 25 * 25

/-- Three quarters of a clock for each step of the die throttle, at least 300 MHz (R583). -/
def dieClock (f : Nat) : Nat → Nat
  | 0 => f
  | n + 1 => max 300 (step25 (dieClock f n * 3 / 4))

/-- Plan clock of ward `w`: 0 until a plan has run on it. -/
def State.planClock (s : State) (w : Nat) : Nat := tget (fun _ => 0) s.pwr.plans w

/-- The clock that every limit allows ward `w` (R574, R583, R584). -/
def State.clockLimit (s : State) (w : Nat) : Nat :=
  let f := s.planClock w
  let d := dieClock f s.pwr.dieThrottle
  let t := if s.pwr.stackThrottle then step25 (f * 3 / 5) else f
  let c := if s.pwr.capClock = 0 then f else max 300 (f - 25 * s.pwr.capClock)
  min f (min d (min t c))

/-- Sets the ward clocks: they fall at any moment and rise only in a tick-packet window (R20, R575). -/
def State.setClocks (s : State) (window : Bool) : State :=
  s.over (List.range 16) (fun s w =>
    let f := s.clockLimit w
    if window ∨ f < s.regN (Reg.TCK_WARD_CLK w) then s.setRegN (Reg.TCK_WARD_CLK w) f else s)

/-! The core voltage. -/

/-- Set point of VDD_CORE in mV for a tile clock: the lowest voltage the path monitors pass, plus VMARGIN, within the rail's operating range (R585, R623,
R624). -/
def State.voltsFor (s : State) (f : Nat) : Nat := clamp 650 850 (Config.pathVolts f + s.regN Reg.PWR_VF % 256)

/-- The highest tile clock that any ward runs. -/
def State.topClock (s : State) : Nat := (List.range 16).foldl (fun a w => max a (s.regN (Reg.TCK_WARD_CLK w))) 0

/-- Commands a set point on the AVSBus, where it differs from the one in force (R624). -/
def State.setVolts (s : State) (mv : Nat) : State := if mv = s.pwr.vdd then s else (s.modPwr (fun p => { p with vdd := mv })).emit (.avs mv)

/-- Raises the set point so that a tile clock may run (R624). -/
def State.raiseVolts (s : State) (f : Nat) : State := s.setVolts (max s.pwr.vdd (s.voltsFor f))

/-- Whether a ward's clock is below its plan clock (R575). -/
def State.slowWard (s : State) : Bool := (List.range 16).any (fun w => decide (s.regN (Reg.TCK_WARD_CLK w) < s.planClock w))

/-! Planned power. -/

/-- An FP32 energy in units of 2^-149 mJ; 0 for one that is not a finite positive number. -/
def energyUnits (c : Nat) : Nat :=
  match dec32 c with
  | .fin false m e => m * 2 ^ (e + 149).toNat
  | _ => 0

/-- Planned energy of a role's frame, in units of 2^-149 mJ (R633). -/
def frameEnergy (b : Bytes) (role frame : Nat) : Nat :=
  ((List.range (imgIntervals b)).map (fun i => energyUnits (imgPower b role frame i))).foldl (· + ·) 0

/-- Planned power of a frame averaged over its tick, in W, rounded down. -/
def framePower (b : Bytes) (role frame : Nat) : Nat := frameEnergy b role frame * 1000 / (u32 b 24 * 2 ^ 149)

/-- Tile-clock cycles of power interval `i`: 256 units of 16, fewer in the last (R633). -/
def intervalTc (b : Bytes) (i : Nat) : Nat := 16 * (min (imgArea b) (256 * (i + 1)) - 256 * i)

/-- PEAK_W of an image: the highest power of any interval, rounded up (R576). -/
def imgPeak (b : Bytes) : Nat :=
  let one := fun (n : Nat) (i : Nat) => let t := intervalTc b i
    if t = 0 then 0 else cdiv (energyUnits (imgPower b (n / imgFrames b) (n % imgFrames b) i) * imgClock b * 1000) (t * 2 ^ 149)
  (List.range (imgRoles b * imgFrames b)).foldl (fun a n => (List.range (imgIntervals b)).foldl (fun a i => max a (one n i)) a) 0

/-- Planned mean power of a variant's step for a role, in W, rounded down (R580). -/
def stepPower (b : Bytes) (role v : Nat) : Nat :=
  let l := imgTicks b v
  if l = 0 then 0
  else ((List.range l).map (fun t => frameEnergy b role (imgTick b v t).1)).foldl (· + ·) 0 * 1000 / (l * u32 b 24 * 2 ^ 149)

/-! Run ticks. -/

/-- Wards of a context. -/
def State.wardSet (s : State) (c : Nat) : List Nat := bitsOf 16 (s.regN (Reg.CTX_WARDS c))

/-- Whether a selector gives a context every ward of its set (R386). -/
def State.wardsGiven (s : State) (sel : Nat) (c : Nat) : Bool := (s.wardSet c).all (fun w => bits sel (4 * w + 3) (4 * w) == c)

/-- Of the contexts that may run, those that run, in order, and those that a link-set overlap pauses (R386). -/
def runGo (s : State) (sel : Nat) : List Nat → Nat → List Nat × List Nat
  | [], _ => ([], [])
  | c :: t, links =>
    let m := s.regN (Reg.CTX_LINKS c)
    if !s.wardsGiven sel c then runGo s sel t links
    else
      let r := runGo s sel t (links ||| m)
      if links &&& m = 0 then (c :: r.1, r.2) else (r.1, c :: r.2)

/-- The contexts that run under a selector, of those that have a plan loaded and run, and those that clash (R386). -/
def State.runners (s : State) (sel : Nat) (ok : Nat → Bool) : List Nat × List Nat := runGo s sel ((List.range 16).filter ok) 0

/-! The forecast. -/

/-- The selector announced for a tick, or the one in force (R580). -/
def State.selectorAt (s : State) (t : Nat) : Nat :=
  match s.tick.packets.find? (fun p => p.1 == t) with
  | some p => le p.2 32 8
  | none => s.tick.selector.toNat

/-- Planned power of a context for the tick of index `i` of its step, in W. -/
def State.ctxPower (s : State) (c v i : Nat) : Nat :=
  let b := (s.ctx c).image
  match s.roleOf c with
  | some r => if imgTicks b v = 0 then 0 else framePower b r (imgTick b v (i % imgTicks b v)).1
  | none => 0

/-- The contexts expected to run in a tick, by its selector. -/
def State.runsAt (s : State) (t : Nat) : List Nat :=
  (s.runners (s.selectorAt t) (fun c => s.loaded c && ((s.hasp c).phase == .running || (s.hasp c).phase == .replaying))).1

/-- The variant that the packet announced for a tick starts a context's step with, if it starts one (R42, R580). -/
def State.announcedStart (s : State) (t c : Nat) : Option Nat :=
  match s.tick.packets.find? (fun p => p.1 == t) with
  | some p => if bit (u16 p.2 52) c then some (le p.2 40 12 / 64 ^ c % 64) else none
  | none => none

/-- The variant and the index of the step tick that a context's next run tick has, before tick T + 1. -/
def State.nextPlace (s : State) (c : Nat) : Nat × Nat := ((s.hasp c).variant, (s.hasp c).stepTick + b2n (s.hasp c).run)

/-- Forecast of tick T + k (R580): `at_` holds the place of each context's next run tick; an announced step start resets it, and later the running variant
repeats. -/
def forecastGo (s : State) : Nat → Nat → Tbl (Nat × Nat) → List (Nat × Bool)
  | 0, _, _ => []
  | f + 1, k, at_ =>
    let run := s.runsAt (s.tick.now + min k 2)
    let place := fun c =>
      match (if k ≤ 2 then s.announcedStart (s.tick.now + k) c else none) with
      | some v => (v, 0)
      | none => tget s.nextPlace at_ c
    let used := run.foldl (fun a c => a ||| s.regN (Reg.CTX_WARDS c)) 0
    let planned := run.foldl (fun a c => a + s.ctxPower c (place c).1 (place c).2) 0
    let idle := Config.poisedWatts * (16 - (bitsOf 16 used).length) / 16
    (min s.cap (max (planned + idle) (s.pwr.governor.toNat / 1000)), decide (2 < k)) ::
      forecastGo s f (k + 1) (run.foldl (fun t c => tput t c ((place c).1, (place c).2 + 1)) at_)

/-- Publishes the forecast at the start of a tick (R580). -/
def State.publishForecast (s : State) : State :=
  let mean := (List.range 16).foldl (fun a c => if (s.hasp c).run then a + (match s.roleOf c with | some r => stepPower (s.ctx c).image r (s.hasp c).variant | none => 0) else a) 0
  let f := forecastGo s 64 1 []
  s.modPwr (fun p => { p with forecast := f, forecastTick := s.tick.now + 1, forecastMean := mean })

/-! Rungs. -/

/-- Whether this device holds a seat. -/
def State.seated (s : State) : Bool := (List.range 16).any (fun c => (s.seatOf c).isSome)

/-- Whether this device is an enrolled spare that holds no seat (R433). -/
def State.ownSpare (s : State) : Bool := (s.reg Reg.HSP_SPARE).getLsbD 0 && !s.seated

/-- Whether something holds the device in Poised (R64, R433, R549, R556): the tick is stopped, or it is an enrolled spare. -/
def State.poisedHeld (s : State) : Bool := s.tick.run == .stopped || s.tick.poised || s.clk.holdStop || s.ownSpare

/-- Run or Poised at a boundary, while TARGET is 0; TARGET 1 takes the device to Poised (R565, R566). -/
def State.chooseRung (s : State) (ran : Bool) : State :=
  let target := s.regN Reg.PWR_LADDER % 8
  if 2 ≤ s.pwr.rung ∨ 2 ≤ target then s
  else s.modPwr (fun p => { p with rung := if target = 0 ∧ !s.poisedHeld ∧ (ran ∨ 0 < p.fill) then 0 else 1 })

/-! Temperature bands. -/

/-- The hottest layer reading (R260). -/
def State.hottest (s : State) : Nat := s.stack.readings.foldl max 0

/-- The band for the next tick, from the hottest layer, with its hysteresis (R260): 0 Normal, 1 Hot, 2 Throttle. -/
def State.nextBand (s : State) : Nat :=
  let h := s.hottest
  let b := s.stack.band
  if 95 ≤ h ∨ (b = 2 ∧ 92 ≤ h) then 2 else if 85 ≤ h ∨ (1 ≤ b ∧ 82 ≤ h) then 1 else 0

/-- At a boundary the band set in the ending tick's window comes into force (R260, R262, R583), and so does REFRESH_FLOOR as it is written
(R264). -/
def State.applyBand (s : State) : State :=
  let old := s.stack.band
  let new := s.stack.bandNext
  let s := { s with stack := { s.stack with band := new, refreshFloor := (s.reg Reg.MEM_STK_CTRL).getLsbD 1 } }
  let s := (s.eventIf (old != 1 && new == 1) Reg.MEM_STK_EVENT 1).eventIf (old != 2 && new == 2) Reg.MEM_STK_EVENT 2
  s.modPwr (fun p => { p with stackThrottle := new == 2 })

/-- The rise of power in mW that one 25 MHz step of the clocks brings, as power goes with the clock (DESIGN CHOICE, log entry 65). -/
def State.stepRise (s : State) : Nat := cdiv (s.pwr.measured * 25000) (max 25 s.topClock)

/-- The next window's step back from the cap's clocks: one, once the measured power meets the cap and the slew limit has allowed the rise (R575). -/
def State.relaxCap (s : State) : State :=
  let room := s.pwr.rise + s.regN Reg.PWR_SLEW % 4096 * s.regN Reg.TCK_PERIOD
  s.modPwr (fun p =>
    if p.capClock = 0 ∨ s.cap < p.measured then { p with rise := 0 }
    else if s.stepRise ≤ room then { p with capClock := p.capClock - 1, rise := room - s.stepRise }
    else { p with rise := room })

/-- The highest tile clock that the next window can set, by the selector announced for its tick and the limits that it will end (R624). -/
def State.comingClock (s : State) : Nat :=
  let plans := (s.runsAt (s.tick.now + 1)).foldl (fun t c => (s.wardSet c).foldl (fun t w => tput t w (imgClock (s.ctx c).image)) t) s.pwr.plans
  let t := (s.relaxCap).modPwr (fun p => { p with plans := plans, dieThrottle := if p.dieLow then 0 else p.dieThrottle, stackThrottle := s.stack.bandNext == 2 })
  (List.range 16).foldl (fun a w => max a (t.clockLimit w)) 0

/-- Chooses the core voltage for the clocks that run and for those that the next window can set: it is raised before that window, and lowered once every
clock has fallen (R624). -/
def State.chooseVolts (s : State) : State := s.setVolts (s.voltsFor (max s.topClock s.comingClock))

/-- What a tick-packet window does for power and temperature: the band of the next tick, the end of a die throttle, a step back from the cap's clocks, the
clocks that may rise, and the voltage for what comes (R260, R575, R582, R624). -/
def State.powerWindow (s : State) : State :=
  let b := s.nextBand
  let s := { s with stack := { s.stack with bandNext := b } }
  let s := s.relaxCap.modPwr (fun p => { p with
    dieThrottle := if p.dieLow then 0 else p.dieThrottle
    dieLow := false })
  let s := s.raiseVolts ((List.range 16).foldl (fun a w => max a (s.clockLimit w)) 0)
  (s.setClocks true).chooseVolts

end Sys2Proof.Machine
end

