-- ==== Sys2Proof/Machine/EngineMatrix.lean ====
section
/-! DEFINITION. The matrix update records: ORTHO (R233), KSTAT (R234), KROOT (R235), KAPPLY (R236), with the engine's matrix products (R216). -/

namespace Sys2Proof.Machine

/-- A matrix by its rows. -/
abbrev Mat := List (List Fp)

/-- Entry (i, j). -/
def matAt (a : Mat) (i j : Nat) : Fp := (a.getD i []).getD j fpZero
/-- A matrix from its entries. -/
def matOf (m n : Nat) (f : Nat → Nat → Fp) : Mat := (List.range m).map (fun i => (List.range n).map (f i))
/-- Row-major elements as a matrix of `n` columns. -/
def matRows (m n : Nat) (xs : List Fp) : Mat := matOf m n (fun i j => xs.getD (i * n + j) fpZero)
/-- Transpose of an m × n matrix. -/
def matT (m n : Nat) (a : Mat) : Mat := matOf n m (fun i j => matAt a j i)
/-- One function on every entry. -/
def matMap (f : Fp → Fp) (a : Mat) : Mat := a.map (fun r => r.map f)
/-- Two matrices combined entry by entry. -/
def matZip (f : Fp → Fp → Fp) (a b : Mat) : Mat := List.zipWith (fun x y => List.zipWith f x y) a b

/-- A product of an m × k and a k × n matrix in groups of ρ, each entry rounded to the work format (R216). -/
def matMul (rho : Nat) (round : Fp → Fp) (m k n : Nat) (a b : Mat) : Mat :=
  matOf m n (fun i j => round (dotAcc rho fpZero k (fun t => fmul (matAt a i t) (matAt b t j))))

/-- An FP32 product (R216, FP32 mode). -/
def matMul32 (m k n : Nat) (a b : Mat) : Mat := matMul 1 id m k n a b

/-! ORTHO. -/

/-- Work format's rounding. -/
def orRound (r : Bytes) (x : Fp) : Fp := if upBf16 r then bf16.decode (bf16.convert .rne false 0 x) else x

/-- The orthogonalised matrix of R233 from U (M × N). -/
def orthoX (r b : Bytes) (u : Mat) : Mat :=
  let m := upM r
  let n := upN r
  let rd := orRound r
  let rho := if upBf16 r then 4 else 1
  let eps := ruleF b 16
  let n2 := vsumsq u.flatten
  let f := r32 (frsqrt (fadd n2 (fmulR eps eps)))
  let x := matMap (fun e => rd (fmulR e f)) u
  let tall := decide (n < m)
  let p := min m n
  let q := max m n
  let x := if tall then matT m n x else x
  let step := fun (x : Mat) (_ : Nat) =>
    let a := matMul rho rd p q p x (matT p q x)
    let aa := matMul rho rd p p p a a
    let bb := matZip (fun y z => rd (fma (ruleF b 36) y (fmulR (ruleF b 32) z))) aa a
    let bx := matMul rho rd p p q bb x
    matZip (fun y z => rd (fma (ruleF b 28) y z)) x bx
  let x := (List.range (u32 b 44 % 256)).foldl step x
  if tall then matT p q x else x

/-- Output regions of ORTHO: master planes and one state plane. -/
def orthoOuts (r : Bytes) (w h : Nat) : List Region := upPlanes r w (upM r * upN r) 1 h

/-- The run of ORTHO (R233). -/
def orthoOut (r : Bytes) (q : UpCtx) (s : State) : RunOut :=
  let h := q.x - 1
  if !upAhead r && s.skips q r then { groups := [s.copyRegions q (orthoOuts r q.w h) (orthoOuts r q.w q.x)] }
  else
    let b := s.upRule q r
    let k := s.upConst q r
    let n := upM r * upN r
    let sp := upSpace r
    let b1 := ruleF b 8
    let g := s.upGrad q r k 0 n
    let m := List.zipWith (fun m g => fma b1 m g) (s.evals q sp (byteAt r 18) (upHalf r 32 h) n) g
    let u := if upNesterov r then List.zipWith (fun g m => fadd g (fmulR b1 m)) g m else m
    let x := (orthoX r b (matRows (upM r) (upN r) u)).flatten
    let ws := List.zipWith (fun w x => fma k.lr.neg (fma (ruleF b 20) w (fmulR (ruleF b 40) x)) w) (s.masters q r (upHalf r 24 h) (upHalf r 28 h) n) x
    { groups := [masterWrites r q (upHalf r 24 q.x) (upHalf r 28 q.x) ws ++ [⟨sp, upUnit q.w sp, upHalf r 32 q.x, statePlane r q 0 0 m⟩]],
      nonfinite := anyNonfinite ws }

/-- ORTHO (R233). -/
def execOrtho (w : Fin 16) (r : Bytes) (env : RunEnv) (s : State) : Host.Outcome State Fault Refusal :=
  issueUpdate 0x25 w r env (fun q s => upGregion r w (upM r * upN r) :: orthoOuts r w (q.x - 1) ++ s.upCommon q r) (fun q _ => orthoOuts r w q.x)
    (orthoOut r) (fun _ s => s) s

/-! KSTAT. -/

/-- An FP32 matrix of the arena. -/
def State.arenaMat (s : State) (q : UpCtx) (r : Bytes) (a m n : Nat) : Mat := matRows m n (s.evals q (upSpace r) 0 a (m * n))
/-- The write of an FP32 matrix to the arena. -/
def matWrite (r : Bytes) (q : UpCtx) (a : Nat) (x : Mat) : Wr := ⟨upSpace r, upUnit q.w (upSpace r), a, (x.flatten.map (fun v => toLe 4 (enc32 v))).flatten⟩

/-- The factors' regions in half `h`. -/
def kstatOuts (r : Bytes) (w h : Nat) : List Region :=
  let sp := upSpace r
  [⟨sp, upUnit w sp, upHalf r 80 h, upM r * upM r * 4⟩, ⟨sp, upUnit w sp, upHalf r 84 h, upN r * upN r * 4⟩]

/-- The run of KSTAT (R234). -/
def kstatOut (r : Bytes) (q : UpCtx) (s : State) : RunOut :=
  let h := q.x - 1
  if !upAhead r && s.skips q r then { groups := [s.copyRegions q (kstatOuts r q.w h) (kstatOuts r q.w q.x)] }
  else
    let m := upM r
    let n := upN r
    let b := s.upRule q r
    let kb := ruleF b 52
    let rest := fsub fpOne kb
    let k : UpConst := ⟨fpZero, fpZero, fpZero, s.clipFactor q r, s.lsInv q r⟩
    let g := matRows m n (s.upGrad q r k 0 (m * n))
    let gt := matT m n g
    let mix := fun (old new : Mat) => matZip (fun o p => fma kb o (fmulR rest p)) old new
    let l := mix (s.arenaMat q r (upHalf r 80 h) m m) (matMul32 m n m g gt)
    let rr := mix (s.arenaMat q r (upHalf r 84 h) n n) (matMul32 n m n gt g)
    { groups := [[matWrite r q (upHalf r 80 q.x) l, matWrite r q (upHalf r 84 q.x) rr]] }

/-- KSTAT (R234). -/
def execKstat (w : Fin 16) (r : Bytes) (env : RunEnv) (s : State) : Host.Outcome State Fault Refusal :=
  issueUpdate 0x26 w r env (fun q s => upGregion r w (upM r * upN r) :: kstatOuts r w (q.x - 1) ++ s.upCommon q r) (fun q _ => kstatOuts r w q.x)
    (kstatOut r) (fun _ s => s) s

/-! KROOT. -/

/-- The inverse p-th root of R235, for a factor of side `d`. -/
def kroot (b : Bytes) (d : Nat) (f : Mat) : Mat :=
  let p := u32 b 44 / 256 % 256
  let rp := r32 (frecip (fp32Nat p))
  let a := matOf d d (fun i j => if i = j then fadd (matAt f i i) (ruleF b 48) else matAt f i j)
  let s2 := vsumsq a.flatten
  let lc := r32 (flog2 (fmulR s2 (r32 (frsqrt s2))))
  let x0 := r32 (fexp2 (fmulR lc rp).neg)
  let x := matOf d d (fun i j => if i = j then x0 else fpZero)
  let mx := matMap (fun e => fmulR e (r32 (fexp2 lc.neg))) a
  let step := fun (st : Mat × Mat) (_ : Nat) =>
    let t := matOf d d (fun i j => if i = j then fmulR (fsub (fp32Nat (p + 1)) (matAt st.2 i i)) rp else fmulR (matAt st.2 i j).neg rp)
    let pw := (List.range (Nat.log2 p)).foldl (fun (pw : Mat) _ => matMul32 d d d pw pw) t
    (matMul32 d d d st.1 t, matMul32 d d d pw st.2)
  ((List.range (u32 b 44 / 65536 % 256)).foldl step (x, mx)).1

/-- The root's region in half `h`. -/
def krootOuts (r : Bytes) (w h : Nat) : List Region := [⟨upSpace r, upUnit w (upSpace r), upHalf r 28 h, upM r * upM r * 4⟩]

/-- The run of KROOT (R235). -/
def krootOut (r : Bytes) (q : UpCtx) (s : State) : RunOut :=
  let h := q.x - 1
  if s.skips q r then { groups := [s.copyRegions q (krootOuts r q.w h) (krootOuts r q.w q.x)] }
  else { groups := [[matWrite r q (upHalf r 28 q.x) (kroot (s.upRule q r) (upM r) (s.arenaMat q r (upHalf r 24 h) (upM r) (upM r)))]] }

/-- KROOT (R235). -/
def execKroot (w : Fin 16) (r : Bytes) (env : RunEnv) (s : State) : Host.Outcome State Fault Refusal :=
  issueUpdate 0x27 w r env
    (fun q s => ⟨upSpace r, upUnit w (upSpace r), upHalf r 24 (q.x - 1), upM r * upM r * 4⟩ :: krootOuts r w (q.x - 1) ++ s.upCommon q r)
    (fun q _ => krootOuts r w q.x) (krootOut r) (fun _ s => s) s

/-! KAPPLY. -/

/-- Output regions of KAPPLY: the master planes. -/
def kapplyOuts (r : Bytes) (w h : Nat) : List Region := upPlanes r w (upM r * upN r) 0 h

/-- The run of KAPPLY (R236). -/
def kapplyOut (r : Bytes) (q : UpCtx) (s : State) : RunOut :=
  let h := q.x - 1
  if !upAhead r && s.skips q r then { groups := [s.copyRegions q (kapplyOuts r q.w h) (kapplyOuts r q.w q.x)] }
  else
    let m := upM r
    let n := upN r
    let b := s.upRule q r
    let k := s.upConst q r
    let g := matRows m n (s.upGrad q r k 0 (m * n))
    let u := matMul32 m n n (matMul32 m m n (s.arenaMat q r (upHalf r 80 h) m m) g) (s.arenaMat q r (upHalf r 84 h) n n)
    let ws := List.zipWith (fun w x => fma k.lr.neg (fma (ruleF b 20) w (fmulR (ruleF b 40) x)) w)
      (s.masters q r (upHalf r 24 h) (upHalf r 28 h) (m * n)) u.flatten
    { groups := [masterWrites r q (upHalf r 24 q.x) (upHalf r 28 q.x) ws], nonfinite := anyNonfinite ws }

/-- KAPPLY (R236). -/
def execKapply (w : Fin 16) (r : Bytes) (env : RunEnv) (s : State) : Host.Outcome State Fault Refusal :=
  issueUpdate 0x28 w r env
    (fun q s => upGregion r w (upM r * upN r) :: kstatOuts r w (q.x - 1) ++ kapplyOuts r w (q.x - 1) ++ s.upCommon q r) (fun q _ => kapplyOuts r w q.x)
    (kapplyOut r) (fun _ s => s) s

end Sys2Proof.Machine
end

