-- ==== Sys2Proof/Machine/TileAttention.lean ====
section
/-! DEFINITION. The attention block record, class 0x08, in its modes FWD, BWD and APPEND (R183 to R194, R199), and the attention merge record, class 0x09 (R195). -/

namespace Sys2Proof.Machine

/-- An attention partial (m, l, o) of R184. -/
structure Partial where
  m : Fp
  l : Fp
  o : List Fp
  deriving DecidableEq, Repr

/-- The identity partial of R184. -/
def partId (d : Nat) : Partial := ⟨.inf true, fpZero, List.replicate d fpZero⟩

/-- A value rounded to BF16 in RNE (R184). -/
def toBf16 (sat : Bool) (x : Fp) : Fp := bf16.decode (bf16.convert .rne sat 0 x)

/-- The merge of R185. -/
def mergePart (a b : Partial) : Partial :=
  if a.m = .inf true then b
  else if b.m = .inf true then a
  else
    let mx := fmax a.m b.m
    let al := r32 (fexp2 (fsub a.m mx))
    let be := r32 (fexp2 (fsub b.m mx))
    ⟨mx, fma b.l be (fmulR a.l al), (List.zip a.o b.o).map (fun p => fma p.2 be (fmulR p.1 al))⟩

/-- The root of a binary tree of 2^n partials, merged in pairs (R186, R195). -/
def mergeTree (n d : Nat) (ps : List Partial) : Partial := (treeFold mergePart n ps).headD (partId d)

/-- The output row of a root partial (R186). -/
def partOut (p : Partial) : List Fp :=
  if p.m = .inf true then p.o.map (fun _ => fpZero) else p.o.map (fun x => fmulR x (r32 (frecip p.l)))

/-- The log-sum-exp of a root partial (R186). -/
def partLse (p : Partial) : Fp := if p.m = .inf true then .inf true else fadd p.m (r32 (flog2 p.l))

/-! Fields. -/

/-- MODE [1:0]: 0 FWD, 1 BWD, 2 APPEND. -/
def atMode (r : Bytes) : Nat := byteAt r 16 % 4
/-- MODE bit `i`: 2 CAUSAL, 3 WRITE_KV, 4 PARTIAL, 5 LSE_OUT. -/
def atFlag (r : Bytes) (i : Nat) : Bool := bit (byteAt r 16) i
/-- D. -/
def atD (r : Bytes) : Nat := 2 ^ byteAt r 21
/-- H. -/
def atH (r : Bytes) : Nat := u16 r 24
/-- R. -/
def atR (r : Bytes) : Nat := u16 r 26
/-- Pages of the record's span. -/
def atNp (r : Bytes) : Nat := 2 ^ byteAt r 22
/-- Bytes of a key or value element. -/
def atKz (r : Bytes) : Nat := fmtBytes (byteAt r 18)
/-- Whether the record writes new keys and values (R191). -/
def atWrites (r : Bytes) : Bool := atMode r == 2 || atFlag r 3

/-- Legality of an attention block record of mode `mode` (R188); the fields a mode does not use are 0. -/
def atLegal (mode : Nat) (r : Bytes) : Bool :=
  let z := fun (o n : Nat) => zeroAt r o n
  let kvOk := [1, 3, 4].contains (byteAt r 18)
  recClass r == 0x08 && atMode r == mode && byteAt r 16 < 64 && kvOk && (byteAt r 20 == 0 || byteAt r 20 == 3) && (byteAt r 21 == 6 || byteAt r 21 == 7) &&
    z 23 1 && z 112 16 && decide (1 ≤ atH r ∧ atH r ≤ 256 ∧ 1 ≤ atR r ∧ atR r ≤ 4096) &&
    (if byteAt r 20 = 3 then decide (1 ≤ u32 r 84 ∧ u32 r 84 ≤ 2048) && z 64 4 else z 84 4) &&
    (if mode = 2 then bits (byteAt r 16) 5 2 == 0 && z 17 1 && z 19 1 && z 22 1 && z 28 20 && z 60 4 && z 68 16 && z 92 4
     else
      decide (1 ≤ byteAt r 17 ∧ byteAt r 17 ≤ 4 ∧ byteAt r 19 ≤ 2 ∧ byteAt r 22 ≤ 10) && u32 r 28 % atNp r == 0 && decide (u32 r 28 + atNp r ≤ 65536) &&
      (if mode = 0 then
        !(atFlag r 4 && atFlag r 5) && (!atFlag r 4 || byteAt r 19 == 0) && (atFlag r 5 || z 68 4) && (atFlag r 3 || z 88 4) && z 72 12 && z 92 4
       else bits (byteAt r 16) 5 3 == 0 && z 88 4 && z 96 16))

/-! Descriptors, lists and pages. -/

/-- A row descriptor as the record sees it (R189). -/
structure RowDesc where
  list : Nat
  qpos : Nat
  klen : Nat
  idle : Bool
  deriving DecidableEq, Repr

/-- Row descriptor `i`. -/
def State.atDesc (s : State) (k : RunCtx) (r : Bytes) (i : Nat) : RowDesc :=
  let b := s.rd k.c 0 k.u (u32 r 48 + 16 * i) 16
  ⟨u32 b 0, u32 b 4, u32 b 8, byteAt b 12 % 4 != 0⟩

/-- The page number that entry `p` of a row's list names, below MEM_KV_PAGES (R194). -/
def State.atPage (s : State) (k : RunCtx) (r : Bytes) (d : RowDesc) (p : Nat) : Option Nat :=
  let n := u32 (s.rd k.c 0 k.u (u32 r 52 + d.list * u32 r 56 + 4 * p) 4) 0
  if n < bits (s.regN (Reg.MEM_KV_PAGES k.c)) 23 0 then some n else none

/-- Whether entry `p` of a row's list is marked absent. -/
def State.atAbsent (s : State) (k : RunCtx) (r : Bytes) (d : RowDesc) (p : Nat) : Bool :=
  u32 (s.rd k.c 0 k.u (u32 r 52 + d.list * u32 r 56 + 4 * p) 4) 0 == 0xFFFFFFFF

/-- Address of page `n` in KV_SPACE (R188, R199). -/
def State.atPageAddr (s : State) (c : Nat) (r : Bytes) (n : Nat) : Nat :=
  (if byteAt r 20 = 0 then u32 r 64 else s.regN (Reg.MEM_KV_BASE c) * 4096) + n * bits (s.regN (Reg.MEM_KV_PAGE_BYTES c)) 23 0

/-- Offset in a page of the key (`val` false) or value of position `t` and head `h` (R199). -/
def atOff (r : Bytes) (val : Bool) (h t : Nat) : Nat := (h * 64 + t) * atD r * atKz r + (if val then 64 * atH r * atD r * atKz r else 0)

/-- The key or value vector of position `t`, head `h` of page `n`. -/
def State.atKv (s : State) (k : RunCtx) (r : Bytes) (n : Nat) (val : Bool) (h t : Nat) : List Fp :=
  s.vals k.c (byteAt r 20) k.u (byteAt r 18) (s.atPageAddr k.c r n + atOff r val h t) (atD r)

/-- Row i, head h of an operand laid out as Q. -/
def State.atQ (s : State) (k : RunCtx) (r : Bytes) (base i h : Nat) : List Fp :=
  s.vals k.c 0 k.u (byteAt r 17) (base + i * u32 r 36 + h * atD r * fmtBytes (byteAt r 17)) (atD r)

/-- Whether a key position may be seen by a row, its page apart (R183). -/
def atSees (r : Bytes) (d : RowDesc) (j : Nat) : Bool := decide (j < d.klen) && (!atFlag r 2 || decide (j ≤ d.qpos))

/-- A dot product in the array, in groups of ρ (R121, R184). -/
def dotOf (rho : Nat) (a b : List Fp) : Fp := dotAcc rho fpZero a.length (fun i => fmul (a.getD i fpZero) (b.getD i fpZero))

/-- The rate ρ of Q_FMT and KV_FMT. -/
def atRho (r : Bytes) : Nat := min (rateOf (byteAt r 17)) (rateOf (byteAt r 18))

/-- The 64 scaled scores z of a page for a row and head (R184). -/
def State.atScores (s : State) (k : RunCtx) (r : Bytes) (d : RowDesc) (q : List Fp) (h p n : Nat) : List Fp :=
  (List.range 64).map (fun t =>
    if atSees r d (64 * p + t) then fmulR (dotOf (atRho r) q (s.atKv k r n false h t)) (dec32 (u32 r 60)) else .inf true)

/-- The leaf partial of a page for a row and head (R184). -/
def State.atLeaf (s : State) (k : RunCtx) (r : Bytes) (d : RowDesc) (q : List Fp) (h p : Nat) : Partial :=
  match s.atPage k r d p with
  | none => partId (atD r)
  | some n =>
    let z := s.atScores k r d q h p n
    let m := z.tail.foldl fmax (z.headD (.inf true))
    if m = .inf true then partId (atD r)
    else
      let ps := z.map (fun x => toBf16 k.sat (r32 (fexp2 (fsub x m))))
      let vs := (List.range 64).map (s.atKv k r n true h)
      ⟨m, ps.tail.foldl fadd (ps.headD fpZero),
        (List.range (atD r)).map (fun e => dotAcc 1 fpZero 64 (fun j => fmul (ps.getD j fpZero) ((vs.getD j []).getD e fpZero)))⟩

/-- The partial of the record's span for row `i` and head `h` (R187, R190); a row with HOLD or PAD computes nothing (R189). -/
def State.atSpan (s : State) (k : RunCtx) (r : Bytes) (i h : Nat) : Partial :=
  let d := s.atDesc k r i
  if d.idle then partId (atD r)
  else mergeTree (byteAt r 22) (atD r) ((List.range (atNp r)).map (fun x => s.atLeaf k r d (s.atQ k r (u32 r 32) i h) h (u32 r 28 + x)))

/-- List entries that R194 reports: a page out of range or absent that covers a visible position of a row (each row and entry once: DEDUCED,
log entry 7). -/
def State.atRange (s : State) (k : RunCtx) (r : Bytes) : Nat :=
  ((List.range (atR r)).map (fun i =>
    let d := s.atDesc k r i
    if d.idle then 0 else (pick (atNp r) (fun x =>
      (s.atPage k r d (u32 r 28 + x)).isNone && (List.range 64).any (fun t => atSees r d (64 * (u32 r 28 + x) + t)))).length)).foldl (· + ·) 0

/-! New keys and values. -/

/-- One new key or value vector converted to KV_FMT (R191). -/
def State.atNew (s : State) (k : RunCtx) (r : Bytes) (val : Bool) (i h : Nat) : Bytes :=
  let xs := s.vals k.c 0 k.u 0 (u32 r 88 + i * atH r * atD r * 8 + (if val then atH r * atD r * 4 else 0) + h * atD r * 4) (atD r)
  let k := { k with stream := k.stream ^^^ 0x40000000 }
  catN (atD r) (fun e => k.out (byteAt r 18) (ldesc r 96 1 i (h * atD r + e)) (xs.getD e fpZero))

/-- The writes of new keys and values (R191); a row whose page is out of range or absent is skipped (R194). -/
def State.atAppend (s : State) (k : RunCtx) (r : Bytes) : List Wr :=
  if !atWrites r then [] else
  ((List.range (atR r)).map (fun i =>
    let d := s.atDesc k r i
    match (if d.idle then none else s.atPage k r d (d.qpos / 64)) with
    | none => []
    | some n => ((List.range (atH r)).map (fun h => [false, true].map (fun v =>
        (⟨byteAt r 20, k.u, s.atPageAddr k.c r n + atOff r v h (d.qpos % 64), s.atNew k r v i h⟩ : Wr)))).flatten)).flatten

/-- Rows whose new key and value R194 skips. -/
def State.atSkips (s : State) (k : RunCtx) (r : Bytes) : Nat :=
  if !atWrites r then 0 else (pick (atR r) (fun i => let d := s.atDesc k r i; !d.idle && (s.atPage k r d (d.qpos / 64)).isNone)).length

/-- A state after raw writes, as the record's own later reads see it (R191). -/
def State.afterWrites (s : State) (c : Nat) (ws : List Wr) : State := s.over ws (fun s w => s.wrRaw c w.space w.unit w.addr w.data)

/-! Runs. -/

/-- FP32 elements as bytes. -/
def fp32Bytes (xs : List Fp) : Bytes := (xs.map (fun x => toLe 4 (enc32 x))).flatten

/-- The run of FWD (R190). -/
def fwdOut (r : Bytes) (s : State) (k : RunCtx) : RunOut :=
  let kv := s.atAppend k r
  let s' := s.afterWrites k.c kv
  let d := atD r
  let oz := fmtBytes (byteAt r 19)
  let each := fun (f : Nat → Nat → Wr) => ((List.range (atR r)).map (fun i => (List.range (atH r)).map (f i))).flatten
  let span := fun i h => s'.atSpan k r i h
  let outs := if atFlag r 4 then each (fun i h => let p := span i h; ⟨0, k.u, u32 r 40 + i * u32 r 44 + h * (d + 2) * 4, fp32Bytes (p.m :: p.l :: p.o)⟩)
    else each (fun i h =>
      let y := partOut (span i h)
      ⟨0, k.u, u32 r 40 + i * u32 r 44 + h * d * oz, catN d (fun e => k.out (byteAt r 19) (ldesc r 96 0 i (h * d + e)) (y.getD e fpZero))⟩)
  let lse := if atFlag r 5 then [each (fun i h => ⟨0, k.u, u32 r 68 + (i * atH r + h) * 4, fp32Bytes [partLse (span i h)]⟩)] else []
  { groups := [outs] ++ (if atWrites r then [kv] else []) ++ lse, range := s.atSkips k r + s'.atRange k r }

/-- The run of APPEND (R191, R193: it has no other term). -/
def appendOut (r : Bytes) (s : State) (k : RunCtx) : RunOut := { groups := [s.atAppend k r], range := s.atSkips k r }

/-- What BWD forms for one row, head and page (R192): p, dp and ds of the 64 positions. -/
def State.atGrad (s : State) (k : RunCtx) (r : Bytes) (i h p : Nat) : Option (List Fp × List Fp) :=
  let d := s.atDesc k r i
  match (if d.idle then none else s.atPage k r d p) with
  | none => none
  | some n =>
    let dd := atD r
    let oz := fmtBytes (byteAt r 19)
    let q := s.atQ k r (u32 r 32) i h
    let go := s.atQ k r (u32 r 72) i h
    let o := s.vals k.c 0 k.u (byteAt r 19) (u32 r 40 + i * u32 r 44 + h * dd * oz) dd
    let dr := (List.zip go o).foldl (fun acc x => fma x.1 x.2 acc) fpZero
    let lse := s.val k.c 0 k.u 0 (u32 r 68 + (i * atH r + h) * 4)
    let ps := (s.atScores k r d q h p n).map (fun z => toBf16 k.sat (r32 (fexp2 (fsub z lse))))
    let ds := (List.range 64).map (fun t =>
      let dp := dotOf (atRho r) go (s.atKv k r n true h t)
      toBf16 k.sat (fmulR (fmulR (ps.getD t fpZero) (fsub dp dr)) (dec32 (u32 r 92))))
    some (ps, ds)

/-- An accumulation of products one at a time, from a first value (R121 at ρ = 1, R123). -/
def accum (init : Fp) (ts : List Fp) : Fp := ts.foldl (fun acc t => r32 (fsum [acc, t])) init

/-- The run of BWD (R192). -/
def bwdOut (r : Bytes) (s : State) (k : RunCtx) : RunOut :=
  let d := atD r
  let nh := atH r
  let grads := fun h x => (List.range (atR r)).filterMap (fun i => (s.atGrad k r i h (u32 r 28 + x)).map (fun g => (i, g.1, g.2)))
  let at32 := fun a => s.val k.c 0 k.u 0 a
  let dkv := ((List.range (atNp r)).map (fun x => ((List.range nh).map (fun h =>
    let g := grads h x
    let base := u32 r 80 + (x * nh + h) * d * 512
    let row := fun (val : Bool) (t : Nat) =>
      let a := base + (if val then d * 256 else 0) + t * d * 4
      (⟨0, k.u, a, fp32Bytes ((List.range d).map (fun e => accum (at32 (a + 4 * e)) (g.map (fun y =>
        if val then fmul (y.2.1.getD t fpZero) ((s.atQ k r (u32 r 72) y.1 h).getD e fpZero)
        else fmul (y.2.2.getD t fpZero) ((s.atQ k r (u32 r 32) y.1 h).getD e fpZero)))))⟩ : Wr)
    (List.range 64).map (row false) ++ (List.range 64).map (row true))).flatten)).flatten
  let dq := ((List.range (atR r)).map (fun i => (List.range nh).map (fun h =>
    let a := u32 r 76 + i * nh * d * 4 + h * d * 4
    let terms := fun e => ((List.range (atNp r)).map (fun x =>
      match s.atGrad k r i h (u32 r 28 + x), s.atPage k r (s.atDesc k r i) (u32 r 28 + x) with
      | some g, some n => (List.range 64).map (fun t => fmul (g.2.getD t fpZero) ((s.atKv k r n false h t).getD e fpZero))
      | _, _ => [])).flatten
    (⟨0, k.u, a, fp32Bytes ((List.range d).map (fun e => accum (at32 (a + 4 * e)) (terms e)))⟩ : Wr)))).flatten
  { groups := [dq, dkv], range := s.atRange k r }

/-- Pages that the record's rows name in its span. -/
def State.atPages (s : State) (k : RunCtx) (r : Bytes) : List Nat :=
  (((List.range (atR r)).map (fun i => let d := s.atDesc k r i; if d.idle then [] else (List.range (atNp r)).filterMap (fun x => s.atPage k r d (u32 r 28 + x)))).flatten).eraseDups

/-- Operand regions: Q, dO, O and LSE of BWD, descriptors, new keys and values, and the pages named. -/
def State.atReads (s : State) (k : RunCtx) (r : Bytes) : List Region :=
  let d := atD r
  let q := fun base => rowRegions 0 k.u base (u32 r 36) (atR r) (atH r * d * fmtBytes (byteAt r 17))
  let bwd := atMode r == 1
  (if atMode r = 2 then [] else q (u32 r 32)) ++ (if bwd then q (u32 r 72) ++ rowRegions 0 k.u (u32 r 40) (u32 r 44) (atR r) (atH r * d * fmtBytes (byteAt r 19)) ++
      [⟨0, k.u, u32 r 68, atR r * atH r * 4⟩] else []) ++
    [⟨0, k.u, u32 r 48, atR r * 16⟩] ++ (if atWrites r then [⟨0, k.u, u32 r 88, atR r * atH r * d * 8⟩] else []) ++
    (if atMode r = 2 then [] else (s.atPages k r).map (fun n => ⟨byteAt r 20, k.u, s.atPageAddr k.c r n, 128 * atH r * d * atKz r⟩))

/-- Output regions: outputs, the page positions written, LSE, dQ, dK and dV (R214). -/
def State.atOuts (s : State) (k : RunCtx) (r : Bytes) : List Region :=
  let d := atD r
  let fwd := atMode r == 0
  let olen := if atFlag r 4 then atH r * (d + 2) * 4 else atH r * d * fmtBytes (byteAt r 19)
  (if fwd then rowRegions 0 k.u (u32 r 40) (u32 r 44) (atR r) olen else []) ++ (s.atAppend k r).map Wr.region ++
    (if atFlag r 5 then [⟨0, k.u, u32 r 68, atR r * atH r * 4⟩] else []) ++
    (if atMode r = 1 then [⟨0, k.u, u32 r 76, atR r * atH r * d * 4⟩, ⟨0, k.u, u32 r 80, atNp r * atH r * d * 512⟩] else [])

/-- Issues an attention block record of a mode. -/
def issueAttention (mode u : Nat) (r : Bytes) (env : RunEnv) (out : Bytes → State → RunCtx → RunOut) (s : State) : Host.Outcome State Fault Refusal :=
  let k := s.runCtx (recCtx r) u r
  issue u r env (atLegal mode r) (s.atReads k r) (s.atOuts k r) (out r) s

/-- ATTENTION_FWD (R190). -/
def execAttentionFwd (u : Fin 256) (r : Bytes) (env : RunEnv) (s : State) : Host.Outcome State Fault Refusal := issueAttention 0 u r env fwdOut s
/-- ATTENTION_BWD (R192). -/
def execAttentionBwd (u : Fin 256) (r : Bytes) (env : RunEnv) (s : State) : Host.Outcome State Fault Refusal := issueAttention 1 u r env bwdOut s
/-- ATTENTION_APPEND (R191). -/
def execAttentionAppend (u : Fin 256) (r : Bytes) (env : RunEnv) (s : State) : Host.Outcome State Fault Refusal := issueAttention 2 u r env appendOut s

/-! The merge record. -/

/-- D of a merge record. -/
def mgD (r : Bytes) : Nat := 2 ^ byteAt r 19
/-- H of a merge record. -/
def mgH (r : Bytes) : Nat := u16 r 20
/-- R of a merge record. -/
def mgR (r : Bytes) : Nat := u16 r 22
/-- FINAL. -/
def mgFinal (r : Bytes) : Bool := bit (byteAt r 16) 0
/-- LSE_OUT. -/
def mgLse (r : Bytes) : Bool := bit (byteAt r 16) 1

/-- Legality of an attention merge record (R195 and its table). -/
def mgLegal (r : Bytes) : Bool :=
  recClass r == 0x09 && byteAt r 16 < 4 && (!mgLse r || mgFinal r) && decide (1 ≤ byteAt r 17 ∧ byteAt r 17 ≤ 6) &&
    (if mgFinal r then decide (byteAt r 18 ≤ 2) else byteAt r 18 == 0) && (byteAt r 19 == 6 || byteAt r 19 == 7) &&
    decide (1 ≤ mgH r ∧ mgH r ≤ 256 ∧ 1 ≤ mgR r ∧ mgR r ≤ 4096) && zeroAt r 44 20 && zeroAt r 80 48

/-- Bytes of one row of a partial: H heads of (D + 2) FP32 values (R190). -/
def mgRow (r : Bytes) : Nat := mgH r * (mgD r + 2) * 4

/-- Input partials, with rows O_PITCH apart as R190 lays them out (DEDUCED, log entry 8: the record has no other pitch). -/
def mgReads (r : Bytes) (u : Nat) : List Region :=
  ((List.range (2 ^ byteAt r 17)).map (fun i => rowRegions 0 u (u32 r 24 + i * u32 r 28) (u32 r 36) (mgR r) (mgRow r))).flatten
/-- Outputs of a merge. -/
def mgWrites (r : Bytes) (u : Nat) : List Region :=
  rowRegions 0 u (u32 r 32) (u32 r 36) (mgR r) (if mgFinal r then mgH r * mgD r * fmtBytes (byteAt r 18) else mgRow r) ++
    (if mgLse r then [⟨0, u, u32 r 40, mgR r * mgH r * 4⟩] else [])

/-- The merged partial of (row, head) (R195). -/
def State.mgPart (s : State) (k : RunCtx) (r : Bytes) (i h : Nat) : Partial :=
  let one := fun x =>
    let v := s.vals k.c 0 k.u 0 (u32 r 24 + x * u32 r 28 + i * u32 r 36 + h * (mgD r + 2) * 4) (mgD r + 2)
    (⟨v.headD fpZero, v.getD 1 fpZero, v.drop 2⟩ : Partial)
  mergeTree (byteAt r 17) (mgD r) ((List.range (2 ^ byteAt r 17)).map one)

/-- The run of a merge record (R195). -/
def mergeOut (r : Bytes) (s : State) (k : RunCtx) : RunOut :=
  let d := mgD r
  let oz := fmtBytes (byteAt r 18)
  let each := fun (f : Nat → Nat → Wr) => ((List.range (mgR r)).map (fun i => (List.range (mgH r)).map (f i))).flatten
  if mgFinal r then
    { groups := [each (fun i h =>
        let y := partOut (s.mgPart k r i h)
        ⟨0, k.u, u32 r 32 + i * u32 r 36 + h * d * oz, catN d (fun e => k.out (byteAt r 18) (ldesc r 64 0 i (h * d + e)) (y.getD e fpZero))⟩)] ++
      (if mgLse r then [each (fun i h => ⟨0, k.u, u32 r 40 + (i * mgH r + h) * 4, fp32Bytes [partLse (s.mgPart k r i h)]⟩)] else []) }
  else
    { groups := [each (fun i h =>
        let p := s.mgPart k r i h
        ⟨0, k.u, u32 r 32 + i * u32 r 36 + h * (d + 2) * 4, fp32Bytes (p.m :: p.l :: p.o)⟩)] }

/-- ATTENTION_MERGE (R195). -/
def execAttentionMerge (u : Fin 256) (r : Bytes) (env : RunEnv) (s : State) : Host.Outcome State Fault Refusal :=
  issue u r env (mgLegal r) (mgReads r u) (mgWrites r u) (mergeOut r) s

end Sys2Proof.Machine
end

