-- ==== Sys2Proof/Machine/TileMatmul.lean ====
section
/-! DEFINITION. Matmul and batched matmul, class 0x01 (R144 to R147, R181). -/

namespace Sys2Proof.Machine

/-- ARGMAX of a matmul's MFLAGS. -/
def matArgmax (r : Bytes) : Bool := bit (byteAt r 49) 3

/-- The rate ρ at which a matmul's operands run (R99). -/
def matRho (r : Bytes) : Nat := min (rateOf (byteAt r 46)) (rateOf (byteAt r 47))

/-- Legality of a matmul record's fields (R133, R144 to R146, R181). -/
def matLegal (r : Bytes) : Bool :=
  let m := u16 r 36
  let n := u16 r 38
  let k := u32 r 40
  let af := byteAt r 46
  let bf := byteAt r 47
  let cf := byteAt r 48
  let fl := byteAt r 49
  recClass r == 0x01 && decide (1 ≤ m ∧ 1 ≤ n ∧ 1 ≤ k ∧ k < 2 ^ 24 ∧ 1 ≤ u16 r 44) && decide (1 ≤ af ∧ af ≤ 10 ∧ 1 ≤ bf ∧ bf ≤ 10 ∧ cf ≤ 4) &&
    fl < 16 && zeroAt r 50 2 && zeroAt r 96 32 &&
    (!(isMx af || isMx bf) || k % 32 == 0) && (!isMx af || !bit fl 1) && (!isMx bf || bit fl 2) &&
    (isMx af || u32 r 28 == 0) && (isMx bf || u32 r 32 == 0) && (!bit fl 0 || u32 r 76 == 0x3F800000) &&
    (!bit fl 3 || (!bit fl 0 && decide (4 + fmtBytes cf ≤ u32 r 60) && u32 r 60 % 8 == 0 && u32 r 24 % 8 == 0 && (u16 r 44 == 1 || u32 r 72 % 8 == 0)))

/-- Stored rows of a matmul operand (R144, R145): `trans` when the contraction is the outer dimension. -/
def matPlane (u fmt addr saddr ld bst batch outer inner : Nat) : List Region :=
  let len := if isMx fmt then inner * mxWidth fmt / 8 else inner * fmtBytes fmt
  ((List.range batch).map (fun b => rowRegions 0 u (addr + b * bst) ld outer len)).flatten ++
    (if isMx fmt then [⟨0, u, saddr, batch * outer * (inner / 32)⟩] else [])

/-- Output regions of a matmul (R144, R181). -/
def matWrites (r : Bytes) (u : Nat) : List Region :=
  let len := if matArgmax r then 4 + fmtBytes (byteAt r 48) else u16 r 38 * fmtBytes (byteAt r 48)
  ((List.range (u16 r 44)).map (fun b => rowRegions 0 u (u32 r 24 + b * u32 r 72) (u32 r 60) (u16 r 36) len)).flatten

/-- Operand regions of a matmul (R144, R145); C is read with ACC (R123). -/
def matReads (r : Bytes) (u : Nat) : List Region :=
  let m := u16 r 36
  let n := u16 r 38
  let k := u32 r 40
  let bt := u16 r 44
  let fl := byteAt r 49
  (if bit fl 1 then matPlane u (byteAt r 46) (u32 r 16) (u32 r 28) (u32 r 52) (u32 r 64) bt k m
   else matPlane u (byteAt r 46) (u32 r 16) (u32 r 28) (u32 r 52) (u32 r 64) bt m k) ++
  (if bit fl 2 then matPlane u (byteAt r 47) (u32 r 20) (u32 r 32) (u32 r 56) (u32 r 68) bt n k
   else matPlane u (byteAt r 47) (u32 r 20) (u32 r 32) (u32 r 56) (u32 r 68) bt k n) ++
  (if bit fl 0 then matWrites r u else [])

/-- Element (b, i, k) of A (R144). -/
def State.matA (s : State) (x : RunCtx) (r : Bytes) (b i k : Nat) : Fp :=
  let f := s.opVal x (byteAt r 46) (u32 r 16) (u32 r 28) (u32 r 52) (u32 r 64) (u16 r 36) (u32 r 40) b
  if bit (byteAt r 49) 1 then f k i else f i k

/-- Element (b, k, j) of B (R144). -/
def State.matB (s : State) (x : RunCtx) (r : Bytes) (b k j : Nat) : Fp :=
  let f := s.opVal x (byteAt r 47) (u32 r 20) (u32 r 32) (u32 r 56) (u32 r 68) (u16 r 38) (u32 r 40) b
  if bit (byteAt r 49) 2 then f j k else f k j

/-- The accumulator of element (b, i, j) (R121 to R123, R144). -/
def State.matCell (s : State) (x : RunCtx) (r : Bytes) (b i j : Nat) : Fp :=
  let cf := byteAt r 48
  let init := if bit (byteAt r 49) 0 then s.val x.c 0 x.u cf (u32 r 24 + b * u32 r 72 + i * u32 r 60 + j * fmtBytes cf) else fpZero
  dotAcc (matRho r) init (u32 r 40) (fun k => fmul (s.matA x r b i k) (s.matB x r b k j))

/-- The output code of element (b, i, j): the exact product with OUT_SCALE, rounded once (R146). -/
def State.matCode (s : State) (x : RunCtx) (r : Bytes) (b i j : Nat) : Nat :=
  x.cvt (byteAt r 48) (ldesc r 80 b i j) (fmul (s.matCell x r b i j) (dec32 (u32 r 76)))

/-- The run of a matmul record. -/
def matOut (r : Bytes) (s : State) (x : RunCtx) : RunOut :=
  let cf := byteAt r 48
  let row := fun (b i : Nat) => (List.range (u16 r 38)).map (s.matCode x r b i)
  let wr := fun (b i : Nat) => (⟨0, x.u, u32 r 24 + b * u32 r 72 + i * u32 r 60,
    if matArgmax r then let a := argmaxOf cf (row b i); toLe 4 a.1 ++ toLe (fmtBytes cf) a.2
    else ((row b i).map (toLe (fmtBytes cf))).flatten⟩ : Wr)
  { groups := [((List.range (u16 r 44)).map (fun b => (List.range (u16 r 36)).map (wr b))).flatten] }

/-- MATMUL (R144). -/
def execMatmul (u : Fin 256) (r : Bytes) (env : RunEnv) (s : State) : Host.Outcome State Fault Refusal :=
  issue u r env (matLegal r) (matReads r u) (matWrites r u) (matOut r) s

end Sys2Proof.Machine
end

