-- ==== Sys2Proof/Machine/TileVector.lean ====
section
/-! DEFINITION. The vector-unit tile records: elementwise chains, class 0x02 (R148 to R150); reductions, softmax and normalisation, classes 0x03 to 0x05 (R151 to R153); relayout, 0x06 (R154); gather and scatter, 0x0A (R155, R156); quantise and dequantise, 0x0B (R157, R158). -/

namespace Sys2Proof.Machine

/-! Elementwise chains. -/

/-- Stages of a chain (R148). -/
def chStages (r : Bytes) : Nat := byteAt r 40 % 16
/-- Inputs of a chain. -/
def chNin (r : Bytes) : Nat := byteAt r 40 / 16 % 4
/-- Stage word `i`. -/
def chWord (r : Bytes) (i : Nat) : Nat := u32 r (64 + 4 * i)

/-- Operands that an op uses (R149); 0 for a reserved op. -/
def chArity (op : Nat) : Nat :=
  if [0x01, 0x02, 0x03, 0x05, 0x06, 0x0A, 0x0B].contains op then 2
  else if op = 0x04 ∨ op = 0x09 then 3
  else if [0x07, 0x08, 0x10, 0x11, 0x12, 0x13, 0x14, 0x15].contains op then 1 else 0

/-- Whether an operand code selects a source that stage `i` may read (R148). -/
def chOperandOk (nin i o : Nat) : Bool :=
  if o < 3 then o < nin else if o = 3 then false else if o < 8 then true else o - 8 < i

/-- Legality of an elementwise chain (R148 to R150). -/
def chainLegal (r : Bytes) : Bool :=
  let n := chStages r
  let okStage := fun i =>
    let w := chWord r i
    let k := chArity (w % 256)
    k != 0 && w / 2 ^ 20 == 0 && (List.range k).all (fun j => chOperandOk (chNin r) i (w / 2 ^ (8 + 4 * j) % 16))
  recClass r == 0x02 && decide (1 ≤ n ∧ n ≤ 8) && byteAt r 40 < 64 && zeroAt r 41 1 && zeroAt r 112 16 &&
    decide (1 ≤ u32 r 36 ∧ u32 r 36 < 2 ^ 24 ∧ 1 ≤ u32 r 44) && (List.range 4).all (fun i => byteAt r (32 + i) ≤ 4) &&
    (List.range n).all okStage && (List.range 8).all (fun i => decide (i < n) || chWord r i == 0) &&
    decide (((List.range n).filter (fun i => chWord r i % 256 == 0x0B)).length ≤ 1)

/-- Inputs of a chain as regions. -/
def chainReads (r : Bytes) (u : Nat) : List Region :=
  (List.range (chNin r)).map (fun i => ⟨0, u, u32 r (16 + 4 * i), u32 r 36 * fmtBytes (byteAt r (32 + i))⟩)
/-- Output of a chain. -/
def chainWrites (r : Bytes) (u : Nat) : List Region := [⟨0, u, u32 r 28, u32 r 36 * fmtBytes (byteAt r 35)⟩]

/-- One stage's result (R149), rounded to FP32 (R124). -/
def chOp (op : Nat) (a b c : Fp) (keep : Bool) : Fp :=
  match op with
  | 0x01 => fadd a b
  | 0x02 => fsub a b
  | 0x03 => fmulR a b
  | 0x04 => fma a b c
  | 0x05 => fmin a b
  | 0x06 => fmax a b
  | 0x07 => a.abs
  | 0x08 => a.neg
  | 0x09 => if flt fpZero a then b else c
  | 0x0A => if flt b a then fpOne else fpZero
  | 0x0B => if keep then fmulR a b else fpZero
  | 0x10 => r32 (fexp2 a)
  | 0x11 => r32 (flog2 a)
  | 0x12 => r32 (frecip a)
  | 0x13 => r32 (frsqrt a)
  | 0x14 => r32 (ftanh a)
  | _ => r32 (ferf a)

/-- The last stage's result for one element, from its inputs (R148 to R150). -/
def chainElem (r : Bytes) (ins : List Fp) (keep : Bool) : Fp :=
  let src := fun (done : List Fp) (o : Nat) =>
    if o < 3 then ins.getD o fpZero else if o < 8 then dec32 (u32 r (48 + 4 * (o % 4))) else done.getD (o - 8) fpZero
  let done := (List.range (chStages r)).foldl (fun done i =>
    let w := chWord r i
    done ++ [chOp (w % 256) (src done (w / 2 ^ 8 % 16)) (src done (w / 2 ^ 12 % 16)) (src done (w / 2 ^ 16 % 16)) keep]) []
  done.getLastD fpZero

/-- Logical index of element e of a chain (LDESC of its field table). -/
def chainIdx (r : Bytes) (e : Nat) : Nat := ldesc r 96 0 (e / u32 r 44) (e % u32 r 44)

/-- The run of an elementwise chain. -/
def chainOut (r : Bytes) (s : State) (x : RunCtx) : RunOut :=
  let keep := fun e => decide (u16 r 42 ≤ helwa x.seed (x.stream ^^^ 0x80000000) x.epoch (chainIdx r e) % 65536)
  let elem := fun e => x.out (byteAt r 35) (chainIdx r e)
    (chainElem r ((List.range (chNin r)).map (fun i => s.val x.c 0 x.u (byteAt r (32 + i)) (u32 r (16 + 4 * i) + e * fmtBytes (byteAt r (32 + i))))) (keep e))
  { groups := [[⟨0, x.u, u32 r 28, catN (u32 r 36) elem⟩]] }

/-- ELEMENTWISE_CHAIN (R149). -/
def execElementwiseChain (u : Fin 256) (r : Bytes) (env : RunEnv) (s : State) : Host.Outcome State Fault Refusal :=
  issue u r env (chainLegal r) (chainReads r u) (chainWrites r u) (chainOut r) s

/-! Row records. -/

/-- Ranges that the row layout fixes for classes 0x03 to 0x05. -/
def rowLegal (r : Bytes) : Bool :=
  byteAt r 32 ≤ 4 && byteAt r 33 ≤ 4 && decide (1 ≤ u32 r 36 ∧ u32 r 36 < 2 ^ 24 ∧ 1 ≤ u32 r 40 ∧ u32 r 40 < 65536) && zeroAt r 60 4 && zeroAt r 80 48

/-- Input rows. -/
def rowReads (r : Bytes) (u : Nat) : List Region := rowRegions 0 u (u32 r 16) (u32 r 44) (u32 r 40) (u32 r 36 * fmtBytes (byteAt r 32))
/-- Output rows of `n` elements. -/
def rowWrites (r : Bytes) (u n : Nat) : List Region := rowRegions 0 u (u32 r 20) (u32 r 48) (u32 r 40) (n * fmtBytes (byteAt r 33))

/-- The input row `i` of a row record. -/
def State.rowIn (s : State) (x : RunCtx) (r : Bytes) (i : Nat) : List Fp := s.vals x.c 0 x.u (byteAt r 32) (u32 r 16 + i * u32 r 44) (u32 r 36)

/-- A row record's run, from the values of each output row. -/
def rowOut (r : Bytes) (x : RunCtx) (f : Nat → List Fp) : RunOut :=
  { groups := [(List.range (u32 r 40)).map (fun i =>
      let ys := f i
      ⟨0, x.u, u32 r 20 + i * u32 r 48, catN ys.length (fun c => x.out (byteAt r 33) (ldesc r 64 0 i c) (ys.getD c fpZero))⟩)] }

/-- Legality of a reduction with a given OP (R151). -/
def redLegal (op : Nat) (r : Bytes) : Bool :=
  recClass r == 0x03 && rowLegal r && byteAt r 35 == op && u32 r 24 == 0 && u32 r 28 == 0 && byteAt r 34 == 0 && u32 r 52 == 0 && u32 r 56 == 0

/-- The value of a reduction (R151). -/
def redVal (op : Nat) (xs : List Fp) : Fp :=
  match op with
  | 0 => vsum xs
  | 1 => vmax xs
  | 2 => vmin xs
  | 3 => vsumsq xs
  | _ => fmulR (vsum xs) (rnOf xs.length)

/-- The run of a reduction record. -/
def redOut (op : Nat) (r : Bytes) (s : State) (x : RunCtx) : RunOut := rowOut r x (fun i => [redVal op (s.rowIn x r i)])

/-- Issues a reduction with a given OP. -/
def issueReduction (op u : Nat) (r : Bytes) (env : RunEnv) (s : State) : Host.Outcome State Fault Refusal :=
  issue u r env (redLegal op r) (rowReads r u) (rowWrites r u 1) (redOut op r) s

/-- REDUCTION_SUM (R151). -/
def execReductionSum (u : Fin 256) (r : Bytes) (env : RunEnv) (s : State) : Host.Outcome State Fault Refusal := issueReduction 0 u r env s
/-- REDUCTION_MAX (R151). -/
def execReductionMax (u : Fin 256) (r : Bytes) (env : RunEnv) (s : State) : Host.Outcome State Fault Refusal := issueReduction 1 u r env s
/-- REDUCTION_MIN (R151). -/
def execReductionMin (u : Fin 256) (r : Bytes) (env : RunEnv) (s : State) : Host.Outcome State Fault Refusal := issueReduction 2 u r env s
/-- REDUCTION_SUMSQ (R151). -/
def execReductionSumsq (u : Fin 256) (r : Bytes) (env : RunEnv) (s : State) : Host.Outcome State Fault Refusal := issueReduction 3 u r env s
/-- REDUCTION_MEAN (R151). -/
def execReductionMean (u : Fin 256) (r : Bytes) (env : RunEnv) (s : State) : Host.Outcome State Fault Refusal := issueReduction 4 u r env s

/-- Legality of a softmax record (R152): `log` selects log-softmax. -/
def smLegal (log : Bool) (r : Bytes) : Bool :=
  recClass r == 0x04 && rowLegal r && byteAt r 35 < 4 && bit (byteAt r 35) 0 == log && u32 r 28 == 0 && byteAt r 34 == 0

/-- Reads of a softmax record: rows and, when enabled, mask rows. -/
def smReads (r : Bytes) (u : Nat) : List Region :=
  rowReads r u ++ (if bit (byteAt r 35) 1 then rowRegions 0 u (u32 r 24) (u32 r 52) (u32 r 40) (cdiv (u32 r 36) 8) else [])

/-- One row of softmax or log-softmax from its scaled and masked values z (R152). -/
def smRow (log : Bool) (z : List Fp) : List Fp :=
  let m := vmax z
  if m = .inf true then z.map (fun _ => if log then .inf true else fpZero)
  else
    let d := z.map (fun x => fsub x m)
    let e := d.map (fun x => r32 (fexp2 (fmulR x (dec32 0x3FB8AA3B))))
    let t := vsum e
    if log then
      let l := fmulR (r32 (flog2 t)) (dec32 0x3F317218)
      d.map (fun x => fsub x l)
    else
      let q := r32 (frecip t)
      e.map (fun x => fmulR x q)

/-- The run of a softmax record. -/
def smOut (log : Bool) (r : Bytes) (s : State) (x : RunCtx) : RunOut :=
  rowOut r x (fun i =>
    let mask := s.rd x.c 0 x.u (u32 r 24 + i * u32 r 52) (cdiv (u32 r 36) 8)
    let xs := s.rowIn x r i
    smRow log ((List.zip (List.range xs.length) xs).map (fun p =>
      if bit (byteAt r 35) 1 && !bit (byteAt mask (p.1 / 8)) (p.1 % 8) then .inf true else fmulR p.2 (dec32 (u32 r 56)))))

/-- SOFTMAX (R152). -/
def execSoftmax (u : Fin 256) (r : Bytes) (env : RunEnv) (s : State) : Host.Outcome State Fault Refusal :=
  issue u r env (smLegal false r) (smReads r u) (rowWrites r u (u32 r 36)) (smOut false r) s
/-- LOG_SOFTMAX (R152). -/
def execLogSoftmax (u : Fin 256) (r : Bytes) (env : RunEnv) (s : State) : Host.Outcome State Fault Refusal :=
  issue u r env (smLegal true r) (smReads r u) (rowWrites r u (u32 r 36)) (smOut true r) s

/-- Legality of a normalisation record (R153): `rms` selects RMS. -/
def nmLegal (rms : Bool) (r : Bytes) : Bool :=
  let op := byteAt r 35
  let aux := bit op 1 || bit op 2
  recClass r == 0x05 && rowLegal r && op < 8 && bit op 0 == rms && !(rms && bit op 2) &&
    (if aux then byteAt r 34 ≤ 2 else byteAt r 34 == 0) && (bit op 2 || u32 r 28 == 0)

/-- Reads of a normalisation record: rows, gain and bias. -/
def nmReads (r : Bytes) (u : Nat) : List Region :=
  let len := u32 r 36 * fmtBytes (byteAt r 34)
  rowReads r u ++ (if bit (byteAt r 35) 1 then [⟨0, u, u32 r 24, len⟩] else []) ++ (if bit (byteAt r 35) 2 then [⟨0, u, u32 r 28, len⟩] else [])

/-- One row of normalisation (R153). -/
def nmRow (rms hasBeta : Bool) (eps : Fp) (gamma beta : List Fp) (xs : List Fp) : List Fp :=
  let rn := rnOf xs.length
  let at' := fun (l : List Fp) (i : Nat) (d : Fp) => l.getD i d
  if rms then
    let q := r32 (frsqrt (fadd (fmulR (vsumsq xs) rn) eps))
    (List.zip (List.range xs.length) xs).map (fun p => fmulR (fmulR p.2 q) (at' gamma p.1 fpOne))
  else
    let mu := fmulR (vsum xs) rn
    let d := xs.map (fun x => fsub x mu)
    let q := r32 (frsqrt (fadd (fmulR (vsumsq d) rn) eps))
    (List.zip (List.range d.length) d).map (fun p =>
      if hasBeta then fma (fmulR p.2 q) (at' gamma p.1 fpOne) (at' beta p.1 fpZero) else fmulR (fmulR p.2 q) (at' gamma p.1 fpOne))

/-- The run of a normalisation record. -/
def nmOut (rms : Bool) (r : Bytes) (s : State) (x : RunCtx) : RunOut :=
  let aux := fun (b : Nat) (a : Nat) => if bit (byteAt r 35) b then s.vals x.c 0 x.u (byteAt r 34) a (u32 r 36) else []
  rowOut r x (fun i => nmRow rms (bit (byteAt r 35) 2) (dec32 (u32 r 56)) (aux 1 (u32 r 24)) (aux 2 (u32 r 28)) (s.rowIn x r i))

/-- LAYER_NORM (R153). -/
def execLayerNorm (u : Fin 256) (r : Bytes) (env : RunEnv) (s : State) : Host.Outcome State Fault Refusal :=
  issue u r env (nmLegal false r) (nmReads r u) (rowWrites r u (u32 r 36)) (nmOut false r) s
/-- RMS_NORM (R153). -/
def execRmsNorm (u : Fin 256) (r : Bytes) (env : RunEnv) (s : State) : Host.Outcome State Fault Refusal :=
  issue u r env (nmLegal true r) (nmReads r u) (rowWrites r u (u32 r 36)) (nmOut true r) s

/-! Relayout. -/

/-- Source dimension that becomes destination dimension `k` (R154). -/
def rlPerm (r : Bytes) (k : Nat) : Nat := byteAt r 26 / 4 ^ k % 4
/-- Source extent of dimension `d`. -/
def rlExt (r : Bytes) (d : Nat) : Nat := u16 r (28 + 2 * d)
/-- Source stride of dimension `d`. -/
def rlStride (r : Bytes) (d : Nat) : Nat := u32 r (36 + 4 * d)
/-- Number of elements. -/
def rlCount (r : Bytes) : Nat := rlExt r 0 * rlExt r 1 * rlExt r 2 * rlExt r 3

/-- Legality of a relayout (R154). -/
def rlLegal (r : Bytes) : Bool :=
  let i := byteAt r 24
  let o := byteAt r 25
  recClass r == 0x06 && (decide (i ≤ 4) || i == 11 || i == 12) && (o == i || (i ≤ 4 && o == 0) || ((i == 3 || i == 4) && (o == 1 || o == 2))) &&
    (List.range 4).all (fun d => decide (1 ≤ rlExt r d) && (List.range 4).any (fun k => rlPerm r k == d)) && zeroAt r 27 1 && zeroAt r 52 12

/-- Source address of destination element `e`: destination dimension 0 innermost and dense (R154). -/
def rlSrc (r : Bytes) (e : Nat) : Nat :=
  ((List.range 4).foldl (fun (p : Nat × Nat) k =>
    let n := rlExt r (rlPerm r k)
    (p.1 / n, p.2 + p.1 % n * rlStride r (rlPerm r k))) (e, u32 r 16)).2

/-- Source regions of a relayout: its elements, row by row of dimension 0 (R634). -/
def rlReads (r : Bytes) (u : Nat) : List Region :=
  let z := fmtBytes (byteAt r 24)
  ((List.range (rlExt r 3)).map (fun c => ((List.range (rlExt r 2)).map (fun b => ((List.range (rlExt r 1)).map (fun a =>
    rowRegions 0 u (u32 r 16 + a * rlStride r 1 + b * rlStride r 2 + c * rlStride r 3) (rlStride r 0) (rlExt r 0) z)).flatten)).flatten)).flatten
/-- Destination of a relayout. -/
def rlWrites (r : Bytes) (u : Nat) : List Region := [⟨0, u, u32 r 20, rlCount r * fmtBytes (byteAt r 25)⟩]

/-- One element converted: the bits kept for equal formats, an exact widening otherwise (R109, R154). -/
def rlElem (i o v : Nat) : Nat := if i = o ∧ 4 < i then v else (plainFmt o).convert .rne false 0 ((plainFmt i).decode v)

/-- The run of a relayout record. -/
def rlOut (r : Bytes) (s : State) (x : RunCtx) : RunOut :=
  let i := byteAt r 24
  let o := byteAt r 25
  { groups := [[⟨0, x.u, u32 r 20, catN (rlCount r) (fun e => toLe (fmtBytes o) (rlElem i o (le (s.rd x.c 0 x.u (rlSrc r e) (fmtBytes i)) 0 (fmtBytes i))))⟩]] }

/-- RELAYOUT (R154). -/
def execRelayout (u : Fin 256) (r : Bytes) (env : RunEnv) (s : State) : Host.Outcome State Fault Refusal :=
  issue u r env (rlLegal r) (rlReads r u) (rlWrites r u) (rlOut r) s

/-! Gather and scatter. -/

/-- Legality of a gather or scatter record with a given MODE (R155). -/
def gsLegal (mode : Nat) (r : Bytes) : Bool :=
  recClass r == 0x0A && byteAt r 16 == mode && byteAt r 17 ≤ 1 && zeroAt r 18 2 && zeroAt r 52 12 &&
    decide (1 ≤ u32 r 32 ∧ u32 r 32 ≤ 65536 ∧ 1 ≤ u32 r 36 ∧ u32 r 36 ≤ 1048576) && (mode != 2 || u32 r 32 % 4 == 0)

/-- Unit of the table: the tile, or its ward. -/
def gsUnit (r : Bytes) (u : Nat) : Nat := if byteAt r 17 = 0 then u else u / 16
/-- The whole table (R634). -/
def gsTable (r : Bytes) (u : Nat) : List Region := [⟨byteAt r 17, gsUnit r u, u32 r 24, u32 r 40 * u32 r 44⟩]
/-- The local rows. -/
def gsLocal (r : Bytes) (u : Nat) : List Region := rowRegions 0 u (u32 r 28) (u32 r 48) (u32 r 36) (u32 r 32)
/-- The index list. -/
def gsIdx (r : Bytes) (u : Nat) : List Region := [⟨0, u, u32 r 20, u32 r 36 * 4⟩]

/-- Index `i`; none for a skip (R156). -/
def State.gsIndex (s : State) (x : RunCtx) (r : Bytes) (i : Nat) : Option Nat :=
  let v := le (s.rd x.c 0 x.u (u32 r 20 + 4 * i) 4) 0 4
  if v < u32 r 40 then some v else none

/-- Indices out of range: not the skip mark and at or above TROWS (R156). -/
def State.gsRange (s : State) (x : RunCtx) (r : Bytes) : Nat :=
  (pick (u32 r 36) (fun i => let v := le (s.rd x.c 0 x.u (u32 r 20 + 4 * i) 4) 0 4; v != 0xFFFFFFFF && decide (u32 r 40 ≤ v))).length

/-- The run of a gather (R155): rows in increasing order, each reading what the earlier rows wrote. -/
def gatherOut (r : Bytes) (s : State) (x : RunCtx) : RunOut :=
  let step := fun (p : State × List Wr) (i : Nat) =>
    let b := match p.1.gsIndex x r i with
      | some v => p.1.rd x.c (byteAt r 17) (gsUnit r x.u) (u32 r 24 + v * u32 r 44) (u32 r 32)
      | none => zeros (u32 r 32)
    let d := u32 r 28 + i * u32 r 48
    (p.1.wrRaw x.c 0 x.u d b, p.2 ++ [(⟨0, x.u, d, b⟩ : Wr)])
  { groups := [((List.range (u32 r 36)).foldl step (s, [])).2], range := s.gsRange x r }

/-- Two byte strings of FP32 elements added in increasing element order (R155). -/
def addRows (a b : Bytes) : Bytes := catN (a.length / 4) (fun i => toLe 4 (enc32 (fadd (dec32 (u32 a (4 * i))) (dec32 (u32 b (4 * i))))))

/-- The run of a scatter, or of a scatter-add when `add` (R155): in index order, each row reading what the earlier rows wrote, so that the
last scatter wins and adds accumulate. -/
def scatterOut (add : Bool) (r : Bytes) (s : State) (x : RunCtx) : RunOut :=
  let step := fun (p : State × List Wr) (i : Nat) =>
    match p.1.gsIndex x r i with
    | none => p
    | some v =>
      let a := u32 r 24 + v * u32 r 44
      let loc := p.1.rd x.c 0 x.u (u32 r 28 + i * u32 r 48) (u32 r 32)
      let b := if add then addRows (p.1.rd x.c (byteAt r 17) (gsUnit r x.u) a (u32 r 32)) loc else loc
      (p.1.wrRaw x.c (byteAt r 17) (gsUnit r x.u) a b, p.2 ++ [(⟨byteAt r 17, gsUnit r x.u, a, b⟩ : Wr)])
  { groups := [((List.range (u32 r 36)).foldl step (s, [])).2], range := s.gsRange x r }

/-- GATHER (R155). -/
def execGather (u : Fin 256) (r : Bytes) (env : RunEnv) (s : State) : Host.Outcome State Fault Refusal :=
  issue u r env (gsLegal 0 r) (gsIdx r u ++ gsTable r u) (gsLocal r u) (gatherOut r) s
/-- SCATTER (R155). -/
def execScatter (u : Fin 256) (r : Bytes) (env : RunEnv) (s : State) : Host.Outcome State Fault Refusal :=
  issue u r env (gsLegal 1 r) (gsIdx r u ++ gsLocal r u) (gsTable r u) (scatterOut false r) s
/-- SCATTER_ADD (R155). -/
def execScatterAdd (u : Fin 256) (r : Bytes) (env : RunEnv) (s : State) : Host.Outcome State Fault Refusal :=
  issue u r env (gsLegal 2 r) (gsIdx r u ++ gsLocal r u ++ gsTable r u) (gsTable r u) (scatterOut true r) s

/-! Quantise and dequantise. -/

/-- log2 of the rotation's n; 0 without rotation (ROT of MODE). -/
def qzRot (r : Bytes) : Nat := match byteAt r 30 / 2 % 4 with | 1 => 5 | 2 => 6 | _ => 0

/-- Legality of a quantise (`deq` false) or dequantise record (R157, R158). -/
def qzLegal (deq : Bool) (r : Bytes) : Bool :=
  let q := byteAt r 29
  let mode := byteAt r 30
  recClass r == 0x0B && byteAt r 28 ≤ 2 && decide (3 ≤ q ∧ q ≤ 10) && mode < 16 && bit mode 0 == deq && mode / 2 % 4 != 3 &&
    zeroAt r 31 1 && zeroAt r 60 4 && zeroAt r 80 48 && decide (1 ≤ u32 r 32 ∧ u32 r 32 < 2 ^ 24 ∧ 1 ≤ u32 r 36 ∧ u32 r 36 < 65536) &&
    (isMx q || (u32 r 24 == 0 && qzRot r == 0)) && (!isMx q || (u32 r 32 % 32 == 0 && u32 r 56 == 0)) && (!deq || mode / 2 % 4 == 0) &&
    (qzRot r == 0 || u32 r 32 % 2 ^ qzRot r == 0)

/-- The plain tensor. -/
def qzPlain (r : Bytes) (u : Nat) : List Region := rowRegions 0 u (u32 r 16) (u32 r 40) (u32 r 36) (u32 r 32 * fmtBytes (byteAt r 28))
/-- The element plane and, for MX, the scale plane. -/
def qzPlanes (r : Bytes) (u : Nat) : List Region :=
  let q := byteAt r 29
  if isMx q then
    rowRegions 0 u (u32 r 20) (u32 r 44) (u32 r 36) (u32 r 32 * mxWidth q / 8) ++ rowRegions 0 u (u32 r 24) (u32 r 48) (u32 r 36) (u32 r 32 / 32)
  else rowRegions 0 u (u32 r 20) (u32 r 44) (u32 r 36) (u32 r 32)

/-- The run of a quantise record (R157). -/
def quantOut (r : Bytes) (s : State) (x : RunCtx) : RunOut :=
  let q := byteAt r 29
  let n := u32 r 32
  let row := fun i => s.vals x.c 0 x.u (byteAt r 28) (u32 r 16 + i * u32 r 40) n
  let idx := fun i c => ldesc r 64 0 i c
  if isMx q then
    let rot := fun (v : List Fp) => if qzRot r = 0 then v
      else ((chunks (2 ^ qzRot r) n v).map (rotate x.seed (u32 r 52) x.epoch (qzRot r) (bit (byteAt r 30) 3))).flatten
    let blocks := fun i => (List.zip (List.range (n / 32)) (chunks 32 n (rot (row i)))).map (fun p =>
      mxBlock q x.mode (fun j => if x.mode = .sr then x.rand (idx i (p.1 * 32 + j)) else 0) p.2)
    { groups := [
        (List.range (u32 r 36)).map (fun i => ⟨0, x.u, u32 r 20 + i * u32 r 44, ((blocks i).map (fun b => mxPack (mxWidth q) b.2)).flatten⟩),
        (List.range (u32 r 36)).map (fun i => ⟨0, x.u, u32 r 24 + i * u32 r 48, ((blocks i).map (fun b => toLe 1 b.1)).flatten⟩)] }
  else
    { groups := [(List.range (u32 r 36)).map (fun i =>
        let v := row i
        ⟨0, x.u, u32 r 20 + i * u32 r 44, catN n (fun c => x.out q (idx i c) (fmul (v.getD c fpZero) (dec32 (u32 r 56))))⟩)] }

/-- The FP32 value of one dequantised element (R118, R158). -/
def State.deqVal (s : State) (x : RunCtx) (r : Bytes) (i c : Nat) : Fp :=
  let q := byteAt r 29
  if isMx q then
    let row := s.rd x.c 0 x.u (u32 r 20 + i * u32 r 44 + mxWidth q * c / 8) 2
    let e := (le row 0 2 >>> (mxWidth q * c % 8)) % 2 ^ mxWidth q
    r32 (mxVal q e (byteAt (s.rd x.c 0 x.u (u32 r 24 + i * u32 r 48 + c / 32) 1) 0))
  else fmulR (s.val x.c 0 x.u q (u32 r 20 + i * u32 r 44 + c)) (dec32 (u32 r 56))

/-- The run of a dequantise record (R158). -/
def dequantOut (r : Bytes) (s : State) (x : RunCtx) : RunOut :=
  { groups := [(List.range (u32 r 36)).map (fun i =>
      ⟨0, x.u, u32 r 16 + i * u32 r 40, catN (u32 r 32) (fun c => x.out (byteAt r 28) (ldesc r 64 0 i c) (s.deqVal x r i c))⟩)] }

/-- QUANTISE (R157). -/
def execQuantise (u : Fin 256) (r : Bytes) (env : RunEnv) (s : State) : Host.Outcome State Fault Refusal :=
  issue u r env (qzLegal false r) (qzPlain r u) (qzPlanes r u) (quantOut r) s
/-- DEQUANTISE (R158). -/
def execDequantise (u : Fin 256) (r : Bytes) (env : RunEnv) (s : State) : Host.Outcome State Fault Refusal :=
  issue u r env (qzLegal true r) (qzPlanes r u) (qzPlain r u) (dequantOut r) s

end Sys2Proof.Machine
end

