-- ==== Sys2Proof/Machine/TileWindow.lean ====
section
/-! DEFINITION. The sliding-window record, class 0x07 (R167 to R182): convolution on the dense and the diagonal path, pooling, resize, and argmax over channels. -/

namespace Sys2Proof.Machine

/-- OP: 0 convolution, 1 max pool, 2 average pool, 3 bilinear resize, 4 nearest resize (R168). -/
def swOp (r : Bytes) : Nat := byteAt r 16
/-- SFLAGS bit `i`: 0 ACC, 1 ARGMAX, 2 KEEPVAL, 3 PAD_COUNT, 4 ALIGN. -/
def swFlag (r : Bytes) (i : Nat) : Bool := bit (byteAt r 17) i
/-- KH or KW (`ax` 0 or 1). -/
def swK (r : Bytes) (ax : Nat) : Nat := byteAt r 21 / 16 ^ ax % 16
/-- SH or SW. -/
def swS (r : Bytes) (ax : Nat) : Nat := byteAt r 22 / 16 ^ ax % 16
/-- DH or DW. -/
def swD (r : Bytes) (ax : Nat) : Nat := byteAt r 23 / 16 ^ ax % 16
/-- PAD_T or PAD_L. -/
def swPad (r : Bytes) (ax : Nat) : Nat := byteAt r 24 / 16 ^ ax % 16
/-- PAD_B or PAD_R. -/
def swPadEnd (r : Bytes) (ax : Nat) : Nat := byteAt r 25 / 16 ^ ax % 16
/-- H_IN or W_IN. -/
def swIn (r : Bytes) (ax : Nat) : Nat := u16 r (50 + 2 * ax)
/-- H_OUT or W_OUT. -/
def swOut (r : Bytes) (ax : Nat) : Nat := u16 r (54 + 2 * ax)
/-- BATCH. -/
def swBatch (r : Bytes) : Nat := u16 r 26
/-- C_OUT. -/
def swCout (r : Bytes) : Nat := u16 r 46
/-- Input channels of a group, Cg = C_IN / GROUPS. -/
def swCg (r : Bytes) : Nat := u16 r 44 / u16 r 48
/-- Whether a convolution takes the diagonal path (R171). -/
def swDiag (r : Bytes) : Bool := [1, 2, 4, 8, 16, 32].contains (swCg r) && swCout r == u16 r 44

/-- Input position that tap `k` of output `o` reads on an axis; none where it is padded (R170). -/
def swPos (r : Bytes) (ax o k : Nat) : Option Nat :=
  let p := o * swS r ax + k * swD r ax
  if swPad r ax ≤ p ∧ p - swPad r ax < swIn r ax then some (p - swPad r ax) else none

/-- The output size that R170 gives on an axis holds. -/
def swGeom (r : Bytes) (ax : Nat) : Bool :=
  let span := swD r ax * (swK r ax - 1) + 1
  let size := swIn r ax + swPad r ax + swPadEnd r ax
  decide (span ≤ size) && swOut r ax == (size - span) / swS r ax + 1

/-- Whether every window of an axis contains an input position (R169). -/
def swFull (r : Bytes) (ax : Nat) : Bool :=
  (List.range (swOut r ax)).all (fun o => (List.range (swK r ax)).any (fun k => (swPos r ax o k).isSome))

/-- Input regions: every row of every channel of every batch entry (R167), and the weights (R171). -/
def swReads (r : Bytes) (u : Nat) : List Region :=
  let x := ((List.range (swBatch r)).map (fun b => ((List.range (u16 r 44)).map (fun c =>
    rowRegions 0 u (u32 r 28 + b * u32 r 72 + c * u32 r 68) (u32 r 64) (swIn r 0) (swIn r 1 * fmtBytes (byteAt r 18)))).flatten)).flatten
  x ++ (if swOp r = 0 then [⟨0, u, u32 r 32, swCout r * swK r 0 * swK r 1 * swCg r * fmtBytes (byteAt r 19)⟩] else [])

/-- Output planes: `n` channels of Y. -/
def swPlanes (r : Bytes) (u n : Nat) : List Region :=
  ((List.range (swBatch r)).map (fun b => ((List.range n).map (fun c =>
    rowRegions 0 u (u32 r 36 + b * u32 r 84 + c * u32 r 80) (u32 r 76) (swOut r 0) (swOut r 1 * fmtBytes (byteAt r 20)))).flatten)).flatten
/-- Index plane (R180). -/
def swIdxPlane (r : Bytes) (u : Nat) : List Region :=
  ((List.range (swBatch r)).map (fun b => rowRegions 0 u (u32 r 40 + b * u32 r 116) (u32 r 112) (swOut r 0) (swOut r 1 * 2))).flatten
/-- Values that the record writes. -/
def swValues (r : Bytes) (u : Nat) : List Region :=
  if !swFlag r 1 then swPlanes r u (swCout r) else if swFlag r 2 then swPlanes r u 1 else []
/-- Everything the record writes: values, then indices. -/
def swWrites (r : Bytes) (u : Nat) : List Region := swValues r u ++ (if swFlag r 1 then swIdxPlane r u else [])

/-- Whether no region of one list meets one of another. -/
def apart (a b : List Region) : Bool := a.all (fun x => b.all (fun y => !x.meets y))

/-- Ranges of the fields of R168. -/
def swFields (r : Bytes) : Bool :=
  let conv := swOp r == 0
  recClass r == 0x07 && decide (swOp r ≤ 4) && decide (byteAt r 17 < 32) &&
    decide (byteAt r 18 ≤ 4 ∧ byteAt r 20 ≤ 4) && (if conv then decide (1 ≤ byteAt r 18 ∧ 1 ≤ byteAt r 19 ∧ byteAt r 19 ≤ 4) else byteAt r 19 == 0) &&
    [0, 1].all (fun ax => decide (1 ≤ swK r ax ∧ 1 ≤ swS r ax ∧ 1 ≤ swD r ax ∧ 1 ≤ swIn r ax ∧ 1 ≤ swOut r ax) && (conv || swD r ax == 1)) &&
    decide (1 ≤ swBatch r ∧ 1 ≤ u16 r 44 ∧ 1 ≤ swCout r ∧ 1 ≤ u16 r 48) &&
    (conv || (u32 r 32 == 0 && swCout r == u16 r 44 && u16 r 48 == 1)) && u16 r 44 % u16 r 48 == 0 && swCout r % u16 r 48 == 0 &&
    (!(swFlag r 1 && !swFlag r 2) || u32 r 36 == 0) && (swFlag r 1 || u32 r 40 == 0) && zeroAt r 58 6 && zeroAt r 120 8 &&
    decide (swIn r 1 * fmtBytes (byteAt r 18) ≤ u32 r 64 ∧ swOut r 1 * fmtBytes (byteAt r 20) ≤ u32 r 76)

/-- Legality of a sliding-window record of operation `op` (R167 to R170). Any NaN counts as a PAD_VALUE that X_FMT represents, where X_FMT has a NaN: the
manual does not say (R169; DESIGN CHOICE, log entry 55). -/
def swLegal (op : Nat) (r : Bytes) : Bool :=
  let pool := op == 1 || op == 2
  let conv := op == 0
  swOp r == op && swFields r &&
    (if conv || pool then swGeom r 0 && swGeom r 1 else [0, 1].all (fun ax => swK r ax == 1 && swS r ax == 1) && byteAt r 24 == 0 && byteAt r 25 == 0) &&
    (!pool || (swFull r 0 && swFull r 1)) &&
    (let f := plainFmt (byteAt r 18); let x := dec32 (u32 r 92); let y := f.decode (f.convert .rne false 0 x); x == .nan && y == .nan || enc32 y == u32 r 92) &&
    (!swFlag r 0 || (conv && byteAt r 20 == 0 && u32 r 88 == 0x3F800000 && !swFlag r 1)) &&
    (!swFlag r 1 || conv) && (!swFlag r 2 || swFlag r 1) && (!swFlag r 3 || op == 2) && (!swFlag r 4 || op == 3 || op == 4) &&
    (conv || u32 r 88 == 0x3F800000) && apart (swWrites r 0) (swReads r 0) && (!swFlag r 1 || apart (swValues r 0) (swIdxPlane r 0))

/-- Input element (b, c, y, x) (R167). -/
def State.swX (s : State) (k : RunCtx) (r : Bytes) (b c y x : Nat) : Fp :=
  s.val k.c 0 k.u (byteAt r 18) (u32 r 28 + b * u32 r 72 + c * u32 r 68 + y * u32 r 64 + x * fmtBytes (byteAt r 18))

/-- Input of output (oy, ox) at tap (kh, kw) in channel `c`; none where it is padded. -/
def State.swTap (s : State) (k : RunCtx) (r : Bytes) (b c oy ox kh kw : Nat) : Option Fp :=
  match swPos r 0 oy kh, swPos r 1 ox kw with
  | some y, some x => some (s.swX k r b c y x)
  | _, _ => none

/-- Address of output element (b, co, oy, ox) (R167). -/
def swYaddr (r : Bytes) (b c y x : Nat) : Nat := u32 r 36 + b * u32 r 84 + c * u32 r 80 + y * u32 r 76 + x * fmtBytes (byteAt r 20)

/-- The accumulator of a convolution output (R171 to R173, R175). -/
def State.swConv (s : State) (k : RunCtx) (r : Bytes) (b co oy ox : Nat) : Fp :=
  let cg := swCg r
  let kh := swK r 0
  let kw := swK r 1
  let g := co / (swCout r / u16 r 48)
  let wz := fmtBytes (byteAt r 19)
  let prod := fun (c i j : Nat) =>
    fmul ((s.swTap k r b (g * cg + c) oy ox i j).getD (dec32 (u32 r 92)))
      (s.val k.c 0 k.u (byteAt r 19) (u32 r 32 + ((co * kh + i) * kw + j) * cg * wz + c * wz))
  let init := if swFlag r 0 then s.val k.c 0 k.u 0 (swYaddr r b co oy ox) else fpZero
  if swDiag r then dotAcc 1 init (cg * kh * kw) (fun t => prod (t / (kh * kw)) (t / kw % kh) (t % kw))
  else dotAcc (min (rateOf (byteAt r 18)) (rateOf (byteAt r 19))) init (cg * kh * kw) (fun t => prod (t % cg) (t / cg / kw) (t / cg % kw))

/-- Values of a window's taps in the order of R176, with none for a padded tap. -/
def State.swTaps (s : State) (k : RunCtx) (r : Bytes) (b c oy ox : Nat) : List (Option Fp) :=
  (List.range (swK r 0 * swK r 1)).map (fun t => s.swTap k r b c oy ox (t / swK r 1) (t % swK r 1))

/-- Max pool of a window (R176). -/
def maxTaps (l : List (Option Fp)) : Fp :=
  match l.filterMap id with
  | [] => fpZero
  | a :: t => t.foldl fmax a

/-- Sum of an average pool: from the first value that is not padded; a later padded tap adds +0 with PAD_COUNT (R176; an earlier
one adds nothing: DEDUCED, log entry 6). -/
def sumTaps (pad : Bool) (l : List (Option Fp)) : Fp :=
  match l.dropWhile (fun o => o.isNone) with
  | [] => fpZero
  | a :: t => t.foldl (fun acc o => match o with | some x => fadd acc x | none => if pad then fadd acc fpZero else acc) (a.getD fpZero)

/-- Average pool of a window (R176). -/
def avgTaps (pad : Bool) (l : List (Option Fp)) : Fp :=
  fmulR (sumTaps pad l) (rnOf (if pad then l.length else (l.filterMap id).length))

/-- The coordinate q of R177 on an axis. -/
def swCoord (r : Bytes) (ax o : Nat) : Nat :=
  let ni := swIn r ax
  let no := swOut r ax
  let q := if !swFlag r 4 then (2 * o + 1) * ni * 65536 / (2 * no) - 32768 else if no = 1 then 0 else o * (ni - 1) * 65536 / (no - 1)
  min q ((ni - 1) * 65536)

/-- i0, i1 of R177. -/
def swPair (r : Bytes) (ax q : Nat) : Nat × Nat := (q / 65536, min (q / 65536 + 1) (swIn r ax - 1))

/-- w0 and w1 of R177, exact. -/
def swWeights (q : Nat) : Fp × Fp := (.fin false (65536 - q % 65536) (-16), .fin false (q % 65536) (-16))

/-- Bilinear resize of one output (R178). -/
def State.swBilinear (s : State) (k : RunCtx) (r : Bytes) (b c oy ox : Nat) : Fp :=
  let qy := swCoord r 0 oy
  let qx := swCoord r 1 ox
  let iy := swPair r 0 qy
  let ix := swPair r 1 qx
  let wy := swWeights qy
  let wx := swWeights qx
  let x := s.swX k r b c
  let top := fma (x iy.1 ix.2) wx.2 (fmulR (x iy.1 ix.1) wx.1)
  let bot := fma (x iy.2 ix.2) wx.2 (fmulR (x iy.2 ix.1) wx.1)
  fma bot wy.2 (fmulR top wy.1)

/-- Nearest resize of one output (R178). -/
def State.swNearest (s : State) (k : RunCtx) (r : Bytes) (b c oy ox : Nat) : Fp :=
  let near := fun (ax o : Nat) => let q := swCoord r ax o; if 32768 ≤ q % 65536 then (swPair r ax q).2 else (swPair r ax q).1
  s.swX k r b c (near 0 oy) (near 1 ox)

/-- The result of output (b, c, oy, ox) before rounding to Y_FMT (R175). -/
def State.swResult (s : State) (k : RunCtx) (r : Bytes) (b c oy ox : Nat) : Fp :=
  match swOp r with
  | 0 => fmul (s.swConv k r b c oy ox) (dec32 (u32 r 88))
  | 1 => maxTaps (s.swTaps k r b c oy ox)
  | 2 => avgTaps (swFlag r 3) (s.swTaps k r b c oy ox)
  | 3 => s.swBilinear k r b c oy ox
  | _ => s.swNearest k r b c oy ox

/-- The code of output (b, c, oy, ox) in Y_FMT (R175). -/
def State.swCode (s : State) (k : RunCtx) (r : Bytes) (b c oy ox : Nat) : Nat :=
  k.cvt (byteAt r 20) (ldesc r 96 b (c * swOut r 0 + oy) ox) (s.swResult k r b c oy ox)

/-- The run of a sliding-window record: values, then indices (R175, R180). -/
def swRun (r : Bytes) (s : State) (k : RunCtx) : RunOut :=
  let z := fmtBytes (byteAt r 20)
  let h := swOut r 0
  let w := swOut r 1
  let rows := fun (n : Nat) (f : Nat → Nat → Nat → Wr) =>
    ((List.range (swBatch r)).map (fun b => ((List.range n).map (fun c => (List.range h).map (f b c))).flatten)).flatten
  if !swFlag r 1 then
    { groups := [rows (swCout r) (fun b c y => ⟨0, k.u, swYaddr r b c y 0, catN w (fun x => toLe z (s.swCode k r b c y x))⟩)] }
  else
    let best := fun (b y x : Nat) => argmaxOf (byteAt r 20) ((List.range (swCout r)).map (fun c => s.swCode k r b c y x))
    let vals := if swFlag r 2 then [rows 1 (fun b _ y => ⟨0, k.u, swYaddr r b 0 y 0, catN w (fun x => toLe z (best b y x).2)⟩)] else []
    { groups := vals ++ [rows 1 (fun b _ y => ⟨0, k.u, u32 r 40 + b * u32 r 116 + y * u32 r 112, catN w (fun x => toLe 2 (best b y x).1)⟩)] }

/-- Issues a sliding-window record of operation `op`. -/
def issueWindow (op u : Nat) (r : Bytes) (env : RunEnv) (s : State) : Host.Outcome State Fault Refusal :=
  issue u r env (swLegal op r) (swReads r u) (swWrites r u) (swRun r) s

/-- CONVOLUTION (R171). -/
def execConvolution (u : Fin 256) (r : Bytes) (env : RunEnv) (s : State) : Host.Outcome State Fault Refusal := issueWindow 0 u r env s
/-- MAX_POOL (R176). -/
def execMaxPool (u : Fin 256) (r : Bytes) (env : RunEnv) (s : State) : Host.Outcome State Fault Refusal := issueWindow 1 u r env s
/-- AVERAGE_POOL (R176). -/
def execAveragePool (u : Fin 256) (r : Bytes) (env : RunEnv) (s : State) : Host.Outcome State Fault Refusal := issueWindow 2 u r env s
/-- BILINEAR_RESIZE (R178). -/
def execBilinearResize (u : Fin 256) (r : Bytes) (env : RunEnv) (s : State) : Host.Outcome State Fault Refusal := issueWindow 3 u r env s
/-- NEAREST_RESIZE (R178). -/
def execNearestResize (u : Fin 256) (r : Bytes) (env : RunEnv) (s : State) : Host.Outcome State Fault Refusal := issueWindow 4 u r env s

end Sys2Proof.Machine
end

