-- ==== Sys2Proof/Machine/Units.lean ====
section
/-! DEFINITION. Checker export and compare, class 0x10 (R165, R440, R444), and what the retirement of a record brings about (R23, R62, R164, R332, R356, R401, R412). -/

namespace Sys2Proof.Machine

/-- Legality of a checker record of mode `m` (R165). -/
def checkLegal (m : Nat) (r : Bytes) : Bool := recClass r == 0x10 && byteAt r 16 == m && byteAt r 17 < 16 && u32 r 20 % 8 == 0 && zeroAt r 24 40

/-- A digest slot of a tile; 0 when nothing has filled it (R165). -/
def State.digest (s : State) (u slot : Nat) : W64 := tget (fun _ => 0#64) (s.unit u).digests slot

/-- Clears a digest slot. -/
def State.clearDigest (s : State) (u slot : Nat) : State := s.modUnit u (fun x => { x with digests := tdel x.digests slot })

/-- CHECKER_EXPORT (R165). -/
def execCheckerExport (u : Fin 256) (r : Bytes) (env : RunEnv) (s : State) : Host.Outcome State Fault Refusal :=
  let slot := byteAt r 17
  let reg : Region := ⟨0, u, u32 r 20, 8⟩
  issueG u r env.late (checkLegal 0 r) true [reg] (fun c s =>
    (s.afterRun c u r env [] [reg] { groups := [[⟨0, u, u32 r 20, toLe 8 (s.digest u slot).toNat⟩]] }).clearDigest u slot) s

/-- The tile that runs the primary record of a shadow pair in this role: the one whose frames hold a DIGEST record with that ID (R440, R441). -/
def State.primaryTile (s : State) (c id : Nat) : Option Nat :=
  (List.range 256).find? (fun t => (s.frameRecords c t).any (fun r => recDigest r && !recShadow r && recId r == id))

/-- A digest mismatch (R165, R443, R444, R449): the context is poisoned, the event is written against both tiles, and when it recurs both
tiles become suspects to sweep. -/
def State.digestMismatch (s : State) (c u id : Nat) : State :=
  let tiles := u :: ((s.primaryTile c id).filter (fun t => t != u)).toList
  let k := s.histUnit u
  let again := s.recurs c 2 id (unitKey k.1 k.2)
  let s := (((s.opFault c u id 0x0B).poisonCtx c).unclean c).count Reg.CHK_DIGEST_COUNT
  let s := ((s.event Reg.CHK_EVENT 1).setLast u id).noteMismatch c 2 id (unitKey k.1 k.2)
  let s := s.over tiles (fun s t => let k := s.histUnit t; s.unitEvent k.1 k.2 0x02 false (some (c, id)))
  if again then { s.event Reg.CHK_EVENT 4 with chk := { s.chk with suspects := s.chk.suspects ++ tiles.map (fun t => (t, 0)) } }
  else s

/-- CHECKER_COMPARE (R165). -/
def execCheckerCompare (u : Fin 256) (r : Bytes) (env : RunEnv) (s : State) : Host.Outcome State Fault Refusal :=
  let slot := byteAt r 17
  let reg : Region := ⟨0, u, u32 r 20, 8⟩
  issueG u r env.late (checkLegal 1 r) true [reg] (fun c s =>
    let same := decide ((s.digest u slot).toNat = le (s.rd c 0 u (u32 r 20) 8) 0 8)
    let s := (s.afterRun c u r env [reg] [] { groups := [] }).clearDigest u slot
    if same then s else s.digestMismatch c u (u16 r 18)) s

/-! Retirement. -/

/-- A field of the vote word from its FP32 value (R356): the integer it holds, brought into 0 to 15 (DEDUCED, log entry 9). -/
def voteField (x : Fp) : Nat :=
  match x with
  | .fin false m e => min 15 (if 0 ≤ e then m * 2 ^ e.toNat else m / 2 ^ (-e).toNat)
  | .inf false => 15
  | _ => 0

/-- The vote word packed from the vote vector at MED_VOTE_ADDR (R31, R356). -/
def State.packVote (s : State) (c : Nat) : Nat :=
  let v := s.vals c 2 0 0 (s.regN (Reg.MED_VOTE_ADDR c)) (imgVoteFields (s.ctx c).image)
  (List.zip (List.range v.length) v).foldl (fun w p => w + voteField p.2 * 16 ^ p.1) 0

/-- The vote word recorded for the epoch that a replay produces (R35, R88). -/
def State.recordedVote (s : State) (c : Nat) : Option Nat :=
  if s.replaying c then ((s.ctx c).log.find? (fun e => e.epoch == (s.hasp c).tag)).map (fun e => e.vote.toNat) else none

/-- The end of the vote tumbler (R34, R35, R356): the word is packed, or taken from the record in a replay; the holder of seat 0 sends the
vote notice. -/
def State.takeVote (s : State) (c : Nat) : State :=
  let w := (s.recordedVote c).getD (s.packVote c)
  let s := (s.setRegN (Reg.FAB_VOTE_LO c) w).setRegN (Reg.FAB_VOTE_HI c) (w / 2 ^ 32)
  let s := s.modHasp c (fun h => { h with vote := BitVec.ofNat 64 w, votedVariant := some (imgVariantOf (s.ctx c).image w) })
  if s.seatOf c = some 0 then
    s.sendMsg s.masterAddr (some c) (toLe 2 0x0001 ++ toLe 1 c ++ zeros 1 ++ toLe 4 (s.hasp c).tag ++ toLe 8 w)
  else s

/-- Whether a retiring record ends the vote tumbler: in the variant's VOTE_TICK, it wrote the vote vector (R33, R356; DEDUCED, log
entry 9). -/
def State.endsVote (s : State) (c : Nat) (o : OpenRec) : Bool :=
  let h := s.hasp c
  h.stepOpen && h.stepTick == imgVoteTick (s.ctx c).image h.variant &&
    o.wrote.any (fun g => g.meets ⟨2, 0, s.regN (Reg.MED_VOTE_ADDR c), 64⟩)

/-- What the retirement of the oldest record of a unit brings about. -/
def State.retire (s : State) (u : Nat) (o : OpenRec) (tc : Nat) : State :=
  let c := o.ctx
  let s := s.modUnit u (fun x => { x with queue := x.queue.drop 1, retired := x.retired + 1 })
  let s := s.account c (if u < 256 then 0 else if u < 272 then 1 else 2) tc
  let s := s.over o.wrote (fun s g => s.dirty c g.space g.unit g.addr g.len)
  let s := if recClass o.bytes = 0x0C then
      s.modLink (xfLink o.bytes) (fun l => { l with bound := l.bound ++ [⟨c, xfRes o.bytes, xfStage o.bytes, xfBytes o.bytes⟩] })
    else s
  if s.endsVote c o then s.takeVote c else s

/-- RECORD_RETIRE (R23): the oldest record of the unit retires, unless it is a wait still unsatisfied; a record whose generation is stale is
discarded (R68). -/
def execRecordRetire (u : Fin 288) (tc : Nat) (s : State) : Host.Outcome State Fault Refusal :=
  match (s.unit u).queue with
  | [] => .next s
  | o :: _ =>
    if s.unsatisfied u o then .next s
    else if o.gen ≠ (s.hasp o.ctx).gen then .next (s.modUnit u (fun x => { x with queue := x.queue.drop 1 }))
    else .next (s.retire u o tc)

end Sys2Proof.Machine
end

