-- ==== Sys2Proof/Machine/Regions.lean ====
section
/-! DEFINITION. The rules of every record class in one place: whether a record is legal for its class (R133, plan check 6), and the regions that it writes when it runs, which the device poisons when it abandons the record (R61). -/

namespace Sys2Proof.Machine

/-- Whether a record is legal for its class on unit `u` (R133, plan check 6). -/
def recLegal (r : Bytes) (u : Nat) : Bool :=
  headLegal r u &&
  match recClass r with
  | 0x01 => matLegal r
  | 0x02 => chainLegal r
  | 0x03 => [0, 1, 2, 3, 4].any (fun op => redLegal op r)
  | 0x04 => smLegal false r || smLegal true r
  | 0x05 => nmLegal false r || nmLegal true r
  | 0x06 => rlLegal r
  | 0x07 => [0, 1, 2, 3, 4].any (fun op => swLegal op r)
  | 0x08 => [0, 1, 2].any (fun m => atLegal m r)
  | 0x09 => mgLegal r
  | 0x0A => [0, 1, 2].any (fun m => gsLegal m r)
  | 0x0B => qzLegal false r || qzLegal true r
  | 0x0C => sendLegal r
  | 0x0D => [0, 1, 2].any (fun m => recvLegal m r)
  | 0x0E => dmFields r && (!recNext r || (dmSpace r false == 3 && decide (dmSpace r true ≤ 1)))
  | 0x0F => [0, 1, 2].any (fun op => boltLegal op r)
  | 0x10 => checkLegal 0 r || checkLegal 1 r
  | c => upLegal c r

/-- The regions that a record of context `c` on unit `u` writes when it runs in this state; a shadow record writes none (R137). -/
def State.recOuts (s : State) (c u : Nat) (r : Bytes) : List Region :=
  if recShadow r then [] else
  let q := s.upCtx c (u - 272) r
  let w := q.w
  match recClass r with
  | 0x01 => matWrites r u
  | 0x02 => chainWrites r u
  | 0x03 => rowWrites r u 1
  | 0x04 => rowWrites r u (u32 r 36)
  | 0x05 => rowWrites r u (u32 r 36)
  | 0x06 => rlWrites r u
  | 0x07 => swWrites r u
  | 0x08 => s.atOuts (s.runCtx c u r) r
  | 0x09 => mgWrites r u
  | 0x0A => if gsLegal 0 r then gsLocal r u else gsTable r u
  | 0x0B => if qzLegal true r then qzPlain r u else qzPlanes r u
  | 0x0C => if sendBinds r then [] else sendWrites r
  | 0x0D => [recvDst r u]
  | 0x0E =>
    if recNext r then
      match s.entryOf c r (u - 256) with
      | some l => [(s.nextMove c r l).2]
      | none => []
    else dmRegion r (u - 256) (s.frameArg c) true
  | 0x0F => if byteAt r 16 = 0 then (boltGuard r u).toList else []
  | 0x10 => if byteAt r 16 = 0 then [⟨0, u, u32 r 20, 8⟩] else []
  | 0x20 => s.elemOuts q r q.x
  | 0x22 => [⟨2, 0, u32 r 68, 8⟩]
  | 0x23 => [s.lsRegion q r q.x]
  | 0x24 => if s.skips q r then carryRegions r w q.x else []
  | 0x25 => orthoOuts r w q.x
  | 0x26 => kstatOuts r w q.x
  | 0x27 => krootOuts r w q.x
  | 0x28 => kapplyOuts r w q.x
  | 0x29 => s.variantOuts q r
  | _ => []

end Sys2Proof.Machine
end

