-- ==== Sys2Proof/Machine/PlanImage.lean ====
section
/-! DEFINITION. A plan image as the plan check reads it: the parts that check 1 accepts (R27 to R30, R632, R633), and the roles, variants, frames and ledgers read out of them once. -/

namespace Sys2Proof.Machine

/-- The first failure of the plan check: check, role, frame, unit (R40, R526). -/
structure PlanFault where
  check : Nat
  role : Nat
  frame : Nat
  unit : Nat
  deriving DecidableEq, Repr

/-- RESULT of a failed PLAN_LOAD (R526). -/
def PlanFault.result (f : PlanFault) : Nat := f.check % 2 ^ 8 + f.role % 2 ^ 12 * 2 ^ 8 + f.frame % 2 ^ 16 * 2 ^ 20 + f.unit % 2 ^ 9 * 2 ^ 36
/-- Status of a failed plan check: NO_SPACE for check 11, MALFORMED otherwise (R40). -/
def PlanFault.status (f : PlanFault) : Nat := if f.check = 11 then 8 else 7

/-! Check 1. -/

/-- The header (R27). -/
def hdrOk (b : Bytes) : Bool :=
  let h := sliceZ b 0 256
  u64 h 8 == b.length && b.length % 64 == 0 && decide (256 ≤ b.length) && u32 h 0 == 0x4C504B49 && byteAt h 4 == 1 && byteAt h 5 == 0 && u16 h 6 == 256 &&
    decide (1 ≤ u16 h 34 ∧ u16 h 34 ≤ 32768 ∧ 1 ≤ u16 h 36 ∧ u16 h 36 ≤ 4096 ∧ 1 ≤ byteAt h 38 ∧ byteAt h 38 ≤ 64 ∧ 1 ≤ byteAt h 39 ∧ byteAt h 39 ≤ 16 ∧
      1 ≤ u32 h 40 ∧ u32 h 40 ≤ 65536) && zeroAt h 44 16 && u32 h 60 == crc32c (patch h 60 (zeros 4))

/-- One directory entry (R28). -/
def sectionOk (b : Bytes) (i : Nat) : Bool :=
  let e := imgSectionAt b i
  if e.type = 0 then zeroAt b (64 + 24 * i) 24
  else decide (e.type ≤ 7) && zeroAt b (66 + 24 * i) 2 && e.off % 64 == 0 && decide (256 ≤ e.off ∧ e.off + e.size ≤ b.length) &&
    crc32c (slice b e.off e.size) == e.crc

/-- Whether sections share no byte. -/
def sectionsApart : List Section → Bool
  | [] => true
  | x :: t => t.all (fun y => decide (x.off + x.size ≤ y.off ∨ y.off + y.size ≤ x.off)) && sectionsApart t

/-- The directory (R28): types 1 to 7 once each, sections inside the image and apart. -/
def directoryOk (b : Bytes) : Bool :=
  let l := imgSections b
  (List.range 8).all (sectionOk b) && l.length == 7 && (List.range 7).all (fun i => l.any (fun x => x.type == i + 1)) &&
    sectionsApart (l.filter (fun x => x.size != 0))

/-- The bytes of a section. -/
def secBytes (b : Bytes) (ty : Nat) : Bytes := let x := imgSection b ty; slice b x.off x.size

/-- The first `n` directory entries of eight bytes: offset and count (R30). -/
def dirEnts : Nat → Bytes → List (Nat × Nat)
  | 0, _ => []
  | n + 1, l => (le l 0 6, u16 l 6) :: dirEnts n (l.drop 8)

/-- The FRAMES entries of 16 bytes: directory offset, directory size, reserved field. -/
def frameEnts : Nat → Bytes → List (Nat × Nat × Nat)
  | 0, _ => []
  | n + 1, l => (u64 l 0, u32 l 8, u32 l 12) :: frameEnts n (l.drop 16)

/-- A frame directory of PROGRAMS: its records inside PROGRAMS at 64-byte alignment (R132), its reservations inside LINKS. -/
def frameDirOk (progs : Bytes) (links : Nat) (off : Nat) : Bool :=
  let l := dirEnts 336 (progs.drop off)
  (l.take 288).all (fun e => e.2 == 0 || (e.1 % 64 == 0 && decide (e.1 + ((recsAt progs e.1 e.2).map List.length).foldl (· + ·) 0 ≤ progs.length))) &&
    (l.drop 288).all (fun e => e.2 == 0 || decide (e.1 + 16 * e.2 ≤ links))

/-- ROLES, VARIANTS, FRAMES, PROGRAMS and LINKS (R28 to R30): the tick lists lie after the variant entries. -/
def partsOk (b : Bytes) : Bool :=
  let vs := secBytes b 2
  let ps := secBytes b 4
  let nv := imgVariants b
  let nf := imgRoles b * imgFrames b
  (imgSection b 1).size == 2 * imgSeats b && decide (32 * nv ≤ vs.length) &&
    (List.range nv).all (fun v => zeroAt vs (32 * v + 24) 8 && decide (32 * nv ≤ u64 vs (32 * v + 16) ∧ u64 vs (32 * v + 16) + 8 * u32 vs (32 * v + 8) ≤ vs.length)) &&
    (imgSection b 3).size == 16 * nf && (imgSection b 5).size % 16 == 0 &&
    (frameEnts nf (secBytes b 3)).all (fun e => e.2.1 == 2688 && e.2.2 == 0 && decide (e.1 + 2688 ≤ ps.length) && frameDirOk ps (imgSection b 5).size e.1)

/-- One region entry of the LEDGER (R632). UNIT of a BOLT entry, which names no store, may hold anything (DESIGN CHOICE, log entry 52). -/
def imgRegionOk (e : Bytes) : Bool :=
  let kind := byteAt e 0
  let space := byteAt e 1
  let unit := u16 e 2
  let flags := byteAt e 4
  let half := u32 e 24
  decide (1 ≤ kind ∧ kind ≤ 11 ∧ space ≤ 4) && flags < 4 && zeroAt e 5 3 && (kind != 9 || space == 0) && (kind != 10 || space == 0) &&
    (if kind = 3 ∨ kind = 4 then decide (unit < 288) else if kind = 9 then true else if space = 0 then decide (unit < 256)
     else if space = 1 then decide (unit < 16) else unit == 0xFFFF) &&
    (if [1, 3, 4, 5, 6].contains kind then decide (cdiv (u64 e 16) 64 ≤ half) else kind == 10 || half == 0) &&
    bit flags 1 == [1, 6, 11].contains kind && (!bit flags 0 || [1, 3, 4].contains space) && ([5, 7, 10].contains kind || u32 e 28 == 0)

/-- The LEDGER section (R632). -/
def ledgerOk (b : Bytes) : Bool :=
  let l := secBytes b 6
  decide (16 * imgRoles b ≤ l.length) && (List.range (imgRoles b)).all (fun r =>
    let off := u64 l (16 * r)
    let n := u32 l (16 * r + 8)
    off % 64 == 0 && u32 l (16 * r + 12) == 0 && decide (off + 32 * n ≤ l.length) && (List.range n).all (fun i => imgRegionOk (sliceZ l (off + 32 * i) 32)))

/-- The first `n` words of four bytes. -/
def words32 : Nat → Bytes → List Nat
  | 0, _ => []
  | n + 1, l => u32 l 0 :: words32 n (l.drop 4)

/-- The POWER section (R633): its SIZE, every value finite and not negative, padding zero. The FP32 value -0 does not count as negative (DESIGN CHOICE, log
entry 53). -/
def powerOk (b : Bytes) : Bool :=
  let l := secBytes b 7
  let n := imgRoles b * imgFrames b * imgIntervals b
  l.length == cdiv (4 * n) 64 * 64 && (words32 n l).all (fun v => v < 0x7F800000 || v == 0x80000000) && (l.drop (4 * n)).all (fun x => x == 0#8)

/-- Plan check 1. -/
def imageOk (b : Bytes) : Bool := hdrOk b && directoryOk b && partsOk b && ledgerOk b && powerOk b

/-! The image read out. -/

/-- One role's frame: the records of each unit, and the reservations of each link direction (2 n transmit, 2 n + 1 receive). -/
structure PFrame where
  recs : List (List Bytes)
  links : List (List Resv)
  deriving DecidableEq, Repr

/-- A variant with its tick list: (frame, argument) of each tick. -/
structure PVariant where
  ceilings : Nat
  voteTick : Nat
  ticks : List (Nat × Nat)
  deriving DecidableEq, Repr

/-- An image read out: role of each seat, variants, frames by role, ledger by role. -/
structure PlanView where
  roles : List Nat
  variants : List PVariant
  frames : List (List PFrame)
  ledgers : List (List Ledger)
  deriving DecidableEq, Repr

/-- `n` reservations of 16 bytes. -/
def resvsOf : Nat → Bytes → List Resv
  | 0, _ => []
  | n + 1, l => ⟨u32 l 0, u32 l 4, u32 l 8, u32 l 12⟩ :: resvsOf n (l.drop 16)

/-- A frame read out of its directory. -/
def pframeOf (progs links : Bytes) (off : Nat) : PFrame :=
  let l := dirEnts 336 (progs.drop off)
  ⟨(l.take 288).map (fun e => recsAt progs e.1 e.2), (l.drop 288).map (fun e => resvsOf e.2 (links.drop e.1))⟩

/-- `n` pairs of four-byte words. -/
def pairs32 : Nat → Bytes → List (Nat × Nat)
  | 0, _ => []
  | n + 1, l => (u32 l 0, u32 l 4) :: pairs32 n (l.drop 8)

/-- `n` two-byte words. -/
def words16 : Nat → Bytes → List Nat
  | 0, _ => []
  | n + 1, l => u16 l 0 :: words16 n (l.drop 2)

/-- Splits a list into `n` runs of `k`. -/
def runsOf {α : Type} (k : Nat) : Nat → List α → List (List α)
  | 0, _ => []
  | n + 1, l => l.take k :: runsOf k n (l.drop k)

/-- An image that check 1 accepts, read out. -/
def planView (b : Bytes) : PlanView :=
  let vs := secBytes b 2
  let ps := secBytes b 4
  let ls := secBytes b 5
  { roles := words16 (imgSeats b) (secBytes b 1),
    variants := (List.range (imgVariants b)).map (fun v => ⟨u64 vs (32 * v), u32 vs (32 * v + 12), pairs32 (u32 vs (32 * v + 8)) (vs.drop (u64 vs (32 * v + 16)))⟩),
    frames := runsOf (imgFrames b) (imgRoles b) ((frameEnts (imgRoles b * imgFrames b) (secBytes b 3)).map (fun e => pframeOf ps ls e.1)),
    ledgers := (List.range (imgRoles b)).map (imgLedger b) }

/-- The frame `f` of a role. -/
def PlanView.frame (v : PlanView) (role f : Nat) : PFrame := ((v.frames.getD role []).getD f ⟨[], []⟩)

/-- The ledger of a role. -/
def PlanView.ledger (v : PlanView) (role : Nat) : List Ledger := v.ledgers.getD role []

/-- Each element of a list with its number. -/
def numbered {α : Type} (l : List α) : List (Nat × α) := List.zip (List.range l.length) l

/-- Every program: role, frame, unit, its records. -/
def PlanView.programs (v : PlanView) : List (Nat × Nat × Nat × List Bytes) :=
  ((numbered v.frames).map (fun r => ((numbered r.2).map (fun f => (numbered f.2.recs).map (fun u => (r.1, f.1, u.1, u.2)))).flatten)).flatten

/-- Every link direction: role, frame, 288 + 2 × link + direction, its reservations. -/
def PlanView.linkLists (v : PlanView) : List (Nat × Nat × Nat × List Resv) :=
  ((numbered v.frames).map (fun r => ((numbered r.2).map (fun f => (numbered f.2.links).map (fun u => (r.1, f.1, 288 + u.1, u.2)))).flatten)).flatten

/-- The ticks of every variant in a role: variant, ticks of it, tick index, frame, argument, frame read out. -/
structure PTick where
  variant : Nat
  len : Nat
  t : Nat
  frame : Nat
  arg : Nat
  role : Nat
  deriving DecidableEq, Repr

/-- Every tick of every variant in one role. -/
def PlanView.ticksOf (v : PlanView) (role : Nat) : List PTick :=
  ((numbered v.variants).map (fun x => (numbered x.2.ticks).map (fun t => ⟨x.1, x.2.ticks.length, t.1, t.2.1, t.2.2, role⟩))).flatten

/-- Every tick of every variant in every role. -/
def PlanView.allTicks (v : PlanView) : List PTick := ((List.range v.frames.length).map v.ticksOf).flatten

/-- The programs of one tick: unit and records. -/
def PlanView.tickRecs (v : PlanView) (t : PTick) : List (Nat × List Bytes) := numbered (v.frame t.role t.frame).recs

/-- Bytes of the records of unit `u` in the first frame of variant `i`. -/
def PlanView.firstBytes (v : PlanView) (role u i : Nat) : Nat :=
  match (v.variants[i]?).bind (fun x => x.ticks.head?) with
  | some t => (((v.frame role t.1).recs.getD u []).map List.length).foldl (· + ·) 0
  | none => 0

/-- The largest of them over all variants (R36). -/
def PlanView.firstMax (v : PlanView) (role u : Nat) : Nat := ((List.range v.variants.length).map (v.firstBytes role u)).foldl max 0

/-- The entry regions that a next-variant move of mover `w` names (R38, R163). -/
def entriesOf (l : List Ledger) (r : Bytes) (w : Nat) : List Ledger :=
  l.filter (fun g => g.kind == 4 && g.space == dmSpace r true && g.base == le r 26 6 &&
    (if dmSpace r true = 0 then g.unit == w * 16 + byteAt r 19 else g.unit == 256 + w || g.unit == 272 + w))

/-- The first element that fails, as the fault of a check. -/
def firstBad {α : Type} (check : Nat) (loc : α → Nat × Nat × Nat) (ok : α → Bool) (l : List α) : Option PlanFault :=
  (l.find? (fun x => !ok x)).map (fun x => ⟨check, (loc x).1, (loc x).2.1, (loc x).2.2⟩)

end Sys2Proof.Machine
end

