-- ==== Sys2Proof/Machine/Cycles.lean ====
section
/-! DEFINITION. Cycle counts of every record class (R143, R174, R193, R195, R240) and the bandwidth charges of stacked DRAM and LPDDR (R256 to R258, R282, R283). -/

namespace Sys2Proof.Machine

/-- log2 of a power of two up to 8 (ROOT_P). -/
def lg (n : Nat) : Nat := Nat.log2 n

/-- Nanoseconds as cycles at `f` MHz, rounded up. -/
def nsTc (ns f : Nat) : Nat := cdiv (ns * f) 1000

/-- Bytes per tc between a record and a memory: RATE, or the SRAM rate. -/
def rateQ (rate : Nat) : Nat := if rate = 0 then 2048 else min 2048 rate

/-- Cycles of a matmul (R143). -/
def matCycles (r : Bytes) : Nat :=
  let base := u16 r 44 * cdiv (u16 r 36) 64 * cdiv (u16 r 38) 64 * (cdiv (u32 r 40) (matRho r) + 16)
  base + cdiv (3 * base) 200 + 140 + (if matArgmax r then 2 * (u16 r 44 * cdiv (u16 r 36) 64 * cdiv (u16 r 38) 64) + 16 else 0)

/-- Cycles of a chain (R143). -/
def chainCycles (r : Bytes) : Nat :=
  let ops := (List.range (chStages r)).map (fun i => chWord r i % 256)
  let f := (ops.filter (fun o => 0x10 ≤ o)).length
  let v := ops.length - f
  cdiv (u32 r 36) 128 * max v (4 * f) + 4 * v + 12 * f + 16

/-- Cycles of a relayout: the faster rate when destination dimension 0 is contiguous in the source (R143). -/
def rlCycles (r : Bytes) : Nat :=
  let b := rlCount r * fmtBytes (byteAt r 25)
  cdiv b (if rlStride r (rlPerm r 0) = fmtBytes (byteAt r 24) then 2048 else 256) + 24

/-- Cycles of a gather or scatter (R143). -/
def gsCycles (r : Bytes) : Nat :=
  let add := byteAt r 16 == 2
  cdiv (u32 r 36 * cdiv (u32 r 32) 128) (if add then 8 else 16) + (if byteAt r 17 = 0 then 32 else 44) + (if add then 8 else 0)

/-- Cycles of a sliding-window record (R174). -/
def swCycles (r : Bytes) : Nat :=
  let h := swOut r 0
  let w := swOut r 1
  let k := swK r 0 * swK r 1
  let pool := swBatch r * u16 r 44 * h * cdiv w 128
  match swOp r with
  | 0 =>
    let p := if swDiag r then swBatch r * cdiv w 64 * cdiv (swCout r) 64 else swBatch r * u16 r 48 * cdiv (h * w) 64 * cdiv (swCout r / u16 r 48) 64
    let base := if swDiag r then p * h * swCg r * (k + swS r 1) + 144
      else p * (cdiv (swCg r * k) (min (rateOf (byteAt r 18)) (rateOf (byteAt r 19))) + 16)
    base + cdiv (3 * base) 200 + 140 + (if swFlag r 1 then 2 * p + 16 else 0)
  | 1 => pool * (k + 2) + 32
  | 2 => pool * (k + 2) + 32
  | 3 => pool * 8 + 32
  | _ => pool * 2 + 32

/-- Cycles of one group of `n` rows that share a page list (R193). -/
def atGroup (r : Bytes) (n : Nat) : Nat :=
  let d := atD r
  let q := if byteAt r 20 = 0 then 2048 else rateQ (u32 r 84)
  let fch := cdiv (64 * d * 2 * atKz r) q
  let dr := cdiv d (atRho r) + 16
  if atMode r = 0 then
    let arr := cdiv n 64 * (dr + cdiv d 64 * 80)
    let c := max (max arr (2 * n * (1 + cdiv d 128))) fch
    atH r * atNp r * c + cdiv (3 * atH r * atNp r * arr) 200 + atH r * ((atNp r - 1) * (n * cdiv d 128 + 12)) +
      atH r * (if atFlag r 4 then 0 else n * cdiv d 128)
  else
    let arr := cdiv n 64 * (2 * dr + cdiv d 64 * 80) + 2 * cdiv d 64 * (n + 16)
    let c := max (max arr (4 * n * (1 + cdiv d 128))) fch
    atH r * atNp r * c + cdiv (3 * atH r * atNp r * arr) 200 + atH r * cdiv (n * d) 128

/-- Cycles of an attention block record whose rows form groups of the given sizes, one for each page list (R193). -/
def atCyclesOf (r : Bytes) (f : Nat) (groups : List Nat) : Nat :=
  let q := if byteAt r 20 = 0 then 2048 else rateQ (u32 r 84)
  let app := if atWrites r then cdiv (atR r * atH r * atD r * 2 * atKz r) q + 16 else 0
  if atMode r = 2 then app else (groups.map (atGroup r)).foldl (· + ·) 0 + 140 + (if byteAt r 20 = 3 then nsTc 150 f else 0) + app

/-- Cycles of an attention block record as the plan check counts them. Which rows share a list is in the descriptors, data of the run: with LIST_PITCH 0
every row does; otherwise each row is counted as a group of its own, as in the example of chapter 6, which no division of the rows exceeds (DEDUCED, log
entry 57). -/
def atCycles (r : Bytes) (f : Nat) : Nat := atCyclesOf r f (if u32 r 56 = 0 then [atR r] else List.replicate (atR r) 1)

/-- Cycles of a merge record (R195). -/
def mgCycles (r : Bytes) : Nat :=
  let d := cdiv (mgD r) 128
  (2 ^ byteAt r 17 - 1) * mgH r * (mgR r * d + 12) + 32 + (if mgFinal r then mgH r * mgR r * d + 16 else 0)

/-- Cycles of a DMA move (R143). -/
def dmCycles (r : Bytes) (f : Nat) : Nat :=
  let dram := dmSpace r false == 3 || dmSpace r true == 3
  let lp := dmSpace r false == 4 || dmSpace r true == 4
  cdiv (dmRows r * cdiv (dmRow r) 128 * 128) (rateQ (u32 r 56)) + (if dram then nsTc 150 f else if lp then nsTc 400 f else 0) + 16

/-- Cycles of one engine matrix product (R240). -/
def upPass (rho a b c : Nat) : Nat := cdiv a 64 * cdiv b 64 * (cdiv c rho + 16)

/-- Cycles of an update record of class `cls` with `k` state planes and gradients of `g` bytes, its rule block `rule` (R240). -/
def upCyclesAs (cls k g f : Nat) (rule r : Bytes) : Nat :=
  let q := rateQ (u32 r 88)
  let t0 := if u32 r 88 = 0 then 48 else 48 + nsTc 150 f
  let s := upSz r
  let w := if upSplit r then 8 else 10
  let m := upM r
  let n := upN r
  let p := min m n
  let u := max m n
  let pass := upPass (if upBf16 r then 4 else 1)
  let elem := max (cdiv (upCount r) 256) (cdiv (upCount r * (g + w + 2 * s * k)) q) + t0
  match cls with
  | 0x20 => elem
  | 0x21 => cdiv (upCount r) 256 + cdiv (upCount r * g) 2048 + 48
  | 0x22 => 64
  | 0x23 => 16 + t0
  | 0x25 => max 1 (byteAt rule 44) * (pass p p u + pass p p p + pass p u p + cdiv (2 * p * p + p * u) 256) +
      max (3 * cdiv (m * n) 256) (cdiv (m * n * (g + w + 2 * s)) q) + t0 + 200
  | 0x26 => pass m m n + pass n n m + cdiv (m * m + n * n) 256 + cdiv (m * n * g + 8 * (m * m + n * n)) q + t0
  | 0x27 => max 1 (byteAt rule 46) * ((lg (max 1 (byteAt rule 45)) + 2) * pass m m m + cdiv (m * m) 256) + 2 * cdiv (m * m) 256 +
      cdiv (8 * m * m) q + t0 + 200
  | 0x28 => pass m n m + pass m n n + max (cdiv (m * n) 256) (cdiv (m * n * (g + w) + 4 * p * (m + n)) q) + t0 + 200
  | _ => u32 r 96 * (elem - t0 + 64) + t0

/-- Cycles of an update record (R240); a CARRY costs the class that it covers. -/
def upCycles (f : Nat) (rule r : Bytes) : Nat :=
  if recClass r = 0x24 then upCyclesAs (byteAt r 52) (byteAt r 53) (if byteAt r 52 = 0x20 then 0 else upGz r) f rule r
  else upCyclesAs (recClass r) (rulePlanes rule) (upGz r) f rule r

/-- Cycle count of a record on unit `u` at plan clock `f`, its rule block being `rule` (R143, R174, R193, R195, R240). -/
def recCycles (f u : Nat) (rule r : Bytes) : Nat :=
  match recClass r with
  | 0x01 => matCycles r
  | 0x02 => chainCycles r
  | 0x03 => u32 r 40 * cdiv (u32 r 36) 128 + 44
  | 0x04 => u32 r 40 * (2 * cdiv (u32 r 36) 128 + cdiv (u32 r 36) 32) + 64
  | 0x05 => if bit (byteAt r 35) 0 then u32 r 40 * 2 * cdiv (u32 r 36) 128 + 60 else u32 r 40 * 3 * cdiv (u32 r 36) 128 + 80
  | 0x06 => rlCycles r
  | 0x07 => swCycles r
  | 0x08 => atCycles r f
  | 0x09 => mgCycles r
  | 0x0A => gsCycles r
  | 0x0B => if bit (byteAt r 30) 0 then u32 r 36 * cdiv (u32 r 32) 128 + 20
      else u32 r 36 * cdiv (u32 r 32) 64 + 24 + (match byteAt r 30 / 2 % 4 with | 1 => 8 | 2 => 10 | _ => 0)
  | 0x0C => if sendBinds r then 8 else cdiv (xfBytes r) 512 + 40
  | 0x0D => if xfMode r = 0 then cdiv (xfBytes r) 512 + 40 else cdiv (xfBytes r) 256 + 48
  | 0x0E => dmCycles r f
  | 0x0F => if boltNo r / 4096 = (if u < 256 then u / 16 else u % 16) then 8 else 24
  | 0x10 => 16
  | _ => upCycles f rule r

/-! Bandwidth. -/

/-- What a record moves between the device and a memory: RATE, run length L, the addresses at which runs begin, and whether it writes
(R256). -/
structure Traffic where
  rate : Nat
  run : Nat
  starts : List Nat
  writes : Bool
  critical : Bool
  deriving DecidableEq, Repr

/-- The traffic of a move on one memory (R256, R259). -/
def dmTraffic (r : Bytes) (arg space : Nat) : Option Traffic :=
  let dst := dmSpace r true == space
  if !(dst || dmSpace r false == space) then none
  else
    let whole := u32 r (if dst then 44 else 40) == dmRow r || dmRows r == 1
    some ⟨u32 r 56, if whole then dmRows r * dmRow r else dmRow r,
      if whole then [dmAddr r dst arg 0] else (List.range (dmRows r)).map (dmAddr r dst arg), dst,
      space == 3 && dmSpace r (!dst) == 2⟩

/-- The traffic of a next-variant move on stacked DRAM (R163, R256): the runs that it may copy lie in the image copy, at the addresses given. -/
def nextTraffic (r : Bytes) (space : Nat) (runs : List (Nat × Nat)) : Option Traffic :=
  let runs := runs.filter (fun x => decide (0 < x.2))
  if space ≠ 3 then none
  else some ⟨u32 r 56, (runs.map (fun x => x.2)).foldl min (dmRows r * dmRow r), runs.map (fun x => x.1), false, false⟩

/-- The planes of an update record in its arena: length and address of each half (R256). -/
def upPlaneRuns (k : Nat) (r : Bytes) : List Region :=
  let c := recClass r
  let both := fun (f : Nat → List Region) => f 0 ++ f 1
  match (if c = 0x24 then byteAt r 52 else c) with
  | 0x20 => both (upPlanes r 0 (upCount r) (if c = 0x24 then byteAt r 53 else k))
  | 0x25 => both (upPlanes r 0 (upM r * upN r) (if c = 0x24 then byteAt r 53 else 1))
  | 0x26 => both (kstatOuts r 0)
  | 0x27 => both (fun h => ⟨upSpace r, 0, upHalf r 24 h, upM r * upM r * 4⟩ :: krootOuts r 0 h)
  | 0x28 => both (kapplyOuts r 0) ++ (if c = 0x24 then [] else both (kstatOuts r 0))
  | 0x29 => both (upPlanes r 0 (upCount r) k)
  | _ => [⟨upSpace r, 0, u32 r 64 * 64, 64⟩]

/-- The traffic of a record in a memory, 3 or 4; `k` state planes by its rule block; pages at `kv`; `runs` the stretches
of the image copy that a next-variant move may copy (R256, R283). -/
def traffic (space arg k kv page : Nat) (runs : List (Nat × Nat)) (r : Bytes) : Option Traffic :=
  let c := recClass r
  if c = 0x0E then (if recNext r then nextTraffic r space runs else dmTraffic r arg space)
  else if space ≠ 3 then none
  else if c = 0x08 then
    let l := 64 * atH r * atD r * atKz r
    if byteAt r 20 = 3 then some ⟨u32 r 84, l, [kv, kv + page, kv + l], atWrites r, false⟩ else none
  else if 0x20 ≤ c ∧ c ≤ 0x2F ∧ c ≠ 0x22 ∧ upSpace r = 3 then
    let ps := upPlaneRuns k r
    let pitch := if c = 0x29 then [u32 r 100 * 64] else []
    some ⟨u32 r 88, (ps.map (fun g => g.len)).foldl min ((ps.headD ⟨3, 0, 0, 64⟩).len), ps.map (fun g => g.addr) ++ pitch, c != 0x21, false⟩
  else none

/-- Charge in stacked DRAM, in bytes per tc (R256, R257). -/
def Traffic.dramCharge (t : Traffic) : Nat :=
  let al := t.starts.all (fun a => a % 2048 == 0)
  let by_ := fun (e : Nat) => cdiv (t.rate * 1000) e
  if al && !t.writes && decide (524288 ≤ t.run) then by_ 930
  else if al && decide (2097152 ≤ t.run) then by_ 880
  else if al && decide (2048 ≤ t.run) then by_ 710
  else
    let n := cdiv t.run 512 + b2n (t.starts.any (fun a => a % 512 != 0))
    cdiv (t.rate * 512 * n * 1000) (t.run * 710)

/-- Charge in LPDDR (R283). -/
def Traffic.lpCharge (t : Traffic) : Nat :=
  let al := t.starts.all (fun a => a % 2048 == 0)
  if al && !t.writes && decide (65536 ≤ t.run) then cdiv (t.rate * 1000) 900
  else if al && decide (2048 ≤ t.run) then cdiv (t.rate * 1000) 700
  else
    let n := cdiv t.run 64 + b2n (t.starts.any (fun a => a % 64 != 0))
    cdiv (t.rate * 64 * n * 1000) (t.run * 700)

/-- Capacity of the stack at `f` MHz with a refresh cost of `r` per mille (R258). -/
def dramCap (f r : Nat) : Nat := 32768000 * (1000 - r) / (1000 * f)

/-- Capacity of LPDDR at `f` MHz and `m` MT/s (R282). -/
def lpCap (f m : Nat) : Nat := 64 * m * 940 / (1000 * f)

end Sys2Proof.Machine
end

