-- ==== Sys2Proof/Machine/PlanFlow.lean ====
section
/-! DEFINITION. What the records of a plan read and write, by their fields alone (R634), and the dataflow of a step: plan check 9 (R40, R223, R239, R242, R636). -/

namespace Sys2Proof.Machine

/-! Extents. -/

/-- The rule block that an update record of ward `w` names, as the ward store holds it when the image is checked; a record of another
role, whose blocks lie on other devices, is taken with a block of zeros (DEDUCED, log entry 28). -/
def State.ruleOf (s : State) (c : Nat) (own : Bool) (r : Bytes) (w : Nat) : Bytes :=
  if own ∧ upUses (recClass r) 56 r then s.rd c 1 w (u32 r 56) 64 else zeros 64

/-- The page pool of a context in the space that an attention record names (R634). -/
def State.poolRegion (s : State) (c u : Nat) (r : Bytes) : Region :=
  ⟨byteAt r 20, if byteAt r 20 = 0 then u else 0, s.atPageAddr c r 0, bits (s.regN (Reg.MEM_KV_PAGES c)) 23 0 * bits (s.regN (Reg.MEM_KV_PAGE_BYTES c)) 23 0⟩

/-- Reads of an attention block record (R634). -/
def State.atReadsAll (s : State) (c u : Nat) (r : Bytes) : List Region :=
  let d := atD r
  let q := fun base => rowRegions 0 u base (u32 r 36) (atR r) (atH r * d * fmtBytes (byteAt r 17))
  (if atMode r = 2 then [] else q (u32 r 32)) ++ (if atMode r = 1 then q (u32 r 72) ++ rowRegions 0 u (u32 r 40) (u32 r 44) (atR r) (atH r * d * fmtBytes (byteAt r 19)) ++
      [⟨0, u, u32 r 68, atR r * atH r * 4⟩] else []) ++
    [⟨0, u, u32 r 48, atR r * 16⟩] ++ (if atWrites r then [⟨0, u, u32 r 88, atR r * atH r * d * 8⟩] else []) ++
    (if atMode r = 2 then [] else [s.poolRegion c u r])

/-- Writes of an attention block record (R634). -/
def State.atWritesAll (s : State) (c u : Nat) (r : Bytes) : List Region :=
  let d := atD r
  let olen := if atFlag r 4 then atH r * (d + 2) * 4 else atH r * d * fmtBytes (byteAt r 19)
  (if atMode r = 0 then rowRegions 0 u (u32 r 40) (u32 r 44) (atR r) olen else []) ++ (if atWrites r then [s.poolRegion c u r] else []) ++
    (if atFlag r 5 then [⟨0, u, u32 r 68, atR r * atH r * 4⟩] else []) ++
    (if atMode r = 1 then [⟨0, u, u32 r 76, atR r * atH r * d * 4⟩, ⟨0, u, u32 r 80, atNp r * atH r * d * 512⟩] else [])

/-- Half `h` of the loss-scale record that an update record names, its half distance taken from the ledger (R218). -/
def lsHalf (l : List Ledger) (r : Bytes) (w h : Nat) : Region :=
  let sp := upSpace r
  let u := upUnit w sp
  let a := u32 r 64 * 64
  let d := match l.find? (fun g => g.kind == 1 && g.space == sp && (sp != 1 || g.unit == u) && decide (g.base ≤ a ∧ a < g.base + g.size)) with
    | some g => g.half * 64
    | none => 0
  ⟨sp, u, a + h % 2 * d, 64⟩

/-- Half `h` of the arena regions that an update record writes: its masters, planes, factors or roots. A VARIANT record may meet either half of any
slot (R246). -/
def upArena (k h : Nat) (r : Bytes) (w : Nat) : List Region :=
  match recClass r with
  | 0x20 => upPlanes r w (upCount r) k h
  | 0x24 => carryRegions r w h
  | 0x25 => orthoOuts r w h
  | 0x26 => kstatOuts r w h
  | 0x27 => krootOuts r w h
  | 0x28 => kapplyOuts r w h
  | 0x29 => slotExtents k r w
  | _ => []

/-- Reads of an update record (R634) in a step whose committed epoch has parity `p` (R239). -/
def upReadsAll (l : List Ledger) (k p : Nat) (r : Bytes) (w : Nat) : List Region :=
  let c := recClass r
  let n := if c = 0x20 ∨ c = 0x21 then upCount r else if c = 0x29 then u32 r 96 * upCount r else upM r * upN r
  (if upUses c 17 r then [upGregion r w n] else []) ++ (if upUses c 64 r then [lsHalf l r w p] else []) ++
    (if c ≠ 0x22 ∧ upUses c 68 r then [⟨2, 0, u32 r 68, 8⟩] else []) ++ (if upUses c 56 r then [⟨1, w, u32 r 56, 64⟩] else []) ++
    (if upUses c 60 r then [⟨1, w, u32 r 60, 264⟩] else []) ++ (if c = 0x29 then [⟨1, w, u32 r 92, u32 r 96 * 4⟩] else []) ++ upArena k p r w ++
    (match c with
     | 0x27 => [⟨upSpace r, upUnit w (upSpace r), upHalf r 24 p, upM r * upM r * 4⟩]
     | 0x28 => kstatOuts r w p
     | _ => [])

/-- Writes of an update record (R634), its workspace with them. -/
def upWritesAll (l : List Ledger) (k p : Nat) (r : Bytes) (w : Nat) : List Region :=
  (match recClass r with
   | 0x22 => [⟨2, 0, u32 r 68, 8⟩]
   | 0x23 => [lsHalf l r w (p + 1)]
   | _ => upArena k (p + 1) r w) ++ (if upUses (recClass r) 72 r && recClass r != 0x24 then [⟨1, w, u32 r 72, u32 r 76⟩] else [])

/-- Regions that a record reads (R634): context `c`, ledger of its role, state planes `k`, parity `p` of the committed epoch, frame argument `arg`. -/
def State.readsAll (s : State) (c : Nat) (l : List Ledger) (k p arg u : Nat) (r : Bytes) : List Region :=
  match recClass r with
  | 0x01 => matReads r u
  | 0x02 => chainReads r u
  | 0x03 => rowReads r u
  | 0x04 => smReads r u
  | 0x05 => nmReads r u
  | 0x06 => rlReads r u
  | 0x07 => swReads r u ++ (if swFlag r 0 then swValues r u else [])
  | 0x08 => s.atReadsAll c u r
  | 0x09 => mgReads r u
  | 0x0A => gsIdx r u ++ (if byteAt r 16 = 0 then gsTable r u else gsLocal r u ++ (if byteAt r 16 = 2 then gsTable r u else []))
  | 0x0B => if bit (byteAt r 30) 0 then qzPlanes r u else qzPlain r u
  | 0x0C => if sendBinds r then [] else sendReads r u
  | 0x0D => ⟨2, 0, xfStage r, xfBytes r⟩ :: (if xfMode r = 0 then [] else [recvDst r u])
  | 0x0E => if recNext r then [] else dmRegion r (u - 256) (if recArg r then arg else 0) false
  | 0x0F => []
  | 0x10 => if byteAt r 16 = 1 then [⟨0, u, u32 r 20, 8⟩] else []
  | _ => upReadsAll l k p r (u - 272)

/-- Regions that a record names for its results (R634). A next-variant move names the whole of the half of its entry region that the step after the one
producing E + 1 runs from (R38). -/
def State.writesNamed (s : State) (c : Nat) (l : List Ledger) (k p arg u : Nat) (r : Bytes) : List Region :=
  match recClass r with
  | 0x01 => matWrites r u
  | 0x02 => chainWrites r u
  | 0x03 => rowWrites r u 1
  | 0x04 => rowWrites r u (u32 r 36)
  | 0x05 => rowWrites r u (u32 r 36)
  | 0x06 => rlWrites r u
  | 0x07 => swWrites r u
  | 0x08 => s.atWritesAll c u r
  | 0x09 => mgWrites r u
  | 0x0A => if byteAt r 16 = 0 then gsLocal r u else gsTable r u
  | 0x0B => if bit (byteAt r 30) 0 then qzPlain r u else qzPlanes r u
  | 0x0C => if sendBinds r then [] else sendWrites r
  | 0x0D => [recvDst r u]
  | 0x0E =>
    if recNext r then
      (entriesOf l r (u - 256)).map (fun g => ⟨g.space, if g.space = 0 then g.unit else g.unit % 16, g.halfAt p, g.size⟩)
    else dmRegion r (u - 256) (if recArg r then arg else 0) true
  | 0x0F => []
  | 0x10 => if byteAt r 16 = 0 then [⟨0, u, u32 r 20, 8⟩] else []
  | _ => upWritesAll l k p r (u - 272)

/-- Regions that a record writes: what it names, and none with SHADOW (R137). -/
def State.writesAll (s : State) (c : Nat) (l : List Ledger) (k p arg u : Nat) (r : Bytes) : List Region :=
  if recShadow r then [] else s.writesNamed c l k p arg u r

/-! Dataflow. -/

/-- One read or write of a step: when it begins and ends, which record it belongs to, where it is reported. -/
structure Use where
  from_ : Nat
  to_ : Nat
  of : Nat × Nat
  frame : Nat
  unit : Nat
  write : Bool
  reg : Region
  deriving DecidableEq, Repr

/-- A moment of a step: tick, then offset. -/
def moment (t off : Nat) : Nat := t * 2 ^ 26 + off

/-- The store that a ledger region lies in, as records name it. -/
def Ledger.where_ (g : Ledger) : Nat :=
  if g.kind = 3 ∨ g.kind = 4 then (if g.space = 0 then g.unit else g.unit % 16) else if g.space ≤ 1 then g.unit else 0

/-- Every half of a ledger region. -/
def Ledger.halves (g : Ledger) : List Region :=
  ⟨g.space, g.where_, g.base, g.size⟩ :: (if g.half = 0 ∨ g.kind = 10 then [] else [⟨g.space, g.where_, g.base + g.half * 64, g.size⟩])

/-- Uses of one record, in a step whose committed epoch has parity `e`. -/
def State.recUses (s : State) (c : Nat) (own : Bool) (l : List Ledger) (e : Nat) (p : PTick) (u i : Nat) (r : Bytes) : List Use :=
  let k := rulePlanes (s.ruleOf c own r (u - 272))
  let mk := fun (w : Bool) (g : Region) => (⟨moment p.t (recOffset r), moment p.t (recOffset r + recLength r), (p.t * 512 + u, i), p.frame, u, w, g⟩ : Use)
  (s.readsAll c l k e p.arg u r).map (mk false) ++ (s.writesAll c l k e p.arg u r).map (mk true)

/-- Uses of the reservations of a tick: a transmit reservation reads its staging buffer, a receive reservation writes it (R159, R160). -/
def resvUses (p : PTick) (recs : List (Nat × List Bytes)) (links : List (List Resv)) : List Use :=
  ((recs.map (fun u => (u.2.filter (fun r => recClass r == 0x0C || recClass r == 0x0D)).map (fun r =>
    let rx := recClass r == 0x0D
    let d := 2 * xfLink r + b2n rx
    let x := ((links.getD d [])[xfRes r]?).getD ⟨0, 0, 0, 0⟩
    (⟨moment p.t x.off, moment p.t (x.off + x.len), (p.t * 512 + 288 + d, xfRes r), p.frame, 288 + d, rx, ⟨2, 0, xfStage r, xfBytes r⟩⟩ : Use))))).flatten

/-- Uses of one tick. -/
def State.tickUses (s : State) (c : Nat) (own : Bool) (v : PlanView) (e : Nat) (p : PTick) : List Use :=
  ((v.tickRecs p).map (fun u => ((numbered u.2).map (fun r => s.recUses c own (v.ledger p.role) e p u.1 r.1 r.2)).flatten)).flatten ++
    resvUses p (v.tickRecs p) (v.frame p.role p.frame).links

/-- Whether regions, taken together, cover one. -/
def covered (g : Region) (l : List Region) : Bool :=
  let l := sortBy (fun a b => decide (a.addr ≤ b.addr)) (l.filter (fun x => x.meets g))
  decide (g.addr + g.len ≤ l.foldl (fun at_ x => if x.addr ≤ at_ then max at_ (x.addr + x.len) else at_) g.addr)

/-- What counts as written before tick 0 of a step whose committed epoch has parity `e` (R636): the half that the step reads as committed of an ARENA,
LATE or CARRY region, the half of an ENTRY region that it runs from (R38), and PRELOADED regions. -/
def preWritten (l : List Ledger) (e : Nat) : List Region :=
  (l.map (fun g =>
    let at_ := fun (h : Nat) => (⟨g.space, g.where_, g.halfAt h, g.size⟩ : Region)
    (if [1, 5, 6].contains g.kind then [at_ e] else if g.kind = 4 then [at_ (e + 1)] else []) ++ (if bit g.flags 0 then g.halves else []))).flatten

/-- Whether two uses of one step disturb each other: a write that is under way while another record reads the bytes (R40 check 9). -/
def clashes (a w : Use) : Bool := w.write && !a.write && a.of != w.of && a.reg.meets w.reg && decide (w.from_ < a.to_ ∧ a.from_ < w.to_)

/-- Whether a read of a tile store, a ward store or staging is written in time (R40 check 9). -/
def readOk (pre : List Region) (uses : List Use) (a : Use) : Bool :=
  a.write || 2 < a.reg.space || a.reg.len == 0 ||
    covered a.reg (pre ++ (uses.filter (fun w => w.write && w.of != a.of && decide (w.to_ ≤ a.from_))).map (fun w => w.reg))

/-- Whether a use leaves PRELOADED regions alone and disturbs no reader (R40 check 9, R636). -/
def writeOk (l : List Ledger) (uses : List Use) (w : Use) : Bool :=
  !w.write || (!((l.filter (fun g => bit g.flags 0)).any (fun g => g.halves.any (fun h => h.meets w.reg))) && !uses.any (fun a => clashes a w))

/-- The update records of a step, with when they begin and end. -/
def PlanView.updates (v : PlanView) (ticks : List PTick) : List (PTick × Nat × Bytes) :=
  (ticks.map (fun p => (((v.tickRecs p).filter (fun u => decide (272 ≤ u.1))).map (fun u =>
    (u.2.filter (fun r => decide (0x20 ≤ recClass r))).map (fun r => (p, u.1, r)))).flatten)).flatten

/-- Whether a CARRY matches a run-ahead record (R242). -/
def carryMatches (a b : PTick × Nat × Bytes) : Bool :=
  let r := a.2.2
  let k := b.2.2
  recClass k == 0x24 && byteAt k 52 == recClass r && upSpace k == upSpace r && upSplit k == upSplit r && byteAt k 18 == byteAt r 18 &&
    upCount k == upCount r && [24, 28, 32, 36, 44, 48].all (fun f => u32 k f == u32 r f) && (recClass r != 0x26 || [80, 84].all (fun f => u32 k f == u32 r f)) &&
    (upSpace r == 3 || a.2.1 == b.2.1) && decide (moment a.1.t (recOffset r + recLength r) ≤ moment b.1.t (recOffset k))

/-- Whether a CARRY may name so many state planes for a record (R242). How many an ELEM record has is in its rule block, which is no part of the image:
one or two (DEDUCED, log entry 28). -/
def planesOk (r : Bytes) (n : Nat) : Bool :=
  match recClass r with
  | 0x20 => n == 1 || n == 2
  | 0x25 => n == 1
  | _ => n == 0

/-- Whether an update record meets R223 and R242: a FUSE begins after every NORM, a run-ahead record has exactly one CARRY later. -/
def updateOk (ups : List (PTick × Nat × Bytes)) (a : PTick × Nat × Bytes) : Bool :=
  let r := a.2.2
  (recClass r != 0x22 || ups.all (fun b => recClass b.2.2 != 0x21 || decide (moment b.1.t (recOffset b.2.2 + recLength b.2.2) ≤ moment a.1.t (recOffset r)))) &&
    (!upAhead r || ((ups.filter (carryMatches a)).length == 1 && (ups.filter (carryMatches a)).all (fun b => planesOk r (byteAt b.2.2 53))))

/-- Elements of the arena that a record writes, half 0 standing for both (R239). -/
def arenaWrites (l : List Ledger) (w : Use) : List Region :=
  (l.filter (fun g => g.kind == 1)).filterMap (fun g =>
    let h0 : Region := ⟨g.space, g.where_, g.base, g.size⟩
    let h1 : Region := ⟨g.space, g.where_, g.base + g.half * 64, g.size⟩
    if h0.meets w.reg then some w.reg else if h1.meets w.reg then some { w.reg with addr := w.reg.addr - g.half * 64 } else none)

/-- Whether a record is the CARRY of another or the other way round. -/
def carryPair (a b : PTick × Nat × Bytes) : Bool := (upAhead a.2.2 && carryMatches a b) || (upAhead b.2.2 && carryMatches b a)

/-- The update record that a use belongs to. -/
def ofUse (ups : List (PTick × Nat × Bytes)) (w : Use) : List (PTick × Nat × Bytes) :=
  ups.filter (fun a => a.1.t * 512 + a.2.1 == w.of.1 && moment a.1.t (recOffset a.2.2) == w.from_)

/-- Whether each arena element that a use writes is written by no other record of the step, a CARRY over its run-ahead record apart (R239). -/
def singleWriter (l : List Ledger) (ups : List (PTick × Nat × Bytes)) (uses : List Use) (w : Use) : Bool :=
  !w.write || (arenaWrites l w).all (fun g => uses.all (fun b => !b.write || b.of == w.of || !(arenaWrites l b).any (fun h => h.meets g) ||
    (ofUse ups w).any (fun x => (ofUse ups b).any (fun y => carryPair x y))))

/-- Plan check 9 on one variant of one role: the dataflow of the step for either parity of the committed epoch (R71), and its update records. -/
def State.flowBad (s : State) (c : Nat) (own : Bool) (v : PlanView) (role : Nat) (ticks : List PTick) : Option PlanFault :=
  let l := v.ledger role
  let ups := v.updates ticks
  let loc := fun (a : Use) => (role, a.frame, a.unit)
  let flow := fun (e : Nat) =>
    let uses := (ticks.map (s.tickUses c own v e)).flatten
    firstBad 9 loc (fun a => readOk (preWritten l e) uses a && writeOk l uses a && singleWriter l ups uses a) uses
  (flow 0).orElse (fun _ => (flow 1).orElse (fun _ => firstBad 9 (fun a => (role, a.1.frame, a.2.1)) (updateOk ups) ups))

end Sys2Proof.Machine
end

