-- ==== Sys2Proof/Machine/PlanCheck.lean ====
section
/-! DEFINITION. The plan check of R40: checks 2 to 15 over an image read out, in table order, up to the first failure. -/

namespace Sys2Proof.Machine

/-- What the checks read besides the image and the device: context, address of the image copy, the image. -/
structure PlanJob where
  c : Nat
  base : Nat
  img : Bytes
  v : PlanView
  deriving DecidableEq, Repr

/-- Check 2: the fabric's tick geometry and the plan clock (R16, R27). -/
def State.check2 (s : State) (j : PlanJob) : Option PlanFault :=
  let f := imgClock j.img
  if u32 j.img 24 = s.regN Reg.TCK_PERIOD % 65536 ∧ u16 j.img 28 = s.regN Reg.TCK_WINDOW % 65536 ∧ u16 j.img 30 = s.regN Reg.TCK_GUARD % 65536 ∧
      1200 ≤ f ∧ f ≤ 1800 ∧ f % 25 = 0 then none else some ⟨2, 0, 0, 0⟩

/-- Seats that the placement table in force gives context `c` (DEDUCED, log entry 28: the job's seat count). -/
def State.seatCount (s : State) (c : Nat) : Nat := (s.fabric.inForce.place.filter (fun p => p.1 / 32768 == c && p.2 != 0xFFFF)).length

/-- Check 3. -/
def State.check3 (s : State) (j : PlanJob) : Option PlanFault :=
  if imgSeats j.img ≠ s.seatCount j.c then some ⟨3, 0, 0, 0⟩
  else (firstBad 3 (fun r => (r, 0, 0)) (fun r => decide (r < imgRoles j.img)) j.v.roles).orElse (fun _ =>
    firstBad 3 (fun t => (0, t, 0)) (fun t => decide (t < imgFrames j.img)) (j.v.variants.map (fun x => x.ticks.map (·.1))).flatten)

/-- The next-variant moves of one tick meet R36 and R163. -/
def nextOk (v : PlanView) (p : PTick) (u : Nat) (r : Bytes) : Bool :=
  !recNext r || (p.t + 1 == p.len && decide (256 ≤ u ∧ u < 272) &&
    (match entriesOf (v.ledger p.role) r (u - 256) with
     | [g] => decide (v.firstMax p.role g.unit ≤ dmRow r * dmRows r)
     | _ => false))

/-- Every record of a tick, with its unit. -/
def PlanView.tickList (v : PlanView) (p : PTick) : List (PTick × Nat × Bytes) :=
  ((v.tickRecs p).map (fun u => u.2.map (fun r => (p, u.1, r)))).flatten

/-- Every record of every tick. -/
def PlanView.everyRec (v : PlanView) : List (PTick × Nat × Bytes) := (v.allTicks.map v.tickList).flatten

/-- Where a record of a tick is reported. -/
def recLoc (a : PTick × Nat × Bytes) : Nat × Nat × Nat := (a.1.role, a.1.frame, a.2.1)

/-- Check 4 (R29, R32, R33, R36). -/
def check4 (j : PlanJob) : Option PlanFault :=
  let n := fun (x : PVariant) => x.ticks.length
  let vs := j.v.variants
  if vs.all (fun x => decide (4 ≤ n x ∧ n x ≤ 1048576 ∧ x.voteTick + 3 ≤ n x)) && (vs.getLast?.map (fun x => x.ceilings)) == some (2 ^ 64 - 1) then
    firstBad 4 recLoc (fun a => nextOk j.v a.1 a.2.1 a.2.2) j.v.everyRec
  else some ⟨4, 0, 0, 0⟩

/-- Where a program or a link direction is reported. -/
def listLoc {α : Type} (a : Nat × Nat × Nat × List α) : Nat × Nat × Nat := (a.1, a.2.1, a.2.2.1)

/-- Check 5 (R24). -/
def check5 (j : PlanJob) : Option PlanFault :=
  (firstBad 5 listLoc (fun a => decide (a.2.2.2.length ≤ if a.2.2.1 < 256 then 4096 else 1024)) j.v.programs).orElse (fun _ =>
    firstBad 5 listLoc (fun a => decide (a.2.2.2.length ≤ 512)) j.v.linkLists)

/-- Whether reservation `i` of a link direction is named by as many records of its frame as R159 and R413 ask. -/
def namedOk (f : PFrame) (d i : Nat) (x : Resv) : Bool :=
  let l := d / 2
  let rs := f.recs.flatten.filter (fun r => recClass r == (if d % 2 = 0 then 0x0C else 0x0D) && xfLink r == l && xfRes r == i)
  rs.length == (if mirrorResv l x.pair then 0 else 1) && rs.all (fun r => xfBytes r == x.bytes)

/-- Whether a send or receive record names a reservation of its frame (R159). -/
def namesResv (f : PFrame) (r : Bytes) : Bool :=
  !(recClass r == 0x0C || recClass r == 0x0D) || decide (xfRes r < (f.links.getD (2 * xfLink r + b2n (recClass r == 0x0D)) []).length)

/-- Whether a plan holds an update record other than SCALE and FUSE (R221, R223). -/
def PlanView.hasUpdates (v : PlanView) : Bool :=
  v.programs.any (fun p => p.2.2.2.any (fun r => decide (0x20 ≤ recClass r) && recClass r != 0x22 && recClass r != 0x23))

/-- Records of a class in a step of one role. -/
def classCount (l : List (PTick × Nat × Bytes)) (c : Nat) : Nat := (l.filter (fun a => recClass a.2.2 == c)).length

/-- The update records of one variant in one role. -/
def PlanView.upsOf (v : PlanView) (p : Nat × Nat) : List (PTick × Nat × Bytes) := v.updates ((v.ticksOf p.1).filter (fun t => t.variant == p.2))

/-- The CLIP fields of one variant in one role (R226). -/
def PlanView.clips (v : PlanView) (p : Nat × Nat) : List Nat :=
  ((v.upsOf p).filter (fun a => [0x20, 0x25, 0x26, 0x28, 0x29].contains (recClass a.2.2))).map (fun a => upClip a.2.2)

/-- The roles that seats run. -/
def PlanView.usedRoles (v : PlanView) : List Nat := pick v.frames.length (fun r => v.roles.contains r)

/-- The step of one role and variant holds one SCALE and one FUSE record, or none in a plan without update records (R221, R223), and every update
record of the step, in whatever role, has one CLIP (R226). -/
def stepRules (v : PlanView) (p : Nat × Nat) : Bool :=
  let want := if v.hasUpdates then 1 else 0
  let clip := ((v.usedRoles.map (fun r => v.clips (r, p.2))).flatten).headD 0
  classCount (v.upsOf p) 0x22 == want && classCount (v.upsOf p) 0x23 == want && (v.clips p).all (fun x => x == clip)

/-- State planes that the checks count for a record (R240; log entry 28). -/
def State.planesOf (s : State) (j : PlanJob) (role u : Nat) (r : Bytes) : Nat :=
  rulePlanes (s.ruleOf j.c (((s.seatOf j.c).map (fun t => j.v.roles.getD t 0)) == some role) r (u - 272))

/-- Regions that a record of a role names, for either parity of the committed epoch, and the region that a bolt record guards. -/
def State.named (s : State) (j : PlanJob) (role arg u : Nat) (r : Bytes) : List Region :=
  let k := s.planesOf j role u r
  let l := j.v.ledger role
  ([0, 1].map (fun e => s.readsAll j.c l k e arg u r ++ s.writesNamed j.c l k e arg u r)).flatten ++ (if recClass r = 0x0F then (boltGuard r u).toList else [])

/-- Regions that a record of a tick writes, for either parity of the committed epoch. -/
def State.recWrites (s : State) (j : PlanJob) (a : PTick × Nat × Bytes) : List Region :=
  let k := s.planesOf j a.1.role a.2.1 a.2.2
  ([0, 1].map (fun e => s.writesAll j.c (j.v.ledger a.1.role) k e a.1.arg a.2.1 a.2.2)).flatten

/-- Check 6: every record legal for its class, with CTX 0 (R134) and no tile-store address past the store (R100), every reservation named as R159
states, and the counts of a step. -/
def State.check6 (s : State) (j : PlanJob) : Option PlanFault :=
  let f := fun (a : Nat × Nat × Nat) => j.v.frame a.1 a.2.1
  (firstBad 6 listLoc (fun a => a.2.2.2.all (fun r => recLegal r a.2.2.1 && recCtx r == 0 && namesResv (f (a.1, a.2.1, 0)) r &&
      regionsFit (s.named j a.1 0 a.2.2.1 r))) j.v.programs).orElse (fun _ =>
    (firstBad 6 listLoc (fun a => (numbered a.2.2.2).all (fun x => namedOk (f (a.1, a.2.1, 0)) (a.2.2.1 - 288) x.1 x.2)) j.v.linkLists).orElse (fun _ =>
      firstBad 6 (fun p => (p.1, 0, 0)) (stepRules j.v)
        ((j.v.usedRoles.map (fun r => (List.range j.v.variants.length).map (fun x => (r, x)))).flatten)))

/-- Whether stretches of (offset, length) rise, do not overlap and end within `a` (R22, R30). -/
def inArea (a : Nat) : Nat → List (Nat × Nat) → Bool
  | _, [] => true
  | low, x :: t => decide (low ≤ x.1 ∧ x.1 + x.2 ≤ a) && inArea a (max (x.1 + x.2) (x.1 + 1)) t

/-- Check 7. -/
def check7 (j : PlanJob) : Option PlanFault :=
  let a := imgArea j.img
  (firstBad 7 listLoc (fun p => inArea a 0 (p.2.2.2.map (fun r => (recOffset r, recLength r)))) j.v.programs).orElse (fun _ =>
    firstBad 7 listLoc (fun p => inArea a 0 (p.2.2.2.map (fun x => (x.off, x.len)))) j.v.linkLists)

/-- Whether a role is this device's own. -/
def State.ownRole (s : State) (j : PlanJob) (role : Nat) : Bool := ((s.seatOf j.c).map (fun t => j.v.roles.getD t 0)) == some role

/-- Check 8 (R142). -/
def State.check8 (s : State) (j : PlanJob) : Option PlanFault :=
  firstBad 8 listLoc (fun p => p.2.2.2.all (fun r =>
    decide (recCycles (imgClock j.img) p.2.2.1 (s.ruleOf j.c (s.ownRole j p.1) r (p.2.2.1 - 272)) r ≤ 16 * recLength r))) j.v.programs

/-- Every step: role, variant, its ticks. -/
def PlanView.steps (v : PlanView) : List (Nat × Nat × List PTick) :=
  ((List.range v.frames.length).map (fun r => (List.range v.variants.length).map (fun x => (r, x, (v.ticksOf r).filter (fun t => t.variant == x))))).flatten

/-- Check 9. -/
def State.check9 (s : State) (j : PlanJob) : Option PlanFault :=
  j.v.steps.findSome? (fun p => s.flowBad j.c (s.ownRole j p.1) j.v p.1 p.2.2)

/-- Units that a reservation of so many bytes needs on a link (R41). -/
def linkUnits (f bytes lat : Nat) : Nat :=
  let wire := bytes + 32 * cdiv bytes 4096
  cdiv (cdiv (wire * f) 100000 + cdiv (lat * f) 1000 + cdiv (40 * f) 1000) 16

/-- Latency of a link in ns: 38 in short mode, the tray links, and 96 in long mode (R41, R309). -/
def linkLat (l : Nat) : Nat := if l < 7 then 38 else 96

/-- The seat that link `l` reaches from a seat by the placement in force (R635). -/
def State.peerSeat (s : State) (c seat l : Nat) : Option Nat :=
  let a := s.fabric.inForce.seatAddr c seat
  if a = 0xFFFF then none
  else match reach s.geom a l with
    | none => none
    | some b => (s.fabric.inForce.place.find? (fun p => p.1 / 32768 == c && p.2 == b)).map (fun p => p.1 % 32768)

/-- Whether every reservation of a link direction of a seat's role matches exactly one on the peer (R635). -/
def State.resvMatched (s : State) (c : Nat) (v : PlanView) (seat frame d : Nat) (l : List Resv) : Bool :=
  l.isEmpty || (match s.peerSeat c seat (d / 2) with
    | none => false
    | some p =>
      let o := ((v.frame (v.roles.getD p 0) frame).links.getD (2 * peerLink (d / 2) + 1 - d % 2) [])
      l.all (fun x => (o.filter (fun y => y.pair == x.pair && y.off == x.off && y.len == x.len)).length == 1))

/-- The seat part of check 10, which PLAN_START repeats (R635). -/
def State.matchBad (s : State) (c : Nat) (v : PlanView) : Option PlanFault :=
  let all := ((numbered v.roles).map (fun st => ((numbered (v.frames.getD st.2 [])).map (fun f =>
    (numbered f.2.links).map (fun d => (st.1, st.2, f.1, d.1, d.2)))).flatten)).flatten
  firstBad 10 (fun (a : Nat × Nat × Nat × Nat × List Resv) => (a.2.1, a.2.2.1, 288 + a.2.2.2.1))
    (fun (a : Nat × Nat × Nat × Nat × List Resv) => s.resvMatched c v a.1 a.2.2.1 a.2.2.2.1 a.2.2.2.2) all

/-- The first element whose key an earlier element has. -/
def firstRepeat {α : Type} (key : α → Nat) : List Nat → List α → Option α
  | _, [] => none
  | seen, x :: t => if seen.contains (key x) then some x else firstRepeat key (key x :: seen) t

/-- The unit at fault in the frame part of check 10: a transmit direction that breaks the link-time rule (R41), a receive direction that repeats a pair
identifier of the frame (R635), or a unit whose receive begins before its reservation ends (R41). -/
def frameLinksBad (f : Nat) (x : PFrame) : Option Nat :=
  let dirs := numbered x.links
  let rx := ((dirs.filter (fun d => d.1 % 2 == 1)).map (fun d => d.2.map (fun y => (d.1, y)))).flatten
  let slow := dirs.find? (fun d => d.1 % 2 == 0 && d.2.any (fun y => decide (y.len < linkUnits f y.bytes (linkLat (d.1 / 2)))))
  let early := (numbered x.recs).find? (fun u => u.2.any (fun r => recClass r == 0x0D && (match (x.links.getD (2 * xfLink r + 1) [])[xfRes r]? with
      | some y => decide (recOffset r < y.off + y.len)
      | none => true)))
  (slow.map (fun d => 288 + d.1)).orElse (fun _ => ((firstRepeat (fun y => y.2.pair) [] rx).map (fun y => 288 + y.1)).orElse (fun _ => early.map (·.1)))

/-- Check 10. -/
def State.check10 (s : State) (j : PlanJob) : Option PlanFault :=
  let fs := ((numbered j.v.frames).map (fun r => (numbered r.2).map (fun f => (r.1, f.1, f.2)))).flatten
  (fs.findSome? (fun a => (frameLinksBad (imgClock j.img) a.2.2).map (fun u => (⟨10, a.1, a.2.1, u⟩ : PlanFault)))).orElse (fun _ => s.matchBad j.c j.v)

/-- A ledger region inside its partition, or a bolt range inside the context's own or the shared range; mirrored regions at 64 KiB (R40
check 11, R409). -/
def State.ledgerFits (s : State) (c : Nat) (g : Ledger) : Bool :=
  if g.kind = 9 then (List.range g.size).all (fun i => decide (g.base + i < 65536) && (s.ownBolt c (g.base + i) || sharedBolt (g.base + i)))
  else g.halves.all (fun h => s.inPart c h.space h.addr h.len) &&
    (!bit g.flags 1 || (g.base % 65536 == 0 && g.size % 65536 == 0 && g.half * 64 % 65536 == 0))

/-- A record's regions and bolts lie within the keyring (R136, R396). -/
def State.recFits (s : State) (j : PlanJob) (a : PTick × Nat × Bytes) : Bool :=
  let r := a.2.2
  (s.named j a.1.role a.1.arg a.2.1 r).all (fun g => s.inPart j.c g.space g.addr g.len) && (recClass r != 0x0F || s.boltReach j.c (byteAt r 16) (boltNo r))

/-- Whether a region belongs to the stage memory ledger (R361): a stash slot, a retained gather, or weights, which lie in version-arena regions and, frozen
ones, in the regions that software fills before PLAN_START (DEDUCED, log entry 67). -/
def Ledger.staged (g : Ledger) : Bool := [1, 7, 8].contains g.kind || bit g.flags 0

/-- Bytes of the stash slots, weights and retained gathers of a role in one store (R361). -/
def stageBytes (l : List Ledger) (space unit : Nat) : Nat :=
  ((l.filter (fun g => g.staged && g.space == space && g.where_ == unit)).map (fun g => g.size * g.halves.length)).foldl (· + ·) 0

/-- The stage memory ledger of a role fits the partitions (R361). -/
def State.stageFits (s : State) (c : Nat) (l : List Ledger) : Bool :=
  l.all (fun g => decide (stageBytes l g.space g.where_ ≤ (s.partition c g.space).2))

/-- The largest VCOUNT of any VARIANT record (R293). -/
def PlanView.maxVcount (v : PlanView) : Nat :=
  (v.programs.map (fun p => (p.2.2.2.filter (fun r => recClass r == 0x29)).map (fun r => u32 r 96))).flatten.foldl max 0

/-- Check 11. -/
def State.check11 (s : State) (j : PlanJob) : Option PlanFault :=
  let regs := ((numbered j.v.ledgers).map (fun l => l.2.map (fun g => (l.1, g)))).flatten
  if !s.inPart j.c 3 j.base j.img.length ∨ s.regN (Reg.MEM_ADP_FRAMES j.c) % 2 ^ 14 < 2 * j.v.maxVcount then some ⟨11, 0, 0, 0⟩
  else (firstBad 11 (fun (a : Nat × List Ledger) => (a.1, 0, 0)) (fun a => s.stageFits j.c a.2) (numbered j.v.ledgers)).orElse fun _ => (firstBad 11 (fun a => (a.1, 0, if a.2.kind = 3 ∨ a.2.kind = 4 then a.2.unit else 0)) (fun a => s.ledgerFits j.c a.2) regs).orElse (fun _ =>
    (firstBad 11 recLoc (s.recFits j) j.v.everyRec).orElse (fun _ =>
      firstBad 11 listLoc (fun a => a.2.2.2.isEmpty || (s.reg (Reg.CTX_LINKS j.c)).getLsbD ((a.2.2.1 - 288) / 2)) j.v.linkLists))

/-- Wards of the context, to scale the bounds of checks 12 and 13 (R389). -/
def State.wardScale (s : State) (c n : Nat) : Nat := n * (s.wardSet c).length / 16

/-- The stretches of the image copy that a next-variant move may copy: the first frame of each variant, as address and length (R163). -/
def PlanJob.entryRuns (j : PlanJob) (role u : Nat) (r : Bytes) : List (Nat × Nat) :=
  if !recNext r then [] else
  ((entriesOf (j.v.ledger role) r (u - 256)).map (fun g =>
    (List.range j.v.variants.length).map (fun v => (j.base + firstFrameOff j.img role v g.unit, firstFrameBytes j.img role v g.unit)))).flatten

/-- The records of a tick that touch a memory, with their traffic. -/
def State.tickTraffic (s : State) (j : PlanJob) (space : Nat) (p : PTick) : List (Nat × Bytes × Traffic) :=
  (j.v.tickList p).filterMap (fun a =>
    (traffic space (if recArg a.2.2 then p.arg else 0) (s.planesOf j p.role a.2.1 a.2.2)
      (s.regN (Reg.MEM_KV_BASE j.c) * 4096) (bits (s.regN (Reg.MEM_KV_PAGE_BYTES j.c)) 23 0) (j.entryRuns p.role a.2.1 a.2.2) a.2.2).map (fun t => (a.2.1, a.2.2, t)))

/-- Sum of charges of the records whose tumblers hold offset `o`. -/
def chargeAt (o : Nat) (charge : Traffic → Nat) (l : List (Nat × Bytes × Traffic)) : Nat :=
  ((l.filter (fun a => decide (recOffset a.2.1 ≤ o ∧ o < recOffset a.2.1 + recLength a.2.1))).map (fun a => charge a.2.2)).foldl (· + ·) 0

/-- Check 12 on one tick: each interval begins at a tumbler boundary, so the sums are largest at a tumbler's start (R259, R282); the adapter
stream is charged in every interval (R291). The data rate of the fitted LPDDR is the one that MEM_LP_CONFIG reports. -/
def State.bandwidthBad (s : State) (j : PlanJob) (p : PTick) : Option PlanFault :=
  let f := imgClock j.img
  let d := s.tickTraffic j 3 p
  let l := s.tickTraffic j 4 p
  let cap := s.wardScale j.c (dramCap f (if (s.reg Reg.MEM_STK_CTRL).getLsbD 1 then 76 else 38))
  let hot := s.wardScale j.c (dramCap f 76)
  let lp := s.wardScale j.c (lpCap f (s.regN Reg.MEM_LP_CONFIG % 65536))
  let adp := s.regN (Reg.MEM_ADP_RATE j.c) % 4096 * 1000
  if cap < cdiv adp 710 ∨ lp < cdiv adp 700 then some ⟨12, p.role, p.frame, 0⟩ else
  (firstBad 12 (fun a => (p.role, p.frame, a.1)) (fun a => decide (chargeAt (recOffset a.2.1) Traffic.dramCharge d + cdiv adp 710 ≤ cap) &&
      decide (chargeAt (recOffset a.2.1) Traffic.dramCharge (d.filter (fun x => x.2.2.critical)) ≤ hot)) d).orElse (fun _ =>
    firstBad 12 (fun a => (p.role, p.frame, a.1)) (fun a => decide (chargeAt (recOffset a.2.1) Traffic.lpCharge l + cdiv adp 700 ≤ lp)) l)

/-- Check 12. -/
def State.check12 (s : State) (j : PlanJob) : Option PlanFault := j.v.allTicks.findSome? (s.bandwidthBad j)

/-- Whether an interval's planned power is within a bound in W (R633). -/
def intervalFits (b : Bytes) (bound role frame i : Nat) : Bool :=
  let t := intervalTc b i
  t == 0 || decide (energyUnits (imgPower b role frame i) * imgClock b * 1000 ≤ bound * t * 2 ^ 149)

/-- Whether two frames' planned average powers differ by no more than the slew limit × P (R577, R633). -/
def slewOk (b : Bytes) (slew role f g : Nat) : Bool :=
  let x := frameEnergy b role f
  let y := frameEnergy b role g
  decide ((max x y - min x y) * 1000000 ≤ slew * u32 b 24 * u32 b 24 * 2 ^ 149)

/-- The pairs of frames of R633: consecutive ticks, and the last tick of every variant with tick 0 of every variant. -/
def PlanView.framePairs (v : PlanView) : List (Nat × Nat) :=
  let ls := v.variants.map (fun x => x.ticks.map (·.1))
  (ls.map (fun l => List.zip l (l.drop 1))).flatten ++ (ls.map (fun l => ls.map (fun m => (l.getLastD 0, m.headD 0)))).flatten

/-- Check 13. -/
def State.check13 (s : State) (j : PlanJob) : Option PlanFault :=
  let b := j.img
  let bound := s.wardScale j.c 2000
  let slew := s.wardScale j.c (s.regN Reg.PWR_SLEW % 4096)
  let roles := List.range (imgRoles b)
  let fs := (roles.map (fun r => (List.range (imgFrames b)).map (fun f => (r, f)))).flatten
  (firstBad 13 (fun a => (a.1, a.2, 0)) (fun a => (List.range (imgIntervals b)).all (intervalFits b bound a.1 a.2)) fs).orElse (fun _ =>
    firstBad 13 (fun a => (a.1, a.2.2, 0)) (fun a => slewOk b slew a.1 a.2.1 a.2.2)
      ((roles.map (fun r => j.v.framePairs.map (fun p => (r, p)))).flatten))

/-- Check 14: no update-engine or mover record writes a version arena in ticks 0 to 3, nor does a carriable reservation lie there (R72, R365). -/
def State.check14 (s : State) (j : PlanJob) : Option PlanFault :=
  let early := j.v.allTicks.filter (fun p => decide (p.t < 4))
  let arena := fun (role : Nat) => ((j.v.ledger role).filter (fun g => [1, 5, 6].contains g.kind)).map Ledger.halves |>.flatten
  (firstBad 14 recLoc (fun a => decide (a.2.1 < 256) ||
    (s.recWrites j a).all (fun g =>
      (arena a.1.role).all (fun h => !h.meets g))) (early.map j.v.tickList).flatten).orElse (fun _ =>
    firstBad 14 (fun (a : PTick × Nat × List Resv) => (a.1.role, a.1.frame, 288 + a.2.1)) (fun a => a.2.1 % 2 == 1 || a.2.2.all (fun x => decide (x.pair < 2 ^ 31)))
      ((early.map (fun p => (numbered (j.v.frame p.role p.frame).links).map (fun d => (p, d.1, d.2)))).flatten))

/-- Where a unit's records of a frame lie in the image. -/
def imgRecordsAt (b : Bytes) (role frame u : Nat) : Nat := (imgSection b 4).off + (imgDirEnt b role frame u).1

/-- The parts of a program half that an ordinary move has filled from the right place of the image copy (R26). -/
def loadParts (base off : Nat) (dst : Region) (p : PTick) (u : Nat) (r : Bytes) : List Region :=
  if recClass r ≠ 0x0E ∨ recNext r ∨ u < 256 ∨ dmSpace r false ≠ 3 then []
  else (List.range (dmRows r)).filterMap (fun i =>
    let d := dmAddr r true (if recArg r then p.arg else 0) i
    let a := dmAddr r false (if recArg r then p.arg else 0) i
    let g : Region := ⟨dmSpace r true, dmUnit r (u - 256) true, d, dmRow r⟩
    if g.meets dst ∧ a + dst.addr = base + off + d then some g else none)

/-- The program region of a unit, in the unit's tile store or its ward's store (R26). -/
def programOf (l : List Ledger) (u : Nat) : Option Ledger := l.find? (fun g => g.kind == 3 && g.unit == u && g.space == (if u < 256 then 0 else 1))

/-- Whether the records of a unit are in place for tick t ≥ 1: moves of earlier ticks copy them whole, and no record writes them later, up to
the end of the tick (R26, R40 check 15). -/
def State.inPlace (s : State) (j : PlanJob) (step : List (PTick × Nat × Bytes)) (p : PTick) (u : Nat) (n : Nat) : Bool :=
  match programOf (j.v.ledger p.role) u with
  | none => n == 0
  | some g =>
    let dst : Region := ⟨g.space, g.where_, g.base + p.t % 2 * g.half * 64, n⟩
    let off := imgRecordsAt j.img p.role p.frame u
    let wr := fun (a : PTick × Nat × Bytes) => (s.recWrites j a).filter (fun x => x.meets dst)
    let loads := step.filter (fun a => decide (a.1.t < p.t) && !(loadParts j.base off dst a.1 a.2.1 a.2.2).isEmpty)
    let later := fun (x : PTick × Nat × Bytes) (g : Region) => step.all (fun a => decide (p.t < a.1.t) || (a.1.t == x.1.t && a.2.1 == x.2.1 && recOffset a.2.2 == recOffset x.2.2) ||
      decide (moment a.1.t (recOffset a.2.2 + recLength a.2.2) ≤ moment x.1.t (recOffset x.2.2)) || (wr a).all (fun y => !y.meets g))
    decide (n ≤ g.size) &&
      covered dst ((loads.map (fun x => (loadParts j.base off dst x.1 x.2.1 x.2.2).filter (later x))).flatten)

/-- Check 15 on one step of a role: frame loads, entry regions and the moves of tick L − 1 (R26, R36, R38). -/
def State.residentBad (s : State) (j : PlanJob) (st : Nat × Nat × List PTick) : Option PlanFault :=
  let role := st.1
  let l := j.v.ledger role
  let entries := l.filter (fun g => g.kind == 4)
  let step := (st.2.2.map j.v.tickList).flatten
  let size := fun (rs : List Bytes) => (rs.map List.length).foldl (· + ·) 0
  let last := step.filter (fun a => a.1.t + 1 == a.1.len && recNext a.2.2)
  let first := st.2.2.filter (fun p => p.t == 0)
  let writesEntry := fun (a : PTick × Nat × Bytes) => !recNext a.2.2 &&
    (s.recWrites j a).any (fun g =>
      entries.any (fun e => e.halves.any (fun h => h.meets g)))
  let frames := ((st.2.2.filter (fun p => p.t != 0)).map (fun p => (j.v.tickRecs p).map (fun u => (p, u.1, size u.2)))).flatten
  let heads := (first.map (fun p => (j.v.tickRecs p).map (fun u => (p, u.1, size u.2)))).flatten
  (firstBad 15 recLoc (fun a => !writesEntry a) step).orElse (fun _ =>
    (firstBad 15 (fun (a : PTick × Nat × Nat) => (role, a.1.frame, a.2.1)) (fun a => a.2.2 == 0 || entries.any (fun e =>
        e.unit == a.2.1 && e.space == (if a.2.1 < 256 then 0 else 1) && decide (j.v.firstMax role a.2.1 ≤ e.size))) heads).orElse (fun _ =>
      (firstBad 15 (fun (e : Ledger) => (role, 0, e.unit)) (fun e =>
        (last.filter (fun a => entriesOf l a.2.2 (a.2.1 - 256) == [e])).length == 1) entries).orElse (fun _ =>
        firstBad 15 (fun (a : PTick × Nat × Nat) => (role, a.1.frame, a.2.1)) (fun a => a.2.2 == 0 || s.inPlace j step a.1 a.2.1 a.2.2) frames)))

/-- Check 15. -/
def State.check15 (s : State) (j : PlanJob) : Option PlanFault := j.v.steps.findSome? (s.residentBad j)

/-- The checks from 2 to 15 in table order (R40). -/
def State.checks (s : State) (j : PlanJob) : Option PlanFault :=
  (s.check2 j).orElse fun _ => (s.check3 j).orElse fun _ => (check4 j).orElse fun _ => (check5 j).orElse fun _ => (s.check6 j).orElse fun _ =>
    (check7 j).orElse fun _ => (s.check8 j).orElse fun _ => (s.check9 j).orElse fun _ => (s.check10 j).orElse fun _ => (s.check11 j).orElse fun _ =>
      (s.check12 j).orElse fun _ => (s.check13 j).orElse fun _ => (s.check14 j).orElse fun _ => s.check15 j

/-- The plan check: the first failure of an image for context `c` whose copy is to lie at `base` (R40). -/
def State.planCheck (s : State) (c base : Nat) (b : Bytes) : Option PlanFault :=
  if imageOk b then s.checks ⟨c, base, b, planView b⟩ else some ⟨1, 0, 0, 0⟩

end Sys2Proof.Machine
end

