-- ==== Sys2Proof/Machine/Request.lean ====
section
/-! DEFINITION. Best-effort requests: WRITE and READ at the device they name (R316), and, at the device that sent them, their answers, repetition and timeout (R336), with the streams of WRITEs by which permutes and failovers move state (R373, R427). -/

namespace Sys2Proof.Machine

/-! Streams. -/

/-- ARG of a WRITE that begins `off` bytes into a stretch (R315). Bits [7:4] name the ward of a ward store, or the LPDDR slot of `Spot`
(DESIGN CHOICE, log entry 17). -/
def Spot.arg (p : Spot) (off : Nat) : Nat :=
  (if p.place = 0 then p.space + (if p.space = 1 then p.unit * 16 else 0) else 4 + p.place * 16) + (p.addr + off) * 65536

/-- The stretch that the ARG of a WRITE or READ names. -/
def argSpot (arg : Nat) : Spot :=
  let sp := arg % 16
  let sub := arg / 16 % 16
  ⟨if sp = 4 then sub else 0, sp, if sp = 4 then 0 else sub, arg / 65536⟩

/-- Device address in LPDDR of a slot stretch. -/
def State.slotAddr (s : State) (c : Nat) (p : Spot) : Nat :=
  let g := (s.ctx c).twin.guard
  match p.place with
  | 1 => s.guardBase + g.latest + p.addr
  | 2 => s.guardBase + g.clear + p.addr
  | 4 => (s.lpShare Reg.MEM_LP_REPLAY c).1 + p.addr
  | _ => (s.lpShare Reg.MEM_LP_CLEAR c).1 + p.addr

/-- `n` bytes from `off` into a stretch. -/
def State.spotRead (s : State) (c : Nat) (p : Spot) (off n : Nat) : Bytes :=
  if p.place = 0 then s.rd c p.space p.unit (p.addr + off) n else s.lpRead (s.slotAddr c p + off) n

/-- Writes bytes from `off` into a stretch; a write to a mirrored region marks its granules dirty (R412). -/
def State.spotWrite (s : State) (c : Nat) (p : Spot) (off : Nat) (b : Bytes) : State :=
  if p.place = 0 then (s.wr c p.space p.unit (p.addr + off) b).dirty c p.space p.unit (p.addr + off) b.length
  else s.lpWrite (s.slotAddr c p + off) b

/-- The streams of context `c` of a kind. -/
def State.streamsOf (s : State) (c kind : Nat) : List Stream := s.fabric.streams.filter (fun x => x.ctx == c && x.kind == kind)

/-- Whether extents cover `p` to `e`. -/
def coversGo (l : List (Nat × Nat)) (e : Nat) : Nat → Nat → Bool
  | 0, p => decide (e ≤ p)
  | f + 1, p => if e ≤ p then true else
      match l.find? (fun x => decide (x.1 ≤ p ∧ p < x.1 + x.2)) with
      | some x => coversGo l e f (x.1 + x.2)
      | none => false

/-- Whether everything that is expected has arrived. -/
def Expect.full (x : Expect) : Bool := coversGo x.got (x.target.addr + x.len) (x.got.length + 1) x.target.addr

/-- Whether context `c` expects nothing more of a kind. -/
def State.allArrived (s : State) (c kind : Nat) : Bool := s.fabric.expects.all (fun x => !(x.ctx == c && x.kind == kind) || x.full)

/-- Adds an arrived extent to what is expected. -/
def State.noteArrival (s : State) (c : Nat) (p : Spot) (n : Nat) : State :=
  { s with fabric := { s.fabric with expects := s.fabric.expects.map (fun x =>
      if x.ctx = c ∧ x.target.place = p.place ∧ x.target.space = p.space ∧ x.target.unit = p.unit ∧ x.target.addr ≤ p.addr ∧ p.addr + n ≤ x.target.addr + x.len
      then { x with got := x.got ++ [(p.addr, n)] } else x) } }

/-- Sends the next WRITE of a stream that has none in flight: at most 4,096 bytes at a time (R373, R427; one in flight is a DESIGN CHOICE,
log entry 17). The stream is returned as it then stands; an unreachable destination fails it, and so does a source that delivers poison: memory
errors that no code corrects, a fenced row, an absent adapter slot (R267, R272, R287, R290). While the cap holds best-effort work, nothing is sent
(R574). -/
def State.pushStream (s : State) (errs : ReadErrs) (x : Stream) : State × Stream :=
  if x.seq.isSome ∨ x.failed ∨ x.len ≤ x.acked ∨ s.pwr.beHeld then (s, x)
  else
    let n := min 4096 (x.len - x.acked)
    let bad := s.readFails errs || (x.source.place == 0 && s.sourcePoison x.ctx x.source.space (x.source.addr + x.acked) n)
    let b := (s.escapeBytes errs.dram).spotRead x.ctx x.source x.acked n
    let s := (s.noteErrs errs).countTier x.ctx x.source.space n
    if bad then (s, { x with failed := true })
    else
      let q := s.fabric.nextSeq
      let p := s.mkPacket 0x10 (if x.kind = 1 ∨ x.kind = 2 then 3 else 1) x.dst (some x.ctx) (x.target.arg x.acked) q b
      let r := s.trySend p
      if r.2 ≠ 0 then (r.1, { x with failed := true })
      else
        let s := r.1
        ({ s with fabric := { s.fabric with nextSeq := (q + 1) % 65536, requests := s.fabric.requests ++ [⟨q, p, s.tick.now, 0, none⟩] } }, { x with seq := some q })

/-- Adds a stream and sends its first WRITE. -/
def State.addStream (s : State) (x : Stream) : State :=
  if x.len = 0 then s
  else
    let r := s.pushStream {} x
    { r.1 with fabric := { r.1.fabric with streams := r.1.fabric.streams ++ [r.2] } }

/-- Adds a series of WRITEs to expect. -/
def State.addExpect (s : State) (x : Expect) : State :=
  if x.len = 0 then s else { s with fabric := { s.fabric with expects := s.fabric.expects ++ [x] } }

/-- Sends the first WRITE of every stream of a context, under its generation. -/
def State.restartStreams (s : State) (c : Nat) : State :=
  let l := s.fabric.streams.filter (fun x => x.ctx == c)
  let s := { s with fabric := { s.fabric with streams := s.fabric.streams.filter (fun x => x.ctx != c) } }
  s.over l State.addStream

/-- A context that ends has no streams. -/
def State.endStreams (s : State) (c : Nat) : State :=
  { s with fabric := { s.fabric with
      streams := s.fabric.streams.filter (fun x => x.ctx != c)
      expects := s.fabric.expects.filter (fun x => x.ctx != c)
      later := s.fabric.later.filter (fun x => x.ctx != c) } }

/-- The clear streams of a context begin, as it resumes (R427). -/
def State.startLater (s : State) (c : Nat) : State :=
  let l := s.fabric.later.filter (fun x => x.ctx == c)
  let s := { s with fabric := { s.fabric with later := s.fabric.later.filter (fun x => x.ctx != c) } }
  s.over l State.addStream

/-- Replaces the stream whose request has SEQ `q`. -/
def State.modStream (s : State) (q : Nat) (f : Stream → Stream) : State :=
  { s with fabric := { s.fabric with streams := s.fabric.streams.map (fun x => if x.seq = some q then f x else x) } }

/-! CYCLE pieces (R373). -/

/-- Bytes of a CYCLE chunk: 2^CHUNK. -/
def State.chunkBytes (s : State) (c : Nat) : Nat := 2 ^ (s.regN (Reg.FAB_PERM_CTRL c) % 32)

/-- A scratch buffer in staging: 0 and 1 outgoing, 2 and 3 incoming. -/
def State.scratch (s : State) (c k : Nat) : Spot := ⟨0, 2, 0, s.regN (Reg.FAB_PERM_SCRATCH c) * 4096 + k * s.chunkBytes c⟩

/-- Rounds of a CYCLE piece. -/
def State.cycleRounds (s : State) (c : Nat) (j : CycleJob) : Nat := cdiv j.len (s.chunkBytes c)

/-- Bytes of a round of a CYCLE piece. -/
def State.roundBytes (s : State) (c : Nat) (j : CycleJob) (r : Nat) : Nat := min (s.chunkBytes c) (j.len - r * s.chunkBytes c)

/-- What arrives for a round. -/
def State.expectRound (s : State) (c : Nat) (j : CycleJob) (r : Nat) : State := s.addExpect ⟨3, c, s.scratch c (2 + r % 2), s.roundBytes c j r, []⟩

/-- A context whose permute step has still these pieces to move. -/
def State.setMoves (s : State) (c : Nat) (l : List PermMove) : State := s.modCtx c (fun x => { x with perm := { x.perm with moves := l } })

/-- Replaces the CYCLE piece in progress. -/
def State.setJob (s : State) (c : Nat) (j : CycleJob) : State := s.setMoves c (.cycle j true :: (s.ctx c).perm.moves.drop 1)

/-- Begins a round: its chunk goes to an outgoing buffer and from there to the successor. -/
def State.beginRound (s : State) (c : Nat) (j : CycleJob) : State :=
  let r := j.next
  let n := s.roundBytes c j r
  let s := (s.spotWrite c (s.scratch c (r % 2)) 0 (s.spotRead c j.piece (r * s.chunkBytes c) n)).countTier c j.piece.space n
  (s.setJob c { j with next := r + 1 }).addStream ⟨3, c, j.dst, s.scratch c (r % 2), s.scratch c (2 + r % 2), n, 0, none, false⟩

/-- Installs the incoming chunk of a round. -/
def State.installRound (s : State) (c : Nat) (j : CycleJob) (r : Nat) : State :=
  let from_ := s.scratch c (2 + r % 2)
  let s := (s.spotWrite c j.piece (r * s.chunkBytes c) (s.spotRead c from_ 0 (s.roundBytes c j r))).countTier c j.piece.space (s.roundBytes c j r)
  let s := { s with fabric := { s.fabric with expects := s.fabric.expects.filter (fun x => !(x.ctx == c && x.kind == 3 && x.target == from_)) } }
  let s := s.modCtx c (fun x => { x with perm := { x.perm with cycleInstalled := true } })
  let s := s.setJob c { j with installed := j.installed ++ [r] }
  if r + 2 < s.cycleRounds c j then s.expectRound c j (r + 2) else s

/-- One move of the CYCLE piece in progress, if one is possible; `rest` follows it. -/
def State.cycleStep (s : State) (c : Nat) (j : CycleJob) (rest : List PermMove) : State :=
  let n := s.cycleRounds c j
  let ready := fun r => s.fabric.expects.any (fun x => x.ctx == c && x.kind == 3 && x.target == s.scratch c (2 + r % 2) && x.full)
  if n ≤ j.installed.length ∧ n ≤ j.acked.length then s.setMoves c rest
  else
    match (List.range j.next).find? (fun r => !j.installed.contains r && ready r) with
    | some r => s.installRound c j r
    | none =>
      if j.next < n ∧ (j.next < 2 ∨ (j.acked.contains (j.next - 2) ∧ j.installed.contains (j.next - 2))) then s.beginRound c j else s

/-- One move of the permute step's pieces, in the order of the table (R373). -/
def State.moveStep (s : State) (c : Nat) : State :=
  match (s.ctx c).perm.moves with
  | [] => s
  | .copy a b n :: rest => ((s.setMoves c rest).spotWrite c b 0 (s.spotRead c a 0 n)).countTier c b.space (2 * n)
  | .stream x false :: rest => if x.len = 0 then s.setMoves c rest else (s.setMoves c (.stream x true :: rest)).addStream x
  | .stream _ true :: _ => s
  | .cycle j false :: rest => (s.setMoves c (.cycle j true :: rest)).over (List.range (min 2 (s.cycleRounds c j))) (fun s r => s.expectRound c j r)
  | .cycle j true :: rest => s.cycleStep c j rest

/-- Moves the pieces as far as they go. -/
def State.moves (s : State) (c : Nat) : State := s.over (List.range (8 + 2 * (s.ctx c).perm.moves.length)) (fun s _ => s.moveStep c)

/-! At the destination. -/

/-- Whether an extent may be accessed by a WRITE or READ of context `c` (R316): inside a partition of a KEYED context, or an LPDDR slot
that a stream is expected to fill. -/
def State.spotOk (s : State) (c : Nat) (p : Spot) (n : Nat) (isWrite : Bool) : Bool :=
  (s.ctx c).adm == .keyed &&
    (if p.place = 0 then (p.space == 1 || p.unit == 0) && s.inPart c p.space p.addr n
     else isWrite && s.fabric.expects.any (fun x => x.ctx == c && x.target.place == p.place && decide (x.target.addr ≤ p.addr ∧ p.addr + n ≤ x.target.addr + x.len)))

/-- Counts stacked DRAM and LPDDR bytes of best-effort traffic (R401). -/
def State.countSpot (s : State) (c : Nat) (p : Spot) (n : Nat) : State :=
  s.countTier c p.space n

/-- A guard whose latest-hasp slot has arrived in full becomes valid (R427); clear areas and clear slots that have arrived in full can be
restored from (R428). -/
def State.settleGuard (s : State) (c : Nat) : State :=
  let done := s.fabric.expects.any (fun x => x.ctx == c && x.target.place == 1 && x.full)
  let s := if done && (s.ctx c).twin.guard.state == 1 then s.modGuard c (fun g => { g with state := 2, epoch := (s.hasp c).epoch }) else s
  if !(s.ctx c).twin.clearPending || !s.allArrived c 2 then s
  else
    let h := s.hasp c
    let s := s.modCtx c (fun x => { x with twin := { x.twin with clearPending := false }, hasp := { x.hasp with missing := decide (h.under = .restoring ∧ h.clear ≠ some h.target) } })
    let s := { s with fabric := { s.fabric with expects := s.fabric.expects.filter (fun x => !(x.ctx == c && x.kind == 2)) } }
    if (s.ctx c).twin.guard.state = 0 then s else s.modGuard c (fun g => { g with clearEpoch := h.clear.getD 0xFFFFFFFF })

/-- WRITE (R316): applied to the context's partition, or refused with MALFORMED or NO_SPACE. -/
def execWrite (link : Fin 24) (b : Bytes) (s : State) : Host.Outcome State Fault Refusal :=
  .next (s.takePacket link b 0x10 (fun p s =>
    let sp := argSpot p.arg
    let n := p.payload.length
    if n = 0 then s.refuse p 7
    else if !s.spotOk p.ctx sp n true then s.refuse p 8
    else if sp.place = 0 ∧ sp.space = 1 ∧ s.wardGone sp.unit then s.refuse p 2
    else
      let s := ((s.spotWrite p.ctx sp 0 p.payload).countSpot p.ctx sp n).noteArrival p.ctx sp n
      let s := (s.settleGuard p.ctx).moves p.ctx
      if p.ackReq then s.answer p 0x13 [] else s))

/-- READ (R316): answered with READ_DATA, or with ERROR, UNIT_GONE for a ward out of service (R551); an error that no code corrects, a fenced row or an
absent adapter slot gives CHECK_MISMATCH (R102, R267, R287, R290). -/
def execRead (link : Fin 24) (b : Bytes) (errs : ReadErrs) (s : State) : Host.Outcome State Fault Refusal :=
  .next (s.takePacket link b 0x11 (fun p s =>
    let sp := argSpot p.arg
    let n := u32 p.payload 0
    if p.payload.length ≠ 4 ∨ n = 0 ∨ 4096 < n then s.refuse p 7
    else if !s.spotOk p.ctx sp n false then s.refuse p 8
    else if sp.place = 0 ∧ sp.space = 1 ∧ s.wardGone sp.unit then s.refuse p 2
    else
      let bad := s.readFails errs || s.readsPoison p.ctx [⟨sp.space, sp.unit, sp.addr, n⟩]
      let data := (s.escapeBytes errs.dram).spotRead p.ctx sp 0 n
      let s := ((s.noteErrs errs).eventIf (s.adpMiss p.ctx sp.space sp.addr n) (Reg.MEM_ADP_EVENT p.ctx) 1).countSpot p.ctx sp n
      if bad then s.refuse p 11 else if p.ackReq then s.answer p 0x12 data else s))

/-! At the source. -/

/-- The request that an answer names: same SEQ, sent to where the answer comes from. -/
def State.requestOf (s : State) (p : Packet) : Option Request := s.fabric.requests.find? (fun r => r.seq == p.seq && r.packet.dst == p.src)

/-- Takes a request off the list. -/
def State.dropRequest (s : State) (q : Nat) : State := { s with fabric := { s.fabric with requests := s.fabric.requests.filter (fun r => r.seq != q) } }

/-- The WRITE of a stream has been acknowledged: the next one follows, and a finished stream goes (R373, R427). -/
def State.streamAcked (s : State) (errs : ReadErrs) (q : Nat) (n : Nat) : State :=
  match s.fabric.streams.find? (fun x => x.seq == some q) with
  | none => s
  | some x =>
    let y := { x with acked := x.acked + n, seq := none }
    let s := { s with fabric := { s.fabric with streams := s.fabric.streams.filter (fun z => z.seq != some q) } }
    if y.acked < y.len then
      let r := s.pushStream errs y
      { r.1 with fabric := { r.1.fabric with streams := r.1.fabric.streams ++ [r.2] } }
    else
      match (s.ctx y.ctx).perm.moves with
      | .cycle j true :: rest =>
        if y.kind = 3 then
          let r := if y.source = s.scratch y.ctx 0 then 0 else 1
          (s.setMoves y.ctx (.cycle { j with acked := j.acked ++ ((List.range j.next).filter (fun k => k % 2 == r && !j.acked.contains k)).take 1 } true :: rest)).moves y.ctx
        else s
      | .stream z true :: rest =>
        if y.kind = 0 ∧ z.source = y.source ∧ z.target = y.target ∧ z.dst = y.dst then (s.setMoves y.ctx rest).moves y.ctx else s
      | _ => s

/-- Completes a request with a status code: its stream has failed, or its host command ends. -/
def State.failRequest (s : State) (r : Request) (code : Nat) : State :=
  let s := (s.dropRequest r.seq).modStream r.seq (fun x => { x with seq := none, failed := true })
  match r.cmd with
  | some (fn, cmd) => s.complete fn 0x0002 cmd code
  | none => s

/-- What a rollback leaves of a context's streams and of what it expects: its requests end with STALE_TAG (R68), the pieces of a permute are gone, and
the failover streams that are not complete begin again (R427). -/
def State.dropStreams (s : State) (c : Nat) : State :=
  let mine := fun (x : Nat) (k : Nat) => x == c && (k == 0 || k == 3)
  let s := s.over (s.fabric.requests.filter (fun r => !r.packet.noTag && r.packet.ctx == c)) (fun s r => s.failRequest r 3)
  { s with fabric := { s.fabric with
      streams := (s.fabric.streams.filter (fun x => !mine x.ctx x.kind)).map (fun (x : Stream) => if x.ctx = c then { x with acked := 0, seq := none, failed := false } else x)
      expects := (s.fabric.expects.filter (fun x => !mine x.ctx x.kind)).map (fun (x : Expect) => if x.ctx = c ∧ !x.full then { x with got := [] } else x) } }

/-- The packets that wait in the switch with a tag that has become stale are discarded and counted (R68, R318). -/
def State.dropStale (s : State) : State :=
  let n := (s.fabric.buffer.filter (fun w => s.stale w.packet)).length
  { s with fabric := { s.fabric with buffer := s.fabric.buffer.filter (fun w => !s.stale w.packet) } }.countBy Reg.FAB_DROP_STALE n

/-- An ACK that arrives on a link (R316, R373, R427). -/
def State.takeAck (s : State) (link : Fin 24) (b : Bytes) (errs : ReadErrs) : State :=
  s.takePacket link b 0x13 (fun p s =>
    match s.requestOf p with
    | none => s
    | some r => (s.dropRequest r.seq).streamAcked errs r.seq r.packet.payload.length)

/-- READ_DATA (R316): the request is answered. -/
def execReadData (link : Fin 24) (b : Bytes) (s : State) : Host.Outcome State Fault Refusal :=
  .next (s.takePacket link b 0x12 (fun p s =>
    match s.requestOf p with
    | some r => if r.packet.opcode = 0x11 then s.dropRequest r.seq else s
    | none => s))

/-- ERROR (R316): the request completes with the status code; a malformed code is discarded. -/
def execError (link : Fin 24) (b : Bytes) (s : State) : Host.Outcome State Fault Refusal :=
  .next (s.takePacket link b 0x14 (fun p s =>
    if p.payload.length ≠ 4 ∨ 11 < byteAt p.payload 0 ∨ !zeroAt p.payload 2 2 then s.count Reg.FAB_DROP_CRC
    else
      match s.requestOf p with
      | some r => s.failRequest r (byteAt p.payload 0)
      | none => s))

/-- REQUEST_TIMEOUT (R336): after FAB_BE_CTRL.TIMEOUT ticks the request is sent again with the same SEQ, at most RETRIES times, and then
completes with TIMEOUT; a host's FM_CMD is not repeated and ends after TIMEOUT × (RETRIES + 1) ticks (R519). -/
def execRequestTimeout (seq : Nat) (s : State) : Host.Outcome State Fault Refusal :=
  let v := s.regN Reg.FAB_BE_CTRL
  match s.fabric.requests.find? (fun r => r.seq == seq) with
  | none => .next s
  | some r =>
    if s.tick.now < r.sentTick + bits v 11 8 * (if r.cmd.isSome then v % 16 + 1 else 1) then .next s
    else if r.tries < v % 16 ∧ r.cmd.isNone then
      let s := { s with fabric := { s.fabric with requests := s.fabric.requests.map (fun (q : Request) =>
        if q.seq = seq then { q with tries := q.tries + 1, sentTick := s.tick.now } else q) } }
      .next (s.sendRouted r.packet)
    else .next (s.failRequest r 9)

end Sys2Proof.Machine
end

