-- ==== Sys2Proof/Machine/Hasp.lean ====
section
/-! DEFINITION. What takes effect at a boundary for one context: commit (R80), rollback (R81, R82), halt, the beginning of a step (R38, R42, R82), the copies of candidates, clear hasps, durable hasps and restores (R83, R93, R95), the replay log (R89), first-frame copies (R39). -/

namespace Sys2Proof.Machine

/-- Clear interval k of a context, 0 for a fraction of 0 (R441). -/
def State.clearEvery (s : State) (c : Nat) : Nat :=
  match (s.hasp c).frac with
  | 1 => 64
  | 2 => 32
  | 3 => 16
  | 4 => 8
  | 5 => 4
  | _ => 0

/-- Posts PHASE when the phase differs from `old` (R524). -/
def State.notePhase (s : State) (c : Nat) (old : Phase) : State :=
  let h := s.hasp c
  if h.phase = old then s else s.postEvent c 0x0005 0 h.shown h.phase.code 0

/-! Copies of the version arena. -/

/-- The two-half regions that a hasp holds: ARENA, CARRY and LATE, in LEDGER order (R71, R365, R367). -/
def State.versionRegions (s : State) (c : Nat) : List Ledger := (s.ledger c).filter (fun l => l.kind == 1 || l.kind == 5 || l.kind == 6)

/-- Unit of a region as its store is addressed. -/
def Ledger.storeUnit (l : Ledger) : Nat := if l.space ≤ 1 then l.unit else 0

/-- The committed version of a context's version regions. -/
def State.committedCopy (s : State) (c : Nat) : Bytes :=
  ((s.versionRegions c).map (fun l => s.rd c l.space l.storeUnit (l.halfAt (s.hasp c).epoch) l.size)).flatten

/-- Counts the bytes of one half of each version region, as a copy reads or writes them (R401). -/
def State.countVersion (s : State) (c : Nat) : State := s.over (s.versionRegions c) (fun s l => s.countTier c l.space l.size)

/-- Spreads a copy over the halves that epoch `x` selects, and marks them dirty. -/
def placeCopy (c x : Nat) : List Ledger → Bytes → State → State
  | [], _, s => s
  | l :: t, b, s =>
    let d := b.take l.size
    placeCopy c x t (b.drop l.size) ((s.wrRaw c l.space l.storeUnit (l.halfAt x) d).dirty c l.space l.storeUnit (l.halfAt x) d.length)

/-- Numbers of the granules of committed version `v` in a guard's latest-hasp slot (R410, R411). -/
def committedIdx (v : Nat) : Nat → List Ledger → List Nat
  | _, [] => []
  | first, l :: t =>
    let n := l.size / 65536
    let lo := first + (if l.half = 0 then 0 else v % 2 * n)
    (List.range n).map (· + lo) ++ committedIdx v (first + l.granules) t

/-- The committed granules that this device guards for its twin seat (R411). -/
def State.guardCopy (s : State) (c : Nat) : Bytes :=
  let g := (s.ctx c).twin.guard
  if g.state = 0 then [] else
    let l := (imgLedger (s.ctx c).image (imgRole (s.ctx c).image g.seat)).filter (fun r => r.flags % 4 / 2 == 1)
    ((committedIdx (s.hasp c).epoch 0 l).map (fun i => s.lpRead (s.guardBase + g.latest + i * 65536) 65536)).flatten

/-- Makes the candidate of the epoch just committed (R93, R294, R411): the version, then the guard's copy, in the context's share of the
candidate area. One that does not fit is not made (R285). -/
def State.makeCandidate (s : State) (c : Nat) : State :=
  let own := s.committedCopy c
  let guard := s.guardCopy c
  let slots := s.candidateSlots c
  let area := s.lpShare Reg.MEM_LP_CAND c
  let x := (s.hasp c).epoch
  let cand := slots.foldl (fun t p => tput t p.1 p.2) (s.adp c).cand
  if own.length + guard.length + cand.length * s.adpPitch c ≤ area.2 then
    let s := (((s.countVersion c).lpWrite area.1 (own ++ guard)).account c 5 (own.length + 2 * guard.length)).modHasp c (fun h => { h with candidate := some x, candPlan := imgPlanId (s.ctx c).image, candidateClean := true })
    (s.modAdp c (fun a => { a with cand := cand })).modKv c (fun k => { k with candidate := k.committed })
  else (s.modHasp c (fun h => { h with candidate := none })).event Reg.MEM_LP_EVENT 3

/-! The replay log. -/

/-- A replay-log entry as the LPDDR region holds it (R89; the layout is a DESIGN CHOICE, log entry 16). -/
def LogEntry.bytes (e : LogEntry) : Bytes :=
  let b := e.bounds.getD ⟨0, 0, 0⟩
  toLe 4 e.epoch ++ toLe 4 e.variant ++ toLe 8 e.vote.toNat ++ toLe 4 e.ledger.length ++ toLe 4 e.cursor.length ++ toLe 4 e.liveFrames.length ++
    toLe 1 b.floor ++ toLe 1 b.ceil ++ toLe 2 b.window ++ toLe 4 (b2n e.bounds.isSome + 2 * b2n e.permute) ++ (e.ledger.map lateBytes).flatten ++ (e.cursor.map (toLe 8)).flatten ++
    (e.liveFrames.map (fun f => toLe 4 f.length ++ f)).flatten

/-- The bytes of a context's replay log. -/
def logBytes (l : List LogEntry) : Bytes := (l.map LogEntry.bytes).flatten

/-- A late-ledger entry of its 16 bytes (R367). -/
def lateOf (b : Bytes) (o : Nat) : LateEntry := ⟨u32 b o, u32 b (o + 4), byteAt b (o + 8), byteAt b (o + 9), u16 b (o + 10), u16 b (o + 12)⟩

/-- Retained frames, each after its length, and what follows them. -/
def framesOf : Nat → Bytes → List Bytes × Bytes
  | 0, b => ([], b)
  | n + 1, b =>
    let r := framesOf n (b.drop (4 + u32 b 0))
    (slice b 4 (u32 b 0) :: r.1, r.2)

/-- The entries that a replay log's bytes hold, up to an epoch of 0. -/
def parseLog : Nat → Bytes → List LogEntry
  | 0, _ => []
  | f + 1, b =>
    if b.length < 36 ∨ u32 b 0 = 0 then []
    else
      let nl := min (u32 b 16) (b.length / 16)
      let nc := min (u32 b 20) (b.length / 8)
      let nf := min (u32 b 24) (b.length / 4)
      let o := 36 + 16 * nl
      let r := framesOf nf (b.drop (o + 8 * nc))
      ⟨u32 b 0, BitVec.ofNat 64 (u64 b 8), u32 b 4, (List.range nl).map (fun i => lateOf b (36 + 16 * i)), (List.range nc).map (fun i => u64 b (o + 8 * i)), r.1,
        if bit (byteAt b 32) 0 then some ⟨byteAt b 28, byteAt b 29, u16 b 30⟩ else none, bit (byteAt b 32) 1⟩ :: parseLog f r.2

/-- Marks the log granules of an extent dirty (R412). -/
def State.dirtyLog (s : State) (c a n : Nat) : State :=
  if n = 0 then s else
  let lo := s.granules c
  let gs := (List.range ((a + n - 1) / 65536 + 1 - a / 65536)).map (fun i => lo + a / 65536 + i)
  s.modCtx c (fun x => { x with twin := { x.twin with dirty := x.twin.dirty ++ gs.filter (fun g => !x.twin.dirty.contains g) } })

/-- Appends an entry to the replay log; one that does not fit withholds ready until a clear hasp frees entries (R89, R285). -/
def State.appendLog (s : State) (c : Nat) (e : LogEntry) : State :=
  let area := s.lpShare Reg.MEM_LP_REPLAY c
  let old := (logBytes (s.ctx c).log).length
  let b := e.bytes
  if old + b.length + 4 ≤ area.2 then
    ((s.lpWrite (area.1 + old) (b ++ zeros 4)).modCtx c (fun x => { x with log := x.log ++ [e] })).dirtyLog c old b.length
  else (s.modHasp c (fun h => { h with logFull := true })).event Reg.MEM_LP_EVENT 3

/-- Frees the log entries and the batches at or below an epoch (R89, R90, R469). -/
def State.freeLog (s : State) (c e : Nat) : State :=
  let s := (s.freeBatches c e).modCtx c (fun x => { x with log := x.log.filter (fun l => decide (e < l.epoch)), hasp := { x.hasp with logFull := false } })
  let b := logBytes (s.ctx c).log ++ zeros 4
  (s.lpWrite (s.lpShare Reg.MEM_LP_REPLAY c).1 b).dirtyLog c 0 b.length

/-! Durable hasps. -/

/-- The blocks of a byte string. -/
def blocksOf (b : Bytes) : List Bytes := (List.range (cdiv b.length 4096)).map (fun i => padTo 4096 (slice b (4096 * i) 4096))

/-- Begins a durable hasp of epoch `e` from a version's bytes, or skips it while another is in progress (R95). Its first block holds the
epoch, PLAN_ID and seed. -/
def State.startDurable (s : State) (c e : Nat) (b : Bytes) : State :=
  let h := s.hasp c
  if h.durableBusy.isSome then s.event (Reg.HSP_EVENT c) 5
  else
    let i := ((List.range 32).find? (fun i => !h.durables.any (fun d => d.2 == i))).getD 0
    let head := padTo 4096 (toLe 4 e ++ toLe 4 h.seed.toNat ++ toLe 8 (imgPlanId (s.ctx c).image) ++ toLe 8 b.length)
    let slots := ((s.adp c).clear.map (fun p => p.2)).flatten
    let bs := head :: blocksOf (b ++ slots)
    let base := s.durableBase c i
    let s := s.account c 6 (bs.length * 4096)
    let s := s.modHasp c (fun h => { h with durableBusy := some (e, i), durableLeft := (List.zip (List.range bs.length) bs).map (fun p => (base + p.1, p.2)) })
    (s.pumpDurable c).settleDurable c

/-- Whether epoch `x` is due for a durable hasp (R95). -/
def State.durableDue (s : State) (c x : Nat) : Bool :=
  let n := s.regN (Reg.HSP_DURABLE_EVERY c) % 65536
  n != 0 && x % n == 0

/-- The candidate becomes the newest clear hasp (R93, R294, R411): its copies move into the clear area and the clear slot, log entries at or
below it are freed, and it is written to flash when it is due. One that does not fit is not made (R285). -/
def State.makeClear (s : State) (c e : Nat) : State :=
  let n := ((s.versionRegions c).map (fun l => l.size)).foldl (· + ·) 0
  let cand := s.lpShare Reg.MEM_LP_CAND c
  let area := s.lpShare Reg.MEM_LP_CLEAR c
  let g := (s.ctx c).twin.guard
  let slots := ((s.adp c).cand.foldl (fun t p => tput t p.1 p.2) (s.adp c).clear).length * s.adpPitch c
  if area.2 < n + slots then (s.modHasp c (fun h => { h with candidate := none })).event Reg.MEM_LP_EVENT 3
  else
    let own := s.lpRead cand.1 n
    let s := ((s.lpWrite area.1 own).account c 5 (2 * n)).modHasp c (fun h => { h with clear := some e, clearPlan := h.candPlan, candidate := none })
    let s := (s.clearSlots c).modKv c (fun k => { k with cleared := k.candidate })
    let s := if g.state = 0 then s
      else (s.lpWrite (s.guardBase + g.clear) (s.lpRead (cand.1 + n) (g.clearGranules * 65536))).modGuard c (fun g => { g with clearEpoch := e })
    let s := s.freeLog c e
    if s.durableDue c e then s.startDurable c e own else s

/-! Loss scale. -/

/-- Space, unit, address and stride of the loss-scale record that the role's SCALE record names (R218). -/
def State.lsPlace (s : State) (c : Nat) : Option (Nat × Nat × Nat × Nat) :=
  let b := (s.ctx c).image
  match s.roleOf c with
  | none => none
  | some role => (List.range (imgFrames b)).findSome? (fun f => (List.range 16).findSome? (fun w =>
      ((imgRecords b role f (272 + w)).find? (fun r => recClass r == 0x23)).map (fun r =>
        let u := upUnit w (upSpace r)
        (upSpace r, u, u32 r 64 * 64, s.lsStride c (upSpace r) u (u32 r 64 * 64)))))

/-- Shows the committed loss-scale record (R250). -/
def State.showLs (s : State) (c : Nat) : State :=
  let pend := b2n (!(s.ctx c).bounds.isEmpty) * 256
  match s.lsPlace c with
  | none => s.setRegN (Reg.UPD_LS_NOW c) (s.regN (Reg.UPD_LS_NOW c) / 512 * 512 + pend + s.regN (Reg.UPD_LS_NOW c) % 256)
  | some (sp, u, a, d) =>
    let l := lsParse (s.rd c sp u (a + (s.hasp c).epoch % 2 * d) 64)
    ((s.setRegN (Reg.UPD_LS_NOW c) (min l.clean 65535 * 65536 + pend + ofSigned 8 l.s)).setRegN (Reg.UPD_SUMSQ c) l.sumsq).setRegN (Reg.UPD_SKIPS c) l.skips

/-- The loss-scale record as a context leaves STOPPED (R219). -/
def State.initLs (s : State) (c : Nat) : State :=
  let r8 := fun o => toSigned 8 (s.regN o)
  let f := r8 (Reg.UPD_LS_FLOOR c)
  let e := r8 (Reg.UPD_LS_CEIL c)
  let l : LossScale := ⟨min (max (r8 (Reg.UPD_LS_INIT c)) f) e, f, e, s.regN (Reg.UPD_LS_WINDOW c) % 65536, 0, 0, 0⟩
  let s := s.modCtx c (fun x => { x with bounds := [], adopted := [] })
  match s.lsPlace c with
  | none => s
  | some (sp, u, a, _) => ((s.wrRaw c sp u a l.bytes).dirty c sp u a 64).showLs c

/-- What a commit of epoch `x` does to pending loss-scale bounds (R219): those that its step adopted are settled, and the others wait for a step that begins
from now on. -/
def State.commitBounds (s : State) (c x : Nat) : State :=
  s.modCtx c (fun y =>
    let n := ((y.adopted.find? (fun a => a.1 == x)).map (fun a => a.2.2)).getD 0
    { y with bounds := (y.bounds.drop n).map (fun b => (b.1, max 1 b.2)), adopted := y.adopted.filter (fun a => a.1 != x) })

/-! Commit. -/

/-- Writes a checkpoint record (R449, R450). -/
def State.checkpoint (s : State) (c : Nat) : State :=
  let x := s.ctx c
  let r := { s.newRecord 5 0 0 with ctx := c, gen := x.hasp.gen, epoch := x.hasp.epoch, detail := toLe 8 (imgPlanId x.image) ++ toLe 1 x.hasp.frac ++ zeros 7 }
  ({ s with chk := { s.chk with nextSeq := s.chk.nextSeq + 1 } }).putRecord r

/-- Lets a released effect act; the second result says whether it is done, or stays queued for the supply or for room (R86, R87). -/
def State.release (s : State) (c : Nat) (d : Deferred) : State × Bool :=
  match d with
  | .event fn e => (s.ringPush fn false (.event { e with tick := s.tick.now }), true)
  | .done fn op id quiet => (s.finish fn op id quiet 0 0 true, true)
  | .flash b data =>
    match s.deferredWrite b data with
    | (t, ok) => (if ok then t.account c 6 4096 else t, ok)
  | .archive f => s.archiveRecord c f
  | .checkpoint _ => if s.inhibited then (s, false) else (s.checkpoint c, true)

/-- Releases the effect with a stamp from the queue of a context; one that cannot act stays, marked as released (R87). -/
def State.releaseOne (s : State) (p : Nat × Nat) : State :=
  match (s.ctx p.1).effects.find? (fun f => f.stamp == p.2) with
  | none => s
  | some f =>
    let q := s.release p.1 f.what
    let keep := fun (l : List Effect) => if q.2 then l.filter (fun g => g.stamp != p.2) else l.map (fun g => if g.stamp = p.2 then { g with released := true } else g)
    q.1.modCtx p.1 (fun x => { x with effects := keep x.effects })

/-- The effects of committed epochs in a context's queue, in queue order, as context and stamp. -/
def State.dueEffects (s : State) (c : Nat) : List (Nat × Nat) :=
  ((s.ctx c).effects.filter (fun f => decide (f.epoch ≤ (s.hasp c).epoch))).map (fun f => (c, f.stamp))

/-- Releases the deferred effects of every committed epoch in queue order (R86, R87). -/
def State.releaseEffects (s : State) (c : Nat) : State := s.over (s.dueEffects c) State.releaseOne

/-- Queues a deferred effect that belongs to the commit of epoch `x`: the COMMIT event, the checkpoint record (R85); refused when the queue is full
(R86). -/
def State.deferFor (s : State) (c x : Nat) (d : Deferred) : State :=
  let y := s.ctx c
  if 16384 ≤ y.effects.length then s.event (Reg.HSP_EVENT c) 4
  else s.queueEffect c x d

/-- Queues a deferred event for the commit of epoch `x` (R85, R524); a context that names no VF has no ring. -/
def State.deferEvent (s : State) (c ty x b : Nat) : State :=
  let fn := s.ctxFn c
  if fn = 0 then s else s.deferFor c x (.event fn (s.mkEvent c ty 0 x 0 b))

/-- WAIT_EPOCH commands whose epoch the host can see complete with OK (R520). -/
def State.settleWaits (s : State) (c : Nat) : State :=
  let e := (s.hasp c).shown
  let w := (s.ctx c).waits
  let s := s.modCtx c (fun x => { x with waits := x.waits.filter (fun p => decide (e < p.2.arg0)) })
  s.over (w.filter (fun p => decide (p.2.arg0 ≤ e))) (fun s p => s.complete p.1 0x0013 p.2 0)

/-- Fails every WAIT_EPOCH of a context. -/
def State.failWaits (s : State) (c code : Nat) : State :=
  let w := (s.ctx c).waits
  s.over w (fun s p => s.complete p.1 0x0013 p.2 code) |>.modCtx c (fun x => { x with waits := [] })

/-- Copies the counters into the snapshot (R403). -/
def State.snapshot (s : State) (c : Nat) : State :=
  s.modCtx c (fun x => { x with acc := { x.acc with snap := x.acc.live, snapEpoch := BitVec.ofNat 32 x.hasp.epoch, snapGen := x.hasp.gen } })

/-- What the replay log will hold of epoch `x`. -/
def State.stepEntry (s : State) (c x : Nat) : LogEntry := ((s.ctx c).steps.find? (fun e => e.epoch == x)).getD ⟨x, 0, 0, [], [], [], none, false⟩

/-- Counts the committed entries of the late ledger by kind (R364, R366). -/
def State.countLate (s : State) (c : Nat) (l : List LateEntry) : State :=
  let n := fun k => (l.filter (fun e => e.kind == k)).length
  ((s.countBy (Reg.FAB_LATE_EXCL c) (n 1)).countBy (Reg.FAB_LATE_CARRY c) (n 2)).countBy (Reg.FAB_LATE_DROP c) (n 3)

/-- Clear and candidate copies that a commit of epoch `x` makes (R93, R95). -/
def State.commitCopies (s : State) (c x : Nat) : State :=
  let k := s.clearEvery c
  let s := if k = 0 then s.freeBatches c x else s
  if k = 0 then (if s.durableDue c x then s.startDurable c x (s.committedCopy c) else s)
  else
    let h := s.hasp c
    let s := if h.unclean.contains x then s.modHasp c (fun h => { h with candidateClean := false }) else s
    let s := if h.candidate = some (x - k) ∧ k ≤ x ∧ (s.hasp c).candidateClean then s.makeClear c (x - k) else s
    if x % k = 0 then s.makeCandidate c else s

/-- Commit of epoch `x` (R80), after the ledger, the guard (R416), the adapters (R292), the effects (R86), the counters (R403), the log (R89)
and the copies. A step still open, its context paused before its next tick 0, gives the log its ledger and its vote (R35). While REPLAYING, effects
were released already, and the log holds the epoch (R87). -/
def State.commitCore (s : State) (c x : Nat) : State :=
  let e := s.stepEntry c x
  let open_ := (s.hasp c).stepOpen && (s.hasp c).stepEpoch == x
  let e := if open_ then { e with ledger := (s.ctx c).late, vote := (s.hasp c).vote } else e
  let replay := (s.hasp c).phase == .replaying
  let s := s.modCtx c (fun y => { y with
    hasp := { y.hasp with epoch := x, lastCmd := 1, gate := s.tick.now, reported := false, committedOnce := true }
    lateCommitted := e.ledger
    steps := y.steps.filter (fun f => f.epoch != x)
    effects := if replay then y.effects.filter (fun f => f.released || f.epoch != x) else y.effects })
  let s := ((s.countLate c e.ledger).commitPool c).commitAdapters c x
  let s := if (s.ctx c).twin.guard.state = 0 then s else s.modGuard c (fun g => { g with epoch := x, state := if g.rebuild then g.state else 2 })
  let s := s.snapshot c
  let s := if replay then s else
    let s := if (s.hasp c).skipped.contains x then (s.event (Reg.UPD_EVENT c) 0).deferEvent c 0x0003 x 0 else s
    let s := s.deferEvent c 0x0002 x (imgPlanId (s.ctx c).image)
    let s := if s.durableDue c x then s.deferFor c x (.checkpoint []) else s
    s.releaseEffects c
  let s := if s.clearEvery c ≠ 0 ∧ !replay then s.appendLog c { e with bounds := ((s.ctx c).adopted.find? (fun a => a.1 == x)).map (fun a => a.2.1) } else s
  let s := ((s.commitCopies c x).commitBounds c x).showLs c
  let s := s.modHasp c (fun h => { h with
    phase := if h.phase = .replaying ∧ x = h.eLast then .running else h.phase
    unclean := h.unclean.filter (fun y => decide (x < y))
    skipped := h.skipped.filter (fun y => decide (x < y))
    derived := h.derived.filter (fun p => decide (x < p.1)) })
  let s := if (s.hasp c).stepOpen then s.writeLate c else s
  s.settleWaits c

/-! Rollback and halt. -/

/-- Drops what carries a stale tag in the units and on the links (R68): records begun, waits, reservations. -/
def State.dropWork (s : State) (c : Nat) : State :=
  let s := { s with units := tmap (fun _ u => { u with queue := u.queue.filter (fun o => o.ctx != c) }) s.units }
  let s := { s with bolts := tmap (fun _ b => { b with waits := b.waits.filter (fun w => w.ctx != c) }) s.bolts }
  s.over (List.range 24) (fun s l => s.modLink l (fun k => { k with
    rx := k.rx.filter (fun x => x.ctx != c), bound := k.bound.filter (fun b => b.ctx != c), sent := k.sent.filter (fun x => x.1 != c) }))

/-- Sets every bolt of a context's range to 0 (R383, R399). -/
def State.clearBolts (s : State) (c : Nat) : State :=
  { s with bolts := tmap (fun i b => if s.ownBolt c i then {} else b) s.bolts }

/-- What goes with the generation: poison marks, uncommitted effects and ledger entries, open work (R81). -/
def State.discardWork (s : State) (c : Nat) : State :=
  let s := (s.dropWork c).dropStreams c
  let s := { s with poison := s.poison.filter (fun p => p.ctx != c) }
  s.modCtx c (fun x => { x with
    hasp := { x.hasp with gen := x.hasp.gen + 1, stepOpen := false, stepTick := 0, run := false, unclean := [], withhold := 0, reported := false,
                          votedVariant := none, gate := s.tick.now, pgate := s.tick.now,
                          skipped := x.hasp.skipped.filter (fun y => decide (y ≤ x.hasp.epoch)),
                          derived := x.hasp.derived.filter (fun p => decide (p.1 ≤ x.hasp.epoch + 1)) }
    late := [], lateReplay := none, steps := []
    adopted := []
    effects := x.effects.filter (fun f => f.released || decide (f.epoch ≤ x.hasp.epoch)) }) |>.dropStale

/-- FAB_PERM_STATUS.STATE outside a permute step: ARMED while FAB_PERM_AT names an epoch (R372, R379). -/
def State.permArmed (s : State) (c : Nat) : Nat := if s.regN (Reg.FAB_PERM_AT c) = 0xFFFFFFFF then 0 else 1

/-- A permute step that rolls back (R375, R376). -/
def State.rollbackPermute (s : State) (c : Nat) : State :=
  let p := (s.ctx c).perm
  if p.state < 2 then s
  else
    let torn := p.cycleInstalled
    let s := s.modCtx c (fun x => { x with perm := { state := s.permArmed c, malformed := false, torn := p.torn || torn } })
    (s.event (Reg.FAB_PERM_EVENT c) 1).eventIf torn (Reg.FAB_PERM_EVENT c) 2

/-- The context begins to restore clear hasp `e` (R83); one that the device does not hold, or whose clear streams are not complete, holds
READY at 0 (R285, R428); every adapter frame becomes invalid (R294), and so does one whose PLAN_ID is not the plan's (R88). -/
def State.beginRestore (s : State) (c e : Nat) : State :=
  let h := s.hasp c
  let pend := (s.ctx c).twin.clearPending
  let s := s.modHasp c (fun h => { h with
    target := e, restoreDone := false, copyPending := true, missing := pend || h.clear != some e || h.clearPlan != imgPlanId (s.ctx c).image
    candidate := if h.candidate.any (fun y => decide (e < y)) then none else h.candidate
    eLast := match h.under with
      | .restoring => h.eLast
      | .replaying => max h.eLast h.epoch
      | _ => h.epoch })
  let s := (s.emptyFrames c).modAdp c (fun a => if h.candidate.any (fun y => decide (e < y)) then { a with cand := [] } else a)
  (s.eventIf pend Reg.HSP_TWIN_EVENT 5).event (Reg.HSP_EVENT c) 1

/-- Whether a rollback target is a clear hasp older than the epoch, or, while the context restores, any clear hasp (R82). -/
def State.olderClear (s : State) (c arg : Nat) : Bool :=
  let k := s.clearEvery c
  let h := s.hasp c
  k != 0 && arg % k == 0 && (h.under == .restoring || decide (arg < h.epoch))

/-- A command that R82 does not allow. -/
def State.ignoreCmd (s : State) (c : Nat) : State := s.event (Reg.HSP_EVENT c) 8

/-- What every rollback does (R81, R92): `older` says that a clear hasp is restored, `phase` is the phase after it and `held` the phase held, `cmd` the
command to show as the last applied. -/
def State.applyRollback (s : State) (c cmd arg : Nat) (older : Bool) (phase held : Phase) : State :=
  let h := s.hasp c
  let s := s.rollbackPermute c
  let s := ((s.discardWork c).clearBolts c).resetPool c
  let s := if older then s.beginRestore c arg else s
  let s := s.modHasp c (fun y => { y with
    phase := phase, held := held, lastCmd := cmd, viaFailover := decide (cmd = 3) || (h.phase == .withheld && h.viaFailover)
    copyPending := y.copyPending || decide (phase = .withheld ∧ cmd = 3) })
  let s := s.restartStreams c
  let s := (s.event (Reg.HSP_EVENT c) 0).count (Reg.HSP_ROLLBACKS c)
  let restoring := older || h.under == .restoring
  s.postEvent c 0x0004 0 (if restoring then (s.hasp c).eLast else h.epoch) 0 (if restoring then (s.hasp c).target else h.epoch)

/-- Rollback (R81, R82, R92, R424): `held` says that the context enters WITHHELD. In WITHHELD every rollback applies, and the phase held stays unless
CMD_ARG names a clear hasp. A rollback that finds the context RESTORING and names no clear hasp is ignored (DESIGN CHOICE, log entry 46). -/
def State.rollbackCore (s : State) (c cmd arg : Nat) (held : Bool) : State :=
  let h := s.hasp c
  let older := s.olderClear c arg
  let fresh := h.under != .restoring && arg == h.epoch
  if h.phase = .stopped ∨ h.phase = .halted ∨ !(older || fresh || h.phase == .withheld) then s.ignoreCmd c
  else
    let wh := held || h.phase == .withheld
    let new := if older then .restoring else h.under
    s.applyRollback c cmd arg older (if wh then .withheld else new) (if wh then new else h.held)

/-- Halt (R82). -/
def State.haltCore (s : State) (c : Nat) : State :=
  if (s.hasp c).phase = .stopped then s.ignoreCmd c
  else
    let s := ((s.discardWork c).endStreams c).modHasp c (fun h => { h with phase := .halted, lastCmd := 4 })
    s.failWaits c 4

/-- A hasp command at its boundary (R80 to R82). Phase WITHHELD with command None is the case of R78. -/
def State.applyCmd (s : State) (c : Nat) (cmd : Cmd) (arg : Nat) (phase : Phase) : State :=
  let h := s.hasp c
  let runs := h.phase == .running || h.phase == .replaying
  match cmd with
  | .none => if phase = .withheld ∧ runs then s.rollbackCore c 2 h.epoch true else s
  | .commit => if runs ∧ arg = h.epoch + 1 ∧ arg ≠ 0xFFFFFFFF then s.commitCore c arg else s.ignoreCmd c
  | .rollback => s.rollbackCore c 2 arg (decide (phase = .withheld ∧ runs ∧ arg = h.epoch))
  | .failover => s.rollbackCore c 3 arg true
  | .halt => s.haltCore c

/-! Restores and first frames. -/

/-- The entries that a committed late ledger holds in memory (R367). -/
def State.readLate (s : State) (c x : Nat) : List LateEntry :=
  match s.lateRegion c with
  | none => []
  | some l =>
    let b := s.rd c l.space l.storeUnit (l.halfAt x) l.size
    (List.range (min (u32 b 4) (s.lateCapacity c))).map (fun i => lateOf b (16 + 16 * i))

/-- RESTORE_COPY_DONE (R83, R247, R294): the clear hasp fills half (target mod 2), and the target becomes the epoch. A copy that fails its CRC,
and one that the device lacks, hold READY at 0 (R285, R287). -/
def execRestoreCopyDone (c : Fin 16) (bad : Bool) (s : State) : Host.Outcome State Fault Refusal :=
  let h := s.hasp c
  if h.under ≠ .restoring ∨ h.restoreDone ∨ s.pwr.beHeld then .next s
  else if bad then .next (((s.modHasp c (fun h => { h with missing := true })).event Reg.MEM_LP_EVENT 2).count Reg.MEM_LP_UE_TOTAL)
  else if h.missing then .next s
  else
    let ls := s.versionRegions c
    let n := (ls.map (fun l => l.size)).foldl (· + ·) 0
    let s := placeCopy c h.target ls (s.lpRead (s.lpShare Reg.MEM_LP_CLEAR c).1 n) s
    let s := (((s.countVersion c).account c 5 n).restoreSlots c).modKv c (fun k => { k with committed := k.cleared })
    let s := s.modCtx c (fun x => { x with
      hasp := { x.hasp with epoch := h.target, restoreDone := true }
      lateCommitted := s.readLate c h.target })
    .next ((s.resetPool c).showLs c)

/-- Copies the first frame of variant `v` into every entry region, into the half that epoch `x` selects (R39). -/
def State.copyFirstFrames (s : State) (c v x : Nat) : State :=
  s.over ((s.ledger c).filter (fun l => l.kind == 4)) (fun s l =>
    let p := s.firstFrameCopy c v x l
    ((s.wrRaw c p.2.space p.2.unit p.2.addr (s.rd c 3 0 p.1.addr p.1.len)).countTier c 3 p.1.len).countTier c p.2.space p.1.len)

/-- The variant that the newest packet held shows for a context (R39, R42), as far as the table reaches. -/
def State.shownVariant (s : State) (c : Nat) : Option Nat :=
  match s.tick.packets.foldl (fun (a : Option (Nat × Bytes)) p => match a with
      | some q => if q.1 < p.1 then some p else some q
      | none => some p) none with
  | some p => some (min (le p.2 40 12 / 64 ^ c % 64) (imgVariants (s.ctx c).image - 1))
  | none => none

/-- The variant and the epoch of a pending first-frame copy (R39). -/
def State.pendingFrame (s : State) (c : Nat) : Nat × Nat :=
  let x := s.ctx c
  let h := x.hasp
  let last := imgVariants x.image - 1
  let logged := fun e => ((x.log.find? (fun l => l.epoch == e)).map (fun l => l.variant)).getD last
  if h.under = .restoring then (logged (h.target + 1), h.target + 1)
  else if x.perm.state ≥ 2 then (((h.derived.find? (fun p => p.1 == h.stepEpoch)).map (·.2)).getD last, h.stepEpoch + 1)
  else if h.phase = .withheld then ((s.shownVariant c).getD h.variant, h.epoch + 1)
  else (last, h.epoch + 1)

/-- FIRST_FRAME_COPY_DONE (R39): the copy that waits is made; PLAN_LOAD completes with it. -/
def execFirstFrameCopyDone (c : Fin 16) (s : State) : Host.Outcome State Fault Refusal :=
  let h := s.hasp c
  if !h.copyPending ∨ (h.under = .restoring ∧ !h.restoreDone) ∨ s.pwr.beHeld then .next s
  else
    let p := s.pendingFrame c
    let s := (s.copyFirstFrames c p.1 p.2).modHasp c (fun h => { h with copyPending := false })
    match h.loadCmd with
    | some (fn, cmd) => .next ((s.modHasp c (fun h => { h with loadCmd := none })).complete fn 0x0010 cmd 0)
    | none => .next s

/-! Steps. -/

/-- The context's placement table in force becomes its home table (R324). -/
def State.latchHome (s : State) (c : Nat) : State :=
  let t := (s.fabric.inForce.place.filter (fun p => p.1 / 32768 == c)).map (fun p => (p.1 % 32768, p.2))
  s.modCtx c (fun x => { x with home := t.filter (fun p => p.2 != 0xFFFF) })

/-- HSP_DURABLE_EVERY adjusted to the clear interval (R95). -/
def State.adjustDurable (s : State) (c : Nat) : State :=
  let k := s.clearEvery c
  let n := s.regN (Reg.HSP_DURABLE_EVERY c) % 65536
  if k = 0 ∨ n % k = 0 then s
  else
    let up := cdiv n k * k
    (s.setRegN (Reg.HSP_DURABLE_EVERY c) (if up ≤ 65535 then up else 65535 / k * k)).event (Reg.HSP_EVENT c) 6

/-- What a context latches as it leaves STOPPED (R131, R219, R324, R379, R416, R441), and the answer to PLAN_START (R520). -/
def State.leaveStopped (s : State) (c : Nat) : State :=
  let s := s.latchHome c
  let s := s.modHasp c (fun h => { h with
    seed := s.reg (Reg.TCK_SEED c)
    frac := s.regN (Reg.CHK_FRAC c) % 8
    carryPolicy := (s.reg (Reg.FAB_LATE_CTRL c)).getLsbD 0
    phase := .running, startAt := none, derived := [], committedOnce := false })
  let s := (s.adjustDurable c).initLs c
  let s := if s.twinSeat c = some (s.ctx c).twin.guard.seat ∧ (s.ctx c).twin.guard.state ≠ 0 then s else s.layGuard c
  let s := ((s.noteSeed c).dirtyAll c).initPool c
  match (s.hasp c).startCmd with
  | some (fn, cmd) => (s.modHasp c (fun h => { h with startCmd := none })).complete fn 0x0011 cmd 0
  | none => s

/-- A start refused at its boundary (R476, R635): PLAN_START completes with MALFORMED, and the context stays STOPPED. -/
def State.refuseStart (s : State) (c : Nat) : State :=
  let cmd := (s.hasp c).startCmd
  let s := s.modHasp c (fun h => { h with startAt := none, startCmd := none })
  match cmd with
  | some (fn, x) => s.complete fn 0x0011 x 7
  | none => s

/-- Whether a context whose start is due can start with the placement that its home table takes over (R324, R635) and its slots (R476). -/
def State.startOk (s : State) (c : Nat) : Bool := s.slotsOk c && (s.matchBad c (planView (s.ctx c).image)).isNone

/-- The phase after STEP_START (R82); none where STEP_START begins nothing. -/
def State.startPhase (s : State) (c : Nat) : State × Bool :=
  let h := s.hasp c
  match h.phase with
  | .stopped => if h.startAt.isNone then (s, false) else if s.startOk c then (s.leaveStopped c, true) else (s.refuseStart c, false)
  | .restoring => if h.restoreDone then (s.modHasp c (fun h => { h with phase := .replaying }), true) else (s, false)
  | .withheld =>
    ((s.startLater c).modHasp c (fun h => { h with phase := h.held }), h.held != .restoring)
  | .halted => (s, false)
  | _ => (s, true)

/-- The epoch of the last step that began (R67). -/
def Hasp.started (h : Hasp) : Nat := if h.stepOpen then max h.epoch h.stepEpoch else h.epoch

/-- The step that ends: its ledger, vote and bounds join what the replay log will hold, and its vote gives the variant of the next (R34, R89). -/
def State.closeStep (s : State) (c : Nat) : State :=
  let h := s.hasp c
  if !h.stepOpen then s
  else s.modCtx c (fun x => { x with
    steps := x.steps.map (fun e => if e.epoch = h.stepEpoch then { e with vote := h.vote, ledger := x.late } else e)
    hasp := { x.hasp with derived := match h.votedVariant with
      | some v => tput x.hasp.derived (h.stepEpoch + 1) v
      | none => x.hasp.derived } })

/-- Whether the step that produces `x` is a permute step (R372): as armed, or as recorded for a replay (R377). -/
def State.permuteDue (s : State) (c x : Nat) : Bool :=
  if (s.hasp c).under = .replaying then (s.ctx c).log.any (fun l => l.epoch == x && l.permute)
  else (s.ctx c).perm.state == 1 && s.regN (Reg.FAB_PERM_AT c) + 1 == x

/-- Data cursors at the start of a step (R89). -/
def State.cursor (s : State) (c : Nat) : List Nat := (s.ing c).cursor

/-- Tick 0 of a step of context `c` with variant `v`, `told` by a packet or, in an adrift tick, the device's own (R34, R42, R63, R70, R369). The epoch
limit halts the context at tick 0 of the step that would produce the epoch, and leaves the generation as it is (DESIGN CHOICE, log entry 47). The step
after a permute step runs the variant of the vote before it (R377). -/
def State.beginStep (s : State) (c v : Nat) (told : Bool) : State :=
  let s := s.closeStep c
  let h := s.hasp c
  let y := h.started + 1
  let v := min v (imgVariants (s.ctx c).image - 1)
  if y = 0xFFFFFFFF then (s.modHasp c (fun h => { h with phase := .halted, stepOpen := false })).event (Reg.HSP_EVENT c) 7
  else
    let perm := s.permuteDue c y
    let own := h.derived.find? (fun p => p.1 == y)
    let bad := told && !perm && (match own with | some p => p.2 != v | none => false)
    let led := if h.under = .replaying then (((s.ctx c).log.find? (fun l => l.epoch == y)).map (fun l => l.ledger)) else none
    let s := s.modCtx c (fun x => { x with
      hasp := { x.hasp with stepOpen := true, stepTick := 0, stepEpoch := y, startTick := s.tick.now, prevStart := h.startTick, variant := v, votedVariant := none,
                            vote := 0#64, withhold := if bad then 2 else h.withhold - 1, holdWait := s.pwr.hold
                            derived := match perm, own with
                              | true, some p => tput h.derived (y + 1) p.2
                              | _, _ => h.derived }
      late := [], lateReplay := led, accum := []
      bounds := x.bounds.map (fun b => (b.1, if b.2 = 1 then 2 else b.2))
      steps := x.steps.filter (fun e => e.epoch != y) ++ [⟨y, 0#64, v, [], s.cursor c, [], none, perm⟩]
      perm := if perm then { x.perm with state := 2, startTick := s.tick.now, begun := false, moves := [], malformed := false, cycleInstalled := false } else x.perm })
    let s := if bad then (s.event Reg.TCK_EVENT 4).flag 5 else s
    (s.startBatches c (!h.stepOpen)).writeLate c

/-- STEP_START of context `c` (R42, R82), `told` by a packet or derived by an adrift device (R63). -/
def State.stepStart (s : State) (c v : Nat) (told : Bool) : State :=
  if !s.loaded c then s
  else
    let p := s.startPhase c
    if p.2 then p.1.beginStep c v told else p.1

end Sys2Proof.Machine
end

