-- ==== Sys2Proof/Machine/Permute.lean ====
section
/-! DEFINITION. The permute step (R370 to R377, R432) and failover (R422 to R429, R433): permute tables and their check, the pieces that move, deaths, and the streams by which a new holder takes its seat. -/

namespace Sys2Proof.Machine

/-- The seat that an address holds by a bank (R321). -/
def Bank.seatAt (k : Bank) (c a : Nat) : Option Nat :=
  if a = 0xFFFF then none else (k.place.find? (fun p => p.1 / 32768 == c && p.2 == a)).map (fun p => p.1 % 32768)

/-! Permute tables. -/

/-- An entry of a permute table (R370). -/
structure PermEntry where
  kind : Nat
  space : Nat
  src : Nat
  dst : Nat
  cycle : Nat
  srcAddr : Nat
  dstAddr : Nat
  len : Nat
  stride : Nat
  deriving DecidableEq, Repr

/-- The entry at offset `o` of a table. -/
def permEntry (b : Bytes) (o : Nat) : PermEntry :=
  ⟨byteAt b o, byteAt b (o + 1), u16 b (o + 2), u16 b (o + 4), u16 b (o + 6), u64 b (o + 8), u64 b (o + 16), u32 b (o + 24), u32 b (o + 28)⟩

/-- Number of entries of the table of context `c`, as far as its LPDDR partition reaches. -/
def State.permCount (s : State) (c : Nat) : Nat :=
  let a := s.regN (Reg.FAB_PERM_TABLE c) * 4096
  min (le (s.rd c 4 0 a 4) 0 4) (((s.partition c 4).2 - a - 64) / 32)

/-- The bytes of the permute table of context `c` (R370). -/
def State.permTable (s : State) (c : Nat) : Bytes := s.rd c 4 0 (s.regN (Reg.FAB_PERM_TABLE c) * 4096) (64 + 32 * s.permCount c)

/-- The entries of a table. -/
def permEntries (b : Bytes) : List PermEntry := (List.range ((b.length - 64) / 32)).map (fun i => permEntry b (64 + 32 * i))

/-- Whether an entry keeps its reserved fields and encodings (R370). -/
def PermEntry.ok (e : PermEntry) : Bool :=
  decide (1 ≤ e.kind ∧ e.kind ≤ 3) && (e.space == 1 || e.space == 3 || e.space == 4) && (e.kind == 3 || e.cycle == 0) && (e.kind == 1 || e.stride == 0) && e.len % 64 == 0

/-- The bank that destination seats resolve through: the sealed standby bank, or, in a replay, the one in force (R371, R377). -/
def State.permBank (s : State) (c : Nat) : Bank := if s.replaying c then s.fabric.inForce else s.fabric.standby

/-- Partition address of an entry's source piece, for the step that produces `x`. -/
def PermEntry.srcAt (e : PermEntry) (x : Nat) : Nat := e.srcAddr + (if e.kind = 1 then (x + 1) % 2 * e.stride * 64 else 0)
/-- Partition address of an entry's destination piece, for the step that produces `x`. -/
def PermEntry.dstAt (e : PermEntry) (x : Nat) : Nat := e.dstAddr + (if e.kind = 1 then x % 2 * e.stride * 64 else 0)

/-- Whether the CYCLE entries form closed cycles of equal LENGTH in which each destination address is the successor's source address (R371): every
entry has one successor in its cycle and is the successor of one. -/
def cyclesOk (l : List PermEntry) : Bool :=
  let cs := l.filter (fun e => e.kind == 3)
  let follows := fun (e f : PermEntry) => f.cycle == e.cycle && f.space == e.space && f.src == e.dst && f.srcAddr == e.dstAddr
  cs.all (fun e => cs.all (fun f => f.cycle != e.cycle || f.len == e.len) && (cs.filter (follows e)).length == 1 && (cs.filter (fun f => follows f e)).length == 1 &&
    (cs.filter (fun f => f.cycle == e.cycle && f.space == e.space && f.src == e.src && f.srcAddr == e.srcAddr)).length == 1)

/-- The check of R371 at tick 0 of the permute step that produces `x`. -/
def State.permTableOk (s : State) (c x : Nat) : Bool :=
  let a := s.regN (Reg.FAB_PERM_TABLE c) * 4096
  let b := s.permTable c
  let l := permEntries b
  let nb := s.permBank c
  decide (u32 b 0 = s.permCount c) && decide (a + b.length ≤ (s.partition c 4).2) && decide (crc32c (patch b 60 (zeros 4)) = u32 b 60) && zeroAt b 6 2 && zeroAt b 16 44 &&
    l.all PermEntry.ok && decide (u64 b 8 = imgPlanId (s.ctx c).image) &&
    (s.replaying c || (nb.sealed && decide (nb.version = u16 b 4))) &&
    !(l.any (fun e => e.kind == 2 && nb.seatAddr c e.dst == s.addr && l.any (fun f => s.fabric.inForce.seatAddr c f.src == s.addr && f.space == e.space &&
      decide (e.dstAt x < f.srcAt x + f.len ∧ f.srcAt x < e.dstAt x + e.len)))) &&
    cyclesOk l

/-- Checks the table at tick 0 of a permute step (R371). -/
def State.permCheck (s : State) (c : Nat) : State :=
  let x := s.ctx c
  if x.perm.state < 2 ∨ x.perm.startTick ≠ s.tick.now ∨ s.permTableOk c x.hasp.stepEpoch then s
  else (s.modCtx c (fun x => { x with perm := { x.perm with malformed := true } })).event (Reg.FAB_PERM_EVENT c) 3

/-! The pieces. -/

/-- The units that an entry's space is kept in: each ward of CTX_WARDS for the ward stores. -/
def State.permUnits (s : State) (c space : Nat) : List Nat := if space = 1 then bitsOf 16 (s.regN (Reg.CTX_WARDS c)) else [0]

/-- A piece as this device moves it: copied here, sent, or part of a cycle; none where the device only receives it or has no part in it (R373). -/
def State.pieceMove (s : State) (c x : Nat) (e : PermEntry) (u : Nat) : Option PermMove :=
  let dst := (s.permBank c).seatAddr c e.dst
  let a : Spot := ⟨0, e.space, u, e.srcAt x⟩
  let b : Spot := ⟨0, e.space, u, e.dstAt x⟩
  if s.fabric.inForce.seatAddr c e.src != s.addr then none
  else if dst == s.addr && (e.kind != 3 || a == b) then some (.copy a b e.len)
  else if e.kind = 3 then some (.cycle ⟨a, e.len, dst, 0, [], []⟩ false)
  else some (.stream ⟨0, c, dst, a, b, e.len, 0, none, false⟩ false)

/-- Expects a piece that another device sends (R373). -/
def State.expectPiece (s : State) (c x : Nat) (e : PermEntry) (u : Nat) : State :=
  if e.kind = 3 ∨ (s.permBank c).seatAddr c e.dst ≠ s.addr ∨ s.fabric.inForce.seatAddr c e.src = s.addr then s
  else s.addExpect ⟨0, c, ⟨0, e.space, u, e.dstAt x⟩, e.len, []⟩

/-- Copies the arena regions of a seat that stays from the committed half to the other (R373): ARENA, CARRY and LATE (R365, R367), the late ledger then
with the header of its own step. -/
def State.copyArena (s : State) (c x : Nat) : State :=
  (s.over (s.versionRegions c) (fun s l =>
    let d := s.rd c l.space l.storeUnit (l.halfAt (x + 1)) l.size
    (s.wrRaw c l.space l.storeUnit (l.halfAt x) d).dirty c l.space l.storeUnit (l.halfAt x) l.size)).writeLate c

/-- The stream of the guard of a seat that leaves (R432). -/
def State.guardMove (s : State) (c : Nat) : List PermMove :=
  let nb := s.permBank c
  let g := (s.ctx c).twin.guard
  match s.seatOf c with
  | none => []
  | some st =>
    let a := nb.seatAddr c st
    if a = s.addr ∨ a = 0xFFFF ∨ g.state = 0 then [] else [.stream ⟨0, c, a, ⟨1, 4, 0, 0⟩, ⟨1, 4, 0, 0⟩, g.granules * 65536, 0, none, false⟩ false]

/-- The guard of a seat that arrives (R432). -/
def State.expectGuard (s : State) (c : Nat) : State :=
  let new := (s.permBank c).seatAt c s.addr
  match new with
  | none => s
  | some st =>
    if new = s.seatOf c ∨ s.holder c st = 0xFFFF then s
    else
      let s := (s.layGuardFor c (s.twinSeatOf c st)).noteSeed c
      s.addExpect ⟨0, c, ⟨1, 4, 0, 0⟩, (s.ctx c).twin.guard.granules * 65536, []⟩

/-- The copies begin once epoch P is committed and the table is good (R372, R373). -/
def State.permBegin (s : State) (c : Nat) : State :=
  let y := s.ctx c
  let x := y.hasp.stepEpoch
  if y.perm.state ≠ 2 ∨ y.perm.begun ∨ y.perm.malformed ∨ !y.hasp.stepOpen ∨ y.hasp.epoch + 1 ≠ x then s
  else
    let l := permEntries (s.permTable c)
    let stays := (s.seatOf c).isSome && (s.permBank c).seatAt c s.addr == s.seatOf c
    let s := s.modCtx c (fun y => { y with perm := { y.perm with begun := true }, hasp := { y.hasp with copyPending := (s.permBank c).seatAt c s.addr != none } })
    let s := if stays then s.copyArena c x else s
    let moves := (l.flatMap (fun e => (s.permUnits c e.space).filterMap (s.pieceMove c x e))) ++ s.guardMove c
    let s := s.over l (fun s e => s.over (s.permUnits c e.space) (fun s u => s.expectPiece c x e u))
    ((s.expectGuard c).setMoves c moves).moves c

/-- Whether nothing of some kinds is left to send or to arrive. -/
def State.streamsDone (s : State) (c : Nat) (kinds : List Nat) : Bool :=
  !s.fabric.streams.any (fun x => x.ctx == c && kinds.contains x.kind) && s.fabric.expects.all (fun x => !(x.ctx == c && kinds.contains x.kind) || x.full)

/-- Whether every piece of a permute step has moved (R374). -/
def State.permMoved (s : State) (c : Nat) : Bool :=
  let p := (s.ctx c).perm
  p.begun && !p.malformed && p.moves.isEmpty && s.streamsDone c [0, 3] && !(s.hasp c).copyPending

/-- Bytes of a seat's clear area: one half of each of its version regions. -/
def clearBytes (l : List Ledger) : Nat := ((l.filter (fun r => r.kind == 1 || r.kind == 5 || r.kind == 6)).map (fun r => r.size)).foldl (· + ·) 0

/-- The clear area and the clear slot of a seat that moved from a live holder (R427, R432): from its old holder. -/
def State.moveClear (s : State) (c seat : Nat) (old new : Nat) (atOnce : Bool) : State :=
  let n := clearBytes (imgLedger (s.ctx c).image (imgRole (s.ctx c).image seat))
  let m := (s.ctx c).twin.guard.clearGranules * 65536
  let st := fun (p len : Nat) => (⟨2, c, new, ⟨p, 4, 0, 0⟩, ⟨p, 4, 0, 0⟩, len, 0, none, false⟩ : Stream)
  if (s.hasp c).clear.isNone then s
  else if old = s.addr then
    if atOnce then (s.addStream (st 3 n)).addStream (st 2 m)
    else { s with fabric := { s.fabric with later := s.fabric.later ++ [st 3 n, st 2 m] } }
  else if new = s.addr then
    ((s.addExpect ⟨2, c, ⟨3, 4, 0, 0⟩, n, []⟩).addExpect ⟨2, c, ⟨2, 4, 0, 0⟩, m, []⟩).modCtx c (fun x => { x with twin := { x.twin with clearPending := true } })
  else s

/-- The commit of a permute step (R377): the key-value pool resets, FAB_PERM_AT clears, DONE is set, and the clear copies of moved seats
follow (R432). `old` is the bank that was in force before the boundary. -/
def State.permCommit (s : State) (c : Nat) (old : Bank) : State :=
  let s := s.resetPool c
  let s := s.modCtx c (fun x => { x with perm := { torn := x.perm.torn } })
  let s := { s with fabric := { s.fabric with expects := s.fabric.expects.filter (fun x => !(x.ctx == c && (x.kind == 0 || x.kind == 3))) } }
  if s.replaying c then s
  else
    let s := (s.setReg (Reg.FAB_PERM_AT c) 0xFFFFFFFF#32).event (Reg.FAB_PERM_EVENT c) 0
    let was := old.seatAt c s.addr
    let now := s.seatOf c
    if was = now then s
    else
      let s := if now.isSome then s.takeSeed c else s
      let s := match was with
        | some st => if s.holder c st = 0xFFFF then s else s.moveClear c st s.addr (s.holder c st) true
        | none => s
      match now with
      | some st => if old.seatAddr c st = 0xFFFF then s else s.moveClear c st (old.seatAddr c st) s.addr true
      | none => s

/-- FAB_PERM_AT_WRITE (R372, R379). -/
def execFabPermAtWrite (c : Fin 16) (v : W32) (s : State) : Host.Outcome State Fault Refusal :=
  if 2 ≤ (s.ctx c).perm.state then .next (s.event (Reg.FAB_PERM_EVENT c) 5)
  else
    let s := s.setReg (Reg.FAB_PERM_AT c) v
    .next (s.modCtx c (fun x => { x with perm := { x.perm with state := if v = 0xFFFFFFFF#32 then 0 else 1 } }))

/-- PERMUTE_LIMIT (R375): the master rolls the permute step back once LIMIT ticks have passed without merged READY. -/
def execPermuteLimit (c : Fin 16) (s : State) : Host.Outcome State Fault Refusal :=
  let p := (s.ctx c).perm
  let h := s.hasp c
  let limit := s.regN (Reg.FAB_PERM_CTRL c) / 65536
  let ready := bit s.tick.mergedReady c && decide (h.gate ≤ s.tick.mergedTick.getD 0)
  if !s.tick.master ∨ p.state < 2 ∨ s.tick.now < p.startTick + limit ∨ ready then .next s
  else .next (s.modTick (fun t => { t with due := t.due.filter (fun d => d.ctx != c.val || d.cmd != .rollback) ++ [⟨c, .rollback, h.epoch, p.startTick + limit⟩] }))

/-! Failover. -/

/-- The pieces of mirrored regions in granule order (R409): offset in a latest-hasp slot, place in the partitions, length. -/
def regionPieces : Nat → List Ledger → List (Nat × Spot × Nat)
  | _, [] => []
  | o, l :: t =>
    let p := fun h => (⟨0, l.space, l.storeUnit, l.halfAt h⟩ : Spot)
    if l.half = 0 then (o, p 0, l.size) :: regionPieces (o + l.size) t
    else (o, p 0, l.size) :: (o + l.size, p 1, l.size) :: regionPieces (o + 2 * l.size) t

/-- The regions that a clear slot and a clear area both hold: offset in each, and length (R410). -/
def clearPieces : Nat → Nat → List Ledger → List (Nat × Nat × Nat)
  | _, _, [] => []
  | slot, area, l :: t =>
    let inSlot := l.flags % 4 / 2 == 1
    let inArea := l.kind == 1 || l.kind == 5 || l.kind == 6
    let rest := clearPieces (slot + if inSlot then l.size else 0) (area + if inArea then l.size else 0) t
    if inSlot && inArea then (slot, area, l.size) :: rest else rest

/-- Mirrored regions of a seat. -/
def State.seatRegions (s : State) (c seat : Nat) : List Ledger :=
  (imgLedger (s.ctx c).image (imgRole (s.ctx c).image seat)).filter (fun r => r.flags % 4 / 2 == 1)

/-- Whether the holder of a moved seat counts as dead: the tables in force, which avoid it (R425), give no route to it (DEDUCED, log entry
23). -/
def State.routeless (s : State) (a : Nat) : Bool := a != s.addr && !bit (s.route a) 31

/-- What this device sends for a moved seat (R427): `old` the seat's old holder, `new` its new one. Streams of kind 2 wait for the context to
resume. -/
def State.seatStreams (s : State) (c seat old new : Nat) (bank : Bank) : List Stream :=
  let dead := s.routeless old
  let twin := (s.twinSeatOf c seat).getD 0x8000
  let src := if dead then bank.seatAddr c twin else old
  let g := (s.ctx c).twin.guard
  let img := (s.ctx c).image
  let logs := s.logGranules c * 65536
  let mk := fun (kind : Nat) (a b : Spot) (n : Nat) => (⟨kind, c, new, a, b, n, 0, none, false⟩ : Stream)
  let slot := fun (p o : Nat) => (⟨p, 4, 0, o⟩ : Spot)
  let mine := s.seatRegions c seat
  if src ≠ s.addr then []
  else if dead then
    let other := s.seatRegions c twin
    let size := fun (l : List Ledger) => (l.map (fun r => r.granules * 65536)).foldl (· + ·) 0
    (regionPieces 0 mine).map (fun p => mk 1 (slot 1 p.1) p.2.1 p.2.2) ++ [mk 1 (slot 1 (size mine)) (slot 4 0) logs] ++
      (regionPieces 0 other).map (fun p => mk 1 p.2.1 (slot 1 p.1) p.2.2) ++ [mk 1 (slot 4 0) (slot 1 (size other)) logs] ++
      (if (s.hasp c).clear.isNone then [] else
        (clearPieces 0 0 (imgLedger img (imgRole img seat))).map (fun p => mk 2 (slot 2 p.1) (slot 3 p.2.1) p.2.2) ++
          (clearPieces 0 0 (imgLedger img (imgRole img twin))).map (fun p => mk 2 (slot 3 p.2.1) (slot 2 p.1) p.2.2))
  else
    (regionPieces 0 mine).map (fun p => mk 1 p.2.1 p.2.1 p.2.2) ++ [mk 1 (slot 4 0) (slot 4 0) logs, mk 1 (slot 1 0) (slot 1 0) (g.granules * 65536)] ++
      (if (s.hasp c).clear.isNone then [] else
        [mk 2 (slot 3 0) (slot 3 0) (clearBytes (imgLedger img (imgRole img seat))), mk 2 (slot 2 0) (slot 2 0) (g.clearGranules * 65536)])

/-- What the new holder of a moved seat expects (R427). -/
def State.seatExpects (s : State) (c seat old : Nat) : List Expect :=
  let img := (s.ctx c).image
  let g := (s.ctx c).twin.guard
  let twin := (s.twinSeatOf c seat).getD 0x8000
  let slot := fun (p o : Nat) => (⟨p, 4, 0, o⟩ : Spot)
  let mk := fun (kind : Nat) (b : Spot) (n : Nat) => (⟨kind, c, b, n, []⟩ : Expect)
  (regionPieces 0 (s.seatRegions c seat)).map (fun p => mk 1 p.2.1 p.2.2) ++ [mk 1 (slot 4 0) (s.logGranules c * 65536), mk 1 (slot 1 0) (g.granules * 65536)] ++
    (if (s.hasp c).clear.isNone then []
     else if s.routeless old then
       (clearPieces 0 0 (imgLedger img (imgRole img seat))).map (fun p => mk 2 (slot 3 p.2.1) p.2.2) ++
         (clearPieces 0 0 (imgLedger img (imgRole img twin))).map (fun p => mk 2 (slot 2 p.1) p.2.2)
     else [mk 2 (slot 3 0) (clearBytes (imgLedger img (imgRole img seat))), mk 2 (slot 2 0) (g.clearGranules * 65536)])

/-- The failover of one seat as this device takes part in it. -/
def State.moveSeat (s : State) (c seat old : Nat) (bank : Bank) : State :=
  let new := s.holder c seat
  if new = old ∨ new = 0xFFFF ∨ old = 0xFFFF then s
  else
    let l := s.seatStreams c seat old new bank
    let s := { s with fabric := { s.fabric with later := s.fabric.later ++ l.filter (fun (x : Stream) => x.kind == 2) } }
    let s := s.over (l.filter (fun (x : Stream) => x.kind == 1)) State.addStream
    if new ≠ s.addr then s
    else
      let s := ((s.takeSeed c).layGuardFor c (s.twinSeatOf c seat)).noteSeed c
      let e := s.seatExpects c seat old
      let s := s.over e State.addExpect
      s.modCtx c (fun x => { x with
        twin := { x.twin with clearPending := e.any (fun y => y.kind == 2) }
        hasp := { x.hasp with copyPending := true } })

/-- The boundary of V (R427): new holders take their seats, and the streams of every context that a Rollback with failover holds WITHHELD
begin. `bank` is the bank that was in force. -/
def State.takeSeats (s : State) (bank : Bank) : State :=
  s.over (List.range 16) (fun s c =>
    let h := s.hasp c
    if !h.loaded ∨ h.phase ≠ .withheld ∨ !h.viaFailover then s
    else s.over (s.ctx c).home (fun s p => s.moveSeat c p.1 (bank.seatAddr c p.1) bank))

/-- What completes the streams of a failover at this device (R428): the replay log and the late ledger that arrived are taken over. -/
def State.settleFailover (s : State) (c : Nat) : State :=
  let h := s.hasp c
  let mine := s.fabric.expects.any (fun x => x.ctx == c && x.kind == 1)
  if h.phase ≠ .withheld ∨ !mine ∨ !s.streamsDone c [1] then s
  else
    let area := s.lpShare Reg.MEM_LP_REPLAY c
    let log := parseLog (area.2 / 36 + 1) (s.lpRead area.1 area.2)
    let s := (s.settleGuard c).modCtx c (fun x => { x with log := log, lateCommitted := s.readLate c h.epoch })
    { s with fabric := { s.fabric with expects := s.fabric.expects.filter (fun x => !(x.ctx == c && x.kind == 1)) } }

/-- FAILOVER_STREAM_COMPLETE (R428). -/
def execFailoverStreamComplete (c : Fin 16) (s : State) : Host.Outcome State Fault Refusal := .next (s.settleFailover c)

/-- Whether the guard of the twin seat of a dead device's seat cannot serve a failover (R423): its holder is dead too, or, as far as the
master can tell, its entry is not valid: the master reads no entry but its own (DEDUCED, log entry 24). -/
def State.guardLost (s : State) (c a : Nat) : Bool :=
  match s.fabric.inForce.seatAt c a with
  | none => true
  | some st =>
    match s.twinSeatOf c st with
    | none => true
    | some t =>
      let b := s.holder c t
      b == 0xFFFF || s.tick.dead.contains b || b == a || (b == s.addr && (s.ctx c).twin.guard.state != 2)

/-- A declared death (R423): latched, counted, and a Halt or a Rollback with failover becomes due for every context that names the device. -/
def State.declareDead (s : State) (a : Nat) : State :=
  let s := ((s.setRegN Reg.HSP_DEAD a).event Reg.HSP_TWIN_EVENT 0).count Reg.HSP_FAILOVERS
  let s := s.modTick (fun t => { t with dead := t.dead.filter (fun x => x != a) ++ [a] })
  s.over (List.range 16) (fun s c =>
    if !s.loaded c ∨ (s.fabric.inForce.seatAt c a).isNone then s
    else
      let cmd := if s.guardLost c a then Cmd.halt else Cmd.failover
      s.modTick (fun t => { t with due := t.due ++ [⟨c, cmd, 0, s.tick.now⟩] }))

/-- The silence count of an address (R420). -/
def State.silent (s : State) (a : Nat) : Nat := tget (fun _ => 0) s.tick.missCount a

/-- DEATH_DECLARED (R420, R423): on the tick master, of a device whose count has reached 3 and that is not declared dead yet. -/
def execDeathDeclared (a : Nat) (s : State) : Host.Outcome State Fault Refusal :=
  .next (if s.tick.master ∧ 3 ≤ s.silent a ∧ !s.tick.dead.contains a then s.declareDead a else s)

/-- HSP_EVICT_WRITE (R422): on the master, the death is declared at the start of the next tick. -/
def execHspEvictWrite (v : W32) (s : State) : Host.Outcome State Fault Refusal :=
  if s.tick.master then .next (s.modTick (fun t => { t with evict := t.evict ++ [v.toNat % 65536] }))
  else .next (s.event Reg.HSP_TWIN_EVENT 1)

/-- HSP_FO_VERSION_WRITE (R425, R426): on the master, V goes into the next packet. -/
def execHspFoVersionWrite (v : W32) (s : State) : Host.Outcome State Fault Refusal :=
  let n := v.toNat % 65536
  let s := s.setRegN Reg.HSP_FO_VERSION n
  .next (if s.tick.master then s.modTick (fun t => { t with foVersion := some n }) else s)

/-- ENROL (R433): a device that holds no seat enters Poised and reports STATE 3. -/
def execEnrol (s : State) : Host.Outcome State Fault Refusal :=
  if (List.range 16).any (fun c => (s.seatOf c).isSome) then .next (s.event Reg.HSP_TWIN_EVENT 1)
  else
    let s := s.setReg Reg.HSP_SPARE 1#32
    .next { s with pwr := { s.pwr with rung := if s.pwr.rung = 0 then 1 else s.pwr.rung } }

end Sys2Proof.Machine
end

