-- ==== Sys2Proof/Machine/Switch.lean ====
section
/-! DEFINITION. The fabric switch and its links: forwarding and ageing of routed packets (R319, R329, R335), credits (R334), discovery by neighbour records (R337, R338), training and loss of a link (R312, R313), uncorrectable codewords. -/

namespace Sys2Proof.Machine

/-! Forwarding. -/

/-- Whether a packet uses the route table (R315): a PROBE follows its own path, and a direct SCHED crosses one link. -/
def Packet.routed (p : Packet) : Bool := !p.control && p.opcode != 0x20 && (p.opcode != 1 || p.detour)

/-- Forwards a routed packet that came in on `port` (R319, R329). -/
def State.forward (s : State) (port : Nat) (p : Packet) : State :=
  if p.hops = 0 then (s.count Reg.FAB_DROP_AGED).answerError p 9
  else
    match s.chooseLink p with
    | some l => s.transmit port l { p with hops := p.hops - 1 }
    | none => (s.count Reg.FAB_DROP_AGED).answerError p 2

/-- PACKET_FORWARD (R317 to R319, R329): a packet whose DST is this device is not forwarded. -/
def execPacketForward (link : Fin 24) (b : Bytes) (s : State) : Host.Outcome State Fault Refusal :=
  match s.accept link b with
  | (s, none) => .next s
  | (s, some p) => .next (if p.routed && p.dst != s.addr then s.forward link p else s)

/-- PACKET_AGED (R335): the packet at place `idx` of the buffer, once it has waited across two boundaries. -/
def execPacketAged (idx : Nat) (s : State) : Host.Outcome State Fault Refusal :=
  match s.fabric.buffer[idx]? with
  | some w =>
    if w.boundaries < 2 then .next s
    else .next (({ s with fabric := { s.fabric with buffer := s.fabric.buffer.eraseIdx idx } }.count Reg.FAB_DROP_AGED).answerError w.packet 9)
  | none => .next s

/-! Credits. -/

/-- CREDIT (R334, R400): the grants of a tick, per pool, laid out as `grantBytes` lays them out. -/
def execCredit (link : Fin 24) (b : Bytes) (s : State) : Host.Outcome State Fault Refusal :=
  .next (s.takePacket link b 0x06 (fun p s =>
    let g := p.payload
    if g.length ≠ 36 then s.count Reg.FAB_DROP_CRC
    else
      let add := fun (k : Link) => { k with
        credMgmt := k.credMgmt + u16 g 0
        credDetour := k.credDetour + u16 g 2
        credCtx := (List.range 16).map (fun c => (c, tget (fun _ => 0) k.credCtx c + u16 g (4 + 2 * c))) }
      (s.modLink link add).drainLink link))

/-- Credits of 256 bytes of each input pool (R333): management 64, detour 96, context 320. -/
def poolSize : Nat → Nat
  | 1 => 64
  | 2 => 96
  | _ => 320

/-- Credits that packets received on a port still fill. -/
def State.occupied (s : State) (port pool c : Nat) : Nat :=
  ((s.fabric.buffer.filter (fun w => w.port == port && w.packet.pool == pool && (pool != 3 || w.packet.ctx == c))).map (fun w => w.packet.credits)).foldl (· + ·) 0

/-- Credits of a pool that a port can grant: its size less what fills it and less what is granted and still under way (R334, R400). -/
def State.freeCredits (s : State) (port key : Nat) : Nat :=
  let way := tget (fun _ => 0) (s.link port).granted key
  match key with
  | 0 => poolSize 1 - s.occupied port 1 0 - way
  | 1 => poolSize 2 - s.occupied port 2 0 - way
  | k => if s.held (k - 2) then s.regN (Reg.CTX_CREDIT (k - 2)) % 512 - s.occupied port 3 (k - 2) - way else 0

/-- The grants of a CREDIT packet for a port, as its payload: management, detour, then each context's, 2 bytes each (the layout is a DESIGN
CHOICE, log entry 15). -/
def State.grantBytes (s : State) (port : Nat) : Bytes := catN 18 (fun k => toLe 2 (s.freeCredits port k))

/-- Sends the CREDIT packet of a tick on a link that is up, and notes what it grants (R334). -/
def State.sendCredit (s : State) (l : Nat) : State :=
  if !s.linkUp l then s
  else
    let g := (List.range 18).map (fun k => (k, tget (fun _ => 0) (s.link l).granted k + s.freeCredits l k))
    (s.sendControl l 0x06 s.tick.now (s.grantBytes l)).modLink l (fun k => { k with granted := g })

/-- Sends the CREDIT packets of a tick (R334). -/
def State.sendCredits (s : State) : State := s.over (List.range 24) State.sendCredit

/-- Every unused credit expires (R334): of what a link granted, only packets begun before the boundary are still under way, `env` naming their
credits. What waits has waited across one boundary more (R335). -/
def State.expireCredits (s : State) (env : BoundaryEnv) : State :=
  let s := s.over (List.range 24) (fun s l =>
    let way := fun (k : Nat) => ((env.inFlight.filter (fun p => p.1 == l && p.2.1 == k)).map (fun p => p.2.2)).foldl (· + ·) 0
    s.modLink l (fun k => { k with credMgmt := 0, credDetour := 0, credCtx := [], granted := k.granted.map (fun p => (p.1, min p.2 (way p.1))) }))
  { s with fabric := { s.fabric with buffer := s.fabric.buffer.map (fun w => { w with boundaries := w.boundaries + 1 }) } }

/-- Codewords that FEC corrected on each link in the ending tick (R310, R345). -/
def State.countCorrected (s : State) (env : BoundaryEnv) : State :=
  s.over (List.range 24) (fun s l => s.countBy (Reg.FAB_LINK_CE l) (env.linkCe.getD l 0))

/-! Discovery. -/

/-- STATE of this device's neighbour record (R337, R433). -/
def State.ownState (s : State) : Nat :=
  if s.addr = 0xFFFF then 0
  else if (s.reg Reg.HSP_SPARE).getLsbD 0 && !(List.range 16).any (fun c => (s.seatOf c).isSome) then 3
  else if s.tick.run = .running ∨ s.tick.run = .adrift then 2 else 1

/-- This device's neighbour record on link `l` (R337). -/
def State.ownRecord (s : State) (l : Nat) : Bytes :=
  toLe 8 Config.fusedSerial.toNat ++ toLe 8 s.opt.tray.toNat ++ toLe 1 (s.rst.slotId % 8) ++ toLe 1 l ++ toLe 1 Config.fusedOrder.toNat ++
    toLe 1 s.ownState ++ toLe 2 s.addr ++ toLe 2 Config.fusedRev.toNat ++ zeros 8

/-- Whether a neighbour record keeps R9: its reserved fields and encodings. -/
def recordOk (r : Bytes) : Bool :=
  decide (r.length = 32) && decide (byteAt r 16 < 8 ∧ byteAt r 17 < 24 ∧ byteAt r 18 < 2 ∧ byteAt r 19 < 4) && addrOk (u16 r 20) && zeroAt r 24 8

/-- Whether a record on tray link `l` is the one that R307 calls for (R338). -/
def State.trayRecord (s : State) (l : Nat) (r : Bytes) : Bool :=
  u64 r 8 == s.opt.tray.toNat && byteAt r 16 == (s.rst.slotId % 8 + 1 + l) % 8 && byteAt r 17 == 6 - l

/-- HELLO (R317, R337, R338): the record is kept; a changed SERIAL is an event; a tray link is MISWIRED while its record fails R307. -/
def execHello (link : Fin 24) (b : Bytes) (s : State) : Host.Outcome State Fault Refusal :=
  .next (s.takePacket link b 0x07 (fun p s =>
    let l := link.val
    let r := p.payload
    if !recordOk r then s.count Reg.FAB_DROP_CRC
    else
      let changed := match (s.link l).record with
        | some o => u64 o 0 != u64 r 0
        | none => false
      let bad := decide (l < 7) && !s.trayRecord l r
      let s := s.modLink l (fun k => { k with record := some r, state := if bad then 5 else 2 })
      (s.eventIf changed Reg.FAB_EVENT 2).eventIf bad Reg.FAB_EVENT 3))

/-- A HELLO on every link that is up (R337); a MISWIRED link carries HELLO as well (R338). -/
def State.sendHellos (s : State) : State :=
  s.over (List.range 24) (fun s l =>
    if (s.link l).state = 2 ∨ (s.link l).state = 5 then
      s.emit (.packet l { s.mkPacket 0x07 0 0xFFFF none 0 0 (s.ownRecord l) with hops := 1 })
    else s)

/-- HELLO_TIMER (R337): every 100 µs before the tick starts; while the tick runs, the boundary of every 1,024th tick sends the HELLOs. -/
def execHelloTimer (s : State) : Host.Outcome State Fault Refusal :=
  .next (if s.tick.run = .running ∨ s.tick.run = .adrift then s else s.sendHellos)

/-! The distribution trees. -/

/-- Child links of the primary tree (R48, R65). -/
def State.children (s : State) : List Nat := bitsOf 24 (s.regN Reg.TCK_CHILD)
/-- Child links of the backup tree. -/
def State.backupChildren (s : State) : List Nat := bitsOf 24 (s.regN Reg.TCK_BACKUP_CHILD)

/-- TCK_TREE as it is in force (R56). -/
def State.tree (s : State) : Nat := (s.tick.tree.getD (s.reg Reg.TCK_TREE)).toNat
/-- The primary parent link; 0x1F for the root. -/
def State.parent (s : State) : Nat := s.tree % 32
/-- The backup parent link; 0x1F for none. -/
def State.backupParent (s : State) : Nat := s.tree / 65536 % 32

/-- The link to whose device the timebase is disciplined (R57): the primary parent's, or the backup parent's while the primary parent is silent; none
for the tick master, whose timebase runs free, and for the root. -/
def State.syncParent (s : State) : Option Nat :=
  let p := if s.tick.primarySilent ∧ s.backupParent ≠ 0x1F then s.backupParent else s.parent
  if s.tick.master ∨ p = 0x1F then none else some p

/-! Links. -/

/-- A TSYNC on a link (R58): the four timestamps, 8 bytes each, in 1/65,536 ns. -/
def State.sendSync (s : State) (l : Nat) (t1 t2 t3 t4 : Int) : State :=
  s.sendControl l 0x05 0 (([t1, t2, t3, t4].map (fun t => toLe 8 (ofSigned 64 t))).flatten)

/-- LINK_TRAINING_DONE (R58, R311, R312): `failure` is 0, 1 PHY or 3 PROTOCOL; a port-to-port latency above 38 ns in short mode or 96 ns in
long mode, in 1/16 ns, fails with DELAY. The parent's link begins an exchange of timestamps, sent at `sent` on the device's timebase. -/
def execLinkTrainingDone (link : Fin 24) (failure delay16 : Nat) (sent : Int) (s : State) : Host.Outcome State Fault Refusal :=
  let l := link.val
  let late := decide ((if l < 7 then 608 else 1536) < delay16)
  let reason := if failure ≠ 0 then (if failure = 1 then 1 else 3) else if late then 2 else 0
  let s := s.modLink l (fun k => { k with state := if reason = 0 then 2 else 4, reason := reason })
  let s := if failure = 0 then s.setRegN (Reg.FAB_LINK_DELAY l) delay16 else s
  .next (if s.syncParent = some l then s.sendSync l 0 0 sent 0 else s)

/-- LINK_DOWN (R313): the link retrains by itself; its credits count as expired. -/
def execLinkDown (link : Fin 24) (s : State) : Host.Outcome State Fault Refusal :=
  let s := s.modLink link (fun k => { k with state := 3, credMgmt := 0, credDetour := 0, credCtx := [], granted := [] })
  .next (s.event Reg.FAB_EVENT 4)

/-- CODEWORD_UNCORRECTABLE (R313): counted on its link; the packets that overlap it never arrive, so no command delivers them. -/
def execCodewordUncorrectable (link : Fin 24) (s : State) : Host.Outcome State Fault Refusal := .next (s.count (Reg.FAB_LINK_UE link))

end Sys2Proof.Machine
end

