-- ==== Sys2Proof/Machine/Ready.lean ====
section
/-! DEFINITION. What a device reports of a tick (R45, R75, R76, R83, R374, R428): READY, POISON and flags of its own, the merge with its children's replies (R45, R46), and the reply to its parent (R47, R51). -/

namespace Sys2Proof.Machine

/-- Ticks of the step in progress. -/
def State.stepLen (s : State) (c : Nat) : Nat := imgTicks (s.ctx c).image (s.hasp c).variant

/-- Whether the step that writes version E + 1 has ended (R75, condition 1: a record that had not retired was abandoned and poisoned, R61). -/
def State.nextDone (s : State) (c : Nat) : Bool :=
  let h := s.hasp c
  h.stepOpen && (decide (h.epoch + 1 < h.stepEpoch) || (decide (h.epoch + 1 = h.stepEpoch) && decide (s.stepLen c ≤ h.stepTick)))

/-- Whether every granule dirtied is acknowledged (R75, condition 2). -/
def State.mirrored2 (s : State) (c : Nat) : Bool :=
  let t := (s.ctx c).twin
  t.inflight.isEmpty && !t.dirty.any (fun g => decide (g < s.seatGranules c))

/-- Whether a degraded ward of the context's set holds its READY at 0 (R453). -/
def State.degradedFor (s : State) (c : Nat) : Bool := (s.wardSet c).any s.chk.degraded.contains

/-- READY of a context at the end of a tick (R75, R83, R323, R371, R374, R376, R428, R453, R571); 1 where the device holds no seat (R45), but
for a permute table that fails its check (R371) and a permute step that gives the device a seat (R374). In a permute step READY speaks of P until P
commits, and then of P + 1 (R372). -/
def State.readyFor (s : State) (c : Nat) : Bool :=
  let h := s.hasp c
  let p := (s.ctx c).perm
  let takes := decide (2 ≤ p.state) && ((s.permBank c).seatAt c s.addr).isSome
  if !h.loaded then true
  else if p.malformed then false
  else if (s.seatOf c).isNone ∧ !takes then true
  else if h.diverged ∨ h.missing ∨ s.fabric.missing ∨ s.pwr.hold ∨ h.holdWait ∨ p.torn ∨ s.degradedFor c then false
  else
    match h.phase with
    | .restoring => h.restoreDone && !h.copyPending
    | .withheld => if h.viaFailover then s.streamsDone c [1] && !h.copyPending else s.mirrored2 c && !s.poisoned c
    | .stopped => false
    | .halted => false
    | _ =>
      if h.withhold ≠ 0 ∨ h.logFull ∨ !s.mirrored2 c ∨ s.poisoned c then false
      else if 2 ≤ p.state ∧ h.epoch + 1 = h.stepEpoch then s.permMoved c
      else if (s.seatOf c).isNone then true
      else s.nextDone c && !h.unclean.contains (h.epoch + 1)

/-- READY of every context as a mask. -/
def State.readyMask (s : State) : Nat := maskOf (pick 16 s.readyFor)

/-- POISON of every context as a mask (R76). -/
def State.poisonMask (s : State) : Nat := maskOf (pick 16 (fun c => s.loaded c && s.poisoned c))

/-- Whether the device reports degraded (R84, R267, R268, R272, R285, R323, R376, R428, R453, R556). -/
def State.isDegraded (s : State) : Bool :=
  s.fabric.missing || s.clk.holdover || !s.chk.degraded.isEmpty || s.stack.tooBad || !s.stack.laneFaults.isEmpty || !s.stack.fenced.isEmpty ||
    (List.range 16).any (fun c => s.loaded c && ((s.hasp c).diverged || (s.hasp c).missing || (s.ctx c).perm.torn))

/-- Whether the device reports straggler, apart from overruns (R59, R262, R327, R575). -/
def State.isStraggler (s : State) : Bool :=
  s.tick.straggler || s.stack.band == 2 || s.slowWard || (List.range 16).any (fun c => s.loaded c && s.regN (Reg.FAB_ROUTED c) != 0)

/-- FLAGS of the reply (R45), taking the flags that the ending tick raised. -/
def State.replyFlags (s : State) : Nat :=
  s.tick.flagsNext ||| (b2n s.isStraggler * 2) ||| (b2n ((List.range 16).any s.isUnguarded) * 4) ||| (b2n s.isDegraded * 16) ||| (b2n (s.pwr.stage != 0 || s.pwr.hold) * 64)

/-- This device's own state at the end of tick `now`, with which its reply begins (R45). -/
def State.ownReply (s : State) : State :=
  let r := s.readyMask
  let s := s.over (bitsOf 16 r) (fun s c => s.modHasp c (fun h => { h with reported := h.reported || decide (h.phase = .running ∨ h.phase = .replaying) }))
  s.modTick (fun t => { t with ready := r, poison := s.poisonMask, count := 1, flags := s.replyFlags, flagsNext := 0, heard := [], replyTick := t.now, replied := false })

/-! Replies. -/

/-- The 32 bytes of a reply (R45). -/
def replyBytes (tick ready poison count flags : Nat) : Bytes :=
  let b := toLe 8 tick ++ toLe 2 ready ++ toLe 2 poison ++ toLe 4 count ++ toLe 1 flags ++ zeros 11
  b ++ toLe 4 (crc32c b)

/-- Whether a reply's CRC and reserved fields are right (R9, R45). -/
def replyOk (b : Bytes) : Bool :=
  decide (b.length = 32) && decide (crc32c (b.take 28) = u32 b 28) && decide (byteAt b 16 < 128) && zeroAt b 17 11

/-- The presence notice of a tick in which the reply goes to the backup parent (R420, R421). -/
def State.sendPresence (s : State) : State := s.sendMsg s.masterAddr none (toLe 2 3 ++ zeros 2 ++ toLe 2 s.addr ++ zeros 2 ++ toLe 8 s.tick.now)

/-- TSTATE's payload (R53): the merged reply, a packet, CTX_SELECT, the vote notices and the permanence notices (the layout is a DESIGN
CHOICE, log entry 26). -/
def State.masterState (s : State) (pkt : Bytes) : Bytes :=
  let t := s.tick
  replyBytes (t.mergedTick.getD 0) t.mergedReady t.mergedPoison t.mergedCount t.mergedFlags ++ pkt ++ toLe 8 t.select.toNat ++ toLe 4 t.votes.length ++ toLe 4 t.notices.length ++
    (t.votes.map (fun p => toLe 2 1 ++ toLe 1 (p.1 / 2 ^ 32) ++ zeros 1 ++ toLe 4 p.1 ++ toLe 8 p.2.toNat)).flatten ++ t.notices.flatten

/-- Copies the master's state to the deputy over the hinge links (R53), with its newest packet; the deputy learns nothing before there is one. -/
def State.sendMasterState (s : State) : State :=
  match s.tick.packets.find? (fun p => p.1 == s.tick.now + 2) with
  | some p => s.over [19, 20] (fun s l => s.sendControl l 0x04 s.tick.now (s.masterState p.2))
  | none => s

/-- Takes over a merged reply: what it says, and, of a tick in which some device withheld READY for a cause that FLAGS name (adrift, degraded,
variant mismatch, supply or thermal hold), those flags, for the ticks since the oldest step in question began (R78). -/
def Tick.takeMerged (t : Tick) (oldest tick ready poison count flags : Nat) : Tick :=
  { t with
    mergedReady := ready, mergedPoison := poison, mergedCount := count, mergedFlags := flags, mergedTick := some tick
    seen := (t.seen.filter (fun p => decide (oldest ≤ p.1 ∧ p.1 ≠ tick))) ++ (if flags &&& 0x78 = 0 then [] else [(tick, flags &&& 0x78)]) }

/-- The first tick of the oldest step that a commit may still concern. -/
def State.oldestStep (s : State) : Nat :=
  (pick 16 s.loaded).foldl (fun a c => min a (s.hasp c).prevStart) s.tick.now

/-- The merged reply leaves: to the primary parent, or to the backup parent with a presence notice (R51, R420); at the
master it is what it acts on (R47), and the deputy gets a copy in the same window (R53). A master that has stepped down has a silent parent (R421).
A device without a backup parent sends to its primary parent although it is silent (DESIGN CHOICE, log entry 43). -/
def State.sendReply (s : State) : State :=
  let t := s.tick
  let b := replyBytes t.replyTick t.ready t.poison t.count t.flags
  let s := s.modTick (fun t => { t with replied := true })
  if t.master then
    (s.modTick (fun t => t.takeMerged s.oldestStep t.replyTick t.ready t.poison t.count t.flags)).sendMasterState
  else if s.parent ≠ 0x1F ∧ (t.primaryCopy ∨ s.backupParent = 0x1F) then s.sendControl s.parent 0x03 0 b
  else (s.sendControl s.backupParent 0x03 0 b).sendPresence

/-- Sends the reply once every child of the primary tree has replied and the tick's packet has come from the primary parent; at the end of
the window (`final`) it leaves in any case (R45, R46, R51; DEDUCED, log entry 25). -/
def State.tryReply (s : State) (final : Bool) : State :=
  let t := s.tick
  if t.run = .stopped ∨ t.replied then s
  else if final ∨ ((t.master || t.primaryCopy) && s.children.all t.heard.contains) then s.sendReply else s

/-- REPLY (R45): a child's reply for the same tick is merged, once. -/
def execReply (link : Fin 24) (pkt : Bytes) (s : State) : Host.Outcome State Fault Refusal :=
  .next (s.takePacket link pkt 0x03 (fun p s =>
    let b := p.payload
    let t := s.tick
    if !replyOk b then s.count Reg.FAB_DROP_CRC
    else if t.run = .stopped ∨ t.replied ∨ u64 b 0 ≠ t.replyTick ∨ t.heard.contains link.val ∨ !(s.children ++ s.backupChildren).contains link.val then s
    else
      (s.modTick (fun t => { t with
        ready := t.ready &&& u16 b 8
        poison := t.poison ||| u16 b 10
        count := (t.count + u32 b 12) % 2 ^ 32
        flags := t.flags ||| byteAt b 16
        heard := t.heard ++ [link.val] })).tryReply false))

/-- CHILD_REPLY_TIMEOUT (R46): a child without a valid reply merges as READY 0, and the master hears of it by a silence notice. The window
is over: when no other child is missing, the reply leaves. -/
def execChildReplyTimeout (link : Fin 24) (s : State) : Host.Outcome State Fault Refusal :=
  let t := s.tick
  if t.run = .stopped ∨ t.replied ∨ t.heard.contains link.val ∨ !s.children.contains link.val then .next s
  else
    let s := (s.modTick (fun t => { t with ready := 0, heard := t.heard ++ [link.val] })).event Reg.TCK_EVENT 7
    let s := s.sendRouted (s.mkPacket 0x08 0 s.masterAddr none s.tick.now 0 (toLe 2 ((s.recordAddr link).getD 0xFFFF)))
    .next (s.tryReply (s.children.all s.tick.heard.contains))

end Sys2Proof.Machine
end

