-- ==== Sys2Proof/Machine/Master.lean ====
section
/-! DEFINITION. The tick master (R42, R43, R47, R77 to R79, R386, R387, R390, R425, R426, R446): its view of each context two ticks ahead, the command it announces, step starts and variants, and the packet it sends. -/

namespace Sys2Proof.Machine

/-! Packets. -/

/-- Whether a tick packet's CRC, reserved fields and encodings are right (R9, R42, R49). -/
def tickPacketOk (b : Bytes) : Bool :=
  decide (b.length = 64) && decide (crc32c (b.take 60) = u32 b 60) && decide (byteAt b 14 < 2 ∧ byteAt b 15 < 16) && byteAt b 23 == 0 && zeroAt b 54 6 &&
    decide (byteAt b 22 % 16 ≤ 5 ∧ byteAt b 22 / 16 ≤ 4) && ((byteAt b 22 / 16 != 0 && byteAt b 22 / 16 != 4) || u32 b 24 == 0)

/-- TICK of a packet. -/
def pkTick (b : Bytes) : Nat := u64 b 0
/-- TERM of a packet. -/
def pkTerm (b : Bytes) : Nat := u32 b 8
/-- MASTER of a packet. -/
def pkMaster (b : Bytes) : Nat := u16 b 12
/-- HASP_CTX of a packet. -/
def pkCtx (b : Bytes) : Nat := byteAt b 15
/-- GENERATION of a packet. -/
def pkGen (b : Bytes) : BitVec 16 := BitVec.ofNat 16 (u16 b 16)
/-- EPOCH of a packet. -/
def pkEpoch (b : Bytes) : Nat := u32 b 18
/-- Command of a packet. -/
def pkCmd (b : Bytes) : Cmd := (Cmd.ofCode (byteAt b 22 / 16)).getD .none
/-- Hasp phase of a packet. -/
def pkPhase (b : Bytes) : Phase := (Phase.ofCode (byteAt b 22 % 16)).getD .stopped
/-- CMD_ARG of a packet. -/
def pkArg (b : Bytes) : Nat := u32 b 24
/-- SELECTOR of a packet. -/
def pkSelector (b : Bytes) : Nat := u64 b 32
/-- Variant of a context in a packet. -/
def pkVariant (b : Bytes) (c : Nat) : Nat := le b 40 12 / 64 ^ c % 64
/-- STEP_START of a context in a packet. -/
def pkStart (b : Bytes) (c : Nat) : Bool := bit (u16 b 52) c

/-! Views. -/

/-- What the protocol makes of a context in a tick to come. -/
structure View where
  phase : Phase
  held : Phase
  gen : BitVec 16
  epoch : Nat
  target : Nat
  eLast : Nat
  stepOpen : Bool
  stepEpoch : Nat
  stepTick : Nat
  perm : Bool
  variant : Nat
  gate : Nat
  pgate : Nat
  resumed : Bool
  ran : Bool
  pstart : Nat
  deriving DecidableEq, Repr

/-- The view of a context in the tick in progress. -/
def State.view (s : State) (c : Nat) : View :=
  let x := s.ctx c
  let h := x.hasp
  ⟨h.phase, h.held, h.gen, h.epoch, h.target, h.eLast, h.stepOpen, h.stepEpoch, h.stepTick, decide (2 ≤ x.perm.state), h.variant, h.gate, h.pgate, false, h.run, x.perm.startTick⟩

/-- The phase that a WITHHELD context counts as. -/
def View.under (v : View) : Phase := if v.phase = .withheld then v.held else v.phase
/-- Whether a context's steps run. -/
def View.runs (v : View) : Bool := v.phase == .running || v.phase == .replaying
/-- The epoch of the last step that began. -/
def View.started (v : View) : Nat := if v.stepOpen then max v.epoch v.stepEpoch else v.epoch
/-- The epoch that a packet shows: the target while a restore is in progress (R84). -/
def View.shown (v : View) : Nat := if v.under = .restoring then v.target else v.epoch

/-- A rollback in a view (R81, R82, R424); `k` is the clear interval, `t` the tick. -/
def View.rollback (k t : Nat) (v : View) (arg : Nat) (held : Bool) : View :=
  let older := k != 0 && arg % k == 0 && (v.under == .restoring || decide (arg < v.epoch))
  let fresh := v.under != .restoring && arg == v.epoch
  if v.phase = .stopped ∨ v.phase = .halted ∨ !(older || fresh || v.phase == .withheld) then v
  else
    let wh := held || v.phase == .withheld
    let new := if older then .restoring else v.under
    { v with
      gen := v.gen + 1, stepOpen := false, stepTick := 0, perm := false, gate := t, pgate := t
      target := if older then arg else v.target
      eLast := match older, v.under with
        | true, .restoring => v.eLast
        | true, .replaying => max v.eLast v.epoch
        | true, _ => v.epoch
        | false, _ => v.eLast
      phase := if wh then .withheld else new
      held := if wh then new else v.held }

/-- A command in a view (R80 to R82). -/
def View.command (k t : Nat) (v : View) (cmd : Cmd) (arg : Nat) (phase : Phase) : View :=
  match cmd with
  | .none => if phase = .withheld ∧ v.runs then v.rollback k t v.epoch true else v
  | .commit =>
    if v.runs ∧ arg = v.epoch + 1 ∧ arg ≠ 0xFFFFFFFF then
      { v with epoch := arg, gate := t, perm := v.perm && v.stepEpoch != arg, phase := if v.phase = .replaying ∧ arg = v.eLast then .running else v.phase }
    else v
  | .rollback => v.rollback k t arg (decide (phase = .withheld ∧ v.runs ∧ arg = v.epoch))
  | .failover => v.rollback k t arg true
  | .halt => if v.phase = .stopped then v else { v with phase := .halted, gen := v.gen + 1, stepOpen := false, perm := false, gate := t, pgate := t }

/-- Whether the step that produces `x` will be a permute step, by this device's registers and log (R372, R377). -/
def State.permuteAt (s : State) (c x : Nat) (replay : Bool) : Bool :=
  if replay then (s.ctx c).log.any (fun l => l.epoch == x && l.permute) else s.regN (Reg.FAB_PERM_AT c) != 0xFFFFFFFF && s.regN (Reg.FAB_PERM_AT c) + 1 == x

/-- STEP_START in a view (R42, R82). -/
def State.viewStart (s : State) (t c : Nat) (v : View) (variant : Nat) : View :=
  let w : View × Bool := match v.phase with
    | .stopped => ({ v with phase := .running }, true)
    | .restoring => ({ v with phase := .replaying, epoch := v.target }, true)
    | .withheld => ({ v with phase := v.held, resumed := true }, v.held != .restoring)
    | .halted => (v, false)
    | _ => (v, true)
  if !w.2 then w.1
  else
    let y := w.1.started + 1
    if y = 0xFFFFFFFF then { w.1 with phase := .halted, stepOpen := false }
    else { w.1 with stepOpen := true, stepTick := 0, stepEpoch := y, variant := variant, pstart := t, perm := s.permuteAt c y (w.1.phase == .replaying) }

/-- The end of a tick in a view: a run tick of a step that is no permute step counts (R387). -/
def View.endTick (v : View) : View := if v.stepOpen && v.ran && !v.perm then { v with stepTick := v.stepTick + 1 } else v

/-- The views of all contexts after a tick's packet has taken effect. -/
def State.advanceViews (s : State) (t : Nat) (b : Bytes) (views : List View) : List View :=
  let step := fun (c : Nat) (v : View) =>
    let v := v.endTick
    let v := if pkCtx b = c then v.command (s.clearEvery c) t (pkCmd b) (pkArg b) (pkPhase b) else v
    if pkStart b c then s.viewStart t c v (min (pkVariant b c) (imgVariants (s.ctx c).image - 1)) else v
  let l := (List.zip (List.range 16) views).map (fun p => if s.loaded p.1 then step p.1 p.2 else p.2)
  let run := (s.runners (pkSelector b) (fun c => s.loaded c && ((l[c]?.map View.runs).getD false))).1
  (List.zip (List.range 16) l).map (fun p => { p.2 with ran := run.contains p.1 })

/-- The views of all contexts in the tick in progress. -/
def State.views (s : State) : List View := (List.range 16).map s.view

/-- The views of all contexts at the end of tick `n` - 1, as far as the packets held say; a tick without one counts as None. -/
def viewsGo (s : State) : Nat → Nat → List View → List View
  | 0, _, l => l
  | f + 1, t, l =>
    match s.tick.packets.find? (fun p => p.1 == t) with
    | some p => viewsGo s f (t + 1) (s.advanceViews t p.2 l)
    | none => viewsGo s f (t + 1) (l.map View.endTick)

/-- The views of all contexts now and after each of the packets given, in tick order. -/
def viewsHeld (s : State) : List (Nat × Bytes) → List View → List (List View)
  | [], l => [l]
  | p :: r, l => l :: viewsHeld s r (s.advanceViews p.1 p.2 l)

/-! Deciding. -/

/-- Whether the merged reply speaks of a context since its gate. -/
def State.mergedSince (s : State) (gate : Nat) : Bool :=
  match s.tick.mergedTick with
  | some m => decide (gate ≤ m)
  | none => false

/-- Whether the merged reply carries READY for a context, fresh (R75, R77). -/
def State.mergedReadyFor (s : State) (c gate : Nat) : Bool := s.mergedSince gate && bit s.tick.mergedReady c

/-- Index of tick `n` in the step in progress: run ticks, and all ticks in a permute step (R372, R387). -/
def View.index (v : View) (n : Nat) : Nat := if v.perm then n - v.pstart else v.stepTick

/-- Whether the step that produces E + 1 has ended by tick `n`, and its commit would come by tick 4 of the following step (R77). -/
def State.commitTime (s : State) (n c : Nat) (v : View) : Bool :=
  let x := v.epoch + 1
  v.stepOpen && (if v.perm ∧ v.stepEpoch = x then true
    else if v.stepEpoch = x then decide (imgTicks (s.ctx c).image v.variant ≤ v.stepTick)
    else v.stepEpoch == x + 1 && decide (v.index n ≤ 4))

/-- The newest clear epoch (R446): the highest multiple of k at most E - k. -/
def newestClear (k e : Nat) : Option Nat := if k = 0 ∨ e < k then none else some ((e - k) / k * k)

/-- A command that is due: rank by R79, deadline, context, command, argument, and whether phase WITHHELD is announced with it. -/
structure Choice where
  rank : Nat
  deadline : Nat
  ctx : Nat
  cmd : Cmd
  arg : Nat
  held : Bool
  deriving DecidableEq, Repr

/-- What permanence notices ask for a context (R446). -/
def State.noticeChoice (s : State) (c : Nat) (v : View) : List Choice :=
  if !s.tick.notices.any (fun b => bit (u16 b 2) c) ∨ v.phase = .stopped ∨ v.phase = .halted then []
  else match newestClear (s.clearEvery c) v.shown with
    | some e => [⟨2, 0, c, .rollback, e, false⟩]
    | none => [⟨0, 0, c, .halt, 0, false⟩]

/-- What the master announces in place of a commit that it cannot announce for tick 4 of the following step (R78): a rollback, or phase WITHHELD
when nothing but an unguarded pair is missing, as far as the merged replies tell: no poison, and since the step of the missing commit began no flag
that names another cause (DEDUCED, log entry 44). Among commands of one kind a rollback counts with the tick that announces it as its deadline (R79 gives a
rollback none; DESIGN CHOICE, log entry 45). -/
def State.missedChoice (s : State) (n c : Nat) (v : View) : Choice :=
  if bit s.tick.mergedFlags 2 ∧ !bit s.tick.mergedPoison c ∧ !s.tick.seen.any (fun p => decide ((s.hasp c).prevStart ≤ p.1)) then ⟨2, n, c, .none, 0, true⟩
  else ⟨2, n, c, .rollback, v.epoch, false⟩

/-- What is due for a context at tick `n` (R77 to R79, R375, R423). -/
def State.choices (s : State) (n c : Nat) (v : View) : List Choice :=
  if !s.loaded c then []
  else
    let own := (s.tick.due.filter (fun d => d.ctx == c)).flatMap (fun (d : Due) => match d.cmd with
      | .halt => if v.phase = .stopped ∨ v.phase = .halted then [] else [(⟨0, d.deadline, c, .halt, 0, false⟩ : Choice)]
      | .failover => if v.phase = .stopped ∨ v.phase = .halted then [] else [⟨1, d.deadline, c, .failover, v.shown, false⟩]
      | .rollback => if v.runs then [⟨2, d.deadline, c, .rollback, v.epoch, false⟩] else []
      | .none => if v.runs then [⟨2, d.deadline, c, .none, 0, true⟩] else []
      | .commit => [])
    let poison := s.mergedSince v.pgate && bit s.tick.mergedPoison c
    let ready := !poison && s.mergedReadyFor c v.gate
    own ++ s.noticeChoice c v ++
      (if v.runs ∧ v.stepOpen ∧ v.stepEpoch = v.epoch + 2 ∧ (4 < v.index n ∨ (v.index n = 4 ∧ !ready)) then [s.missedChoice n c v] else []) ++
      (if v.runs ∧ poison then [⟨2, n, c, .rollback, v.epoch, false⟩] else []) ++
      (if v.runs ∧ ready ∧ v.epoch + 1 ≠ 0xFFFFFFFF ∧ s.commitTime n c v then
        [⟨3, n + 4 - (if v.stepEpoch = v.epoch + 2 then v.index n else 0), c, .commit, v.epoch + 1, false⟩] else [])

/-- Whether one choice goes before another (R79). -/
def Choice.before (a b : Choice) : Bool :=
  decide (a.rank < b.rank) || (a.rank == b.rank && (decide (a.deadline < b.deadline) || (a.deadline == b.deadline && decide (a.ctx < b.ctx))))

/-- The command that the packet carries (R79). -/
def bestChoice : List Choice → Option Choice
  | [] => none
  | c :: t => match bestChoice t with
    | some d => if d.before c then some d else some c
    | none => some c

/-- The context that HASP_CTX steps to when no command is pending (R43). -/
def State.rotate (s : State) : Nat :=
  let l := pick 16 s.loaded
  ((l.filter (fun c => decide (s.tick.rotation < c))).head?).getD (l.head?.getD 0)

/-! Steps. -/

/-- Ticks of a variant of a context. -/
def State.stepTicks (s : State) (c v : Nat) : Nat := imgTicks (s.ctx c).image v

/-- Whether a context that runs is ready for its next step (R387): it has none open, or its step of `n` ticks has ended, or, a permute step, is
committed (R372). -/
def View.startReady (v : View) (n : Nat) : Bool := !v.stepOpen || (!v.perm && (decide (n ≤ v.stepTick) || decide (v.stepEpoch ≤ v.epoch)))

/-- The variant announced for the step that produces `y` (R32, R33, R35, R39, R357, R377). -/
def State.announceVariant (s : State) (c y : Nat) (replay : Bool) : Nat :=
  let x := s.ctx c
  let last := imgVariants x.image - 1
  let log := fun e => x.log.find? (fun l => l.epoch == e)
  if replay then ((log y).map (fun l => l.variant)).getD last
  else
    let e := if (log (y - 1)).any (fun l => l.permute) then y - 2 else y - 1
    match s.tick.votes.find? (fun p => p.1 == c * 2 ^ 32 + e) with
    | some p => imgVariantOf x.image p.2.toNat
    | none => match (if e ≤ x.hasp.eLast then log e else none) with
      | some l => imgVariantOf x.image l.vote.toNat
      | none => last

/-- Whether tick `n` begins a step of a context, were it a run tick (R82, R372, R387, R426): the view stands after the tick's command. -/
def State.startDue (s : State) (n c : Nat) (v : View) : Bool :=
  match v.phase with
  | .stopped => match (s.hasp c).startAt with
    | some t => decide (t ≤ n)
    | none => false
  | .running => v.startReady (s.stepTicks c v.variant)
  | .replaying => v.startReady (s.stepTicks c v.variant)
  | .restoring => s.mergedReadyFor c v.gate
  | .withheld => s.tick.resumes.contains c && s.mergedReadyFor c (max v.gate s.tick.foGate) && !v.resumed
  | .halted => false

/-! The packet. -/

/-- A table of variants with one replaced: the VARIANTS field (R42). -/
def putVariant (field c v : Nat) : Nat := field - (field / 64 ^ c % 64) * 64 ^ c + (v % 64) * 64 ^ c

/-- The 64 bytes of a tick packet, with its CRC (R42). -/
def packetBytes (tick term master : Nat) (takeover : Bool) (c : Nat) (gen : BitVec 16) (epoch : Nat) (phase : Phase) (cmd : Cmd) (arg place cap sel variants start : Nat) : Bytes :=
  let b := toLe 8 tick ++ toLe 4 term ++ toLe 2 master ++ toLe 1 (b2n takeover) ++ toLe 1 c ++ toLe 2 gen.toNat ++ toLe 4 epoch ++ toLe 1 (phase.code + 16 * cmd.code) ++
    zeros 1 ++ toLe 4 arg ++ toLe 2 place ++ toLe 2 cap ++ toLe 8 sel ++ toLe 12 variants ++ toLe 2 start ++ zeros 6
  b ++ toLe 4 (crc32c b)

/-- Views after the packet's command. -/
def State.commandViews (s : State) (n : Nat) (ch : Option Choice) (l : List View) : List View :=
  match ch with
  | none => l
  | some d => (List.zip (List.range 16) l).map (fun p => if p.1 = d.ctx then p.2.command (s.clearEvery p.1) n d.cmd d.arg (if d.held then .withheld else p.2.phase) else p.2)

/-- The contexts whose STEP_START bit a packet sets, with the variant of each (R42, R387): `l` are the views after the command. -/
def State.startsAt (s : State) (n : Nat) (l : List View) : List (Nat × Nat) :=
  let vw := fun c => (l[c]?).getD (s.view c)
  let due := pick 16 (fun c => s.loaded c && s.startDue n c (vw c))
  let variant := fun c => let v := vw c
    s.announceVariant c ((if v.phase = .restoring then v.target else v.started) + 1) (v.under == .replaying || v.under == .restoring)
  let after := fun c => if due.contains c then s.viewStart n c (vw c) (variant c) else vw c
  let run := (s.runners s.tick.select.toNat (fun c => s.loaded c && (after c).runs)).1
  (due.filter (fun c => run.contains c || (after c).phase == .restoring)).map (fun c => (c, variant c))

/-- The variant of the step that a context runs next after a rollback, which VARIANTS shows from the rollback on (R39, R88): the view stands
after the command. -/
def State.rerunVariant (s : State) (c : Nat) (w : View) : Nat :=
  if w.under = .restoring then s.announceVariant c (w.target + 1) true else s.announceVariant c (w.epoch + 1) (w.under == .replaying)

/-- VARIANTS as the last packet held shows it, or of the steps in progress (R42). -/
def State.lastVariants (s : State) (n : Nat) : Nat :=
  match s.tick.packets.find? (fun p => p.1 == n - 1) with
  | some p => le p.2 40 12
  | none => (List.range 16).foldl (fun a c => putVariant a c (s.hasp c).variant) 0

/-- The new placement version that the commit of a permute step announces (R370, R372); a replay announces none (R377). -/
def State.permVersion (s : State) (c : Nat) (v : View) (arg : Nat) : Option Nat :=
  if v.perm ∧ v.stepEpoch = arg ∧ v.phase ≠ .replaying then some (u16 (s.rd c 4 0 (s.regN (Reg.FAB_PERM_TABLE c) * 4096) 8) 4) else none

/-- Sends the packet that announces tick `n` down both trees, and keeps it; a master in ALIGNING runs by its own packet (R42, R48, R66). -/
def State.sendTick (s : State) (n : Nat) (b : Bytes) : State :=
  let s := s.modTick (fun t => { t with packets := tput t.packets n b, seenTerm := max t.seenTerm t.term, run := if t.run = .aligning then .running else t.run })
  s.over (pick 24 (fun l => s.children.contains l || s.backupChildren.contains l)) (fun s l => s.sendControl l 0x02 0 b)

/-- Composes and sends the packet that announces tick `n` (R42, R43, R47, R77 to R79, R390, R426). A deputy that takes over announces no
command (R54); FLAGS say that the packet is the first of its term. The context shown stands as during the announced tick (R42, R74; DEDUCED, log
entry 38); the cap is that of the packet before (DESIGN CHOICE, log entry 38). -/
def State.compose (s : State) (n : Nat) (plain takeover : Bool) : State :=
  let l := (viewsGo s (n - 1 - s.tick.now) (s.tick.now + 1) s.views).map View.endTick
  let vw := fun c => (l[c]?).getD (s.view c)
  let ch := if plain then none else bestChoice ((List.range 16).flatMap (fun c => s.choices n c (vw c)))
  let c := (ch.map (fun d => d.ctx)).getD s.rotate
  let v := vw c
  let cmd := (ch.map (fun d => d.cmd)).getD .none
  let arg := (ch.map (fun d => d.arg)).getD 0
  let after := s.commandViews n ch l
  let starts := s.startsAt n after
  let w := (after[c]?).getD v
  let w := match starts.find? (fun p => p.1 == c) with
    | some p => s.viewStart n c w p.2
    | none => w
  let cap := match s.tick.packets.find? (fun p => p.1 == n - 1) with
    | some p => u16 p.2 30
    | none => s.tick.powerCap
  let base := if cmd == Cmd.rollback || cmd == Cmd.failover then putVariant (s.lastVariants n) c (s.rerunVariant c w) else s.lastVariants n
  let variants := starts.foldl (fun a p => putVariant a p.1 p.2) base
  let place := match (if cmd = .commit then s.permVersion c v arg else none), s.tick.foVersion with
    | some p, _ => p
    | none, some p => p
    | none, none => s.tick.placement
  let b := packetBytes n s.tick.term s.addr takeover c w.gen w.shown w.phase cmd arg place cap s.tick.select.toNat variants
    (maskOf (starts.map (·.1)))
  let s := s.modTick (fun t => { t with
    placement := place
    foGate := if t.foVersion.isSome then n else t.foGate
    foVersion := none
    rotation := if ch.isNone then c else t.rotation
    due := match ch with
      | some d => if d.cmd = .commit then t.due else t.due.filter (fun (x : Due) => x.ctx != d.ctx || (d.cmd != .halt && x.cmd == .halt) || (d.cmd != .failover && d.cmd != .halt && x.cmd == .failover))
      | none => t.due
    notices := if cmd = .rollback ∨ cmd = .halt then
        (t.notices.map (fun (x : Bytes) => patch x 2 (toLe 2 (u16 x 2 - (if bit (u16 x 2) c then 2 ^ c else 0))))).filter (fun (x : Bytes) => u16 x 2 != 0)
      else t.notices
    resumes := t.resumes.filter (fun r => !(starts.any (fun p => p.1 == r)))
    votes := t.votes.filter (fun p => decide ((vw (p.1 / 2 ^ 32)).epoch ≤ p.1 % 2 ^ 32 + 1)) })
  (s.sendTick n b).sendMasterState

/-- The tick master's packet at the start of a tick (R42); from its first tick on (R52, R342). -/
def State.masterSend (s : State) : State :=
  if s.tick.master ∧ s.tick.run ≠ .stopped ∧ s.tick.firstTick ≤ s.tick.now then s.compose (s.tick.now + 2) false (decide (s.tick.seenTerm < s.tick.term)) else s

end Sys2Proof.Machine
end

