-- ==== Sys2Proof/Machine/Sched.lean ====
section
/-! DEFINITION. Scheduled packets: transmit reservations (R331, R332), matching of arriving packets (R326), carry regions (R365, R366, R368, R369), and the mirror: reservations, detour groups, slots and acknowledgements (R412 to R417). -/

namespace Sys2Proof.Machine

/-! Sending. -/

/-- Sends a SCHED packet of context `c` for logical link `l`: on the link itself, or by detour (R325). -/
def State.sendSched (s : State) (c l pair idx : Nat) (b : Bytes) : State :=
  let a := (s.peerAddr c l).getD 0xFFFF
  let p := s.mkPacket 0x01 0 a (some c) (pair + idx * 2 ^ 32) 0 b
  if s.isRouted c l then s.sendRouted { p with flags := 4 } else if s.linkUp l then s.begin l p else s

/-- Whether a link can carry a reservation of context `c` at all: it is routed, or up (R313, R325). -/
def State.canCarry (s : State) (c l : Nat) : Bool := s.isRouted c l || s.linkUp l

/-- Granules that a mirror reservation of `len` units carries: a granule is 16 packets of 4,128 bytes at 100 bytes per ns, which begin
only when all fit (R331, R413). -/
def mirrorFit (len mhz : Nat) : Nat := if mhz = 0 then 0 else len * 16 * 100000 / (mhz * 66048)

/-- Adds to the mirror byte counter (HSP_MIRROR). -/
def State.countMirror (s : State) (n : Nat) : State :=
  let v := s.regN Reg.HSP_MIRROR_LO + s.regN Reg.HSP_MIRROR_HI * 2 ^ 32 + n
  (s.setRegN Reg.HSP_MIRROR_LO v).setRegN Reg.HSP_MIRROR_HI (v / 2 ^ 32)

/-- How a mirror reservation on link `l` is served (R417): 0 on the link, 1 by detour on a Z link, 2 by detour through the route table,
3 not at all. -/
def State.mirrorCarriage (s : State) (c l : Nat) : Nat :=
  let p := (s.ctx c).twin.path
  if p = 0 ∨ (p = 1 ∧ s.linkUp l) then 0
  else if p = 4 then 3
  else if (s.zLink c).isSome then 1
  else if bit (s.route (s.twinAddr c)) 31 then 2 else 3

/-- Sends one part of a mirrored granule (R413, R417). -/
def State.sendMirrorPart (s : State) (c l pair g p : Nat) (b : Bytes) : State :=
  let q := s.mkPacket 0x01 0 (s.twinAddr c) (some c) (pair + (16 * g + p) * 2 ^ 32) 0 b
  match s.mirrorCarriage c l with
  | 0 => s.begin l q
  | 1 => s.transmit selfLink ((s.zLink c).getD 15) { q with flags := 4 }
  | 2 => s.sendRouted { q with flags := 4 }
  | _ => s

/-- Fills a mirror reservation with dirty granules in increasing number (R413, R417). -/
def State.sendMirror (s : State) (c l : Nat) (r : Resv) : State :=
  if s.mirrorCarriage c l = 3 then s
  else
    let t := (s.ctx c).twin
    let gs := (pick (s.seatGranules c) (fun g => t.dirty.contains g)).take (mirrorFit r.len (imgClock (s.ctx c).image))
    let s := s.over gs (fun s g =>
      let d := s.granuleData c g
      s.over (List.range 16) (fun s p => s.sendMirrorPart c l r.pair g p (slice d (4096 * p) 4096)))
    let m : Mirrored := ⟨r.pair, (s.hasp c).gen, gs, s.tick.now⟩
    let s := s.modCtx c (fun x => { x with twin := { x.twin with dirty := x.twin.dirty.filter (fun g => !gs.contains g), inflight := x.twin.inflight ++ [m] } })
    s.countMirror (gs.length * 65536)

/-- The payload packets of a transmit reservation whose send has retired (R332). -/
def State.sendPayload (s : State) (c l pair : Nat) (b : Bound) : State :=
  let d := s.rd c 2 0 b.stage b.bytes
  s.over (List.range (cdiv b.bytes 4096)) (fun s i => s.sendSched c l pair i (slice d (4096 * i) 4096))

/-- RESERVATION_START (R332, R364, R413): transmit reservation `idx` of link `link` in the frame that context `c` runs. A reservation whose
send has not retired, or whose link is down, sends nothing and makes the device a straggler. -/
def execReservationStart (link : Fin 24) (c : Fin 16) (idx : Nat) (s : State) : Host.Outcome State Fault Refusal :=
  let l := link.val
  match (if (s.hasp c).run then (s.frameResvs c l true)[idx]? else none) with
  | none => .next s
  | some r =>
    if mirrorResv l r.pair then .next (s.sendMirror c l r)
    else
      match (if s.canCarry c l then (s.link l).bound.find? (fun b => b.ctx == c.val && b.idx == idx) else none) with
      | some b => .next ((s.sendPayload c l r.pair b).modLink l (fun k => { k with sent := k.sent ++ [(c.val, idx)] }))
      | none => .next (s.flag 1)

/-! Carry regions. -/

/-- The carry region of a pair identifier (R365, R632). -/
def State.carryRegion (s : State) (c pair : Nat) : Option Ledger := (s.ledger c).find? (fun l => l.kind == 5 && l.tag == pair)

/-- Writes the pending half of a carry region; suppressed and poisoned when R72 asks for it. -/
def State.writeCarry (s : State) (c : Nat) (l : Ledger) (b : Bytes) : State :=
  let a := l.halfAt (s.hasp c).tag
  if s.lateWrites c then s.markPoison c ⟨l.space, 0, a, b.length⟩ else s.wrRaw c l.space 0 a b

/-- Whether the carry region of an unsent reservation takes its payload (R366). -/
def State.carries (s : State) (c pair : Nat) : Bool :=
  if s.replaying c then s.replayed c 2 pair
  else (s.hasp c).carryPolicy && !(s.ctx c).lateCommitted.any (fun e => e.kind == 2 && e.pair == pair)

/-- What the end of a carriable reservation does (R366, R368, R369): `sent` whether it sent its payload. -/
def State.endCarry (s : State) (c l idx pair : Nat) (sent : Bool) : State :=
  match s.carryRegion c pair with
  | none => s
  | some g =>
    let rec? := s.sendRecord c l idx
    let late := if s.replaying c then s.replayed c 2 pair || s.replayed c 3 pair else !sent
    let kind := if s.carries c pair then 2 else 3
    if !late then s.writeCarry c g (zeros g.size)
    else if s.lateFull c then (s.writeCarry c g (zeros g.size)).event (Reg.FAB_PERM_EVENT c) 6
    else
      let data := match rec? with
        | some p => padTo g.size (s.rd c 2 0 (u32 p.2 28) (min g.size (u32 p.2 32)))
        | none => zeros g.size
      let s := s.writeCarry c g (if kind = 2 then data else zeros g.size)
      s.appendLate c ⟨pair, (s.hasp c).stepTick, kind, l, (rec?.map (fun p => u16 p.2 10)).getD 0, (rec?.map (fun p => p.1)).getD 0⟩

/-! Mirror acknowledgements. -/

/-- Sends a mirror acknowledgement over the path that carried the mirror (R415). -/
def State.sendMirrorAck (s : State) (c l pair : Nat) (gen : BitVec 16) (n : Nat) : State :=
  let b := toLe 2 0x0002 ++ toLe 1 c ++ zeros 1 ++ toLe 4 pair ++ toLe 2 gen.toNat ++ zeros 2 ++ toLe 4 n
  let p := s.mkPacket 0x18 0 (s.twinAddr c) (some c) 0 0 b
  match s.mirrorCarriage c l with
  | 0 => s.transmit selfLink l p
  | 1 => s.transmit selfLink ((s.zLink c).getD 15) p
  | _ => s.sendRouted p

/-- Acknowledges the granules that a receive reservation completed, and forgets them. -/
def State.ackMirror (s : State) (c l pair : Nat) : State :=
  let g := (s.ctx c).twin.guard
  let n := ((g.got.filter (fun p => p.1 == pair)).map (·.2)).length
  let s := s.modCtx c (fun x => { x with twin := { x.twin with guard := { x.twin.guard with got := x.twin.guard.got.filter (fun p => p.1 != pair) } } })
  if g.state = 0 then s else s.sendMirrorAck c l pair (s.hasp c).gen n

/-- RESERVATION_END (R366, R415): of a carriable transmit reservation, its carry region is written; of a mirror receive reservation served on
its link, the acknowledgement is sent (a detour group's is sent at the end of the tick, R417). -/
def execReservationEnd (link : Fin 24) (c : Fin 16) (tx : Bool) (idx : Nat) (s : State) : Host.Outcome State Fault Refusal :=
  let l := link.val
  match (if (s.hasp c).run then (s.frameResvs c l tx)[idx]? else none) with
  | none => .next s
  | some r =>
    if tx then .next (if bit r.pair 31 then s.endCarry c l idx r.pair ((s.link l).sent.contains (c.val, idx)) else s)
    else .next (if mirrorResv l r.pair && s.mirrorCarriage c l == 0 then s.ackMirror c l r.pair else s)

/-- The acknowledgements of the detour groups of an ending tick (R417). -/
def State.ackDetours (s : State) : State :=
  s.over [19, 20] (fun s l => s.over ((s.link l).rx.filter (fun x => mirrorResv l x.pair)) (fun s x =>
    if s.mirrorCarriage x.ctx l = 0 then s else s.ackMirror x.ctx l x.pair))

/-- Takes the mirrored granules of a pair out of flight; `clean` says they were acknowledged, otherwise they become dirty again. -/
def State.settleMirror (s : State) (c pair : Nat) (clean : Bool) : State :=
  s.modCtx c (fun x =>
    let t := x.twin
    let gs := ((t.inflight.filter (fun m => m.pair == pair)).map (fun m => m.granules)).flatten
    { x with twin := { t with
        inflight := t.inflight.filter (fun m => m.pair != pair)
        dirty := if clean then t.dirty else t.dirty ++ gs.filter (fun g => !t.dirty.contains g) } })

/-- A mirror acknowledgement (R415, R431): a count that matches what was sent, under the current generation, cleans the granules; pair identifier
0xFFFF_FFFF with 0 granules makes the whole seat dirty. -/
def State.takeMirrorAck (s : State) (b : Bytes) : State :=
  let c := byteAt b 2
  let pair := u32 b 4
  if b.length ≠ 16 ∨ 16 ≤ c ∨ byteAt b 3 ≠ 0 ∨ !zeroAt b 10 2 then s.count Reg.FAB_DROP_CRC
  else if pair = 0xFFFFFFFF then (if u32 b 12 = 0 ∧ s.loaded c then s.dirtyAll c else s)
  else
    match (s.ctx c).twin.inflight.find? (fun m => m.pair == pair) with
    | none => s
    | some m => s.settleMirror c pair (decide (u16 b 8 = (s.hasp c).gen.toNat ∧ m.gen = (s.hasp c).gen ∧ u32 b 12 = m.granules.length))

/-- MIRROR_ACK (R317, R415). -/
def execMirrorAck (link : Fin 24) (b : Bytes) (s : State) : Host.Outcome State Fault Refusal :=
  .next (s.takeMsg link b 2 (fun b s => s.takeMirrorAck b))

/-- MIRROR_ACK_TIMEOUT (R415): at the end of the tick after the one in which the reservation was sent. -/
def execMirrorAckTimeout (c : Fin 16) (pair : Nat) (s : State) : Host.Outcome State Fault Refusal :=
  match (s.ctx c).twin.inflight.find? (fun m => m.pair == pair) with
  | none => .next s
  | some m => .next (if m.sentTick + 1 ≤ s.tick.now then s.settleMirror c pair false else s)

/-! Receiving. -/

/-- The arriving reservation that a pair identifier names, with its logical link (R326). -/
def State.rxByPair (s : State) (c pair : Nat) : Option (Nat × RxRes) :=
  (List.range 24).findSome? (fun l => ((s.link l).rx.find? (fun x => x.ctx == c && x.pair == pair)).map (fun x => (l, x)))

/-- Marks packet `i` of an arriving reservation as received. -/
def State.gotPacket (s : State) (l : Nat) (x : RxRes) (i : Nat) : State :=
  s.modLink l (fun k => { k with rx := k.rx.map (fun y => if y.ctx = x.ctx ∧ y.idx = x.idx then { y with got := y.got ++ [i] } else y) })

/-- A guard that its twin mirrors again, with one granule more; valid once every granule has arrived (R431). -/
def Guard.rebuildWith (g : Guard) (n : Nat) : Guard :=
  let r := if g.rebuilt.contains n then g.rebuilt else g.rebuilt ++ [n]
  if g.granules ≤ r.length then { g with state := 2, rebuild := false, rebuilt := [] } else { g with rebuilt := r }

/-- A part of a mirrored granule (R413, R414). -/
def State.mirrorPart (s : State) (c pair i : Nat) (p : Packet) : State :=
  let g := (s.ctx c).twin.guard
  let n := i / 16
  let k := i % 16
  let old := tget (fun _ => ((s.hasp c).gen, (s.hasp c).tag, [])) g.parts n
  let seen := if old.1 = p.gen ∧ old.2.1 = p.epoch then old.2.2 else []
  if g.state = 0 ∨ g.granules ≤ n ∨ p.payload.length ≠ 4096 then s.count Reg.FAB_DROP_SCHED
  else
    let s := s.lpWrite (s.guardBase + g.latest + 65536 * n + 4096 * k) p.payload
    let parts := if seen.contains k then seen else seen ++ [k]
    if parts.length < 16 then
      s.modCtx c (fun x => { x with twin := { x.twin with guard := { x.twin.guard with parts := tput x.twin.guard.parts n (p.gen, p.epoch, parts) } } })
    else
      let s := s.modCtx c (fun x => { x with twin := { x.twin with guard := { x.twin.guard with
        parts := tdel x.twin.guard.parts n, got := (x.twin.guard.got.filter (fun q => q != (pair, n))) ++ [(pair, n)] } } })
      if g.rebuild then s.modGuard c (fun g => g.rebuildWith n) else s

/-- Whether a SCHED packet is the one its reservation waits for (R326, R332). -/
def State.schedOk (s : State) (c l i : Nat) (x : RxRes) (p : Packet) : Bool :=
  some p.src == s.peerAddr c l && p.gen == (s.hasp c).gen && p.epoch == (s.hasp c).tag && (s.hasp c).stepOpen &&
    decide (i < cdiv x.bytes 4096) && p.payload.length == min 4096 (x.bytes - 4096 * i) && !x.got.contains i

/-- SCHED (R326): the payload goes to STAGE, or a mirror part to its slot; a packet that matches nothing is discarded and counted. -/
def execSched (link : Fin 24) (b : Bytes) (s : State) : Host.Outcome State Fault Refusal :=
  .next (s.takePacket link b 0x01 (fun p s =>
    let c := p.ctx
    let pair := p.arg % 2 ^ 32
    let i := p.arg / 2 ^ 32
    match s.rxByPair c pair with
    | none => s.count Reg.FAB_DROP_SCHED
    | some (l, x) =>
      if mirrorResv l pair then
        (if p.src = s.twinAddr c ∧ p.gen = (s.hasp c).gen ∧ p.epoch = (s.hasp c).tag then s.mirrorPart c pair i p else s.count Reg.FAB_DROP_SCHED)
      else if s.schedOk c l i x p then (s.wrRaw c 2 0 (x.stage + 4096 * i) p.payload).gotPacket l x i
      else s.count Reg.FAB_DROP_SCHED))

end Sys2Proof.Machine
end

