-- ==== Sys2Proof/Machine/Stack.lean ====
section
/-! DEFINITION. Stacked DRAM rows: scrub reads (R269), remap copies and the switch to a spare row at a boundary (R270, R272, R273). -/

namespace Sys2Proof.Machine

/-- Device address of the first byte of a row number (R252): the inverse of `dramLoc`. -/
def rowAddr (row : Nat) : Nat :=
  let r := row % 4096
  let bank := row / 4096
  let vault := bank / 128
  let layer := bank / 16 % 8
  let b := bank % 16
  r * 2 ^ 26 + layer * 2 ^ 23 + (b ^^^ bits (r * 2 ^ 26) 35 32) * 2 ^ 19 + (vault ^^^ bits (r * 2 ^ 26) 31 26) * 2 ^ 11

/-- SCRUB_READ (R269): what the read of a row finds counts as in R266 and R267, and the corrected beats go back, which leaves the contents as
they read. Best-effort work that the cap holds is not done (R574). -/
def execScrubRead (_row : Nat) (errs : List MemErr) (s : State) : Host.Outcome State Fault Refusal := .next (if s.pwr.beHeld then s else s.dramErrs errs)

/-- The vault of a row number. -/
def rowVault (row : Nat) : Nat := row / 4096 / 128

/-- Whether a scheduled record of the device is running: it has begun and has not retired (R23, R270). -/
def State.recordRunning (s : State) : Bool := s.units.any (fun p => !p.2.queue.isEmpty)

/-- ROW_REMAP (R270): the copy of a scheduled row into a spare of its bank, while no record runs, one row of a vault in a tick. A copy that meets an
uncorrectable beat switches nothing, and the row joins the pending list; otherwise the row switches at the next boundary. -/
def execRowRemap (row : Nat) (bad : Bool) (s : State) : Host.Outcome State Fault Refusal :=
  if !s.stack.scheduled.contains row ∨ s.stack.switching.contains row ∨ s.recordRunning ∨ s.stack.copied.contains (rowVault row) ∨ s.pwr.beHeld then .next s
  else if s.sparesLeft (row / 4096) = 0 then .next (s.event Reg.MEM_STK_EVENT 6)
  else
    let s := { s with stack := { s.stack with copied := s.stack.copied ++ [rowVault row] } }
    if bad then .next (s.dramUe (rowAddr row)) else .next { s with stack := { s.stack with switching := s.stack.switching ++ [row] } }

/-- Takes the next spare row of a row's bank into use: its number, and the state. The bank's last one sets SPARES_OUT (R272). -/
def State.takeSpare (s : State) (row : Nat) : Nat × State :=
  let bank := row / 4096
  let left := s.sparesLeft bank
  let t := { s with stack := { s.stack with spares := tput s.stack.spares bank (left - 1), remapped := tput s.stack.remapped row (128 - left), ce := tdel s.stack.ce row } }
  (128 - left, t.eventIf (decide (left ≤ 1)) Reg.MEM_STK_EVENT 6)

/-- Enters one remap record into the on-die table (R273, R449): a row that took a spare, a pending row, or a fenced one. -/
def Stack.load (k : Stack) (bank row spare code : Nat) : Stack :=
  let r := bank * 4096 + row
  let rest := k.pending.filter (fun x => x != r)
  match code with
  | 1 => { k with pending := rest ++ [r] }
  | 3 => { k with pending := rest, fenced := k.fenced.filter (fun x => x != r) ++ [r] }
  | _ => { k with pending := rest, remapped := tput k.remapped r spare, spares := tput k.spares bank (min (tget (fun _ => 128) k.spares bank) (127 - spare)) }

/-- Loads the remap table from the unit history (R273): its remap records of banks, in order. A record that the controller still holds for the supply
counts as well (log entry 59). -/
def State.loadRemaps (s : State) : State :=
  let l := s.records.filter (fun r => r.type == 3 && r.kind == 5)
  let empty : Stack := { s.stack with pending := [], fenced := [], spares := [], remapped := [] }
  { s with stack := l.foldl (fun k r => k.load r.unit (le r.detail 0 2) (byteAt r.detail 2) (byteAt r.detail 3)) empty }

/-- The rows whose copies are complete switch to their spares at a boundary, and every vault may copy again (R270, R273). -/
def State.switchRows (s : State) : State :=
  let all := s.stack.switching
  let s := { s with stack := { s.stack with copied := [] } }
  s.over all (fun s row =>
    let s := { s with stack := { s.stack with scheduled := s.stack.scheduled.filter (fun r => r != row), switching := s.stack.switching.filter (fun r => r != row) } }
    if s.sparesLeft (row / 4096) = 0 then s.event Reg.MEM_STK_EVENT 6
    else
      let p := s.takeSpare row
      (((p.2.count Reg.MEM_STK_REMAPS).event Reg.MEM_STK_EVENT 5).remapRecord row p.1 0))

end Sys2Proof.Machine
end

