-- ==== Sys2Proof/Machine/Boundary.lean ====
section
/-! DEFINITION. The tick boundary (R19): what closes the ending tick (R61, R398, R402, R417), and what takes effect for the tick that begins (R20, R42, R63, R64, R80 to R82, R201, R260, R323, R325, R334, R386, R393, R452, R551, R552, R556, R565, R580, R605). -/

namespace Sys2Proof.Machine

/-! The end of a tick. -/

/-- What a unit has not retired at the end of a tick is abandoned (R61): the records begun and those that its sequencer has still to read. Each unit
that overruns counts for itself in TCK_OVERRUNS (DESIGN CHOICE, log entry 48). -/
def State.overrunUnit (s : State) (c u : Nat) : State :=
  let q := (s.unit u).queue.filter (fun o => o.ctx == c)
  let rest := if (s.hasp c).holdWait ∧ !s.pwr.holdReady then [] else s.seqRest c u 4096
  let first := (q.map (fun o => recId o.bytes) ++ rest.map recId).head?
  match first with
  | none => s
  | some id =>
    let s := s.markAll c ((q.map (fun o => o.outputs)).flatten ++ (rest.map (s.recOuts c u)).flatten)
    let s := (((s.event Reg.TCK_EVENT 0).count Reg.TCK_OVERRUNS).flag 0).flag 1
    (s.postEvent c 0x0006 0 (s.hasp c).tag u 0).opFault c u id 0x09

/-- The overruns of every context that runs (R61). -/
def State.overruns (s : State) : State :=
  s.over (pick 16 (fun c => (s.hasp c).run)) (fun s c => s.over (List.range 288) (fun s u => s.overrunUnit c u))

/-- A shared bolt adds back what its acquisitions still hold (R398). -/
def State.forceRelease (s : State) (b : Nat) : State :=
  let x := s.bolt b
  let n := (x.held.map (fun a => a.amount)).foldl (· + ·) 0
  let s := s.setBolt b { x with count := BitVec.ofNat 32 (min (x.count.toNat + n) 0xFFFFFFFF), held := [] }
  s.over (x.held.filter (fun a => a.amount != 0)) (fun s a =>
    ((s.markAll a.wait.ctx a.wait.guard.toList).opFault a.wait.ctx a.wait.requester a.wait.id 0x09).event (Reg.CTX_EVENT a.wait.ctx) 3)

/-- Every shared bolt with acquisitions is released by force, and no wait crosses the boundary (R397, R398). -/
def State.endBolts (s : State) : State :=
  let s := s.over ((s.bolts.filter (fun p => !p.2.held.isEmpty)).map (·.1)) State.forceRelease
  { s with bolts := tmap (fun _ b => { b with waits := [] }) s.bolts }

/-- A running context's counter in this tick. -/
def State.tickBytes (s : State) (c n : Nat) : Nat :=
  (tget (fun _ => 0#64) (s.ctx c).acc.live n - tget (fun _ => 0#64) (s.ctx c).acc.tickBase n).toNat

/-- Charges one pool's energy in proportion to the contexts' bytes (R402): the state, and what is left uncharged. -/
def State.chargePool (s : State) (counters : List Nat) (mj : Nat) : State × Nat :=
  let w := fun c => (counters.map (s.tickBytes c)).foldl (· + ·) 0
  let sum := ((List.range 16).map w).foldl (· + ·) 0
  if sum = 0 then (s, mj)
  else
    let part := fun c => mj * w c / sum
    (s.over (List.range 16) (fun t c => t.account c 12 (part c)), mj - ((List.range 16).map part).foldl (· + ·) 0)

/-- Charges the wards' energy to the contexts that ran on them (R402). -/
def State.chargeWards (s : State) (mj : List Nat) : State × Nat :=
  (List.range 16).foldl (fun (p : State × Nat) w =>
    match (List.range 16).find? (fun c => (s.hasp c).run && (s.wardSet c).contains w) with
    | some c => (p.1.account c 12 (mj.getD w 0), p.2)
    | none => (p.1, p.2 + mj.getD w 0)) (s, 0)

/-- The ending tick's energy (R402, R588): wards, then stacked DRAM, LPDDR, flash, PCIe and the links, and the rest. -/
def State.chargeEnergy (s : State) (env : BoundaryEnv) : State :=
  let a := s.chargeWards env.wardMj
  let pools := List.zip [[4], [5], [6], [7], [8, 9, 10, 11]] (List.range 5)
  let b := pools.foldl (fun (p : State × Nat) q => let r := p.1.chargePool q.1 (env.poolMj.getD q.2 0); (r.1, p.2 + r.2)) a
  let all := (env.wardMj.take 16 ++ env.poolMj.take 5).foldl (· + ·) 0 + env.otherMj
  let s := b.1.modPwr (fun p => { p with uncharged := p.uncharged + BitVec.ofNat 64 (b.2 + env.otherMj), energy := p.energy + BitVec.ofNat 64 all, measured := env.meanW })
  s.setRegN Reg.PWR_POWER (env.maxW % 65536 * 65536 + env.meanW % 65536)

/-- The contexts whose vote tumbler ended in this tick without a record that wrote the vote vector (R33, R34). -/
def State.voters (s : State) : List Nat :=
  pick 16 (fun c => (s.hasp c).run && (s.frameOf c).isSome && (s.hasp c).votedVariant.isNone && (s.hasp c).stepTick == imgVoteTick (s.ctx c).image (s.hasp c).variant)

/-- The units and links are free of the ending tick's work (R23, R332). -/
def State.clearTick (s : State) : State :=
  { s with units := tmap (fun (_ : Nat) (u : UnitSt) => { u with retired := 0, read := 0, queue := [] }) s.units }.closeReservations

/-- The ending tick counts for the steps of the contexts that ran in it (R387); a permute step counts no ticks (R372). -/
def State.countTick (s : State) : State :=
  s.over (pick 16 (fun c => (s.hasp c).run && (s.hasp c).stepOpen && decide ((s.ctx c).perm.state < 2))) (fun s c => s.modHasp c (fun h => { h with stepTick := h.stepTick + 1 }))

/-- The steps that a Hold cuts short begin no record until their next tick 0 (R571). -/
def State.holdSteps (s : State) : State :=
  let s := if s.pwr.hold then s.over (pick 16 (fun c => (s.hasp c).stepOpen)) (fun s c => s.modHasp c (fun h => { h with holdWait := true })) else s
  s.modPwr (fun p => { p with holdReady := false })

/-- What closes the ending tick. -/
def State.endTick (s : State) (env : BoundaryEnv) : State :=
  let s := (if s.tick.replied then s else s.sendReply).ackDetours
  let s := (s.over s.voters State.takeVote).overruns.endBolts
  let s := s.over (pick 16 s.loaded) (fun s c => s.account c (if (s.hasp c).run then 13 else 14) 1)
  let s := ((((s.chargeEnergy env).clearTick).countTick).holdSteps.countCorrected env).noteErrs env.errs
  if s.tick.firstTick ≤ s.tick.now then s.ownReply else s

/-! Stopping, placement, wards. -/

/-- The device begins no further records, in Poised, until a tick-start command (R64, R556). TCK_STATUS.STATE then reads STOPPED (DESIGN CHOICE, log
entry 49). -/
def State.stopTick (s : State) : State :=
  let s := s.over (pick 16 (fun c => (s.hasp c).run)) (fun s c => s.modHasp c (fun h => { h with run := false }))
  s.modTick (fun t => { t with run := .stopped, poised := true, adriftRun := 0, stopNext := false, replied := true })

/-- Whether a bank gives an address a seat. -/
def Bank.names (k : Bank) (a : Nat) : Bool := (List.range 16).any (fun c => (k.seatAt c a).isSome)

/-- The standby bank comes into force (R323). A device declared dead that the old bank left out and the new one names is in use again, so it counts as
dead no more (DEDUCED, log entry 64). -/
def State.enforceStandby (s : State) : State :=
  let old := s.fabric.inForce
  let new := s.fabric.standby
  let s := { s with fabric := { s.fabric with inForce := new, standby := { old with sealed := false }, missing := false } }
  s.modTick (fun t => { t with dead := t.dead.filter (fun a => old.names a || !new.names a) })

/-- The announced placement version comes into force, or is missing (R323). -/
def State.switchPlacement (s : State) (v : Nat) : State :=
  let f := s.fabric
  if v = f.inForce.version then { s with fabric := { f with missing := false } }
  else if f.standby.sealed ∧ f.standby.version = v then s.enforceStandby
  else { s with fabric := { f with missing := true } }.event Reg.FAB_EVENT 5

/-- At the start of the first tick the standby bank that TICK_START named comes into force (R342). -/
def State.startPlacement (s : State) : State :=
  let f := s.fabric
  if s.tick.now = s.tick.firstTick ∧ f.standby.sealed ∧ f.standby.version = s.tick.startVersion then s.enforceStandby else s

/-- The ward resets that wait for a boundary begin (R551, R552): the ward's generation rises. -/
def State.beginWardResets (s : State) : State :=
  let l := s.rst.wardPending
  let s := { s with rst := { s.rst with wardPending := [], wardBusy := s.rst.wardBusy ++ l.filter (fun w => !s.rst.wardBusy.contains w) } }
  s.over l (fun s w => s.setRegN (Reg.RST_WARD_GEN w) ((s.regN (Reg.RST_WARD_GEN w) + 1) % 256))

/-- Fences, unit actions and returning units, at a boundary that allows them (R452, R551, R605). `com` says that a Commit took effect, or that no plan is
loaded: the media front end, unit 16, waits for that (R506). -/
def State.allowedBoundary (s : State) (com : Bool) : State :=
  let s := s.fenceBoundary
  { s with rst := { s.rst with returning := if com then [] else s.rst.returning.filter (fun u => u == 16) } }

/-- What every boundary does, whatever the tick does: links resolved, mirror paths chosen, bands, clocks, rows, ward resets (R260, R270, R325, R417, R552,
R575). -/
def State.everyBoundary (s : State) : State := (s.resolveLinks.chooseMirrorPaths.applyBand.switchRows).beginWardResets

/-! The tick that begins. -/

/-- The packet of the tick in progress. -/
def State.packetNow (s : State) : Option Bytes := (s.tick.packets.find? (fun p => p.1 == s.tick.now)).map (·.2)

/-- A tick that no packet announced (R63). -/
def State.markAdrift (s : State) : State := ((s.modTick (fun t => { t with run := .adrift, adriftRun := t.adriftRun + 1 })).event Reg.TCK_EVENT 2).flag 3

/-- After an adrift tick has begun, READY is withheld for every context until the step after the one in progress (R63). -/
def State.withholdAll (s : State) : State := s.over (List.range 16) (fun s c => s.modHasp c (fun h => { h with withhold := max 1 h.withhold }))

/-- The hasp command of a packet, with what goes with the commit of a permute step (R42, R80 to R82, R377). `bank` was in force before. -/
def State.packetCmd (s : State) (b : Bytes) (bank : Bank) : State :=
  let c := pkCtx b
  if !s.loaded c then (if pkCmd b = .none then s else s.ignoreCmd c)
  else
    let perm := decide (2 ≤ (s.ctx c).perm.state) && pkCmd b == .commit && (s.hasp c).stepEpoch == pkArg b
    let e := (s.hasp c).epoch
    let s := s.applyCmd c (pkCmd b) (pkArg b) (pkPhase b)
    if perm ∧ (s.hasp c).epoch ≠ e then s.permCommit c bank else s

/-- Whether a Commit, or a Rollback, of some context took effect between two states. -/
def committedIn (a b : State) : Bool := (List.range 16).any (fun c => (a.hasp c).gen == (b.hasp c).gen && (a.hasp c).epoch != (b.hasp c).epoch)
/-- Whether a Rollback of some context took effect between two states: a Halt alone leaves HALTED (R82). -/
def rolledIn (a b : State) : Bool := (List.range 16).any (fun c => (a.hasp c).gen != (b.hasp c).gen && (b.hasp c).phase != .halted)

/-- The contexts that run in this tick by the selector in force (R386). -/
def State.runSet (s : State) : List Nat × List Nat :=
  s.runners s.tick.selector.toNat (fun c => s.loaded c && ((s.hasp c).phase == .running || (s.hasp c).phase == .replaying))

/-- The steps that a packet starts, or that an adrift device derives from its own count, in a run tick of a context whose step has ended (R42, R63,
R387). -/
def State.packetStarts (s : State) (pkt : Option Bytes) : State :=
  match pkt with
  | some b => s.over (bitsOf 16 (u16 b 52)) (fun s c => s.stepStart c (pkVariant b c) true)
  | none => s.over (pick 16 (fun c => s.runSet.1.contains c && (s.hasp c).stepOpen && decide ((s.ctx c).perm.state < 2) && decide (s.stepLen c ≤ (s.hasp c).stepTick)))
      (fun s c => s.stepStart c (s.hasp c).variant false)

/-- Decides the run ticks (R386, R388, R393): plan clocks of the running wards, clashes, requests that a pause completes. -/
def State.decideRuns (s : State) : State :=
  let r := s.runSet
  let was := pick 16 (fun c => (s.hasp c).run)
  let s := s.over (List.range 16) (fun s c => if (s.hasp c).run == r.1.contains c then s else s.modHasp c (fun h => { h with run := r.1.contains c }))
  let s := s.over r.2 (fun s c => s.event (Reg.CTX_EVENT c) 5)
  let s := s.over (was.filter (fun c => !r.1.contains c)) (fun s c => s.failWaits c 5)
  s.modPwr (fun p => { p with plans := r.1.foldl (fun t c => (s.wardSet c).foldl (fun t w => tput t w (imgClock (s.ctx c).image)) t) p.plans })

/-- A rollback to the committed epoch makes its own run tick tick 0 of a fresh run (R81). -/
def State.rerunStarts (s : State) (old : State) (pkt : Option Bytes) : State :=
  match pkt with
  | none => s
  | some b =>
    let c := pkCtx b
    if (s.hasp c).run ∧ !(s.hasp c).stepOpen ∧ (old.hasp c).gen ≠ (s.hasp c).gen then s.stepStart c (pkVariant b c) true else s

/-- What the notices of the tick that ended make of the silence counts (R420, R421): an address that a silence notice names and no presence
notice clears counts on, others start again; the previous master counts while no presence notice names it. -/
def State.countSilence (s : State) : State :=
  let t := s.tick
  let k := t.now - 1
  let here := fun a => t.presence.contains (a, k)
  let watched := match t.watch with | some w => if w.2 ≤ k ∧ !here w.1 then [w.1] else [] | none => []
  let names := ((t.silence.filter (fun p => p.2 == k && !here p.1)).map (·.1) ++ watched).eraseDups
  s.modTick (fun t => { t with
    missCount := names.map (fun a => (a, tget (fun _ => 0) t.missCount a + 1))
    silence := t.silence.filter (fun p => decide (k < p.2))
    presence := t.presence.filter (fun p => decide (k < p.2)) })

/-- The fabric timebase at the boundary of tick `k` stands at k × P (R19, R57), in 1/65,536 ns. -/
def State.boundaryTime (s : State) (k : Nat) : Int := k * (s.regN Reg.TCK_PERIOD * 65536000)

/-- What the device removes of its offset in the tick that begins (R57, R59): an offset above 1 µs is stepped in the window; a smaller one is slewed, at most
10 parts in a million of the tick, and a device that comes back within 10 ns is no straggler any more. The tick master, and a root, follow nobody. The second
result says whether the device steps, and is adrift for the tick. -/
def State.stepTimebase (s : State) : State × Bool :=
  if s.syncParent.isNone then (s.modTick (fun t => { t with stepPending := none, slew := 0 }), false)
  else match s.tick.stepPending with
  | some o => ((s.modTick (fun t => { t with stepPending := none, slew := 0, timebase := t.timebase - o })).event Reg.TCK_EVENT 5, true)
  | none =>
    let o := s.tick.slew
    let most : Int := s.regN Reg.TCK_PERIOD * 65536000 * 10 / 1000000
    let d := max (-most) (min most o)
    let left := o - d
    (s.modTick (fun t => { t with
      slew := left, timebase := t.timebase - d
      offsetOk := t.offsetOk || (t.straggler && decide (left.natAbs ≤ 655360))
      straggler := t.straggler && !decide (left.natAbs ≤ 655360) }), false)

/-- What follows the run decision: reservations, tables published at tick L - 1, permute steps, failovers (R160, R201, R371, R372, R427). -/
def State.runBegin (s : State) (old : State) : State :=
  let s := if s.fabric.inForce.version = old.fabric.inForce.version then s else s.takeSeats old.fabric.inForce
  let s := s.over (List.range 16) (fun s c => (((s.permCheck c).permBegin c)).settleFailover c)
  let runs := pick 16 (fun c => (s.hasp c).run && (s.frameOf c).isSome)
  let s := s.over runs State.openReservations
  s.over (runs.filter (fun c => (s.hasp c).stepTick + 1 == s.stepLen c)) State.publish

/-- Commands, placement and steps of the tick that begins. -/
def State.takeEffect (s : State) : State :=
  let old := s
  let st := s.stepTimebase
  let s := st.1
  let pkt := if (s.tick.run = .running ∨ s.tick.run = .adrift) ∧ !st.2 then s.packetNow else none
  let adrift := pkt.isNone && s.tick.run != .aligning && decide (s.tick.firstTick + 2 ≤ s.tick.now)
  let s := if adrift then s.markAdrift else s.modTick (fun t => { t with adriftRun := 0, run := if t.run = .adrift then .running else t.run })
  let s := s.startPlacement
  let s := match pkt with
    | some b => (((s.modTick (fun t => { t with selector := BitVec.ofNat 64 (pkSelector b), powerCap := u16 b 30 })).switchPlacement (u16 b 28)).packetCmd b old.fabric.inForce)
    | none => s
  let did := committedIn old s
  let s := if did ∨ rolledIn old s ∨ !s.anyLoaded then s.allowedBoundary (did || !s.anyLoaded) else s
  if did ∧ s.clk.holdover then
    { s.stopTick with clk := { s.clk with holdStop := true } }.event Reg.CLK_EVENT 4
  else if pkt.isNone ∧ !adrift then s
  else
    let s := s.packetStarts pkt
    let s := (if adrift then s.withholdAll else s).decideRuns
    let s := s.rerunStarts old pkt
    s.runBegin old

/-- The start of a tick while the tick runs. -/
def State.beginTick (s : State) : State :=
  let old := s
  let evict := s.tick.evict
  let s := if s.tick.master then s.countSilence else s
  let s := s.over evict State.declareDead
  let s := s.modTick (fun t => { t with evict := [] })
  let s := if 3 ≤ s.tick.adriftRun ∨ s.tick.stopNext then s.stopTick else s.takeEffect
  let s := (s.everyBoundary.showCap).powerWindow
  let ran := (List.range 16).any (fun c => (s.hasp c).run)
  let s := (s.chooseRung (ran || (old.ownSpare && s.seated))).publishForecast
  let s := (s.over (List.range 17) State.ringDrain)
  let s := s.over (List.range 16) (fun s c => s.modCtx c (fun x => { x with acc := { x.acc with tickBase := x.acc.live } }))
  let s := s.over (List.range 16) (fun s c => s.notePhase c (old.hasp c).phase)
  if s.tick.run = .stopped then s
  else
    let s := if s.tick.now % 1024 = 0 ∧ s.tick.run ≠ .aligning then s.sendHellos else s
    (s.sendCredits.masterSend).tryReply false

/-- The start of a tick that no tick protocol runs. -/
def State.idleTick (s : State) : State :=
  let s := s.stepTimebase.1
  let s := if s.anyLoaded then s else s.allowedBoundary true
  ((s.everyBoundary.showCap).powerWindow.chooseRung false).publishForecast

/-- TICK_BOUNDARY (R19): tick `k` begins. A boundary of a tick that has begun changes nothing. -/
def execTickBoundary (k : Nat) (env : BoundaryEnv) (s : State) : Host.Outcome State Fault Refusal :=
  if k ≤ s.tick.now then .next s
  else
    let ran := s.tick.run = .running ∨ s.tick.run = .adrift
    let s := if ran then s.endTick env else s
    let s := s.modTick (fun t => { t with
      now := k, timebase := s.boundaryTime k, tree := some (s.reg Reg.TCK_TREE), primarySilent := decide ran && !t.primaryCopy, primaryCopy := false
      packets := t.packets.filter (fun p => decide (k ≤ p.1))
      passed := (t.packets.filter (fun p => decide (p.1 < k))).map (·.1) ++ (t.passed.filter (fun p => decide (k ≤ p + 4))) })
    let s := s.expireCredits env
    .next (if s.tick.run = .stopped then s.idleTick else s.beginTick)

end Sys2Proof.Machine
end

