-- ==== Sys2Proof/Machine/HostBase.lean ====
section
/-! DEFINITION. The host interface's shared operations: ring sets leaving service (R509, R531, R533), commands that begin in ring order (R518), packet headers and chains (R514 to R517), and fetching (R512, R522, R527). -/

namespace Sys2Proof.Machine

/-- A ring set leaves RUNNING or STARTING: it fetches nothing, its open chains are discarded, its indices return to 0, and what waits to be
written is held (R531, R532). -/
def State.disableRing (s : State) (fn : Nat) : State :=
  let r := s.ring fn
  let w := r.waitingOut
  let s := s.modRing fn (fun r =>
    { r with run := .disabled, reason := 0, stalled := false, chains := [], waitingOut := [], cmdHead := 0, kept := [], headOut := 0, cmdTail := 0, cplTail := 0, cplHead := 0,
             evtTail := 0, evtHead := 0, reserved := r.reserved - r.chains.length })
  s.over w (fun s e => s.holdEntry fn e)

/-- The ring set enters ERROR with a reason (R509, R512, R515, R530). -/
def State.ringError (s : State) (fn reason : Nat) : State :=
  (s.modRing fn (fun r => { r with run := .error, reason := reason })).event (Reg.RING_EVENT fn) 1

/-- The RING_ registers of a function return to their reset values (R531, R533). -/
def State.clearRingRegs (s : State) (fn : Nat) : State :=
  let s := { s with regs := s.regs.filter (fun p => decide (p.1 < ringBase fn ∨ ringBase fn + 0x8000 ≤ p.1)) }
  s.modRing fn (fun r => { r with unsignalled0 := 0, unsignalled1 := 0 })

/-- A live access unit or sensor frame left incomplete by a reset of the host interface is dropped and counted (R533). -/
def State.dropOpenMedia (s : State) (fn : Nat) : State :=
  let chains := (s.ring fn).chains
  let s := s.over chains (fun s x => if x.key1 % 65536 = 0x21 then s.count (Reg.MED_LIVE_DROPPED (x.key2.toNat % 64)) else s)
  s.over (List.range 64) (fun s st =>
    let f := tget (fun _ => {}) s.media.sensors st
    match f.cmd with
    | some (g, _) =>
      if f.openFrame && g == fn then { s with media := { s.media with sensors := tput s.media.sensors st {} } }.count (Reg.MED_SENS_DROPPED st) else s
    | none => s)

/-- What a reset of the host interface does to the ring set of one function (R533). -/
def State.resetRing (s : State) (fn : Nat) : State := ((s.dropOpenMedia fn).disableRing fn).clearRingRegs fn

/-- What a reset of the host interface does to every ring set, to the host arenas and to swapped slots (R305, R533). -/
def State.resetHost (s : State) : State :=
  let s := s.over (List.range 17) (fun s fn => s.resetRing fn)
  s.over (List.range 16) (fun s c => s.hostResetPool c)

/-- Whether work of an earlier command of a ring set is still in progress (R518): a wait, a load or start, a record in decode, a flush, a held flash request,
a forwarded fabric-manager command, a live picture. -/
def State.ringBusy (s : State) (fn : Nat) : Bool :=
  let f := fun (x : Option (Nat × HostCmd)) => (x.map (fun p => p.1 == fn)).getD false
  (List.range 16).any (fun c =>
      s.fnCtx fn == some c && ((s.ctx c).waits != [] || f (s.hasp c).startCmd || f (s.hasp c).loadCmd || (s.ctx c).ing.reading.any (fun r => f r.cmd))) ||
    s.flash.flushWaits.any (fun x => x.1 == fn) || s.flash.held.any (fun x => x.1 == fn) || s.fabric.requests.any (fun x => f x.cmd) ||
    s.media.streams.any (fun x => x.2.waiting.any (fun p => p.cmd.1 == fn)) || s.media.engines.any (fun x => f (x.2.current.map (fun p => p.cmd)))

/-- Takes a command off the list of those fetched, when it may begin: commands begin in ring order, and one with FENCE only after every
earlier command has finished its work (R518); one that moves data of the stacked DRAM, LPDDR or flash waits while the cap holds such work (R255, R574). A
command that is not in the list begins at once. -/
def State.takeCmd (s : State) (fn opcode : Nat) (cmd : HostCmd) : Option State :=
  let is := fun (x : Nat × HostCmd) => x.1 % 65536 == opcode && x.2 == cmd
  if (s.ring fn).ready.any is then
    match (s.ring fn).ready with
    | x :: t => if is x && (!bit x.1 16 || !s.ringBusy fn) && !(s.pwr.beHeld && [0x04, 0x05, 0x14, 0x15].contains opcode) then some (s.modRing fn (fun r => { r with ready := t })) else none
    | [] => none
  else some s

/-- A unit that was reset returns to service at a later boundary (R551). -/
def State.returnLater (s : State) (u : Nat) : State :=
  { s with rst := { s.rst with returning := s.rst.returning.filter (fun x => x != u) ++ [u] } }

/-- Runs a command of the admin ring; on a VF ring it completes with MALFORMED (R519). -/
def State.adminCmd (s : State) (fn opcode : Nat) (cmd : HostCmd) (f : State → State) : Host.Outcome State Fault Refusal :=
  match s.takeCmd fn opcode cmd with
  | none => .next s
  | some s => if fn = 0 then .next (f s) else .next (s.complete fn opcode cmd 7)

/-- Runs a command of a VF ring for its context; on the admin ring, or with no context, it completes with MALFORMED (R509, R520). -/
def State.vfCmd (s : State) (fn opcode : Nat) (cmd : HostCmd) (f : Nat → State → State) : Host.Outcome State Fault Refusal :=
  match s.takeCmd fn opcode cmd with
  | none => .next s
  | some s =>
    match s.fnCtx fn with
    | some c => .next (f c s)
    | none => .next (s.complete fn opcode cmd 7)

/-- Payload limit of an opcode's chain in bytes; 0 for an opcode of one packet (R519, R520). -/
def chainLimit (opcode : Nat) : Nat :=
  match opcode with
  | 0x0003 => 3146816
  | 0x0004 => 67108864
  | 0x0010 => 17179869184
  | 0x0015 => 17179869184
  | 0x0020 => 268435464
  | _ => 0

/-- Whether a ring takes an opcode: the admin table on ring 0, the context table on the others (R519, R520). -/
def opcodeOn (fn opcode : Nat) : Bool :=
  if fn = 0 then decide (1 ≤ opcode ∧ opcode ≤ 8)
  else opcode == 1 || decide (0x10 ≤ opcode ∧ opcode ≤ 0x16) || decide (0x20 ≤ opcode ∧ opcode ≤ 0x22)

/-- Key of a command packet (R516). -/
def packetKey (h : Bytes) : Nat × W64 :=
  let op := u16 h 0
  (op, BitVec.ofNat 64 (if op = 0x21 ∨ op = 0x22 then u64 h 16 else u64 h 8))

/-- Whether the header's check value and PLEN stand (R515). -/
def headerOk (h : Bytes) : Bool := u32 h 60 == crc32c (sliceZ h 0 60) && decide (u32 h 4 ≤ 65472)

/-- Whether the reserved fields are 0 (R9, R514). -/
def headerClean (h : Bytes) : Bool := decide (byteAt h 2 < 16) && byteAt h 3 == 0 && zeroAt h 48 12

/-- Granules of a command packet (R514). -/
def packetGranules (h : Bytes) : Nat := cdiv (64 + u32 h 4) 64

/-- The command that a FIRST packet opens. -/
def ringCmdOf (p : RingPacket) : HostCmd :=
  ⟨BitVec.ofNat 64 (u64 p.header 8), u64 p.header 16, u64 p.header 24, u64 p.header 32, u64 p.header 40, p.payload.take (u32 p.header 4), bit (byteAt p.header 2) 2⟩

/-- Whether a later packet repeats the arguments of its chain (R516). -/
def sameArgs (x : HostCmd) (h : Bytes) : Bool := u64 h 16 == x.arg0 && u64 h 24 == x.arg1 && u64 h 32 == x.arg2 && u64 h 40 == x.arg3

/-- Whether a stream named by a LIVE or SENSOR packet belongs to the context of the ring (R520). -/
def State.streamOf (s : State) (fn opcode st : Nat) : Bool :=
  decide (st < 64) && s.fnCtx fn == some (bits (s.regN (if opcode = 0x21 then Reg.MED_LIVE_CTRL st else Reg.MED_SENS_CTRL st)) 3 0)

/-- Appends a fetched command to those that wait to begin. -/
def State.readyCmd (s : State) (fn op : Nat) (cmd : HostCmd) : State := s.modRing fn (fun r => { r with ready := r.ready ++ [(op, cmd)] })

/-- Reserves a completion slot (R527). -/
def State.reserve (s : State) (fn : Nat) : State := s.modRing fn (fun r => { r with reserved := r.reserved + 1 })

/-- Whether a completion slot is free (R527). -/
def State.slotFree (s : State) (fn : Nat) : Bool :=
  let r := s.ring fn
  decide (r.cplTail - r.cplHead + r.reserved + 1 ≤ (s.ringSizes fn).2.1)

/-- Counts an orphan packet of an opcode, the last one fetched (R470, R517). -/
def State.orphan (s : State) (fn : Nat) (k : Nat × W64) : State :=
  if k.1 = 0x22 then s.count (Reg.MED_SENS_ORPHAN (k.2.toNat % 64))
  else
    let s := if k.1 = 0x20 then s.modRing fn (fun r => { r with kept := r.kept.dropLast }) else s
    (s.count (Reg.RING_ORPHAN fn)).event (Reg.RING_EVENT fn) 3

/-- Closes an open chain. -/
def State.closeChain (s : State) (fn : Nat) (k : Nat × W64) : State :=
  s.modRing fn (fun r => { r with chains := r.chains.filter (fun x => !(x.key1 == k.1 && x.key2 == k.2)) })

/-- Ends an open chain with a failure; packets of a sensor frame that have not begun are discarded with it. -/
def State.failChain (s : State) (fn : Nat) (x : Chain) (code : Nat) : State :=
  let s := s.closeChain fn (x.key1, x.key2)
  let s := if x.key1 = 0x22 then
      (s.modRing fn (fun r => { r with ready := r.ready.filter (fun y => !(y.1 % 65536 == 0x22 && y.2.arg0 == x.key2.toNat)) }))
    else s
  let s := if x.key1 = 0x22 then { s with media := { s.media with sensors := tput s.media.sensors (x.key2.toNat % 64) {} } } else s
  s.complete fn x.key1 x.first code

/-- A broken live chain: the access unit cut short is dropped and counted, and its following pictures up to the next random-access point
with it; its command completes OK (R470, R488, R520). -/
def State.cutLive (s : State) (fn : Nat) (x : Chain) : State :=
  let st := x.key2.toNat % 64
  let v := tget (fun _ => {}) s.media.streams st
  let s := { s with media := { s.media with streams := tput s.media.streams st { v with skipping := true } } }
  ((s.count (Reg.MED_LIVE_DROPPED st)).closeChain fn (x.key1, x.key2)).complete fn 0x21 x.first 0

/-- Opens a chain, or takes a whole command. -/
def State.openChain (s : State) (fn : Nat) (p : RingPacket) (k : Nat × W64) (fence : Nat) (last : Bool) : State :=
  let cmd := ringCmdOf p
  if !last && 128 ≤ (s.ring fn).chains.length then s.complete fn k.1 cmd 8
  else if chainLimit k.1 < cmd.payload.length ∧ chainLimit k.1 ≠ 0 then s.complete fn k.1 cmd 1
  else
    let s := if k.1 = 0x22 then s.readyCmd fn (0x22 + fence + 0x20000 + b2n last * 0x40000) cmd
      else if last then s.readyCmd fn (k.1 + fence) cmd else s
    if last then s else s.modRing fn (fun r => { r with chains := r.chains ++ [⟨k.1 + fence, k.2, cmd⟩] })

/-- Adds a later packet to its chain (R516, R517). The chain's key1 keeps FENCE in bit 16. -/
def State.extendChain (s : State) (fn : Nat) (p : RingPacket) (x : Chain) (last : Bool) : State :=
  let op := x.key1 % 65536
  let s' := s.closeChain fn (x.key1, x.key2)
  let x' := { x with first := { x.first with payload := x.first.payload ++ p.payload.take (u32 p.header 4) } }
  if !sameArgs x.first p.header then s.failChain fn { x with key1 := op } 7 |>.closeChain fn (x.key1, x.key2)
  else if op = 0x22 then
    let s := s.readyCmd fn (0x22 + b2n last * 0x40000) (ringCmdOf p)
    if last then s.closeChain fn (x.key1, x.key2) else s
  else if op ≠ 0x21 ∧ chainLimit op < x'.first.payload.length ∨ (op ≠ 0x21 ∧ chainLimit op = 0) then s'.complete fn op x.first 1
  else if last then s'.readyCmd fn x.key1 x'.first
  else s'.modRing fn (fun r => { r with chains := r.chains ++ [x'] })

/-- Takes one packet whose header stands; the slot it needs is free (R515 to R517, R520). -/
def State.takeRingPacket (s : State) (fn : Nat) (p : RingPacket) : State :=
  let h := p.header
  let k := packetKey h
  let first := bit (byteAt h 2) 0
  let last := bit (byteAt h 2) 1
  let fence := if bit (byteAt h 2) 3 then 0x10000 else 0
  let chain := (s.ring fn).chains.find? (fun x => x.key1 % 65536 == k.1 && x.key2 == k.2)
  let good := headerClean h && opcodeOn fn k.1 && (!(k.1 == 0x21 || k.1 == 0x22) || s.streamOf fn k.1 (u64 h 16))
  match good, chain, first with
  | false, some x, _ => (s.failChain fn { x with key1 := k.1 } 7).closeChain fn (x.key1, x.key2)
  | false, none, _ => (s.reserve fn).complete fn k.1 (ringCmdOf p) 7
  | true, none, true => (s.reserve fn).openChain fn p k fence last
  | true, none, false => s.orphan fn k
  | true, some x, true =>
    let s := if k.1 = 0x21 then s.cutLive fn x else if k.1 = 0x22 then s else s.complete fn k.1 x.first 7
    ((s.closeChain fn (x.key1, x.key2)).reserve fn).openChain fn p k fence last
  | true, some x, false => s.extendChain fn p x last

/-- Whether a RECORD packet must stay in its ring: ingest holds reading, or the deferred-effect queue is full (R522). -/
def State.recordHeld (s : State) (fn : Nat) : Bool :=
  match s.fnCtx fn with
  | some c => (s.ctx c).ing.pausedReading || decide (16384 ≤ (s.ctx c).effects.length)
  | none => false

/-- Whether fetching a packet needs a completion slot that none of its chain holds. -/
def State.needsSlot (s : State) (fn : Nat) (h : Bytes) : Bool :=
  let k := packetKey h
  bit (byteAt h 2) 0 || !((s.ring fn).chains.any (fun x => x.key1 % 65536 == k.1 && x.key2 == k.2))

/-- Fetches packets in ring order while the tail covers them, a slot is free and no RECORD is held (R512, R515, R522, R527). The entries of a RECORD stay
the device's until its completion (R462, R85). -/
def fetchGo (fn : Nat) : List RingPacket → State → State
  | [], s => s
  | p :: t, s =>
    let r := s.ring fn
    let h := p.header
    if r.run ≠ .running ∨ r.cmdTail < r.cmdHead + 1 then s
    else if !headerOk h then s.ringError fn 3
    else if r.cmdTail < r.cmdHead + packetGranules h then s
    else if (u16 h 0 = 0x20 ∧ s.recordHeld fn) ∨ (s.needsSlot fn h ∧ !s.slotFree fn) then s.modRing fn (fun r => { r with stalled := true })
    else
      let kept := if u16 h 0 = 0x20 then r.kept ++ [(r.cmdHead, BitVec.ofNat 64 (u64 h 8))] else r.kept
      let s := (s.countHost fn (64 * packetGranules h)).modRing fn (fun r => { r with cmdHead := r.cmdHead + packetGranules h, kept := kept })
      fetchGo fn t (s.takeRingPacket fn p)

end Sys2Proof.Machine
end

