-- ==== Sys2Proof/Machine/HostStore.lean ====
section
/-! DEFINITION. Ring commands on the flash store (R296 to R303, R519) and on a context's state (R73, R92, R520, R521). -/

namespace Sys2Proof.Machine

/-- A flash command runs once the store is mounted: held until then, UNIT_GONE after a failed mount (R303). -/
def State.flashCmd (s : State) (fn opcode : Nat) (cmd : HostCmd) (bad : Bool) (f : State → State) : State :=
  if s.flash.mount < 2 then { s with flash := { s.flash with held := s.flash.held ++ [(fn, opcode, cmd, bad)] } }
  else if s.flash.mount = 3 then s.complete fn opcode cmd 2 else f s

/-- FLASH_WRITE on a mounted store (R297, R300 to R302). -/
def State.flashWriteNow (s : State) (fn : Nat) (cmd : HostCmd) : State :=
  let n := cmd.payload.length
  if n = 0 ∨ n % 4096 ≠ 0 then s.complete fn 4 cmd 7
  else
    let bs := (List.range (n / 4096)).map (fun i => (cmd.arg0 + i, slice cmd.payload (4096 * i) 4096))
    if s.flashBlocks < cmd.arg0 + n / 4096 then s.complete fn 4 cmd 8
    else
      let code := s.flashRefusal
      if code ≠ 0 then (s.eventIf (code == 8 && !s.flash.readOnly) Reg.MEM_FL_EVENT 0).complete fn 4 cmd code
      else
        let p := acceptGo bs s
        if p.2 then p.1.complete fn 4 cmd 0 else (p.1.event Reg.MEM_FL_EVENT 0).complete fn 4 cmd 8

/-- FLASH_READ on a mounted store (R297, R302): the newest accepted content as DATA, or CHECK_MISMATCH with a history record of a die. -/
def State.flashReadNow (s : State) (fn : Nat) (cmd : HostCmd) (bad : Bool) : State :=
  if cmd.arg1 = 0 ∨ 16384 < cmd.arg1 ∨ s.flashBlocks < cmd.arg0 + cmd.arg1 then s.complete fn 5 cmd 7
  else
    let bs := (List.range cmd.arg1).map (fun i => cmd.arg0 + i)
    let s := s.countReads bs
    if bad ∨ s.flashLost bs then s.flashUnrecoverable (cmd.arg0) |>.complete fn 5 cmd 11
    else (s.replyData fn cmd.id (s.flashRead (cmd.arg0 * 4096) (cmd.arg1 * 4096))).completeR fn 5 cmd 0 (cmd.arg1 * 4096)

/-- FLASH_TRIM on a mounted store (R302): the blocks are unmapped and read as zeros. -/
def State.flashTrimNow (s : State) (fn : Nat) (cmd : HostCmd) : State :=
  if s.flashBlocks < cmd.arg0 + cmd.arg1 then s.complete fn 6 cmd 7
  else
    let isIn := fun (b : Nat) => decide (cmd.arg0 ≤ b ∧ b < cmd.arg0 + cmd.arg1)
    let gone := ((s.flash.cache.map (·.1)).filter isIn).eraseDups
    let front := (s.flash.cache.head?.map (fun e => isIn e.1)).getD false
    let s := { s with flash := { s.flash with cache := s.flash.cache.filter (fun e => !isIn e.1), durable := s.flash.durable.filter (fun e => !isIn e.1),
                                              reads := s.flash.reads.filter (fun e => !isIn e.1), lost := s.flash.lost.filter (fun b => !isIn b),
                                              busy := s.flash.busy && !front } }.nextFlush
    (s.over gone (fun s b => s.settleFlushes true b)).complete fn 6 cmd 0

/-- FLASH_FLUSH on a mounted store (R298): completes when every block accepted before it is durable. -/
def State.flashFlushNow (s : State) (fn : Nat) (cmd : HostCmd) : State :=
  let bs := s.flash.cache.map (·.1)
  if bs = [] then s.complete fn 7 cmd 0
  else { s with flash := { s.flash with flushWaits := s.flash.flushWaits ++ [(fn, cmd, bs)] } }

/-- FLASH_FORMAT on a mounted store (R296, R301): every block erased, OVERPROV in force. -/
def State.flashFormatNow (s : State) (fn : Nat) (cmd : HostCmd) : State :=
  if s.anyLoaded then s.complete fn 8 cmd 7
  else if s.inhibited then s.complete fn 8 cmd 10
  else
    let w := s.flash.flushWaits
    let s := { s with flash := { s.flash with cache := [], busy := false, durable := [], dies := [], reads := [], lost := [], flushWaits := [], overprov := clamp 70 280 (s.regN Reg.MEM_FL_CTRL % 1024) } }
    (s.over w (fun s e => s.complete e.1 7 e.2.1 0)).complete fn 8 cmd 0

/-- A flash command by its opcode. -/
def State.flashNow (s : State) (fn opcode : Nat) (cmd : HostCmd) (bad : Bool) : State :=
  match opcode with
  | 4 => s.flashWriteNow fn cmd
  | 5 => s.flashReadNow fn cmd bad
  | 6 => s.flashTrimNow fn cmd
  | 7 => s.flashFlushNow fn cmd
  | _ => s.flashFormatNow fn cmd

/-- The store has mounted, or its mount has failed: what was held runs in order (R303). -/
def State.mountDone (s : State) (ok : Bool) : State :=
  let h := s.flash.held
  let s := { s with flash := { s.flash with mount := if ok then 2 else 3, held := [] } }.nextFlush
  s.over h (fun s e => s.flashCmd e.1 e.2.1 e.2.2.1 e.2.2.2 (fun s => s.flashNow e.1 e.2.1 e.2.2.1 e.2.2.2))

/-- FLASH_WRITE (R519). -/
def execFlashWrite (fn : Fin 17) (cmd : HostCmd) (s : State) : Host.Outcome State Fault Refusal :=
  s.adminCmd fn 4 cmd (fun s => s.flashCmd fn 4 cmd false (fun s => s.flashWriteNow fn cmd))
/-- FLASH_READ (R519). -/
def execFlashRead (fn : Fin 17) (cmd : HostCmd) (bad : Bool) (s : State) : Host.Outcome State Fault Refusal :=
  s.adminCmd fn 5 cmd (fun s => s.flashCmd fn 5 cmd bad (fun s => s.flashReadNow fn cmd bad))
/-- FLASH_TRIM (R519). -/
def execFlashTrim (fn : Fin 17) (cmd : HostCmd) (s : State) : Host.Outcome State Fault Refusal :=
  s.adminCmd fn 6 cmd (fun s => s.flashCmd fn 6 cmd false (fun s => s.flashTrimNow fn cmd))
/-- FLASH_FLUSH (R519). -/
def execFlashFlush (fn : Fin 17) (cmd : HostCmd) (s : State) : Host.Outcome State Fault Refusal :=
  s.adminCmd fn 7 cmd (fun s => s.flashCmd fn 7 cmd false (fun s => s.flashFlushNow fn cmd))
/-- FLASH_FORMAT (R519). -/
def execFlashFormat (fn : Fin 17) (cmd : HostCmd) (s : State) : Host.Outcome State Fault Refusal :=
  s.adminCmd fn 8 cmd (fun s => s.flashCmd fn 8 cmd false (fun s => s.flashFormatNow fn cmd))

/-! State of a context. -/

/-- The wards whose stores a host access to space 1 reaches; one entry for the shared stores. -/
def State.hostUnits (s : State) (c space : Nat) : List Nat := if space = 1 then bitsOf 16 (s.regN (Reg.CTX_WARDS c)) else [0]

/-- Whether the state that a host reads is behind a rollback (R92). -/
def State.rewinding (s : State) (c : Nat) : Bool := (s.hasp c).under == .restoring || (s.hasp c).under == .replaying

/-- Whether an extent meets an arena region of the loaded plan (R521). -/
def State.meetsArena (s : State) (c space a n : Nat) : Bool :=
  s.loaded c && (s.versionRegions c).any (fun l => l.space == space && ([0, 1].any (fun h => decide (a < l.halfAt h + l.size ∧ l.halfAt h < a + n))))

/-- Whether an extent lies in half 0 of an arena region (R521). -/
def State.inArena (s : State) (c space a n vs : Nat) : Bool :=
  s.loaded c && (s.arenas c).any (fun l => l.space == space && l.half == vs && decide (l.base ≤ a ∧ a + n ≤ l.base + l.size))

/-- Reads of a context's spaces by the host: bytes of the lowest ward in space 1. -/
def State.hostRead (s : State) (c space a n : Nat) : Bytes := s.rd c space ((s.hostUnits c space).headD 0) a n

/-- STATE_READ (R73, R92, R520, R521): the committed half for VERSIONED; CHECK_MISMATCH after an error that no code corrects (R102, R267, R287), a fenced row
(R272) or an adapter miss, which sets ADP_MISS (R290); UNIT_GONE for a ward out of service (R551). -/
def execStateRead (fn : Fin 17) (cmd : HostCmd) (errs : ReadErrs) (s : State) : Host.Outcome State Fault Refusal :=
  s.vfCmd fn 0x14 cmd (fun c s =>
    let sp := cmd.arg0 % 16
    let n := cmd.arg2
    let ver := bit cmd.arg3 0
    let vs := cmd.arg3 / 2 ^ 32
    let a := if ver then cmd.arg1 + (s.hasp c).epoch % 2 * vs * 64 else cmd.arg1
    let fail := fun (code : Nat) => s.complete fn 0x14 cmd code
    if !(sp == 1 || sp == 3 || sp == 4) ∨ n = 0 ∨ 16777216 < n then fail 7
    else if (s.ctx c).adm ≠ .keyed ∨ !s.inPart c sp a n then fail 8
    else if ver ∧ s.rewinding c then fail 4
    else if ver ∧ !s.inArena c sp cmd.arg1 n vs then fail 7
    else if !ver ∧ s.meetsArena c sp cmd.arg1 n then fail 4
    else if sp = 1 ∧ s.wardGone ((s.hostUnits c 1).headD 0) then fail 2
    else
      let bad := s.readsPoison c [⟨sp, (s.hostUnits c sp).headD 0, a, n⟩] || s.readFails errs
      let s := (s.eventIf (s.adpMiss c sp a n) (Reg.MEM_ADP_EVENT c) 1).escapeBytes errs.dram
      let s := s.noteErrs errs
      let s := s.countTier c sp n
      if bad then s.complete fn 0x14 cmd 11
      else (s.replyData fn cmd.id (s.hostRead c sp a n)).completeR fn 0x14 cmd 0 n)

/-- STATE_WRITE (R520): only while STOPPED; into space 1 it reaches every ward of the context. A write to an adapter slot that no frame holds is suppressed
and poisons its destination (R290). -/
def execStateWrite (fn : Fin 17) (cmd : HostCmd) (s : State) : Host.Outcome State Fault Refusal :=
  s.vfCmd fn 0x15 cmd (fun c s =>
    let sp := cmd.arg0
    let n := cmd.payload.length
    if !(sp == 1 || sp == 3 || sp == 4) ∨ n = 0 ∨ (s.hasp c).phase ≠ .stopped then s.complete fn 0x15 cmd 7
    else if (s.ctx c).adm ≠ .keyed ∨ !s.inPart c sp cmd.arg1 n then s.complete fn 0x15 cmd 8
    else if sp = 1 ∧ (s.hostUnits c 1).any s.wardGone then s.complete fn 0x15 cmd 2
    else
      let s := s.countTier c sp n
      let s := s.over (s.hostUnits c sp) (fun s u => if s.adpMiss c sp cmd.arg1 n then s.wr c sp u cmd.arg1 cmd.payload
        else (s.wrRaw c sp u cmd.arg1 cmd.payload).dirty c sp u cmd.arg1 n)
      s.complete fn 0x15 cmd 0)

end Sys2Proof.Machine
end

