-- ==== Sys2Proof/Machine/Reset.lean ====
section
/-! DEFINITION. Resets (R535 to R552): what each scope clears and keeps, the stretch and RESET_N, ward resets; and the reference clocks (R553 to R558). -/

namespace Sys2Proof.Machine

/-! What a reset clears. -/

/-- Registers that a cold or device reset keeps (R538). -/
def keptReg (cold : Bool) (off : Nat) : Bool :=
  [Reg.RST_CAUSE, Reg.RST_COUNT, Reg.RST_STRETCH].contains off || (!cold && [Reg.MEM_STK_CTRL, Reg.MEM_LP_CTRL].contains off)

/-- The reset sequencing state right after a reset of cold or device scope begins. -/
def Reset.begun (r : Reset) (cold trip : Bool) : Reset :=
  { active := true, cold := cold, external := false, driven := true, tripHold := trip, assertions := r.assertions, storm := r.storm,
    slotId := r.slotId, hostReset := r.hostReset, lastScope := if cold then 0 else 1 }

/-- What the checker keeps: the history store always; in device scope also what the management controller holds (R448, R537, R604). -/
def Checker.kept (k : Checker) (cold : Bool) : Checker :=
  let c : Checker := { history := k.history, nextSeq := k.nextSeq, classes := k.classes, cleared := k.cleared }
  if cold then c
  else { c with queue := k.queue, actions := k.actions, disagreements := k.disagreements, corrections := k.corrections, mgmtMaps := k.mgmtMaps }

/-- What the management controller keeps: everything in device scope; in cold scope its installed firmware and the count of power-ons (R537, R596,
R597). -/
def Mgmt.kept (m : Mgmt) (cold : Bool) : Mgmt :=
  if cold then { verified := m.verified, inUse := m.inUse, restarting := m.restarting, boot := m.boot } else m

/-- What the power unit keeps: RAIL_EN, the set point of VDD_CORE, and what the supply and SHED_N show (R569, R576, R624, R625). -/
def Power.kept (p : Power) (cold : Bool) : Power :=
  { railEn := p.railEn, vdd := p.vdd, shed := p.shed, hold := !cold && p.hold, stage := if cold then 0 else p.stage, samples := if cold then [] else p.samples }

/-- Clears what a cold or device reset clears (R537, R538), keeping retained memories (R274, R288). -/
def State.clearDevice (s : State) (cold keepStack keepLp : Bool) : State :=
  { s with
    regs := s.regs.filter (fun p => keptReg cold p.1)
    latches := []
    tick := {}
    ctxs := []
    units := []
    links := []
    fabric := {}
    poison := []
    bolts := []
    rings := []
    media := {}
    stores := { s.stores with tiles := [], wards := [], staging := [], dram := if keepStack then s.stores.dram else [], lpddr := if keepLp then s.stores.lpddr else [] }
    stack := { selfRefresh := keepStack, valid := keepStack, refreshFloor := !cold && (s.reg Reg.MEM_STK_CTRL).getLsbD 1 }
    lp := { selfRefresh := keepLp, valid := keepLp }
    flash := { s.flash with mount := 0, busy := false, cache := if keepLp then s.flash.cache else [], flushWaits := [], held := [] }
    chk := s.chk.kept cold
    mgmt := s.mgmt.kept cold
    opt := if cold then {} else s.opt
    clk := { aOk := s.clk.aOk, bOk := s.clk.bOk, pcieOk := s.clk.pcieOk }
    pwr := s.pwr.kept cold }

/-- Assertions that began within the second before `now`, in µs (R546). -/
def recentAsserts (l : List Nat) (now : Nat) : List Nat := l.filter (fun t => decide (now - t < 1000000))

/-- Counts an assertion of cold or device scope (R546). -/
def State.countAssertion (s : State) (now : Nat) : State :=
  let l := recentAsserts s.rst.assertions now ++ [now]
  let s := (s.count Reg.RST_COUNT).eventIf (decide (16 ≤ l.length)) Reg.RST_CAUSE 10
  { s with rst := { s.rst with assertions := l } }

/-- A reset of cold or device scope begins (R535, R537, R541, R544): its cause, the count, the clearing, RESET_N driven low. -/
def State.beginReset (s : State) (cause : List Nat) (cold trip : Bool) (now : Nat) : State :=
  let s := s.over cause (fun s i => s.event Reg.RST_CAUSE i)
  let s := (s.countAssertion now).eventIf (s.rst.phase == 2 && !s.rst.failed) Reg.RST_CAUSE 11
  let retains := !cold && !trip
  let keepStack := retains && (s.reg Reg.MEM_STK_CTRL).getLsbD 0 && s.stack.valid
  let keepLp := retains && (s.reg Reg.MEM_LP_CTRL).getLsbD 0 && s.lp.valid
  let asked := retains && (s.reg Reg.MEM_LP_CTRL).getLsbD 0
  let r := s.rst
  let s := s.clearDevice cold keepStack keepLp
  let s := { s with rst := r.begun cold (trip || (r.active && r.tripHold)), lp := { s.lp with afterRetain := asked } }
  let s := (if r.driven && r.active then s else s.emit (.pin 0 false))
  let s := if trip then s.emit (.pin 2 false) else s
  if cold then s else s.platformEvent 3 (s.regN Reg.RST_CAUSE)

/-- The reset of the host interface by a scope byte (R533, R537). -/
def State.hostScope (s : State) : State :=
  let s := (s.resetHost.setRegN Reg.RST_HOST_GEN ((s.regN Reg.RST_HOST_GEN + 1) % 256)).returnLater 18
  { s with rst := { s.rst with lastScope := 2 } }

/-- Whether a ward reset is accepted (R550). -/
def State.wardResetOk (s : State) (w : Nat) : Bool :=
  (s.tileMap w).pending.isNone && !(List.range 16).any (fun c => s.loaded c && (s.reg (Reg.CTX_WARDS c)).getLsbD w)

/-- A ward reset is accepted: it begins at the next boundary (R552). -/
def State.wardScope (s : State) (w : Nat) : State :=
  { s with rst := { s.rst with lastScope := 3, wardPending := s.rst.wardPending.filter (fun x => x != w) ++ [w] } }

/-- Whether a scope byte is legal (R536). -/
def scopeOk (b : Nat) : Bool := decide (b < 64) && (b % 4 == 3 || b / 4 == 0)

/-- What a legal scope byte does, with the cause bit of its source, if it has one; a ward reset must have been accepted (R535 to R537). -/
def State.resetScope (s : State) (b : Nat) (cause : List Nat) (now : Nat) : State :=
  match b % 4 with
  | 0 => s.beginReset cause true false now
  | 1 => s.beginReset cause false false now
  | 2 => s.hostScope |>.over cause (fun s i => s.event Reg.RST_CAUSE i)
  | _ => s.wardScope (b / 4) |>.over cause (fun s i => s.event Reg.RST_CAUSE i)

/-! The reset commands. -/

/-- POWER_ON (R535, R543, R563, R625): everything but what non-volatile memories hold is at its reset value; RAIL_EN rises. -/
def execPowerOn (s : State) : Host.Outcome State Fault Refusal :=
  let s := s.clearDevice true false false
  let s := { s with regs := [], rst := { active := true, cold := true, driven := true }, clk := {}, mgmt := { s.mgmt with boot := s.mgmt.boot + 1, restarting := false },
                    pwr := { railEn := true } }
  .next ((s.emit (.pin 0 false)).emit (.pin 1 true))

/-- RESET_N_ASSERT (R535, R541): seen only while the device does not drive the pin; a pin that holds a reset in force counts no new assertion. -/
def execResetNAssert (now : Nat) (s : State) : Host.Outcome State Fault Refusal :=
  if s.rst.active then .next s else .next (s.beginReset [2] false false now)

/-- RESET_N_RELEASE (R541): after an outside hold the stretch runs again with the device driving. -/
def execResetNRelease (s : State) : Host.Outcome State Fault Refusal :=
  if s.rst.active ∧ s.rst.external then .next ({ s with rst := { s.rst with external := false, driven := true } }.emit (.pin 0 false)) else .next s

/-- STRETCH_EXPIRY (R541, R546): RESET_N is released and sampled; low, an outside source holds it; high, the reset ends and bring-up begins at supply
qualify. -/
def execStretchExpiry (now : Nat) (pinHigh : Bool) (s : State) : Host.Outcome State Fault Refusal :=
  if !s.rst.active ∨ s.rst.tripHold ∨ !s.rst.driven then .next s
  else
    let s := s.emit (.pin 0 true)
    if pinHigh then
      let hold := decide (16 ≤ (recentAsserts s.rst.assertions now).length)
      .next { s with rst := { s.rst with active := false, driven := false, external := false, phase := 1, holdLinks := hold } }
    else .next ({ s with rst := { s.rst with external := true, driven := false } }.event Reg.RST_CAUSE 2)

/-- RESET_HELD (R545): RESET_N held from outside for 10 s. -/
def execResetHeld (s : State) : Host.Outcome State Fault Refusal :=
  if s.rst.active ∧ s.rst.external then .next ((s.event Reg.RST_CAUSE 9).platformEvent 1 0) else .next s

/-- RST_CMD (R536, R550, R560): KEY and scope byte, no cause bit (R535). -/
def execRstCmd (v : W32) (now : Nat) (s : State) : Host.Outcome State Fault Refusal :=
  let n := v.toNat
  let b := n % 256
  if n / 65536 ≠ 0xA5C3 ∨ !scopeOk b then .next (s.event Reg.RST_EVENT 0)
  else if b % 4 = 3 ∧ !s.wardResetOk (b / 4) then .next (s.event Reg.RST_EVENT 1)
  else .next (s.resetScope b [] now)

/-- WATCHDOG_EXPIRY (R592): nothing while the controller restarts (R601). -/
def execWatchdogExpiry (now : Nat) (s : State) : Host.Outcome State Fault Refusal :=
  if s.mgmt.restarting then .next s else .next (s.beginReset [6] false false now)

/-- FATAL_ESCALATION (R539). -/
def execFatalEscalation (now : Nat) (s : State) : Host.Outcome State Fault Refusal := .next (s.beginReset [8] false false now)

/-- PLL_LOCK_TIMEOUT (R539): a PLL has not regained lock within 100 µs. -/
def execPllLockTimeout (now : Nat) (s : State) : Host.Outcome State Fault Refusal := .next (s.beginReset [8] false false now)

/-- WARD_RESET_COMPLETE (R165, R552): the ward's tile stores and ward store hold zeros, its bolts are 0, its engine's accumulators and its tiles' digest
slots clear; the ward returns at a later boundary (R551). -/
def execWardResetComplete (w : Fin 16) (s : State) : Host.Outcome State Fault Refusal :=
  if !s.rst.wardBusy.contains w.val then .next s
  else
    let s := { s with
      stores := { s.stores with tiles := s.stores.tiles.filter (fun p => p.1 / 17 != w.val), wards := s.stores.wards.filter (fun p => p.1 != w.val) }
      bolts := s.bolts.filter (fun p => p.1 / 4096 != w.val)
      units := tmap (fun u (x : UnitSt) => if (if u < 256 then u / 16 else u % 16) = w.val then { x with digests := [] } else x) s.units
      ctxs := tmap (fun (_ : Nat) (x : Ctx) => { x with accum := x.accum.filter (fun p => p.1 != w.val) }) s.ctxs
      rst := { s.rst with wardBusy := s.rst.wardBusy.filter (fun x => x != w.val) } }
    .next (s.returnLater w)

/-! Clocks. -/

/-- Ends holdover on a reference that has become good (R556). How long it lasted is a free value (log entry 2). -/
def State.leaveHoldover (s : State) (source : Nat) : State :=
  if s.clk.holdover then
    let d := s.draw
    let s := d.2.setReg Reg.CLK_HOLD_MS (Config.freeWord d.1)
    ({ s with clk := { s.clk with holdover := false, source := source } }.event Reg.CLK_EVENT 2).platformEvent 2 0
  else s

/-- REFCLK_FAIL (R554 to R556): the other reference takes over, or the device holds over on its oscillator; during bring-up there is no holdover
(R557). -/
def execRefclkFail (r : RefClk) (s : State) : Host.Outcome State Fault Refusal :=
  let k := s.clk
  let a := decide (r = .a)
  let was := if a then k.aOk else k.bOk
  if !was then .next s
  else
    let s := { s with clk := if a then { k with aOk := false } else { k with bOk := false } }.event Reg.CLK_EVENT (if a then 0 else 1)
    if s.clk.source ≠ (if a then 0 else 1) ∨ s.clk.holdover then .next s
    else if (if a then s.clk.bOk else s.clk.aOk) then
      .next ({ s with clk := { s.clk with source := if a then 1 else 0 } }.event Reg.CLK_EVENT 2)
    else if s.rst.active ∨ s.rst.phase < 10 then .next s
    else .next (({ s with clk := { s.clk with source := 2, holdover := true } }.event Reg.CLK_EVENT 3).platformEvent 2 1)

/-- REFCLK_RECOVER (R554, R556). -/
def execRefclkRecover (r : RefClk) (s : State) : Host.Outcome State Fault Refusal :=
  match r with
  | .a => .next ({ s with clk := { s.clk with aOk := true } }.leaveHoldover 0)
  | .b => .next ({ s with clk := { s.clk with bOk := true } }.leaveHoldover 1)

/-- CLK_SELECT (R555): a requested switch takes place only to a good reference. -/
def execClkSelect (v : W32) (s : State) : Host.Outcome State Fault Refusal :=
  let n := v.toNat % 2
  let s := s.setRegN Reg.CLK_CTRL n
  if !(if n = 0 then s.clk.aOk else s.clk.bOk) then .next (s.event Reg.CLK_EVENT 6)
  else if s.clk.source = n then .next s
  else .next ({ s with clk := { s.clk with source := n } }.event Reg.CLK_EVENT 2)

/-- PCIE_REFCLK_FAIL (R558): the ring sets act as R533 states, with no cause bit. -/
def execPcieRefclkFail (s : State) : Host.Outcome State Fault Refusal :=
  .next ({ s.resetHost with clk := { s.clk with pcieOk := false } }.event Reg.CLK_EVENT 5)

end Sys2Proof.Machine
end

