-- ==== Sys2Proof/Machine/PowerCmds.lean ====
section
/-! DEFINITION. Power, thermal and supply commands (R564 to R588, R625, R626): the ladder, supply sense, load shed, the governor, temperature samples, and the end of a holdover (R556). -/

namespace Sys2Proof.Machine

/-! The ladder. -/

/-- The conditions of R566 for a rung. -/
def State.rungOk (s : State) (t : Nat) : Bool :=
  let ctxs := List.range 16
  let l2 := ctxs.all (fun c => (s.seatOf c).isNone) && !s.tick.master && !s.tick.deputy && s.regN Reg.TCK_CHILD == 0 && s.regN Reg.TCK_BACKUP_CHILD == 0 &&
    ctxs.all (fun c => !s.loaded c || (s.hasp c).phase == .stopped)
  let l4 := ctxs.all (fun c => !s.held c) && s.flash.cache.isEmpty && s.chk.queue.isEmpty
  match t with
  | 0 => true
  | 1 => true
  | 2 => l2
  | 3 => l2 && !s.anyLoaded
  | _ => l2 && !s.anyLoaded && l4

/-- Both external memories in self-refresh, as every rung from L2 down has them (R566). -/
def State.selfRefreshed (s : State) : State := { s with stack := { s.stack with selfRefresh := true }, lp := { s.lp with selfRefresh := true } }

/-- What L3 loses: the contents of the tile stores, the ward stores and the staging memory (R566). -/
def State.sramLost (s : State) : State := { s with stores := { s.stores with tiles := [], wards := [], staging := [] } }

/-- What L4 takes off: everything but the management domain; the VDD_CORE regulator starts at 0.75 V again (R566, R624, R625). -/
def State.railsOff (s : State) : State := ((s.clearDevice false false false).modPwr (fun p => { p with railEn := false, vdd := 750 })).emit (.pin 1 false)

/-- Enters L2, L3 or L4 (R564, R566, R567, R625): the tick is STOPPED; L3 loses the SRAM and takes PCIe down; L4 keeps the management domain only. -/
def State.enterRung (s : State) (t : Nat) : State :=
  let s := s.stopTick.selfRefreshed
  let s := if 3 ≤ t then s.resetHost.sramLost else s
  let s := if t = 4 then s.railsOff else s
  (s.setRegN Reg.PWR_LADDER t).modPwr (fun p => { p with rung := t })

/-- Leaves L2 or L3 for Poised, or L4 for a bring-up with TARGET 0 (R564, R567, R568, R625). -/
def State.leaveRung (s : State) (t : Nat) : State :=
  if s.pwr.rung = 4 then
    let s := (s.setRegN Reg.PWR_LADDER 0).modPwr (fun p => { p with rung := 1, railEn := true })
    { s with rst := { s.rst with phase := 1, failed := false } }.emit (.pin 1 true)
  else
    let s := { s with stack := { s.stack with selfRefresh := false }, lp := { s.lp with selfRefresh := false } }
    (s.setRegN Reg.PWR_LADDER t).modPwr (fun p => { p with rung := 1 })

/-- A write of TARGET (R566, R568): L3 and L4 are left by the management message only. -/
def State.setTarget (s : State) (t : Nat) (mgmt : Bool) : State :=
  let r := s.pwr.rung
  if 3 ≤ r ∧ !mgmt then s
  else if 2 ≤ r ∧ t < r then
    let s := s.leaveRung t
    if 2 ≤ t ∧ r ≠ 4 then s.enterRung t else s
  else if r = t ∧ 2 ≤ r then s
  else if !s.rungOk t then s.event Reg.PWR_EVENT 0
  else if 2 ≤ t then s.enterRung t
  else s.setRegN Reg.PWR_LADDER t

/-- PWR_LADDER_WRITE (R566): a TARGET above 4 is clamped (R586). -/
def execPwrLadderWrite (v : W32) (s : State) : Host.Outcome State Fault Refusal :=
  let t := v.toNat % 8
  .next ((s.eventIf (decide (4 < t)) Reg.PWR_EVENT 8).setTarget (min 4 t) false)

/-! Supply. -/

/-- The four thresholds in mV: Inhibit, Throttle, Hold, Brown-out (R570, R588). -/
def State.vinThresholds (s : State) : Nat × Nat × Nat × Nat :=
  let v := s.regN Reg.PWR_VIN_THRESH
  (bits v 31 24 * 250, bits v 23 16 * 250, bits v 15 8 * 250, bits v 7 0 * 250)

/-- The stage of a mean in mV; 4 is brown-out (R570). -/
def State.vinStage (s : State) (mean : Nat) : Nat :=
  let t := s.vinThresholds
  if mean < t.2.2.2 then 4 else if mean < t.2.2.1 then 3 else if mean < t.2.1 then 2 else if mean < t.1 then 1 else 0

/-- Mean of the supply samples held, in mV. -/
def State.vinMean (s : State) : Nat := (s.pwr.samples.foldl (· + ·) 0) / max 1 s.pwr.samples.length

/-- Enters a deeper stage, with what the stages on the way report (R570, R571). -/
def State.enterStage (s : State) (g : Nat) : State :=
  let old := s.pwr.stage
  if g ≤ old then s
  else
    let s := ((s.eventIf (old == 0) Reg.PWR_EVENT 1).eventIf (decide (old < 2 ∧ 2 ≤ g)) Reg.PWR_EVENT 2).eventIf (decide (old < 3 ∧ 3 ≤ g)) Reg.PWR_EVENT 3
    (s.modPwr (fun p => { p with stage := g, hold := p.hold || decide (3 ≤ g), holdReady := p.holdReady || decide (3 ≤ g) })).showCap

/-- VIN_SAMPLE (R569, R570): VIN_SENSE in mV; the mean of the last four samples decides the stage; brown-out is a cold reset (R535). -/
def execVinSample (mv : Nat) (now : Nat) (s : State) : Host.Outcome State Fault Refusal :=
  let bus := mv * (s.regN Reg.PWR_VIN_RATIO % 65536) / 1000
  let l := s.pwr.samples ++ [bus]
  let s := (s.setRegN Reg.PWR_VIN (min 65535 (bus / 10))).modPwr (fun p => { p with samples := l.drop (l.length - 4) })
  if s.pwr.samples.length < 4 then .next s
  else
    let g := s.vinStage s.vinMean
    if g = 4 then .next (s.beginReset [1] true false now) else .next (s.enterStage g)

/-- The deferred effects of committed epochs in every context's queue, in the order in which the device queued them (R570). -/
def State.dueAll (s : State) : List (Nat × Nat) :=
  sortBy (fun a b => decide (a.2 ≤ b.2)) ((pick 16 s.held).map s.dueEffects).flatten

/-- Retries the writes that the supply held, in the order in which they were queued (R87, R450, R570): those of the history store and those of the flash
store, which are two media (DEDUCED, log entry 66). -/
def State.retryHeld (s : State) : State :=
  let q := s.chk.queue
  let s := if s.mgmt.restarting then s else { s with chk := { s.chk with history := s.chk.history ++ q, queue := [] } }
  let s := s.nextFlush
  (s.over s.dueAll State.releaseOne).over (List.range 16) (fun s c => if s.held c then s.pumpDurable c else s)

/-- SUPPLY_STAGE_RECOVER (R570, R571): the deepest stage is left, when the mean stands 1 V above its threshold. -/
def execSupplyStageRecover (s : State) : Host.Outcome State Fault Refusal :=
  let t := s.vinThresholds
  let g := s.pwr.stage
  let limit := if g = 3 then t.2.2.1 else if g = 2 then t.2.1 else t.1
  if g = 0 ∨ s.vinMean < limit + 1000 then .next s
  else
    let s := (s.modPwr (fun p => { p with stage := g - 1, hold := p.hold && decide (g ≠ 3) })).showCap
    .next (if g = 1 then s.retryHeld else s)

/-- RAIL_TIMEOUT (R625): supply qualify fails, and RAIL_EN falls. -/
def execRailTimeout (s : State) : Host.Outcome State Fault Refusal :=
  if s.rst.phase ≠ 1 ∨ s.rst.active then .next s
  else .next ({ s.modPwr (fun p => { p with railEn := false }) with rst := { s.rst with failed := true } }.emit (.pin 1 false))

/-- RAIL_UNDERVOLT (R626): a brown-out while RAIL_EN is high. -/
def execRailUndervolt (now : Nat) (s : State) : Host.Outcome State Fault Refusal := if s.pwr.railEn then .next (s.beginReset [1] true false now) else .next s

/-- SHED_ASSERT (R573, R576). -/
def execShedAssert (s : State) : Host.Outcome State Fault Refusal :=
  if s.pwr.shed then .next s else .next (((s.modPwr (fun p => { p with shed := true })).event Reg.PWR_EVENT 4).showCap)

/-- SHED_RELEASE (R576). -/
def execShedRelease (s : State) : Host.Outcome State Fault Refusal := .next ((s.modPwr (fun p => { p with shed := false })).showCap)

/-! The governor. -/

/-- What the forecast asks of power now, in mW: the greatest F_k less what the slew limit allows until tick k (R577). -/
def State.ahead (s : State) : Int :=
  let slew := s.regN Reg.PWR_SLEW % 4096
  let p := s.regN Reg.TCK_PERIOD
  (List.zip s.pwr.forecast (List.range 64)).foldl (fun (a : Int) f => max a ((f.1.1 * 1000 : Nat) - (slew * (f.2 + 1) * p : Nat) : Int)) 0

/-- The measures that keep power at or below the cap, in order (R574): no fill, then best-effort memory work held, then the tile clocks 25 MHz lower at each
governor tick; a measure ends only after the ones behind it. -/
def Power.measure (p : Power) (past filling : Bool) : Power :=
  let held := if past then p.beHeld || !filling else p.beHeld && decide (0 < p.capClock)
  let n := if past && !filling && p.beHeld then min 60 (p.capClock + 1) else p.capClock
  { p with beHeld := held, capClock := n, capped := decide (0 < n) }

/-- GOVERNOR_TICK (R573 to R579, R624): measured power and the fill now running, in W. Fill that is due takes a Poised device into Run at the next boundary
(R565). -/
def execGovernorTick (measuredW fillW : Nat) (s : State) : Host.Outcome State Fault Refusal :=
  let d : Int := ((measuredW : Int) - fillW) * 1000
  let step : Int := s.regN Reg.PWR_SLEW % 4096 * 100
  let floor := s.regN Reg.PWR_FILL_FLOOR % 4096
  let g := s.pwr.governor
  let want : Int := max (floor * 1000) s.ahead
  let g' := max (min (max want (g - step)) (g + step)) d
  let cap := s.cap
  let past := decide (cap < measuredW)
  let seat := s.seated
  let may := s.pwr.rung < 2 && s.regN Reg.PWR_LADDER % 8 == 0 && (seat || decide (d < g')) && !past
  let fill := if may then (max (min g' (min cap 1700 * 1000 : Nat) - d) 0).toNat / 1000 else 0
  let high := decide (cap < floor)
  let was := s.pwr.beHeld
  let s := (s.eventIf (decide (g + step < d)) Reg.PWR_EVENT 6).eventIf (high && !s.pwr.floorHigh) Reg.PWR_EVENT 5
  let s := s.modPwr (fun p => { p.measure past (decide (0 < fillW)) with
    governor := g', fill := fill, floorHigh := high, measured := measuredW })
  let s := if was && !s.pwr.beHeld then s.over (List.range 16) State.restartStreams else s
  .next (s.setClocks false).chooseVolts

/-! Temperature. -/

/-- A thermal trip's reset is held until the die reads below 100 °C and every layer below 90 °C (R540). -/
def State.coolDown (s : State) : State :=
  if s.rst.tripHold ∧ s.pwr.tj < 100 ∧ s.hottest < 90 then { s with rst := { s.rst with tripHold := false } }.emit (.pin 2 true) else s

/-- The highest of a list of readings with its position. -/
def hottestOf (l : List Nat) : Nat × Nat := (List.zip l (List.range l.length)).foldl (fun a p => if a.1 < p.1 then p else a) (l.headD 0, 0)

/-- PWR_TEMP (R588). -/
def State.showTemp (s : State) : State := s.setRegN Reg.PWR_TEMP (s.hottest % 256 * 65536 + s.pwr.tjSensor % 128 * 256 + s.pwr.tj % 256)

/-- DIE_TEMP_SAMPLE (R582, R583): 72 readings in °C; 105 throttles, again for each further 100 µs, and 115 trips. -/
def execDieTempSample (readings : List Nat) (now : Nat) (s : State) : Host.Outcome State Fault Refusal :=
  let h := hottestOf (readings.take 72)
  let s := (s.modPwr (fun p => { p with tj := h.1, tjSensor := h.2 })).showTemp
  if s.rst.tripHold then .next s.coolDown
  else if 115 ≤ h.1 then
    let t := s.beginReset [7] false true now
    .next ((t.modPwr (fun p => { p with tj := h.1, tjSensor := h.2 })).showTemp)
  else if 105 ≤ h.1 then
    let first := s.pwr.dieThrottle == 0
    let more := !first && s.pwr.dieHot == 9
    let s := s.eventIf first Reg.PWR_EVENT 7
    let s := s.modPwr (fun p => { p with
      dieThrottle := if first ∨ more then p.dieThrottle + 1 else p.dieThrottle, dieHot := if first ∨ more then 0 else p.dieHot + 1, dieLow := false })
    .next (s.setClocks false).chooseVolts
  else .next (s.modPwr (fun p => { p with dieHot := 0, dieLow := p.dieLow || (decide (h.1 < 102) && decide (0 < p.dieThrottle)) }))

/-- The layer readings as registers (R276). -/
def State.showLayers (s : State) : State := s.over (List.range 8) (fun s n => s.setRegN (Reg.MEM_STK_TEMP n) (s.stack.readings.getD n 0 % 256))

/-- The reading of each of the eight layers: the highest of its four sensors, sensor i of layer n at 4 × n + i (R260). -/
def layerReadings (l : List Nat) : List Nat := (List.range 8).map (fun n => ((l.drop (4 * n)).take 4).foldl max 0)

/-- STACK_TEMP_SAMPLE (R260, R263, R275): 32 readings in °C; a layer at 105 trips; above 95 during a reset, retention is lost. -/
def execStackTempSample (readings : List Nat) (now : Nat) (s : State) : Host.Outcome State Fault Refusal :=
  let l := layerReadings readings
  let s := { s with stack := { s.stack with readings := l, valid := s.stack.valid && !(s.rst.active && l.any (fun t => decide (95 < t))) } }
  let s := s.showLayers.showTemp
  if s.rst.tripHold then .next s.coolDown
  else if l.any (fun t => decide (105 ≤ t)) then
    let t := s.beginReset [7] false true now
    .next ({ t with stack := { t.stack with readings := l } }.showLayers.showTemp)
  else .next s

/-! Holdover. -/

/-- HOLDOVER_LIMIT (R556): 100 ms after holdover began the device stops, in Poised. -/
def execHoldoverLimit (s : State) : Host.Outcome State Fault Refusal :=
  if !s.clk.holdover ∨ s.clk.holdStop then .next s
  else .next ({ s.stopTick with clk := { s.clk with holdStop := true } }.event Reg.CLK_EVENT 4)

end Sys2Proof.Machine
end

