-- ==== Sys2Proof/Machine/Bringup.lean ====
section
/-! DEFINITION. Bring-up (R547 to R549): the option block and its settings, tile maps, memories, the flash mount and the links, phase by phase. -/

namespace Sys2Proof.Machine

/-! The option block. -/

/-- Copy `i` of the option block in the board SPI NOR (R547). -/
def State.optCopyBytes (s : State) (i : Nat) : Bytes := mread s.stores.spi (i * 0x1000) 4096

/-- Whether an option copy is valid (R547). -/
def optValid (b : Bytes) : Bool :=
  u32 b 0 == 0x4F504B49 && byteAt b 4 == 1 && u16 b 6 == 4096 && u32 b 4092 == crc32c (b.take 4092)

/-- The option copy in use: the valid one with the higher SEQ, copy A on a tie (R547). -/
def State.chooseOpt (s : State) : Option Nat :=
  let a := s.optCopyBytes 0
  let b := s.optCopyBytes 1
  match optValid a, optValid b with
  | true, true => some (if u32 a 8 < u32 b 8 then 1 else 0)
  | true, false => some 0
  | false, true => some 1
  | false, false => none

/-- The four thresholds of PWR_VIN_THRESH, clamped field by field from the Inhibit threshold downwards (R572): 30 V to 60 V, each at least 1 V
below the one above, with room left for those below. -/
def clampThresh (v : Nat) : Nat :=
  let i := clamp 132 240 (bits v 31 24)
  let t := clamp 128 (i - 4) (bits v 23 16)
  let h := clamp 124 (t - 4) (bits v 15 8)
  let b := clamp 120 (h - 4) (bits v 7 0)
  i * 2 ^ 24 + t * 2 ^ 16 + h * 2 ^ 8 + b

/-- Sets a power register from an option field: 0 keeps the reset value, and a value out of range is clamped (R587). -/
def State.optReg (s : State) (off lo hi v : Nat) : State :=
  if v = 0 then s else (s.setRegN off (clamp lo hi v)).eventIf (clamp lo hi v != v) Reg.PWR_EVENT 8

/-- Applies an option copy (R543, R547, R587, R591). -/
def State.applyOptions (s : State) (b : Bytes) : State :=
  let s := s.setRegN Reg.RST_STRETCH (clamp 2 200 (u16 b 12))
  let s := s.optReg Reg.PWR_VIN_RATIO 10000 40000 (u16 b 64)
  let s := s.optReg Reg.PWR_SHED_CAP 400 2000 (u16 b 66)
  let v := u32 b 68
  let s := if v = 0 then s else (s.setRegN Reg.PWR_VIN_THRESH (clampThresh v)).eventIf (clampThresh v != v) Reg.PWR_EVENT 8
  let s := s.optReg Reg.PWR_SAG_CAP 400 2000 (u16 b 72)
  let s := s.optReg Reg.PWR_SLEW 1 2000 (u16 b 74)
  { s with opt := { refPref := byteAt b 14 % 2, tray := BitVec.ofNat 64 (u64 b 16), histBase := u32 b 24, histSize := u32 b 28, smbAddr := byteAt b 96 % 128,
                    smbSpeed := if byteAt b 97 ≤ 2 then byteAt b 97 else 0, watchdogMs := if u16 b 98 = 0 then 2000 else clamp 500 10000 (u16 b 98) } }

/-! Phases. -/

/-- Bring-up stops at its phase (R549). -/
def State.bringupFails (s : State) : State := { s with rst := { s.rst with failed := true } }

/-- The next phase begins. -/
def State.toPhase (s : State) (n : Nat) : State := { s with rst := { s.rst with phase := n } }

/-- Option load (R547, R548). -/
def State.optionLoad (s : State) : State :=
  match s.chooseOpt with
  | some i => ({ s with rst := { s.rst with optCopy := i } }.applyOptions (s.optCopyBytes i)).toPhase 3
  | none => { s with rst := { s.rst with optFail := true, failed := true } }

/-- PLL lock from a good reference (R557); without one, bring-up waits. -/
def State.pllLock (s : State) : State :=
  let k := s.clk
  let want := s.opt.refPref
  let ok := fun (n : Nat) => if n = 0 then k.aOk else k.bOk
  if ok want then { s with clk := { k with source := want, pcieOk := true } }.toPhase 4
  else if ok (1 - want) then { s with clk := { k with source := 1 - want, pcieOk := true } }.toPhase 4
  else s

/-- The tile map that a unit-map record holds (R449). -/
def mapOf (d : Bytes) : TileMap :=
  let sp := byteAt d 13
  ⟨(List.range 16).map (fun i => bits (le d 0 10) (5 * i + 4) (5 * i)), if sp ≤ 16 then some sp else none, bitsOf 17 (le d 10 3), none⟩

/-- Ward of a history record's unit (R449). -/
def HistRec.ward (r : HistRec) : Nat := r.unit % 16

/-- Loads every ward's recorded map (R455). -/
def State.loadMaps (s : State) : State :=
  s.over (List.range 16) (fun s w =>
    match (s.chk.history.filter (fun r => r.type == 4 && decide (1 ≤ r.kind ∧ r.kind ≤ 4) && r.ward == w)).getLast? with
    | some r => { s with chk := { s.chk with maps := tput s.chk.maps w (mapOf r.detail), mgmtMaps := tput s.chk.mgmtMaps w (mapOf r.detail) } }
    | none => s)

/-- Writes zeros to one stacked DRAM row, which lies in four 2 KiB bursts (R252, R271). -/
def State.zeroRow (s : State) (row : Nat) : State :=
  s.over (List.range 4) (fun s k => { s with stores := { s.stores with dram := mzero s.stores.dram (rowAddr row + k * 131072) 2048 } })

/-- A pending row takes a spare of its bank, or is fenced (R271, R272). -/
def State.placeRow (s : State) (row : Nat) : State :=
  if s.sparesLeft (row / 4096) = 0 then ({ s with stack := { s.stack with fenced := s.stack.fenced ++ [row] } }.event Reg.MEM_STK_EVENT 6).remapRecord row 0 3
  else
    let p := s.takeSpare row
    (p.2.zeroRow row).remapRecord row p.1 2

/-- The stacked DRAM phase (R271 to R273, R275). -/
def State.stackPhase (s : State) : State :=
  let kept := s.stack.valid
  let s := if kept then s else { s with stores := { s.stores with dram := [] } }
  let s := (s.setRegN Reg.MEM_STK_STATUS (if kept then 256 else 0)).eventIf (!kept && (s.reg Reg.MEM_STK_CTRL).getLsbD 0) Reg.MEM_STK_EVENT 0
  let s := s.loadRemaps
  let s := s.over s.stack.pending State.placeRow
  { s with stack := { s.stack with pending := [], selfRefresh := false, valid := true } }

/-- Whether the mode registers describe parts of the table of R277: one or two ranks, one of five densities, one of four data rates. -/
def lpSupported (w : W32) : Bool :=
  let n := w.toNat
  decide (n < 2 ^ 21) && decide (bits n 19 16 ≤ 4) && [6400, 7500, 8533, 9600].contains (bits n 15 0)

/-- A device-owned copy that fails its check at bring-up is empty (R288): UE, its count, and a frame of the flash cache loses its blocks. -/
def State.emptyCopy (s : State) (k : LpCopy) : State :=
  let s := { s with lp := { s.lp with emptied := s.lp.emptied ++ [k] } }
  let s := match k with
    | .cacheFrame n => { s with flash := { s.flash with cache := s.flash.cache.filter (fun e => e.1 / 16 != n) } }
    | _ => s
  (s.event Reg.MEM_LP_EVENT 2).count Reg.MEM_LP_UE_TOTAL

/-- The LPDDR phase (R280, R287, R288): `bad` are the device-owned copies whose CRC fails, of contents that were kept. -/
def State.lpPhase (s : State) (bad : List LpCopy) : State :=
  let kept := s.lp.valid
  let s := (s.setRegN Reg.MEM_LP_STATUS (if kept then 256 else 0)).eventIf (!kept && (s.reg Reg.MEM_LP_CTRL).getLsbD 0) Reg.MEM_LP_EVENT 0
  let s := if kept then s.over bad State.emptyCopy else s
  let s := s.setReg Reg.MEM_LP_CONFIG Config.lpConfig
  { s with lp := { s.lp with selfRefresh := false, valid := true } }

/-- The fabric-link phase begins: every link trains (R312, R345), once the hold of R546 is over. -/
def State.trainLinks (s : State) : State :=
  if s.rst.phase ≠ 9 ∨ s.rst.holdLinks then s
  else s.over (List.range 24) (fun s l => s.modLink l (fun k => if k.state = 0 then { k with state := 1 } else k))

/-- The fabric-link phase ends: a link that has not trained has no peer (R345), and the device is in Poised (R549). -/
def State.linksTrained (s : State) : State :=
  let s := s.over (List.range 24) (fun s l => s.modLink l (fun k => if k.state = 1 then { k with state := 0 } else k))
  (s.toPhase 10).modPwr (fun p => { p with rung := 1 })

/-- A phase that fails stops bring-up (R549); the LPDDR phase shows FAILED (R277), and the flash store its failed mount (R303). -/
def State.phaseFails (s : State) (n : Nat) : State :=
  let s := if n = 7 then s.setRegN Reg.MEM_LP_STATUS 4 else s
  if n = 8 then (s.mountDone false).bringupFails else s.bringupFails

/-- BRINGUP_PHASE_COMPLETE (R549): the phase in progress completes, or fails; `bad` is what the region checks of the LPDDR phase find. -/
def execBringupPhaseComplete (ok : Bool) (bad : List LpCopy) (s : State) : Host.Outcome State Fault Refusal :=
  let n := s.rst.phase
  if s.rst.active ∨ s.rst.failed ∨ n = 0 ∨ 10 ≤ n then .next s
  else if !ok then .next (s.phaseFails n)
  else
    match n with
    | 1 => .next ({ s with rst := { s.rst with slotId := Config.slotStraps.toNat } }.toPhase 2)
    | 2 => .next s.optionLoad
    | 3 => .next s.pllLock
    | 4 => .next (s.loadMaps.toPhase 5)
    | 5 => .next ({ s with stores := { s.stores with tiles := [], wards := [], staging := [] } }.toPhase 6)
    | 6 => .next (s.stackPhase.toPhase 7)
    | 7 => .next (if lpSupported Config.lpConfig then ({ s.lpPhase bad with flash := { s.flash with mount := 1 } }).toPhase 8 else s.phaseFails 7)
    | 8 => .next ((s.mountDone true).toPhase 9).trainLinks
    | _ => .next (if s.rst.holdLinks then s else s.linksTrained)

/-- LINK_HOLD_END (R546): the fabric-link phase may begin. -/
def execLinkHoldEnd (s : State) : Host.Outcome State Fault Refusal := .next { s with rst := { s.rst with holdLinks := false } }.trainLinks

end Sys2Proof.Machine
end

