-- ==== Sys2Proof/Machine/Contexts.lean ====
section
/-! DEFINITION. Keyrings (R380 to R385): admission, zeroing and release; and the context registers with rows of their own: CTX_SELECT_HI (R390), CTX_BOLT_VAL and CTX_BOLT_ADD (R405). -/

namespace Sys2Proof.Machine

/-- Whether two extents share a unit. -/
def overlap (a b : Nat × Nat) : Bool := decide (a.1 < b.1 + b.2 ∧ b.1 < a.1 + a.2 ∧ 0 < a.2 ∧ 0 < b.2)

/-- The other contexts that are ZEROING or KEYED. -/
def State.otherHeld (s : State) (c : Nat) : List Nat := pick 16 (fun d => d != c && s.held d)

/-- Base and size of the bolt range of a context. -/
def State.boltRange (s : State) (c : Nat) : Nat × Nat := let v := s.regN (Reg.CTX_BOLTS c); (bits v 11 0, bits v 27 16)

/-- Capacity of the fitted LPDDR in bytes, as MEM_LP_CONFIG reports it: 32 channels of one or two ranks (R277, R284, R306). -/
def State.lpBytes (s : State) : Nat :=
  let v := s.regN Reg.MEM_LP_CONFIG
  2 ^ 32 * (1 + bits v 20 20) * (match bits v 19 16 with | 0 => 16 | 1 => 24 | 2 => 32 | 3 => 64 | _ => 128)

/-- The LPDDR regions of R284, in bytes. -/
def State.lpRegions (s : State) : List (Nat × Nat) := [Reg.MEM_LP_CLEAR, Reg.MEM_LP_CAND, Reg.MEM_LP_GUARD, Reg.MEM_LP_REPLAY, Reg.MEM_LP_FLCACHE].map s.lpRegion

/-- Rule 1: ranges. -/
def State.keyRanges (s : State) (c : Nat) : Bool :=
  let f := fun (v hi limit : Nat) => decide (bits v hi 0 < limit ∧ bits v (16 + hi) 16 ≤ limit ∧ bits v hi 0 + bits v (16 + hi) 16 ≤ limit)
  f (s.regN (Reg.CTX_TS c)) 6 96 && f (s.regN (Reg.CTX_WS c)) 8 384 && f (s.regN (Reg.CTX_STG c)) 8 448 &&
    decide (s.regN (Reg.CTX_DRAM_SIZE c) ≤ 98304 ∧ s.regN (Reg.CTX_LP_SIZE c) ≤ 524288 ∧ s.regN (Reg.CTX_CREDIT c) ≤ 320 ∧ s.regN (Reg.CTX_VF c) ≤ 16 ∧ s.regN (Reg.CTX_WARDS c) ≠ 0)

/-- Rule 3: the two DRAM partitions. -/
def State.keyDram (s : State) (c : Nat) : Bool :=
  let d := s.partition c 3
  let l := s.partition c 4
  decide (d.1 + d.2 ≤ 98304 * 2097152 ∧ l.1 + l.2 ≤ s.lpBytes) && !s.lpRegions.any (overlap l) &&
    (s.otherHeld c).all (fun e => !overlap d (s.partition e 3) && !overlap l (s.partition e 4))

/-- The first admission check that fails, with its status code (R382). -/
def State.admission (s : State) (c : Nat) : Option (Nat × Nat) :=
  let os := s.otherHeld c
  if !s.keyRanges c then some (1, 7)
  else if [0, 1, 2].any (fun p => os.any (fun e => overlap (s.partition c p) (s.partition e p))) then some (2, 8)
  else if !s.keyDram c then some (3, 8)
  else if 0xF00 < (s.boltRange c).1 + (s.boltRange c).2 ∨ os.any (fun e => overlap (s.boltRange c) (s.boltRange e)) then some (4, 8)
  else if 320 < ((c :: os).map (fun e => s.regN (Reg.CTX_CREDIT e))).foldl (· + ·) 0 then some (5, 8)
  else if s.ctxFn c ≠ 0 ∧ os.any (fun e => s.ctxFn e == s.ctxFn c) then some (6, 7)
  else none

/-- KEY (R382, R383): admission makes a FREE context ZEROING, with its bolts, its counters and its generation at 0; anything but FREE ignores the
command. -/
def execKey (c : Fin 16) (s : State) : Host.Outcome State Fault Refusal :=
  if s.held c then .next (s.event (Reg.CTX_EVENT c) 2)
  else
    match s.admission c with
    | some (reason, code) => .next ((s.modCtx c (fun x => { x with reason := reason, code := code })).event (Reg.CTX_EVENT c) 1)
    | none =>
      let s := s.modCtx c (fun x => { x with adm := .zeroing, reason := 0, code := 0, acc := {}, hasp := { x.hasp with gen := 0 } })
      .next { s with bolts := tmap (fun i b => if s.ownBolt c i then {} else b) s.bolts }

/-- Writes zeros to every partition of a context's keyring: in every physical tile, in every ward, and in the shared stores (R380, R383). -/
def State.zeroPartitions (s : State) (c : Nat) : State :=
  let p := s.partition c
  let z := fun (n : Nat) (m : Mem) => mzero m (p n).1 (p n).2
  { s with stores := { s.stores with
      tiles := tmap (fun _ m => z 0 m) s.stores.tiles
      wards := tmap (fun _ m => z 1 m) s.stores.wards
      staging := z 2 s.stores.staging
      dram := z 3 s.stores.dram
      lpddr := z 4 s.stores.lpddr } }

/-- ZEROING_COMPLETE (R383). -/
def execZeroingComplete (c : Fin 16) (s : State) : Host.Outcome State Fault Refusal :=
  if (s.ctx c).adm ≠ .zeroing ∨ s.pwr.beHeld then .next s
  else .next (((s.zeroPartitions c).modCtx c (fun x => { x with adm := .keyed })).event (Reg.CTX_EVENT c) 0)

/-- RELEASE (R385): a KEYED context with no plan loaded becomes FREE, and its VF ring set enters ERROR (R509). -/
def execRelease (c : Fin 16) (s : State) : Host.Outcome State Fault Refusal :=
  if (s.ctx c).adm = .keyed ∧ !s.loaded c then
    let fn := s.ctxFn c
    let s := s.modCtx c (fun x => { x with adm := .free })
    .next (if fn ≠ 0 ∧ (s.ring fn).run ≠ .disabled then s.ringError fn 4 else s)
  else .next (s.event (Reg.CTX_EVENT c) 2)

/-- CTX_SELECT_HI_WRITE (R390): the held low word and the written high word take effect together. -/
def execCtxSelectHiWrite (v : W32) (s : State) : Host.Outcome State Fault Refusal :=
  let s := s.setReg Reg.CTX_SELECT_HI v
  .next (s.modTick (fun t => { t with select := BitVec.ofNat 64 (v.toNat * 2 ^ 32 + s.regN Reg.CTX_SELECT_LO) }))

/-- The bolt that CTX_BOLT_SEL selects. -/
def State.selBolt (s : State) : Nat := s.regN Reg.CTX_BOLT_SEL % 65536

/-- CTX_BOLT_VAL_WRITE (R405). -/
def execCtxBoltValWrite (v : W32) (s : State) : Host.Outcome State Fault Refusal := .next (s.boltSet s.selBolt v)

/-- CTX_BOLT_ADD_WRITE (R405): requester 290 acts for no context here, so no context's acquisitions shrink and no BOLT_SAT is set (R395, R398; DEDUCED, log
entry 63). -/
def execCtxBoltAddWrite (v : W32) (s : State) : Host.Outcome State Fault Refusal :=
  let x := s.bolt s.selBolt
  .next (s.boltSet s.selBolt (satAdd x.count v.toNat))

end Sys2Proof.Machine
end

