-- ==== Sys2Proof/Machine/Jtag.lean ====
section
/-! DEFINITION. The test access port (R622): BYPASS, IDCODE, SAMPLE/PRELOAD and EXTEST. -/

namespace Sys2Proof.Machine

/-- JTAG_BYPASS (R622): the one-bit register between TDI and TDO, which captures 0 (IEEE 1149.1, PRESUMED, log entry 32). Every instruction that the
port does not support acts so. -/
def execJtagBypass (_instr : Nat) (s : State) : Host.Outcome State Fault Refusal := .next (s.emit (.tdo 0))

/-- The identification code (R622). -/
def idcode : Nat := Config.fusedRev.toNat % 16 * 2 ^ 28 + 0x0480 * 2 ^ 12 + Config.jep106.toNat * 2 + 1

/-- JTAG_IDCODE (R622). -/
def execJtagIdcode (s : State) : Host.Outcome State Fault Refusal := .next (s.emit (.tdo idcode))

/-- Samples the boundary chain: the levels of the lands are not the model's to know, so what is sampled is a free value (log entry 2). -/
def State.sampleChain (s : State) : State :=
  let d := s.draw
  d.2.emit (.tdo (Config.freeWord d.1).toNat)

/-- JTAG_SAMPLE_PRELOAD (R622). -/
def execJtagSamplePreload (s : State) : Host.Outcome State Fault Refusal := .next s.sampleChain

/-- JTAG_EXTEST (R622): drives lands only while a reset of device or cold scope holds, else acts as SAMPLE/PRELOAD. -/
def execJtagExtest (lands : List Bool) (s : State) : Host.Outcome State Fault Refusal :=
  if s.rst.active then .next (s.emit (.lands lands)) else .next s.sampleChain

end Sys2Proof.Machine
end

