-- ==== Sys2Proof/Machine/MediaCmds.lean ====
section
/-! DEFINITION. Commands of ingest and of the media front end: reading, decoding and batching records (R456 to R469), sensor frames (R470), live pictures and decode engines (R481 to R489, R505), tokeniser tables (R502), the firmware switch (R506). -/

namespace Sys2Proof.Machine

/-- Whether a context takes records: its plan is loaded, and it is not HALTED. -/
def State.ingests (s : State) (c : Nat) : Bool := s.loaded c && (s.hasp c).phase != .halted

/-- Whether the media front end answers no host request: a firmware switch is under way, or its new generation is not yet in service (R506). -/
def State.mediaGone (s : State) : Bool := s.media.switching || s.rst.returning.contains 16

/-- A number in the order of arrival. -/
def State.arrive (s : State) : Nat × State := (s.media.arrivals, s.modMedia (fun m => { m with arrivals := m.arrivals + 1 }))

/-! Pass 1. -/

/-- A record that passed pass 1 receives its buffers: it waits for its decode, with a pool for its video (R459, R481). -/
def State.acceptRec (s : State) (c : Nat) (r : IngRecord) (m : RecordMap) (scans : List HeaderScan) : State :=
  let (uid, s) := s.arrive
  let vs := (m.items.filter (fun it => it.kind == 3 && (s.slotPlan c it.slot).used)).map (fun it => (it, scanOf scans it.slot))
  let pics := (vs.map (fun x => x.2.pictures)).foldl (· + ·) 0
  let time := (vs.map (fun x => decodeNs x.2.width x.2.height x.2.bits)).foldl max 0
  let pool := (vs.map (fun x => if x.1.codec = 2 then 10 else x.2.dpb + 2)).foldl max 0
  let r := { r with uid := uid, variant := m.variant, pics := pics, picsAll := pics, picTime := time }
  let s := (s.modIng c (fun i => { i with reading := i.reading ++ [r] })).setPool (64 + uid) (List.replicate pool {})
  ((s.eventIf (s.limitsHigh c) (Reg.MED_ING_EVENT c) 3).settleCap c).feedEngines

/-- The cursor goes to the next shard; from the last to the first, with PASS raised (R462). -/
def State.nextShard (s : State) (c : Nat) : State :=
  s.modIng c (fun i => if i.shard + 1 < s.shardCount c then { i with shard := i.shard + 1, offset := 0 } else { i with shard := 0, offset := 0, pass := i.pass + 1 })

/-- Counts a flash read of ingest, and reports it when it cannot be recovered (R302, R401). -/
def State.ingRead (s : State) (c a n : Nat) (bad : Bool) : State :=
  let s := (s.countReads ((List.range (cdiv (a + n) 4096 - a / 4096)).map (· + a / 4096))).account c 6 n
  if bad then s.flashUnrecoverable (a / 4096) else s

/-- The record frame at the cursor: `a` the shard's first flash byte, `stop` the end of its frames (R457, R459, R461). -/
def State.readFrame (s : State) (c a stop : Nat) (scans : List HeaderScan) (bad : Bool) : State :=
  let i := s.ing c
  let len := u32 (s.flashRead (a + i.offset) 8) 0
  let n := frameSize len
  let fits := decide (i.offset + n ≤ stop)
  let s := s.ingRead c (a + i.offset) (if fits then n else 8) bad
  let past := if fits then s.modIng c (fun i => { i with offset := i.offset + n }) else s.nextShard c
  if bad then past.rejectRec c 0x05 i.shard i.offset none
  else if !fits then past.rejectRec c (if s.ingLimit c 1 < len then 0x11 else 0x02) i.shard i.offset none
  else match s.frameCheck c (s.flashRead (a + i.offset) n) scans with
    | .error r => past.rejectRec c r i.shard i.offset none
    | .ok (b, m) => past.acceptRec c { pass := i.pass, shard := i.shard, offset := i.offset, frame := b } m scans

/-- Reads on from the cursor: past the ends of shards and their headers, to one frame or one bad header (R456, R461, R462). -/
def shardGo (c : Nat) (scans : List HeaderScan) (bad : Bool) : Nat → State → State
  | 0, s => s
  | f + 1, s =>
    let i := s.ing c
    let (a, size) := s.shardAt c i.shard
    let head := s.flashRead a 64
    if i.offset = 0 then
      let ok := shardOk head && decide (64 + u64 head 24 ≤ size)
      if bad ∨ !ok then
        ((s.ingRead c a 64 bad).nextShard c).rejectRec c (if bad then 0x05 else 0x01) i.shard 0 none
      else shardGo c scans bad f ((s.ingRead c a 64 false).modIng c (fun i => { i with offset := 64 }))
    else if 64 + u64 head 24 < i.offset + 8 then shardGo c scans bad f (s.nextShard c)
    else s.readFrame c a (64 + u64 head 24) scans bad

/-- RECORD_INGEST (R459): the next record of the shard list, while reading is not paused. A read that meets a lost block cannot be recovered (R302). -/
def execRecordIngest (c : Fin 16) (scans : List HeaderScan) (flashBad : Bool) (s : State) : Host.Outcome State Fault Refusal :=
  if !s.ingests c ∨ s.media.switching ∨ s.ingSource c ≠ 0 ∨ (s.ing c).pausedReading ∨ s.flash.mount ≠ 2 ∨ s.shardCount c = 0 then .next s
  else
    let (a, _) := s.shardAt c (s.ing c).shard
    let at_ := (a + (s.ing c).offset) / 4096
    let n := cdiv (frameSize (u32 (s.flashRead (a + (s.ing c).offset) 8) 0)) 4096 + 2
    let bad := flashBad || s.flashLost ((s.flash.lost.filter (fun b => decide (at_ ≤ b ∧ b < at_ + n))))
    .next (shardGo c scans bad (2 * s.shardCount c + 2) (s.eventIf (s.limitsHigh c) (Reg.MED_ING_EVENT c) 3))

/-- RECORD (R457, R461, R462, R520): a record frame from the host ring of a context whose SOURCE is 1. -/
def execRecord (fn : Fin 17) (cmd : HostCmd) (scans : List HeaderScan) (s : State) : Host.Outcome State Fault Refusal :=
  s.vfCmd fn 0x20 cmd (fun c s =>
    if s.mediaGone then s.complete fn 0x20 cmd 2
    else if !s.ingests c ∨ s.ingSource c ≠ 1 then s.complete fn 0x20 cmd 7
    else match s.frameCheck c cmd.payload scans with
      | .error r => (s.eventIf (s.limitsHigh c) (Reg.MED_ING_EVENT c) 3).rejectRec c r 0 0 (some (fn.val, cmd))
      | .ok (b, m) => ((s.eventIf (s.limitsHigh c) (Reg.MED_ING_EVENT c) 3).modIng c (fun i => { i with lastRecord := cmd.id })).acceptRec c { frame := b, cmd := some (fn.val, cmd) } m scans)

/-! Decoding and batches. -/

/-- Frees what the decode of a record holds. -/
def State.freeDecode (s : State) (uid : Nat) : State :=
  let s := s.setPool (64 + uid) []
  s.over (List.range 4) (fun s e => if (s.engine e).job.any (fun (j : Nat × Nat) => j.2 == uid) then s.modEngine e (fun x => { x with job := none }) else s)

/-- Rejects a record whose decode failed: its buffers are freed (R461, R483, R504, R505). -/
def State.rejectDecode (s : State) (c : Nat) (r : IngRecord) (reason : Nat) : State :=
  let s := (s.freeDecode r.uid).modIng c (fun i => { i with reading := i.reading.filter (fun x => x.uid != r.uid) })
  (s.rejectRec c reason r.shard r.offset r.cmd).settleIngest c

/-- A record changed where it waits. -/
def State.modReading (s : State) (c uid : Nat) (f : IngRecord → IngRecord) : State :=
  s.modIng c (fun i => { i with reading := i.reading.map (fun r => if r.uid = uid then f r else r) })

/-- RECORD_DECODED (R463): the oldest record in decode is decoded, once the decode engines have done its pictures, or its bitstream failed; `ns` is the busy time of
the audio and text units (R401). -/
def execRecordDecoded (c : Fin 16) (ok : Bool) (items : List ItemSource) (ns : Nat) (s : State) : Host.Outcome State Fault Refusal :=
  match (s.ing c).reading.find? (fun r => !r.decoded) with
  | none => .next s
  | some r =>
    let s := if ok ∧ r.pics ≠ 0 then s else s.account c 3 ns
    if !ok then .next (s.rejectDecode c r 0x21).feedEngines
    else if r.pics ≠ 0 then .next s
    else match recordOf (s.keepsVariants c) r.frame with
      | none => .next (s.rejectDecode c r 0x21).feedEngines
      | some m => match s.decodeItems c m.items items with
        | .error e => .next (s.rejectDecode c r e).feedEngines
        | .ok l => .next (((s.freeDecode r.uid).modReading c r.uid (fun r => s.decodedRec c r l)).settleIngest c).feedEngines

/-- The teacher of a student context: the lowest-numbered other context with a plan that generates (DESIGN CHOICE, log entry 19). -/
def State.teacherOf (s : State) (c : Nat) : Option Nat := (List.range 16).find? (fun t => t != c && s.loaded t && s.generates t)

/-- Finished sequences that are next in SEQ order: no unfinished one comes before them (R213). -/
def Kv.deliverable (k : Kv) : List (Nat × List Nat) :=
  let open_ := (k.slots.filter (fun p => p.2.live || decide (p.2.state = 4 ∨ p.2.state = 5))).map (fun p => p.2.seq)
  k.done.filter (fun d => open_.all (fun q => decide (d.1 < q)))

/-- Takes teacher sequences for the batch that is due, as many as it has rows (R213, R462): token items of SORT_SLOT. -/
def State.takeTeacher (s : State) (c : Nat) : State :=
  match (if s.ingSource c = 2 then s.teacherOf c else none) with
  | none => s
  | some t =>
    let p := s.slotPlan c (s.sortSlot c)
    let l := (s.kv t).deliverable.take (s.batchRows c - (s.ing c).bins.length)
    let s := s.modKv t (fun k => { k with done := k.done.filter (fun d => !l.any (fun x => x.1 == d.1)) })
    s.over l (fun s d =>
      let (uid, s) := s.arrive
      let n := d.2.length
      let r := s.decodedRec c { uid := uid, offset := d.1 } [(s.sortSlot c, n, cutChunks p n 4 (d.2.map (toLe 4)).flatten)]
      s.modIng c (fun i => { i with bins := i.bins ++ [(0, r)], lastSeq := some d.1, taken := i.taken + 1 }))

/-- Completes what is due at the deadline: every batch up to that of the next step (R465; DEDUCED, log entry 19). -/
def dueGo (c : Nat) : Nat → State → State
  | 0, s => s
  | f + 1, s =>
    match s.nextBatch c with
    | none => s
    | some x => dueGo c f ((s.takeTeacher c).completeBatch c x none)

/-- BATCH_DEADLINE (R465): run tick D of the step in progress. -/
def execBatchDeadline (c : Fin 16) (s : State) : Host.Outcome State Fault Refusal :=
  let h := s.hasp c
  if !h.run ∨ !h.stepOpen ∨ 2 ≤ (s.ctx c).perm.state ∨ h.stepTick ≠ s.batchTick c then .next s else .next (dueGo c 2 s)

/-! Sensor streams. -/

/-- A record of one item joins ingest, already decoded (R462). -/
def State.joinIngest (s : State) (c slot n : Nat) (chunks : List Bytes) (r : IngRecord) : State :=
  if !s.ingests c ∨ !(s.slotPlan c slot).used then s
  else
    let (uid, s) := s.arrive
    let i := s.ing c
    let r := s.decodedRec c { r with uid := uid, pass := i.pass, shard := i.shard, offset := i.offset } [(slot, n, chunks)]
    (s.modIng c (fun i => { i with reading := i.reading ++ [r] })).settleIngest c

/-- Element size and frame size in bytes, and row size, of a sensor stream (R470). -/
def State.sensorSize (s : State) (st : Nat) : Nat × Nat × Nat :=
  let v := s.regN (Reg.MED_SENS_CTRL st)
  let g := s.regN (Reg.MED_SENS_GEOM st)
  let z := fmtBytes (bits v 15 8)
  (z, (g % 65536) * (g / 65536) * bits v 26 24 * z, (g % 65536) * z)

/-- The end of a sensor frame (R470): delivered, filled and masked, cut, or discarded; its command completes. A masked row holds FILL
throughout. -/
def State.endFrame (s : State) (st : Nat) : State :=
  let f := tget (fun _ => {}) s.media.sensors st
  let v := s.regN (Reg.MED_SENS_CTRL st)
  let (z, size, row) := s.sensorSize st
  let short := decide (f.data.length < size)
  let long := decide (size < f.data.length)
  let drop := bit v 16 && (short || long)
  let fill := toLe z (s.regN (Reg.MED_SENS_FILL st) % 65536)
  let keep := if short ∧ row ≠ 0 then f.data.length / row * row else f.data.length
  let data := (f.data.take keep).take size ++ (List.replicate ((size - keep) / z) fill).flatten
  let s := s.modMedia (fun m => { m with sensors := tput m.sensors st {} })
  let s := if short then s.count (Reg.MED_SENS_SHORT st) else if long then s.count (Reg.MED_SENS_LONG st) else s
  let s := if drop then s.count (Reg.MED_SENS_DROPPED st)
    else
      let c := v % 16
      let m := bits v 7 4
      let n := bits v 26 24
      s.joinIngest c m n (cutChunks (s.slotPlan c m) n (size / max 1 n) data) { short := short, long := long }
  match f.cmd with
  | some (fn, x) => s.complete fn 0x22 x 0
  | none => s

/-- SENSOR (R470, R520): bytes of a frame between FIRST and LAST. Bytes of a stream that is not enabled are discarded. -/
def execSensor (fn : Fin 17) (cmd : HostCmd) (first last : Bool) (s : State) : Host.Outcome State Fault Refusal :=
  s.vfCmd fn 0x22 cmd (fun c s =>
    let st := cmd.arg0 % 64
    let v := s.regN (Reg.MED_SENS_CTRL st)
    let isOpen := (tget (fun _ => {}) s.media.sensors st).openFrame
    if 64 ≤ cmd.arg0 ∨ v % 16 ≠ c then s.complete fn 0x22 cmd 7
    else if s.mediaGone then s.complete fn 0x22 cmd 2
    else if !bit v 31 then (if first then s.complete fn 0x22 cmd 0 else s)
    else if !first ∧ !isOpen then s.count (Reg.MED_SENS_ORPHAN st)
    else
      let s := if first ∧ isOpen then s.endFrame st else s
      let s := s.modMedia (fun m =>
        let f := if first then { openFrame := true, data := [], cmd := some (fn.val, cmd) } else tget (fun _ => {}) m.sensors st
        { m with sensors := tput m.sensors st { f with data := f.data ++ cmd.payload } })
      if last then s.endFrame st else s)

/-! Live streams and decode engines. -/

/-- LIVE (R484, R486, R488, R520): one access unit. It is dropped when its stream is not admitted, before the next random-access point of a stream
that dropped a picture, as a RASL picture of that point, beyond the declared size, or outside the supported set. -/
def execLive (fn : Fin 17) (cmd : HostCmd) (width height : Nat) (supported rap rasl : Bool) (s : State) : Host.Outcome State Fault Refusal :=
  s.vfCmd fn 0x21 cmd (fun c s =>
    let st := cmd.arg0 % 64
    let g := s.liveGeom st
    if 64 ≤ cmd.arg0 ∨ s.liveCtx st ≠ c then s.complete fn 0x21 cmd 7
    else if s.mediaGone then s.complete fn 0x21 cmd 2
    else
      let (n, s) := s.arrive
      let p : LivePic := ⟨st, width, height, rap, rasl, (fn.val, cmd), n⟩
      let drop := fun (s : State) => (s.dropPic p).modLive st (fun v => { v with skipping := true })
      if (s.stream st).status ≠ 1 ∨ ((s.stream st).skipping ∧ !rap) ∨ ((s.stream st).dropRasl ∧ rasl ∧ !rap) then s.dropPic p
      else if g.1 < width ∨ g.2 < height ∨ s.regN (Reg.MED_LIVE_MAXBITS st) < 8 * cmd.payload.length then drop (s.event (Reg.MED_LIVE_EVENT st) 1)
      else if !supported then drop (s.event (Reg.MED_LIVE_EVENT st) 2)
      else (s.modLive st (fun v => { v with skipping := false, dropRasl := if rap then v.skipping else v.dropRasl, waiting := v.waiting ++ [p] })).feedEngines)

/-- Marks of a frame buffer as a number: short-term bit 0, long-term bit 1, output-pending bit 2. -/
def FrameBuf.withMarks (b : FrameBuf) (v : Nat) : FrameBuf := { b with short := bit v 0, long := bit v 1 }

/-- What a picture boundary does to a pool (R482): the decoded picture's marks, the standard's marking process, output. A buffer left without
marks is released by that. -/
def markPool (l : List FrameBuf) (i own : Nat) (refs : List (Nat × Nat)) (outs : List Nat) : List FrameBuf :=
  let l := l.set i { short := bit own 0, long := bit own 1, output := bit own 2 }
  let l := refs.foldl (fun l r => l.modify r.1 (fun b => if b.unused then b else b.withMarks r.2)) l
  outs.foldl (fun l o => l.modify o (fun b => { b with output := false })) l

/-- An output picture of a live stream becomes a record with one item (R477, R480). -/
def State.liveOutput (s : State) (p : LivePic) (pic : RawPic) : State :=
  let v := s.regN (Reg.MED_LIVE_CTRL p.stream)
  let d := s.slotPlan (v % 16) (bits v 7 4)
  let n := d.w * d.h / 256
  s.joinIngest (v % 16) (bits v 7 4) n (cutChunks d n (256 * d.channels * fmtBytes d.fmt) (picOutput pic d.fmt d.colour d.w d.h))
    { live := some (p.stream, pic.width, pic.height), frame := p.cmd.2.payload }

/-- A record picture is done: the next one needs a buffer, or the record is rejected (R483). -/
def State.recordPicDone (s : State) (c uid : Nat) : State :=
  let s := s.modReading c uid (fun r => { r with pics := r.pics - 1 })
  match (s.ing c).reading.find? (fun r => r.uid == uid) with
  | some r => if r.pics ≠ 0 ∧ firstUnused (s.pool (64 + uid)) = none then s.rejectDecode c r 0x21 else s
  | none => s

/-- PICTURE_DECODED (R482, R486): `own` are the decoded picture's marks, `refs` what the marking process leaves on other buffers, `out` the
buffers output with their pictures, in output order; `ns` is the engine's busy time (R401). -/
def execPictureDecoded (e : Fin 4) (own : Nat) (refs : List (Nat × Nat)) (out : List (Nat × RawPic)) (ns : Nat) (s : State) : Host.Outcome State Fault Refusal :=
  let x := s.engine e
  match x.current, x.job with
  | some p, _ =>
    let s := (s.account (s.liveCtx p.stream) 3 ns).setPool p.stream (markPool (s.pool p.stream) x.buffer own refs (out.map (·.1)))
    let s := (s.count (Reg.MED_ENG_PICS e)).modEngine e (fun x => { x with current := none })
    let s := s.over out (fun s o => s.liveOutput p o.2)
    .next (s.complete p.cmd.1 0x21 p.cmd.2 0).feedEngines
  | none, some (c, uid) =>
    let s := (s.account c 3 ns).setPool (64 + uid) (markPool (s.pool (64 + uid)) x.buffer own refs (out.map (·.1)))
    let s := (s.count (Reg.MED_ENG_PICS e)).modEngine e (fun x => { x with job := none })
    .next (s.recordPicDone c uid).feedEngines
  | none, none => .next s

/-- A record whose decode faulted is decoded again from its start on another engine, once; a second fault rejects it (R505). -/
def State.faultRecord (s : State) (e c uid : Nat) : State :=
  let s := s.modEngine e (fun x => { x with job := none })
  match (s.ing c).reading.find? (fun r => r.uid == uid) with
  | none => s
  | some r =>
    if r.faulted.isSome then s.rejectDecode c r 0x21
    else (s.modReading c uid (fun r => { r with faulted := some e, pics := r.picsAll })).setPool (64 + uid) (List.replicate (s.pool (64 + uid)).length {})

/-- DECODE_TIMEOUT (R505): the picture in progress on an engine counts as a decode-engine fault, after `ns` of busy time (R401). -/
def execDecodeTimeout (e : Fin 4) (ns : Nat) (s : State) : Host.Outcome State Fault Refusal :=
  let x := s.engine e
  match x.current, x.job with
  | some p, _ => .next (((s.account (s.liveCtx p.stream) 3 ns).abandonPic e).unitEvent 10 e 0x0B false none).feedEngines
  | none, some (c, uid) => .next (((s.account c 3 ns).faultRecord e c uid).unitEvent 10 e 0x0B false none).feedEngines
  | none, none => .next s

/-- LIVE_PICTURE_LATE (R488): the oldest picture of the stream that waits for its decode. -/
def execLivePictureLate (st : Fin 64) (s : State) : Host.Outcome State Fault Refusal :=
  match (s.stream st).waiting with
  | [] => .next s
  | p :: t => .next (((s.modLive st (fun v => { v with waiting := t })).event (Reg.MED_LIVE_EVENT st) 0).dropPic p |>.skipToRap st)

/-- MED_LIVE_CTRL as it is stored, and whether a field was clamped (R507). -/
def liveCtrl (v : Nat) : Nat × Bool :=
  let v := v &&& 0xB0FF00FF
  if bits v 29 28 = 3 then (v - 2 ^ 28, true) else (v, false)

/-- LIVE_STREAM_ENABLE (R485, R489, R507): a write of MED_LIVE_CTRL, accepted while the contexts it concerns are STOPPED. EN admits the stream, or
refuses it; without EN it is off. -/
def execLiveStreamEnable (st : Fin 64) (v : W32) (s : State) : Host.Outcome State Fault Refusal :=
  let old := s.regN (Reg.MED_LIVE_CTRL st)
  let stopped := fun (c : Nat) => (s.hasp c).phase == .stopped
  if !stopped (v.toNat % 16) ∨ (bit old 31 ∧ !stopped (old % 16)) then .next (s.event Reg.MED_FE_EVENT 5)
  else
    let (w, clamped) := liveCtrl v.toNat
    let s := (((s.setRegN (Reg.MED_LIVE_CTRL st) w).eventIf clamped Reg.MED_FE_EVENT 6).dropWaiting st).releaseStream st
    let s := (s.modLive st (fun _ => {})).setPool st []
    if !bit w 31 then .next s.feedEngines
    else match s.admitStream st 2 with
      | (s, true) => .next ((s.setPool st (List.replicate (s.livePool st) {})).feedEngines)
      | (s, false) => .next (s.event (Reg.MED_LIVE_EVENT st) 4)

/-! Tokeniser tables and the firmware switch. -/

/-- Whether a tokeniser table stands (R502). -/
def tokTableOk (b : Bytes) : Bool :=
  decide (1088 ≤ b.length) && u32 b 0 == 0x4B544B49 && decide (u32 b 4 ≤ 262144) && b.length == 1088 + 12 * u32 b 4 && zeroAt b 8 52 &&
    u32 b 60 == crc32c (b.take 60 ++ zeros 4 ++ b.drop 64)

/-- Whether a slot of a KEYED context names tokeniser table `i` (R502). -/
def State.tokNamed (s : State) (i : Nat) : Bool :=
  (List.range 16).any (fun c => (s.ctx c).adm == .keyed && (s.ingSlots c).any (fun p => p.2.tflags % 4 == i))

/-- TOK_LOAD (R502, R519). -/
def execTokLoad (fn : Fin 17) (cmd : HostCmd) (s : State) : Host.Outcome State Fault Refusal :=
  s.adminCmd fn 3 cmd (fun s =>
    if 4 ≤ cmd.arg0 ∨ !tokTableOk cmd.payload then s.complete fn 3 cmd 7
    else if s.mediaGone ∨ s.tokNamed cmd.arg0 then s.complete fn 3 cmd 2
    else (s.modMedia (fun m => { m with tokens := tput m.tokens cmd.arg0 cmd.payload })).complete fn 3 cmd 0)

/-- Answers the outstanding host requests to the front end with UNIT_GONE (R506, R551): RECORD commands whose record is in no batch yet, live
pictures that wait, open sensor frames. -/
def State.answerGone (s : State) : State :=
  let s := s.over (List.range 16) (fun s c =>
    let i := s.ing c
    let s := s.over ((i.reading ++ i.bins.map (·.2)).filterMap (fun r => r.cmd)) (fun s p => s.complete p.1 0x20 p.2 2)
    s.modIng c (fun i => { i with reading := i.reading.map (fun r => { r with cmd := none }), bins := i.bins.map (fun p => (p.1, { p.2 with cmd := none })) }))
  let s := s.over (List.range 64) (fun s st =>
    let s := s.over (s.stream st).waiting (fun s p => s.complete p.cmd.1 0x21 p.cmd.2 2)
    if (s.stream st).waiting = [] then s else s.modLive st (fun v => { v with waiting := [], skipping := true }))
  s.over (List.range 64) (fun s st =>
    match (tget (fun _ => {}) s.media.sensors st).cmd with
    | some (fn, x) => (s.modMedia (fun m => { m with sensors := tput m.sensors st {} })).complete fn 0x22 x 2
    | none => s)

/-- Whether the front end has still to finish what the old firmware began (R506): a record allocated and not decoded, a live picture in an engine. -/
def State.mediaBusy (s : State) : Bool :=
  (List.range 16).any (fun c => (s.ing c).reading.any (fun r => !r.decoded)) || (List.range 4).any (fun e => (s.engine e).current.isSome)

/-- MEDIA_FW_SWITCH_DONE (R506): once the records allocated are decoded and every live stream stands at a picture boundary, requests are answered, the
generation rises, and ingest resumes; host requests of the new generation wait for the next commit, unless no plan is loaded. -/
def execMediaFwSwitchDone (s : State) : Host.Outcome State Fault Refusal :=
  if !s.media.switching ∨ s.mediaBusy then .next s
  else
    let s := s.answerGone.modMedia (fun m => { m with switching := false })
    let s := (s.setRegN Reg.MED_FW_GEN ((s.regN Reg.MED_FW_GEN + 1) % 256)).event Reg.MED_FE_EVENT 2
    let s := match s.mgmt.verified.find? (fun p => p.1 == 2) with
      | some (_, b) => { s.setReg Reg.MED_FW_VERSION (Config.imageVersion b) with mgmt := { s.mgmt with inUse := tput s.mgmt.inUse 2 b } }
      | none => s
    .next (if s.anyLoaded then s.returnLater 16 else s).feedEngines

end Sys2Proof.Machine
end

