-- ==== Sys2Proof/Machine/RegRead.lean ====
section
/-! DEFINITION. Reading registers: the value of every register (R10, R12), of those that mirror other state group by group, what a read latches (R403, R581, R631), and the access rules (R608, R609, R611, R613). -/

namespace Sys2Proof.Machine

/-- Group and offset within the group of a register in a run of `count` groups, `stride` bytes apart. -/
def groupAt (off base stride count : Nat) : Option (Nat × Nat) :=
  if base ≤ off ∧ off < base + stride * count then some ((off - base) / stride, (off - base) % stride) else none

/-- Number of a tick state (TCK_STATUS.STATE). -/
def TickRun.code : TickRun → Nat
  | .stopped => 0
  | .aligning => 1
  | .running => 2
  | .adrift => 3

/-- Number of an admission state (CTX_STATUS.STATE). -/
def Adm.code : Adm → Nat
  | .free => 0
  | .zeroing => 1
  | .keyed => 2

/-- Number of a ring set's state (RING_STATUS.STATE). -/
def RingRun.code : RingRun → Nat
  | .disabled => 0
  | .starting => 1
  | .running => 2
  | .error => 3

/-! Registers that mirror other state: none where the stored value stands. -/

/-- Identity (R612): the low word of the serial number, the revision, the order code. -/
def identityReg (off : Nat) : Option Nat :=
  match off with
  | 0x04 => some Config.fusedRev.toNat
  | 0x08 => some Config.fusedOrder.toNat
  | 0x0C => some (Config.fusedSerial.toNat % 2 ^ 32)
  | _ => none

/-- Reset and clocks: RST_STATUS (R561), CLK_STATUS (R562). -/
def State.resetReg (s : State) (off : Nat) : Option Nat :=
  let r := s.rst
  let k := s.clk
  if off = Reg.RST_STATUS then
    some (r.lastScope + r.optCopy * 4 + b2n r.optFail * 8 + r.phase * 256 + b2n r.failed * 4096 + b2n r.holdLinks * 8192)
  else if off = Reg.CLK_STATUS then
    some (k.source + b2n k.aOk * 4 + b2n k.bOk * 8 + b2n k.pcieOk * 16 + b2n k.holdover * 32 + b2n k.holdStop * 64)
  else none

/-- A latched forecast entry in W (R581). -/
def State.fcast (s : State) (i : Nat) : Nat := (s.pwr.latchedFc.getD i (0, false)).1 % 65536

/-- Power (R588): PWR_STATUS, the low word of the energy, the latched forecast group. -/
def State.powerReg (s : State) (off : Nat) : Option Nat :=
  let p := s.pwr
  let est := fun (k : Nat) => maskOf (pick 32 (fun i => (p.latchedFc.getD (k + i) (0, false)).2))
  if off = Reg.PWR_STATUS then
    some (p.rung + p.stage * 16 + b2n p.shed * 64 + b2n p.capped * 128 + b2n (p.dieThrottle != 0) * 256 + b2n p.stackThrottle * 512 + b2n (p.rung == 0 && decide (0 < p.fill)) * 1024 +
      b2n s.slowWard * 2048)
  else if off = Reg.PWR_ENERGY_LO then some (p.energy.toNat % 2 ^ 32)
  else if off = Reg.PWR_FCAST_TICK_LO then some (p.latchedTick.toNat % 2 ^ 32)
  else if off = Reg.PWR_FCAST_TICK_HI then some (p.latchedTick.toNat / 2 ^ 32)
  else if off = Reg.PWR_FCAST_MEAN then some (p.latchedMean % 65536)
  else if off = Reg.PWR_FCAST_EST_LO then some (est 0)
  else if off = Reg.PWR_FCAST_EST_HI then some (est 32)
  else (groupAt off 0x00020280 4 32).map (fun g => s.fcast (2 * g.1) + s.fcast (2 * g.1 + 1) * 65536)

/-- Tick (R65): TCK_STATUS over its stored write marks, the tick number, the term, the offset in 1/16 ns, rounded toward minus infinity (DESIGN CHOICE, log
entry 51). -/
def State.tickReg (s : State) (off : Nat) : Option Nat :=
  let t := s.tick
  if off = Reg.TCK_STATUS then some (t.run.code + b2n t.master * 16 + b2n t.deputy * 32 + s.regN off / 64 % 4 * 64)
  else if off = Reg.TCK_NOW_LO then some (t.now % 2 ^ 32)
  else if off = Reg.TCK_TERM then some t.seenTerm
  else if off = Reg.TCK_OFFSET then some (ofSigned 32 (t.offsetNs / 4096))
  else none

/-- Contexts and accounting (R404, R405, R401, R403). -/
def State.contextReg (s : State) (off : Nat) : Option Nat :=
  let word := fun (v : W64) (hi : Bool) => if hi then v.toNat / 2 ^ 32 else v.toNat % 2 ^ 32
  match groupAt off 0x00080000 0x40 16 with
  | some (c, 0) =>
    let x := s.ctx c
    some (x.adm.code + b2n (s.loaded c && !x.hasp.run) * 4 + x.reason * 256 + x.code * 65536)
  | _ =>
    match groupAt off 0x00081000 0x100 16 with
    | some (c, o) =>
      let a := (s.ctx c).acc
      if o < 0x78 then some (word (tget (fun _ => 0#64) a.live (o / 8)) false)
      else if 0x80 ≤ o ∧ o < 0xF8 then some (word (tget (fun _ => 0#64) a.latched ((o - 0x80) / 8)) (o % 8 != 0))
      else if o = 0xF8 then some a.latchedEpoch.toNat
      else if o = 0xFC then some a.latchedGen.toNat
      else none
    | none =>
      if off = Reg.CTX_SELECT_NOW_LO then some (word s.tick.selector false)
      else if off = Reg.CTX_SELECT_NOW_HI then some (word s.tick.selector true)
      else if off = Reg.CTX_BOLT_VAL then some (s.bolt s.selBolt).count.toNat
      else if off = Reg.ACC_UNCHARGED_MJ_LO then some (word s.pwr.uncharged false)
      else none

/-- STATE of a memory tier whose bring-up phase is `n`: not ready, training, ready, self-refresh (R276, R306). -/
def State.tierState (s : State) (n : Nat) (asleep : Bool) : Nat := if asleep then 3 else if s.rst.active ∨ s.rst.phase < n then 0 else if s.rst.phase = n then 1 else 2

/-- The bank with the fewest spare rows and what is left there: the lowest-numbered of equals (MEM_STK_SPARES). -/
def State.fewestSpares (s : State) : Nat :=
  let p := s.stack.spares.foldl (fun (a : Nat × Nat) p => if p.2 < a.2 ∨ (p.2 = a.2 ∧ p.1 < a.1 ∧ p.2 < 128) then p else a) (0, 128)
  p.1 * 256 + p.2

/-- Memory tiers (R203, R276, R306). -/
def State.memoryReg (s : State) (off : Nat) : Option Nat :=
  let k := s.stack
  let f := s.flash
  if off = Reg.MEM_STK_STATUS then
    some (s.tierState 6 k.selfRefresh + b2n (!k.fenced.isEmpty) * 4 + b2n (k.refreshFloor || decide (1 ≤ k.band)) * 8 + k.band * 16 + s.regN off / 256 % 2 * 256 +
      (hottestOf k.readings).2 * 512)
  else if off = Reg.MEM_STK_PENDING then some (k.pending.length % 8192)
  else if off = Reg.MEM_STK_SPARES then some s.fewestSpares
  else if off = Reg.MEM_LP_STATUS then some ((if s.regN off / 4 % 2 = 1 then 0 else s.tierState 7 s.lp.selfRefresh) + s.regN off / 4 % 2 * 4 + s.regN off / 256 % 2 * 256)
  else if off = Reg.MEM_FL_STATUS then some (f.mount + b2n (f.mount == 2 && !f.rebuilding.isEmpty) * 4 + b2n (f.mount == 2 && f.readOnly) * 8 + b2n s.inhibited * 16)
  else if off = Reg.MEM_FL_CAP_LO then some (if f.mount = 2 then s.flashBlocks % 2 ^ 32 else 0)
  else if off = Reg.MEM_FL_CAP_HI then some (if f.mount = 2 then s.flashBlocks / 2 ^ 32 % 16 else 0)
  else if off = Reg.MEM_FL_DIRTY then some ((f.cache.map (·.1)).eraseDups.length % 2 ^ 32)
  else if off = Reg.MEM_FL_LIFE then some (if f.mount = 2 then (Config.flashLife f.programs).toNat else 0)
  else if off = Reg.MEM_FL_WRATE then some (if f.mount = 2 then (Config.flashRate f.programs).toNat else 0)
  else match groupAt off 0x00208000 0x40 16 with
    | some (c, 0x20) => some ((s.ctx c).kv.free.length % 2 ^ 24)
    | _ => none

/-- What a link's neighbour record says at byte `i`, `n` bytes; `d` without one (R337). -/
def State.peer (s : State) (l i n d : Nat) : Nat :=
  match (s.link l).record with
  | some b => le b i n
  | none => d

/-- FAB_STATUS.STATE (R345): tables are in force once a sealed bank has come into force (DEDUCED, log entry 70). -/
def State.fabState (s : State) : Nat :=
  if s.rst.active ∨ s.rst.phase < 10 then 0 else if s.fabric.inForce.sealed then 3 else if s.addr = 0xFFFF then 1 else 2

/-- Fabric and collectives (R345, R379): links 7 to 23 are long (R309). -/
def State.fabricReg (s : State) (off : Nat) : Option Nat :=
  if off = Reg.FAB_STATUS then
    some (s.fabState + b2n ((List.range 16).any (fun c => s.reg (Reg.FAB_ROUTED c) != 0#32)) * 4 + b2n s.fabric.missing * 8)
  else if off = Reg.FAB_PLACE then some (s.fabric.inForce.version % 65536 + (if s.fabric.standby.sealed then s.fabric.standby.version % 65536 else 0) * 65536)
  else match groupAt off 0x00400100 0x20 24 with
    | some (l, 0x00) => some ((s.link l).state + (s.link l).reason * 16 + b2n (decide (7 ≤ l ∧ (s.link l).state ≠ 0)) * 128)
    | some (l, 0x04) => some (s.peer l 20 2 0xFFFF + s.peer l 17 1 0 % 32 * 65536)
    | some (l, 0x08) => some (s.peer l 0 4 0)
    | some (l, 0x0C) => some (s.peer l 4 4 0)
    | _ => match groupAt off 0x00400800 0x40 16 with
      | some (c, 0x20) => some (s.ctx c).perm.state
      | _ => none

/-- Hasps and twins (R96, R434). -/
def State.haspReg (s : State) (off : Nat) : Option Nat :=
  match groupAt off 0x00601000 0x40 16 with
  | none => none
  | some (c, o) =>
    let h := s.hasp c
    let t := (s.ctx c).twin
    let a := if s.loaded c then s.twinAddr c else 0xFFFF
    match o with
    | 0x00 => some (h.phase.code + h.lastCmd * 16)
    | 0x04 => some h.gen.toNat
    | 0x08 => some h.shown
    | 0x0C => some (h.clear.getD 0xFFFFFFFF)
    | 0x10 => some ((h.durables.getLast?.map (·.1)).getD 0xFFFFFFFF)
    | 0x1C => some ((s.ctx c).effects.length % 32768)
    | 0x28 => some (t.guard.seat % 65536 + t.guard.state * 65536)
    | 0x2C => some t.guard.epoch
    | 0x30 => some (s.unclean64 c).length
    | 0x34 => some (a + t.path * 65536 + b2n (s.loaded c && a != 0xFFFF && !s.pairDirect c) * 2 ^ 19 + b2n (s.isUnguarded c) * 2 ^ 20)
    | _ => none

/-- Checker (R455): CHK_STATUS and the tile maps. -/
def State.checkerReg (s : State) (off : Nat) : Option Nat :=
  if off = Reg.CHK_STATUS then some (maskOf (pick 16 (fun w => (s.tileMap w).spare.isNone)) + b2n (!s.chk.degraded.isEmpty) * 65536)
  else match groupAt off 0x00680400 0x10 16 with
    | none => none
    | some (w, o) =>
      let m := s.tileMap w
      let part := fun (k n : Nat) => (List.range n).foldl (fun a i => a + m.map.getD (k + i) 0 * 32 ^ i) 0
      match o with
      | 0x00 => some (part 0 6)
      | 0x04 => some (part 6 6)
      | 0x08 => some (part 12 4)
      | 0x0C => some (maskOf m.fenced + m.spare.getD 0x1F * 2 ^ 18 + m.pending.getD 0x1F * 2 ^ 24)
      | _ => none

/-- Media front end (R473, R507). -/
def State.mediaReg (s : State) (off : Nat) : Option Nat :=
  match groupAt off 0x00700000 0x20 4 with
  | some (e, 0x00) =>
    let x := s.engine e
    some (x.service + tget (fun _ => 0) s.chk.classes (unitKey 10 e) * 256 + x.load * 65536)
  | _ =>
    match groupAt off 0x00704000 0x40 16 with
    | some (c, 0x00) => let g := (s.ctx c).ing; some (g.bins.length % 65536 + b2n g.pausedReading * 65536)
    | _ =>
      match groupAt off 0x00705000 0x20 64 with
      | some (st, 0x14) => let v := s.stream st; some (v.status + v.engine * 256 + v.load * 65536)
      | _ => none

/-- Ring sets (R534). -/
def State.ringReg (s : State) (off : Nat) : Option Nat :=
  let fn := if off / 65536 = 0x10 then some 0 else if 0x101 ≤ off / 65536 ∧ off / 65536 ≤ 0x110 then some (off / 65536 - 0x100) else none
  match fn, off % 65536 with
  | some f, 0x04 => let r := s.ring f; some (r.run.code + b2n r.stalled * 4 + r.reason * 256)
  | some f, 0x4C => some ((s.ring f).reserved % 2 ^ 21)
  | _, _ => none

/-- The live value of a register that another one's read latches into its high word: the offset of the high word and its value (R631). -/
def State.highWord (s : State) (off : Nat) : Option (Nat × Nat) :=
  if off = Reg.ID_SERIAL_LO then some (Reg.ID_SERIAL_HI, Config.fusedSerial.toNat / 2 ^ 32)
  else if off = Reg.PWR_ENERGY_LO then some (Reg.PWR_ENERGY_HI, s.pwr.energy.toNat / 2 ^ 32)
  else if off = Reg.TCK_NOW_LO then some (Reg.TCK_NOW_HI, s.tick.now / 2 ^ 32)
  else if off = Reg.ACC_UNCHARGED_MJ_LO then some (Reg.ACC_UNCHARGED_MJ_HI, s.pwr.uncharged.toNat / 2 ^ 32)
  else if off = Reg.HSP_MIRROR_LO then some (Reg.HSP_MIRROR_HI, s.regN Reg.HSP_MIRROR_HI)
  else match groupAt off 0x00081000 0x100 16 with
    | some (c, o) => if o < 0x78 ∧ o % 8 = 0 then some (off + 4, (tget (fun _ => 0#64) (s.ctx c).acc.live (o / 8)).toNat / 2 ^ 32) else none
    | none => none

/-- Whether a register is the high word of a latched pair (R631). -/
def latchedHigh (off : Nat) : Bool :=
  [Reg.ID_SERIAL_HI, Reg.PWR_ENERGY_HI, Reg.TCK_NOW_HI, Reg.ACC_UNCHARGED_MJ_HI, Reg.HSP_MIRROR_HI].contains off ||
    (match groupAt off 0x00081000 0x100 16 with
     | some (_, o) => decide (o < 0x78 ∧ o % 8 = 4)
     | none => false)

/-- The value of a latched high word: the one captured last, else its reset value, which for ID_SERIAL_HI is the fused one (R631). -/
def State.latchValue (s : State) (off : Nat) : W32 :=
  if off = Reg.ID_SERIAL_HI then BitVec.ofNat 32 (Config.fusedSerial.toNat / 2 ^ 32) else tget regReset s.latches off

/-- The value that a register returns (R10, R608): 0 where there is none, and of a write-only one. -/
def State.regValue (s : State) (off : Nat) : W32 :=
  match regRow off with
  | none => 0#32
  | some r =>
    if r.acc = .wo then 0#32
    else if latchedHigh off then s.latchValue off
    else
      let m := [identityReg off, s.resetReg off, s.powerReg off, s.tickReg off, s.contextReg off, s.memoryReg off, s.fabricReg off, s.haspReg off, s.checkerReg off,
        s.mediaReg off, s.ringReg off]
      match m.findSome? id with
      | some v => BitVec.ofNat 32 v
      | none => s.reg off

/-! Reading. -/

/-- A read of a low word latches its high word (R631). -/
def State.latchHigh (s : State) (off : Nat) : State :=
  match s.highWord off with
  | some (hi, v) => { s with latches := tput s.latches hi (BitVec.ofNat 32 v) }
  | none => s

/-- A read of ACC_SNAP_EPOCH latches the snapshot group (R403). -/
def State.latchSnap (s : State) (c : Nat) : State :=
  s.modCtx c (fun x => { x with acc := { x.acc with latched := x.acc.snap, latchedEpoch := x.acc.snapEpoch, latchedGen := x.acc.snapGen } })

/-- A read of PWR_FCAST_TICK_LO, or of sensor 7, latches the forecast group (R581, R602). -/
def State.latchForecast (s : State) : State :=
  s.modPwr (fun p => { p with latchedFc := p.forecast, latchedTick := BitVec.ofNat 64 p.forecastTick, latchedMean := p.forecastMean })

/-- What reading a register latches. -/
def State.readEffect (s : State) (off : Nat) : State :=
  match groupAt off 0x00081000 0x100 16 with
  | some (c, 0xF8) => s.latchSnap c
  | _ => if off = Reg.PWR_FCAST_TICK_LO then s.latchForecast else s.latchHigh off

/-- Whether an offset lies in the DBG_ block (R608). -/
def debugBlock (off : Nat) : Bool := decide (0x00C00000 ≤ off ∧ off < 0x01000000)

/-- A read of one register: its value, after what the read latches. How far a good reference lies off is measured, and what an unlocked DBG_ block holds
the manual does not say: both are free values (R560, R613, log entry 2). -/
def State.readReg (s : State) (off : Nat) : W32 × State :=
  let s := s.readEffect off
  if (off = Reg.CLK_PPM_A ∧ s.clk.aOk) ∨ (off = Reg.CLK_PPM_B ∧ s.clk.bOk) then
    let d := s.draw
    ((Config.freeWord d.1) &&& 0xFFFF#32, d.2)
  else if debugBlock off then
    if s.mgmt.debug then let d := s.draw; (Config.freeWord d.1, d.2) else (0#32, s)
  else (s.regValue off, s)

/-- Device offset of an offset in a function's BAR: BAR0 of the PF, the VF BAR of a VF (R608, R611). -/
def regAddr (fn off : Nat) : Nat := if fn = 0 then off % 0x01000000 else ringBase fn + off % 65536

/-- Whether `off` is the low word of a LO/HI pair that an 8-byte access may cover (R609). -/
def pairLow (off : Nat) : Bool :=
  [Reg.PWR_ENERGY_LO, Reg.PWR_FCAST_TICK_LO, Reg.TCK_NOW_LO, Reg.CTX_SELECT_LO, Reg.CTX_SELECT_NOW_LO, Reg.ACC_UNCHARGED_MJ_LO].contains off ||
    (match groupAt off 0x00081000 0x100 16 with | some (_, o) => decide (o < 0xF8) | none => false) ||
    (match groupAt off 0x00400100 0x20 24 with | some (_, o) => o == 8 | none => false) ||
    (match groupAt off 0x00400800 0x40 16 with | some (_, o) => o == 0x28 | none => false) ||
    ((regRow off).isSome && (off / 65536 == 0x10 || decide (0x01000000 ≤ off)) && [0x10, 0x18, 0x20, 0x28, 0x38].contains (off % 65536))

/-- Whether `off` lies in an MSI-X table or pending-bit array (R529, R609, R611). -/
def msixArea (off : Nat) : Bool :=
  (off / 65536 == 0x10 || decide (0x01000000 ≤ off)) && (decide (0x8000 ≤ off % 65536 ∧ off % 65536 < 0x8020) || decide (0x9000 ≤ off % 65536 ∧ off % 65536 < 0x9008))

/-- Whether the device serves an access of a size at a device offset (R609). -/
def accessOk (off size : Nat) : Bool := (size == 4 && off % 4 == 0) || (size == 8 && off % 8 == 0 && (pairLow off || msixArea off))

/-- A read through a function's BAR (R609): a refused one returns 0 and is counted. -/
def State.barRead (s : State) (fn off size : Nat) : Nat × State :=
  let a := regAddr fn off
  if !accessOk a size then (0, s.count Reg.ID_BAD_ACCESS)
  else
    let lo := s.readReg a
    if size = 4 then (lo.1.toNat, lo.2)
    else
      let hi := lo.2.readReg (a + 4)
      (lo.1.toNat + hi.1.toNat * 2 ^ 32, hi.2)

/-- A read through a BAR with its answer. -/
def State.readBar (s : State) (fn off size : Nat) : State :=
  let r := s.barRead fn off size
  r.2.emit (.regRead fn off r.1)

/-- LO_WORD_READ (R609, R631): a read through a function's BAR. -/
def execLoWordRead (fn : Fin 17) (off : Nat) (size : Nat) (s : State) : Host.Outcome State Fault Refusal := .next (s.readBar fn off size)

/-- ACC_SNAP_EPOCH_READ (R403). -/
def execAccSnapEpochRead (c : Fin 16) (s : State) : Host.Outcome State Fault Refusal := .next (s.readBar 0 (Reg.ACC_SNAP_EPOCH c) 4)

/-- PWR_FCAST_TICK_LO_READ (R581). -/
def execPwrFcastTickLoRead (s : State) : Host.Outcome State Fault Refusal := .next (s.readBar 0 Reg.PWR_FCAST_TICK_LO 4)

end Sys2Proof.Machine
end

