-- ==== Sys2Proof/Machine/Rings.lean ====
section
/-! DEFINITION. Ring sets (R509 to R534): enabling, polling, interrupts, disabling, and the resets of the host interface; and the ring commands that need no other unit: NOP, WAIT_EPOCH and BOLT (R520). -/

namespace Sys2Proof.Machine

/-- RING_ENABLE (R509, R530): acts only while DISABLED. -/
def execRingEnable (fn : Fin 17) (s : State) : Host.Outcome State Fault Refusal :=
  if (s.ring fn).run ≠ .disabled ∨ s.rst.hostReset then .next s
  else
    let s := s.setRegN (Reg.RING_CTRL fn) 1
    if fn.val ≠ 0 ∧ s.fnCtx fn = none then .next (s.ringError fn 4)
    else
      let low := fun (off n : Nat) => s.regN off % n == 0
      let z := s.regN (Reg.RING_SIZES fn)
      let sizes := decide (10 ≤ bits z 4 0 ∧ bits z 4 0 ≤ 20 ∧ 6 ≤ bits z 12 8 ∧ bits z 12 8 ≤ 20 ∧ 10 ≤ bits z 20 16 ∧ bits z 20 16 ≤ 20)
      if low (Reg.RING_CB_LO fn) 64 && low (Reg.RING_CMD_LO fn) 4096 && low (Reg.RING_CPL_LO fn) 4096 && low (Reg.RING_EVT_LO fn) 4096 && sizes then
        .next (s.modRing fn (fun r => { r with run := .starting }))
      else .next (s.ringError fn 1)

/-- RING_UP (R524, R530, R532): phase and held completions dropped in detail A, the last RECORD accepted in detail B; then the held entries. -/
def State.ringUp (s : State) (fn : Nat) : State :=
  let r := s.ring fn
  let up : Event :=
    match s.fnCtx fn with
    | some c => s.mkEvent c 1 0 (s.hasp c).shown ((s.hasp c).phase.code + r.dropped * 65536) (s.ctx c).ing.lastRecord.toNat
    | none => ⟨1, 0, 0, 0, s.tick.now, 0#16, r.dropped * 65536, 0⟩
  let s := s.modRing fn (fun r => { r with run := .running, held := [], dropped := 0 })
  let s := (s.writeEntry fn (.event up)).event (Reg.RING_EVENT fn) 0
  s.over r.held (fun s e => s.ringPush fn false e)

/-- Writes CMD_HEAD into the control block when it has moved (R510, R528). -/
def State.showHead (s : State) (fn : Nat) : State :=
  let h := (s.ring fn).head
  if h = (s.ring fn).headOut then s
  else
    (s.modRing fn (fun r => { r with headOut := h })).emit (.host fn (s.regN (Reg.RING_CB_HI fn) * 2 ^ 32 + s.regN (Reg.RING_CB_LO fn) + 8) (toLe 8 h))

/-- RING_POLL (R512, R527, R528, R530): with the index words that the device reads and the packets that the tail covers. -/
def execRingPoll (fn : Fin 17) (words : RingWords) (pkts : List RingPacket) (s : State) : Host.Outcome State Fault Refusal :=
  if s.rst.hostReset ∨ s.rst.returning.contains 18 then .next s
  else
    match (s.ring fn).run with
    | .starting => if words = ⟨0, 0, 0, 0, 0, 0⟩ then .next (s.ringUp fn) else .next (s.ringError fn 2)
    | .running =>
      let r := s.ring fn
      if words.cmdTail < r.head ∨ r.head + (s.ringSizes fn).1 < words.cmdTail then .next (s.ringError fn 2)
      else
        let s := s.modRing fn (fun r => { r with cmdTail := words.cmdTail, cplHead := words.cplHead, evtHead := words.evtHead, stalled := false })
        .next ((fetchGo fn pkts (s.ringDrain fn)).showHead fn)
    | _ => .next s

/-- RING_DISABLE (R531). -/
def execRingDisable (fn : Fin 17) (s : State) : Host.Outcome State Fault Refusal := .next ((s.setRegN (Reg.RING_CTRL fn) 0).disableRing fn)

/-- IRQ_TIMER (R529). -/
def execIrqTimer (fn : Fin 17) (vec : Fin 2) (s : State) : Host.Outcome State Fault Refusal :=
  let r := s.ring fn
  let n := if vec.val = 0 then r.unsignalled0 else r.unsignalled1
  if n = 0 then .next s
  else .next ((s.modRing fn (fun r => if vec.val = 0 then { r with unsignalled0 := 0 } else { r with unsignalled1 := 0 })).signal fn vec)

/-- FUNCTION_LEVEL_RESET (R531): of the PF it reaches every ring set. -/
def execFunctionLevelReset (fn : Fin 17) (s : State) : Host.Outcome State Fault Refusal :=
  if fn.val = 0 then .next (s.over (List.range 17) (fun s f => (s.disableRing f).clearRingRegs f)) else .next ((s.disableRing fn).clearRingRegs fn)

/-- PERST_ASSERT (R533, R535, R551). -/
def execPerstAssert (s : State) : Host.Outcome State Fault Refusal :=
  if s.rst.hostReset then .next s
  else
    let s := ((s.resetHost.event Reg.RST_CAUSE 3).setRegN Reg.RST_HOST_GEN ((s.regN Reg.RST_HOST_GEN + 1) % 256)).returnLater 18
    .next { s with rst := { s.rst with hostReset := true, lastScope := 2 } }

/-- PERST_RELEASE (R533): the host interface may start again. -/
def execPerstRelease (s : State) : Host.Outcome State Fault Refusal := .next { s with rst := { s.rst with hostReset := false } }

/-- D3HOT_ENTRY (R533). -/
def execD3hotEntry (fn : Fin 17) (s : State) : Host.Outcome State Fault Refusal := .next (s.resetRing fn)

/-- NOP (R519, R520). -/
def execNop (fn : Fin 17) (cmd : HostCmd) (s : State) : Host.Outcome State Fault Refusal :=
  match s.takeCmd fn 1 cmd with
  | some s => .next (s.complete fn 1 cmd 0)
  | none => .next s

/-- WAIT_EPOCH (R393, R520): answered at once when the epoch is committed or the context is HALTED; otherwise it waits, until a boundary that pauses the
context at the latest. -/
def execWaitEpoch (fn : Fin 17) (cmd : HostCmd) (s : State) : Host.Outcome State Fault Refusal :=
  s.vfCmd fn 0x13 cmd (fun c s =>
    if cmd.arg0 ≤ (s.hasp c).shown then s.complete fn 0x13 cmd 0
    else if (s.hasp c).phase = .halted then s.complete fn 0x13 cmd 4
    else s.modCtx c (fun x => { x with waits := x.waits ++ [(fn.val, cmd)] }))

/-- RING_BOLT_ADD (R395, R520): requester 290 adds to a bolt of the context's range. -/
def execRingBoltAdd (fn : Fin 17) (cmd : HostCmd) (s : State) : Host.Outcome State Fault Refusal :=
  s.vfCmd fn 0x16 cmd (fun c s =>
    let b := cmd.arg1 % 65536
    if cmd.arg0 % 4 ≠ 1 then s.complete fn 0x16 cmd 7
    else if s.ownBolt c b then (s.boltAdd c b (BitVec.ofNat 32 cmd.arg2)).complete fn 0x16 cmd 0
    else s.complete fn 0x16 cmd 8)

/-- RING_BOLT_SET (R395, R520). -/
def execRingBoltSet (fn : Fin 17) (cmd : HostCmd) (s : State) : Host.Outcome State Fault Refusal :=
  s.vfCmd fn 0x16 cmd (fun c s =>
    let b := cmd.arg1 % 65536
    if cmd.arg0 % 4 ≠ 2 then s.complete fn 0x16 cmd 7
    else if s.ownBolt c b then (s.boltSet b (BitVec.ofNat 32 cmd.arg2)).complete fn 0x16 cmd 0
    else s.complete fn 0x16 cmd 8)

end Sys2Proof.Machine
end

