-- ==== Sys2Proof/Machine/RegWrite.lean ====
section
/-! DEFINITION. Writing registers: the acceptance, clamping and effects of every register that software writes (R10, R11, R608 to R614), block by block, for BAR0, the VF BARs, the fabric manager (R340) and management (R594). -/

namespace Sys2Proof.Machine

/-- Replaces bits [hi:lo] of a number. -/
def putBits (v hi lo x : Nat) : Nat := v - bits v hi lo * 2 ^ lo + x * 2 ^ lo

/-- Brings fields (hi, lo, least, greatest) of a value into their ranges. -/
def clampFields (l : List (Nat × Nat × Nat × Nat)) (v : Nat) : Nat := l.foldl (fun v f => putBits v f.1 f.2.1 (clamp f.2.2.1 f.2.2.2 (bits v f.1 f.2.1))) v

/-- The multiple of `m`, at most `top`, that is nearest to `v`; the lower of two. -/
def nearest (m top v : Nat) : Nat := min (top / m * m) (if v % m * 2 ≤ m then v / m * m else (v / m + 1) * m)

/-- Stores `w` for a written `v`, with the CLAMPED bit when they differ. -/
def State.storeReg (s : State) (off v w ev i : Nat) : State := (s.setRegN off w).eventIf (w != v) ev i

/-- The state that an outcome goes on in. -/
def State.via (s : State) (o : Host.Outcome State Fault Refusal) : State :=
  match o with
  | .next t => t
  | _ => s

/-- Whether a context is STOPPED. -/
def State.isStopped (s : State) (c : Nat) : Bool := (s.hasp c).phase == .stopped
/-- Whether every context is STOPPED. -/
def State.allStopped (s : State) : Bool := (List.range 16).all s.isStopped

/-! Power (R566, R572, R573, R577, R585, R586). -/

/-- Ranges of the power settings: offset and fields. -/
def powerFields (off : Nat) : List (Nat × Nat × Nat × Nat) :=
  if off = Reg.PWR_VIN_RATIO then [(15, 0, 10000, 40000)]
  else if off = Reg.PWR_SHED_CAP ∨ off = Reg.PWR_SAG_CAP then [(15, 0, 400, 2000)]
  else if off = Reg.PWR_SLEW then [(11, 0, 1, 2000)]
  else if off = Reg.PWR_FILL_FLOOR then [(11, 0, 0, 1700)]
  else if off = Reg.PWR_VF then [(7, 0, 10, 80)]
  else []

/-- A write to the power block. -/
def State.writePower (s : State) (off v : Nat) : State :=
  if off = Reg.PWR_LADDER then s.via (execPwrLadderWrite (BitVec.ofNat 32 v) s)
  else if off = Reg.PWR_VIN_THRESH then s.storeReg off v (clampThresh v) Reg.PWR_EVENT 8
  else (s.storeReg off v (clampFields (powerFields off) v) Reg.PWR_EVENT 8).showCap

/-! The tick (R16 to R18, R48, R52, R65, R131). -/

/-- R18 for P in µs, W in ns, g in parts per thousand. -/
def geometryFits (p w g : Nat) : Bool :=
  let u := p * 1200 / 16
  decide (2 * (cdiv (w * 1200) 16000 + cdiv (u * g) 1000) ≤ u)

/-- A geometry value in its range (R16): W in steps of 100 ns. -/
def geometryClamp (off v : Nat) : Nat :=
  if off = Reg.TCK_PERIOD then clamp 10 10000 v
  else if off = Reg.TCK_WINDOW then clamp 1000 4000 (nearest 100 8191 v)
  else clamp 10 200 v

/-- Sets IGNORED and CLAMPED of TCK_STATUS for the last geometry write (R65). -/
def State.markGeometry (s : State) (ignored clamped : Bool) : State := s.setRegN Reg.TCK_STATUS (b2n ignored * 64 + b2n clamped * 128)

/-- A write to a geometry register (R65): ignored unless STOPPED, and where it would break R18. CLAMPED tells whether the written value lay out of range, for
an ignored write too: whether such a write counts as clamped the manual does not say (DESIGN CHOICE, log entry 69). -/
def State.writeGeometry (s : State) (off v : Nat) : State :=
  let w := geometryClamp off v
  let g := fun (r : Nat) => if r = off then w else s.regN r
  if s.tick.run ≠ .stopped ∨ !geometryFits (g Reg.TCK_PERIOD) (g Reg.TCK_WINDOW) (g Reg.TCK_GUARD) then s.markGeometry true (w != v)
  else (s.setRegN off w).markGeometry false (w != v)

/-- A write to the tick block. A rewritten TCK_MASTER names the master again, and the deputy of a tick that runs (R56). -/
def State.writeTick (s : State) (off v : Nat) : State :=
  if [Reg.TCK_PERIOD, Reg.TCK_WINDOW, Reg.TCK_GUARD].contains off then s.writeGeometry off v
  else
    let s := s.setRegN off v
    if off ≠ Reg.TCK_MASTER then s
    else s.modTick (fun t => { t with leader := none, deputy := if t.run = .stopped then t.deputy else !t.master && decide (v / 65536 = s.addr) })

/-! Contexts (R382, R384, R385, R390, R404, R405). -/

/-- A write to a context's keyring group. -/
def State.writeKeyring (s : State) (c : Fin 16) (off o v : Nat) : State :=
  if o = 4 then
    if v % 4 = 1 then s.via (execKey c s) else if v % 4 = 2 then s.via (execRelease c s) else s
  else if s.held c then s.event (Reg.CTX_EVENT c) 2
  else s.setRegN off v

/-- A write to the context block. -/
def State.writeContext (s : State) (off v : Nat) : State :=
  if off = Reg.CTX_SELECT_HI then s.via (execCtxSelectHiWrite (BitVec.ofNat 32 v) s)
  else if off = Reg.CTX_BOLT_VAL then s.via (execCtxBoltValWrite (BitVec.ofNat 32 v) s)
  else if off = Reg.CTX_BOLT_ADD then s.via (execCtxBoltAddWrite (BitVec.ofNat 32 v) s)
  else match groupAt off 0x00080000 0x40 16 with
    | some (c, o) => s.writeKeyring (Fin.ofNat 16 c) off o v
    | none => s.setRegN off v

/-! Ring sets and MSI-X (R529 to R531, R534). -/

/-- Whether a ring set's ARENA registers accept writes: its context has no plan loaded. -/
def State.arenaFree (s : State) (fn : Nat) : Bool :=
  match s.fnCtx fn with
  | some c => !s.loaded c
  | none => true

/-- Ranges of the ring settings. -/
def ringFields (o : Nat) : List (Nat × Nat × Nat × Nat) :=
  match o with
  | 0x0C => [(11, 0, 1, 4000)]
  | 0x30 => [(4, 0, 10, 20), (12, 8, 6, 20), (20, 16, 10, 20)]
  | 0x34 => [(7, 0, 1, 255)]
  | _ => []

/-- A write of an MSI-X word: unmasking a vector whose pending bit is set sends it (log entry 3). -/
def State.writeMsix (s : State) (fn off o v : Nat) : State :=
  let s := s.setRegN off v
  let vec := (o - 0x8000) / 16
  if o % 16 = 12 ∧ v % 2 = 0 ∧ (s.reg (Reg.MSIX_PBA fn)).getLsbD vec then
    (s.setReg (Reg.MSIX_PBA fn) (s.reg (Reg.MSIX_PBA fn) &&& ~~~(1#32 <<< vec))).emit (.msix fn vec)
  else s

/-- A write to a ring set's registers. -/
def State.writeRing (s : State) (fn : Fin 17) (off o v : Nat) : State :=
  if o = 0 then (if v % 2 = 1 then s.via (execRingEnable fn s) else s.via (execRingDisable fn s))
  else if 0x8000 ≤ o then s.writeMsix fn off o v
  else if (0x10 ≤ o ∧ o ≤ 0x30 ∧ (s.ring fn).run ≠ .disabled) ∨ (0x38 ≤ o ∧ !s.arenaFree fn) then s.event (Reg.RING_EVENT fn) 4
  else s.storeReg off v (clampFields (ringFields o) v) (Reg.RING_EVENT fn) 5

/-! Memory tiers (R203, R264, R276, R284, R288, R296, R306). -/

/-- A write of MEM_STK_CTRL: REFRESH_FLOOR changes only while every context is STOPPED, at the next boundary (R264). -/
def State.writeStackCtrl (s : State) (v : Nat) : State :=
  let old := s.regN Reg.MEM_STK_CTRL
  let moves := bit v 1 != bit old 1
  let ok := s.allStopped
  let w := clampFields [(15, 8, 1, 255), (23, 16, 1, 168)] v
  let s := s.eventIf (w != v) Reg.MEM_STK_EVENT 9
  (s.eventIf (moves && !ok) Reg.MEM_STK_EVENT 8).setRegN Reg.MEM_STK_CTRL (if ok then w else putBits w 1 1 (b2n (bit old 1)))

/-- Whether a device-owned LPDDR region may take a value (R284). -/
def State.regionOk (s : State) (off v : Nat) : Bool :=
  let r := ((v % 65536) * 2 ^ 26, (v / 65536) * 2 ^ 26)
  let others := ([Reg.MEM_LP_CLEAR, Reg.MEM_LP_CAND, Reg.MEM_LP_GUARD, Reg.MEM_LP_REPLAY, Reg.MEM_LP_FLCACHE].filter (fun o => o != off)).map s.lpRegion
  s.allStopped && !others.any (overlap r) && !(List.range 16).any (fun c => s.held c && overlap r (s.partition c 4)) && decide (r.1 + r.2 ≤ s.lpBytes ∨ r.2 = 0)

/-- A write of a KV pool register (R203). -/
def State.writePool (s : State) (c off o v : Nat) : State :=
  let ev := Reg.MEM_KV_EVENT c
  if o = 0x1C then
    let old := s.regN off
    let moves := bits v 23 8 != bits old 23 8
    if moves ∧ !s.isStopped c then (s.setRegN off (putBits v 23 8 (bits old 23 8))).event ev 6 else s.setRegN off v
  else if !s.isStopped c then s.event ev 6
  else
    let w := match o with
      | 0x08 => nearest 2048 0xFFFFFF v
      | 0x0C => clampFields [(15, 0, 1, 65535), (31, 16, 1, 4096)] v
      | 0x14 => clamp 0 4096 v
      | _ => v
    s.storeReg off v w ev 5

/-- A write of an adapter register (R306). -/
def State.writeAdapter (s : State) (c off o v : Nat) : State :=
  let ev := Reg.MEM_ADP_EVENT c
  if !s.isStopped c then s.event ev 3
  else
    let w := match o with
      | 0x0C => nearest 32 0xFFFFFFFF v
      | 0x10 => clamp 0 8192 v
      | 0x14 => clamp 0 2048 v
      | _ => v
    s.storeReg off v w ev 2

/-- A write to the memory block. -/
def State.writeMemory (s : State) (off v : Nat) : State :=
  if off = Reg.MEM_STK_CTRL then s.writeStackCtrl v
  else if off = Reg.MEM_FL_CTRL then s.storeReg off v (clamp 70 280 v) Reg.MEM_FL_EVENT 3
  else if [Reg.MEM_LP_CLEAR, Reg.MEM_LP_CAND, Reg.MEM_LP_GUARD, Reg.MEM_LP_REPLAY, Reg.MEM_LP_FLCACHE].contains off then
    if s.regionOk off v then s.setRegN off v else s.event Reg.MEM_LP_EVENT 1
  else match groupAt off 0x00208000 0x40 16, groupAt off 0x0020A000 0x20 16 with
    | some (c, o), _ => s.writePool c off o v
    | none, some (c, o) => s.writeAdapter c off o v
    | none, none => s.setRegN off v

/-! Fabric and collectives (R345, R372, R379). -/

/-- FAB_GEOM in range: 0 is unset; n_Z is even (R345). -/
def fabGeom (v : Nat) : Nat :=
  if v = 0 then 0
  else
    let w := clampFields [(4, 0, 1, 16), (12, 8, 1, 16), (20, 16, 2, 18)] v
    putBits w 20 16 (bits w 20 16 / 2 * 2)

/-- A write to a collective group. -/
def State.writeCollective (s : State) (c : Fin 16) (off o v : Nat) : State :=
  if o = 0 then s.setRegN off v
  else if o = 0x10 then s.via (execFabPermAtWrite c (BitVec.ofNat 32 v) s)
  else if 2 ≤ (s.ctx c).perm.state then s.event (Reg.FAB_PERM_EVENT c) 5
  else s.storeReg off v (if o = 0x1C then clampFields [(31, 16, 16, 65535), (4, 0, 16, 20)] v else v) (Reg.FAB_PERM_EVENT c) 4

/-- A write to the fabric block. -/
def State.writeFabric (s : State) (off v : Nat) : State :=
  if off = Reg.FAB_GEOM ∨ off = Reg.FAB_BE_CTRL then
    if s.tick.run ≠ .stopped then s.event Reg.FAB_EVENT 8
    else s.storeReg off v (if off = Reg.FAB_GEOM then fabGeom v else clampFields [(11, 8, 1, 15)] v) Reg.FAB_EVENT 7
  else match groupAt off 0x00400800 0x40 16 with
    | some (c, o) => s.writeCollective (Fin.ofNat 16 c) off o v
    | none => s.setRegN off v

/-! Hasps, twins, checker, update engines (R95, R219, R220, R422, R425, R433, R455). -/

/-- A write to the hasp block. -/
def State.writeHasp (s : State) (off v : Nat) : State :=
  if off = Reg.HSP_EVICT then s.via (execHspEvictWrite (BitVec.ofNat 32 v) s)
  else if off = Reg.HSP_FO_VERSION then s.via (execHspFoVersionWrite (BitVec.ofNat 32 v) s)
  else if off = Reg.HSP_SPARE then (if v % 2 = 1 then s.via (execEnrol s) else s.setRegN off 0)
  else match groupAt off 0x00601000 0x40 16 with
    | some (c, 0x14) => let s := s.setRegN off v; if s.isStopped c then s else s.adjustDurable c
    | some (c, 0x18) => s.storeReg off v (clamp 1 16 v) (Reg.HSP_EVENT c) 6
    | _ => s.setRegN off v

/-- A signed byte brought into −24 to 40 (R220). -/
def scaleByte (v : Nat) : Nat := ofSigned 8 (max (-24) (min 40 (toSigned 8 v)))

/-- A write to an update group (R219, R220): bounds written while the context is not STOPPED await a later step. -/
def State.writeUpdate (s : State) (c off o v : Nat) : State :=
  let ev := Reg.UPD_EVENT c
  let s := s.storeReg off v (if o = 0x0C then clamp 1 65535 v else scaleByte v) ev 2
  let floor := s.regN (Reg.UPD_LS_FLOOR c)
  let s := if toSigned 8 (s.regN (Reg.UPD_LS_CEIL c)) < toSigned 8 floor then (s.setRegN (Reg.UPD_LS_CEIL c) floor).event ev 2 else s
  if o = 0 ∨ s.isStopped c then s
  else
    let b : LsBounds := ⟨s.regN (Reg.UPD_LS_FLOOR c), s.regN (Reg.UPD_LS_CEIL c), s.regN (Reg.UPD_LS_WINDOW c)⟩
    (s.modCtx c (fun x => { x with bounds := x.bounds ++ [(b, 0)] })).showLs c

/-! Media front end (R473, R507). -/

/-- The legal sensor format nearest to a field: 0x1 to 0x4 or 0xB (R473). -/
def sensorFormat (f : Nat) : Nat := if f ≤ 7 then clamp 1 4 f else 0xB

/-- A write to a context's ingest group (R473). -/
def State.writeIngest (s : State) (c off o v : Nat) : State :=
  let ev := Reg.MED_ING_EVENT c
  if !s.isStopped c then s.event ev 4
  else
    let w := match o with
      | 0x04 => clampFields [(1, 0, 0, 2)] v
      | 0x0C => clamp 1 4096 v
      | 0x1C => nearest 64 0xFFFFFFFF v
      | 0x20 => clamp (s.regN (Reg.MED_BATCH_ROWS c)) 65535 v
      | 0x24 => clamp 1 255 v
      | _ => v
    s.storeReg off v w ev 3

/-- Whether a stream's registers accept a write: its context is STOPPED, and so is the one that the write names (R473). -/
def State.streamStopped (s : State) (ctrl o v : Nat) : Bool := s.isStopped (s.regN ctrl % 16) && (o != 0 || s.isStopped (v % 16))

/-- A write to a sensor stream's group (R473). -/
def State.writeSensor (s : State) (st off o v : Nat) : State :=
  if !s.streamStopped (Reg.MED_SENS_CTRL st) o v then s.event Reg.MED_FE_EVENT 5
  else
    let w := match o with
      | 0x00 => putBits (clampFields [(26, 24, 1, 4)] v) 15 8 (sensorFormat (bits v 15 8))
      | 0x04 => clampFields [(31, 16, 1, 16384), (15, 0, 1, 16384)] v
      | _ => v
    s.storeReg off v w Reg.MED_FE_EVENT 6

/-- A write to a live stream's group (R507). -/
def State.writeLive (s : State) (st : Fin 64) (off o v : Nat) : State :=
  if o = 0 then s.via (execLiveStreamEnable st (BitVec.ofNat 32 v) s)
  else if !s.streamStopped (Reg.MED_LIVE_CTRL st) o v then s.event Reg.MED_FE_EVENT 5
  else
    let w := match o with
      | 0x04 => clampFields [(31, 16, 1, 8192), (15, 0, 1, 8192)] v
      | 0x08 => clamp 1 240000 v
      | 0x10 => clamp 1 10000000 v
      | _ => v
    s.storeReg off v w Reg.MED_FE_EVENT 6

/-- A write to an engine or archive register (R507): a reserve below the admitted load is ignored. -/
def State.writeEngine (s : State) (off v : Nat) : State :=
  match groupAt off 0x00700000 0x20 4 with
  | some (e, 0x04) =>
    if clamp 0 1000 v < (s.engine e).load then s.event Reg.MED_FE_EVENT 5 else s.storeReg off v (clamp 0 1000 v) Reg.MED_FE_EVENT 6
  | _ =>
    let w := if off = Reg.MED_ARCH_CTRL then clampFields [(21, 16, 1, 63), (5, 0, 0, 51)] v
      else if off = Reg.MED_ARCH_SHARD then clamp 1 4096 v else v
    s.storeReg off v w Reg.MED_FE_EVENT 6

/-- A write to the media block. -/
def State.writeMedia (s : State) (off v : Nat) : State :=
  match groupAt off 0x00704000 0x40 16, groupAt off 0x00704800 0x20 64, groupAt off 0x00705000 0x20 64 with
  | some (c, o), _, _ => s.writeIngest c off o v
  | _, some (st, o), _ => s.writeSensor st off o v
  | _, _, some (st, o) => s.writeLive (Fin.ofNat 64 st) off o v
  | _, _, _ => (s.writeEngine off v).feedEngines

/-! Every register. -/

/-- A write to a set-up or command register, its reserved bits taken off. -/
def State.writeSetup (s : State) (off v now : Nat) : State :=
  if off = Reg.RST_CMD then s.via (execRstCmd (BitVec.ofNat 32 v) now s)
  else if off = Reg.CLK_CTRL then s.via (execClkSelect (BitVec.ofNat 32 v) s)
  else if off < 0x00020000 then s.setRegN off v
  else if off < 0x00040000 then s.writePower off v
  else if off < 0x00080000 then s.writeTick off v
  else if off < 0x00100000 then s.writeContext off v
  else if off < 0x00200000 then s.writeRing 0 off (off % 65536) v
  else if off < 0x00400000 then s.writeMemory off v
  else if off < 0x00600000 then s.writeFabric off v
  else if off < 0x00680000 then s.writeHasp off v
  else if off < 0x00700000 then s.storeReg off v (min 5 v) Reg.CHK_EVENT 9
  else if off < 0x00800000 then s.writeMedia off v
  else if off < 0x01000000 then
    match groupAt off 0x00801000 0x40 16 with
    | some (c, o) => s.writeUpdate c off o v
    | none => s
  else s.writeRing (Fin.ofNat 17 (off / 65536 - 0x100)) off (off % 65536) v

/-- A write of 1 clears the bits of an event register (R10); clearing PERM_TORN lets READY rise again (R376). -/
def State.clearBits (s : State) (r : RegRow) (off : Nat) (v : W32) : State :=
  let s := s.setReg off (s.reg off &&& ~~~(v &&& BitVec.ofNat 32 r.mask))
  match groupAt off 0x00400800 0x40 16 with
  | some (c, 0x24) => if v.getLsbD 2 then s.modCtx c (fun x => { x with perm := { x.perm with torn := false } }) else s
  | _ => s

/-- What a write-only register acts on: RST_CMD takes all its bits, the others their fields. -/
def writeMask (r : RegRow) : Nat := if r.acc = .wo then 0xFFFFFFFF else r.mask

/-- A write of one register (R10): read-only registers, offsets without a register, and the DBG_ block ignore it (R608, R613). -/
def State.regWrite (s : State) (off : Nat) (v : W32) (now : Nat) : State :=
  match regRow off with
  | none => s
  | some r =>
    match r.acc with
    | .ro => s
    | .w1c => s.clearBits r off v
    | _ => s.writeSetup off (v &&& BitVec.ofNat 32 (writeMask r)).toNat now

/-- A write through a function's BAR (R609): a refused one is ignored and counted; a wide one stores the low word, then the high word. -/
def State.barWrite (s : State) (fn off size v now : Nat) : State :=
  let a := regAddr fn off
  if !accessOk a size then s.count Reg.ID_BAD_ACCESS
  else
    let s := s.regWrite a (BitVec.ofNat 32 v) now
    if size = 4 then s else s.regWrite (a + 4) (BitVec.ofNat 32 (v / 2 ^ 32)) now

/-- REGISTER_WRITE (R10, R609 to R614). -/
def execRegisterWrite (fn : Fin 17) (off : Nat) (size : Nat) (v : Nat) (now : Nat) (s : State) : Host.Outcome State Fault Refusal :=
  .next (s.barWrite fn off size v now)

end Sys2Proof.Machine
end

