-- ==== Sys2Proof/Machine/Sha.lean ====
section
/-! DEFINITION. The hashes that the manual names: SHA-256 with its HMAC (R598) and SHA-384 (R593, R600), as FIPS 180-4 and RFC 2104 define them. -/

namespace Sys2Proof.Machine

/-- What distinguishes the hashes of FIPS 180-4: the word size in bits, the rotations of its four functions (the third amount of the small ones is a shift),
the initial hash value, the round constants. -/
structure HashKind where
  w : Nat
  small0 : Nat × Nat × Nat
  small1 : Nat × Nat × Nat
  big0 : Nat × Nat × Nat
  big1 : Nat × Nat × Nat
  h : List Nat
  k : List Nat
  deriving DecidableEq, Repr

/-- Round constants of SHA-256. -/
def k256 : List Nat :=
  [0x428A2F98, 0x71374491, 0xB5C0FBCF, 0xE9B5DBA5, 0x3956C25B, 0x59F111F1, 0x923F82A4, 0xAB1C5ED5] ++
  [0xD807AA98, 0x12835B01, 0x243185BE, 0x550C7DC3, 0x72BE5D74, 0x80DEB1FE, 0x9BDC06A7, 0xC19BF174] ++
  [0xE49B69C1, 0xEFBE4786, 0x0FC19DC6, 0x240CA1CC, 0x2DE92C6F, 0x4A7484AA, 0x5CB0A9DC, 0x76F988DA] ++
  [0x983E5152, 0xA831C66D, 0xB00327C8, 0xBF597FC7, 0xC6E00BF3, 0xD5A79147, 0x06CA6351, 0x14292967] ++
  [0x27B70A85, 0x2E1B2138, 0x4D2C6DFC, 0x53380D13, 0x650A7354, 0x766A0ABB, 0x81C2C92E, 0x92722C85] ++
  [0xA2BFE8A1, 0xA81A664B, 0xC24B8B70, 0xC76C51A3, 0xD192E819, 0xD6990624, 0xF40E3585, 0x106AA070] ++
  [0x19A4C116, 0x1E376C08, 0x2748774C, 0x34B0BCB5, 0x391C0CB3, 0x4ED8AA4A, 0x5B9CCA4F, 0x682E6FF3] ++
  [0x748F82EE, 0x78A5636F, 0x84C87814, 0x8CC70208, 0x90BEFFFA, 0xA4506CEB, 0xBEF9A3F7, 0xC67178F2]

/-- Round constants of SHA-384. -/
def k512 : List Nat :=
  [0x428A2F98D728AE22, 0x7137449123EF65CD, 0xB5C0FBCFEC4D3B2F, 0xE9B5DBA58189DBBC, 0x3956C25BF348B538, 0x59F111F1B605D019, 0x923F82A4AF194F9B, 0xAB1C5ED5DA6D8118] ++
  [0xD807AA98A3030242, 0x12835B0145706FBE, 0x243185BE4EE4B28C, 0x550C7DC3D5FFB4E2, 0x72BE5D74F27B896F, 0x80DEB1FE3B1696B1, 0x9BDC06A725C71235, 0xC19BF174CF692694] ++
  [0xE49B69C19EF14AD2, 0xEFBE4786384F25E3, 0x0FC19DC68B8CD5B5, 0x240CA1CC77AC9C65, 0x2DE92C6F592B0275, 0x4A7484AA6EA6E483, 0x5CB0A9DCBD41FBD4, 0x76F988DA831153B5] ++
  [0x983E5152EE66DFAB, 0xA831C66D2DB43210, 0xB00327C898FB213F, 0xBF597FC7BEEF0EE4, 0xC6E00BF33DA88FC2, 0xD5A79147930AA725, 0x06CA6351E003826F, 0x142929670A0E6E70] ++
  [0x27B70A8546D22FFC, 0x2E1B21385C26C926, 0x4D2C6DFC5AC42AED, 0x53380D139D95B3DF, 0x650A73548BAF63DE, 0x766A0ABB3C77B2A8, 0x81C2C92E47EDAEE6, 0x92722C851482353B] ++
  [0xA2BFE8A14CF10364, 0xA81A664BBC423001, 0xC24B8B70D0F89791, 0xC76C51A30654BE30, 0xD192E819D6EF5218, 0xD69906245565A910, 0xF40E35855771202A, 0x106AA07032BBD1B8] ++
  [0x19A4C116B8D2D0C8, 0x1E376C085141AB53, 0x2748774CDF8EEB99, 0x34B0BCB5E19B48A8, 0x391C0CB3C5C95A63, 0x4ED8AA4AE3418ACB, 0x5B9CCA4F7763E373, 0x682E6FF3D6B2B8A3] ++
  [0x748F82EE5DEFB2FC, 0x78A5636F43172F60, 0x84C87814A1F0AB72, 0x8CC702081A6439EC, 0x90BEFFFA23631E28, 0xA4506CEBDE82BDE9, 0xBEF9A3F7B2C67915, 0xC67178F2E372532B] ++
  [0xCA273ECEEA26619C, 0xD186B8C721C0C207, 0xEADA7DD6CDE0EB1E, 0xF57D4F7FEE6ED178, 0x06F067AA72176FBA, 0x0A637DC5A2C898A6, 0x113F9804BEF90DAE, 0x1B710B35131C471B] ++
  [0x28DB77F523047D84, 0x32CAAB7B40C72493, 0x3C9EBE0A15C9BEBC, 0x431D67C49C100D4C, 0x4CC5D4BECB3E42B6, 0x597F299CFC657E2A, 0x5FCB6FAB3AD6FAEC, 0x6C44198C4A475817]

/-- SHA-256. -/
def sha256Kind : HashKind :=
  ⟨32, (7, 18, 3), (17, 19, 10), (2, 13, 22), (6, 11, 25),
    [0x6A09E667, 0xBB67AE85, 0x3C6EF372, 0xA54FF53A, 0x510E527F, 0x9B05688C, 0x1F83D9AB, 0x5BE0CD19], k256⟩

/-- SHA-384. -/
def sha384Kind : HashKind :=
  ⟨64, (1, 8, 7), (19, 61, 6), (28, 34, 39), (14, 18, 41),
    [0xCBBB9D5DC1059ED8, 0x629A292A367CD507, 0x9159015A3070DD17, 0x152FECD8F70E5939, 0x67332667FFC00B31, 0x8EB44A8768581511, 0xDB0C2E0D64F98FA7, 0x47B5481DBEFA4FA4], k512⟩

/-- Rotation to the right in `w` bits. -/
def rotr (w v n : Nat) : Nat := (v >>> n) ||| ((v <<< (w - n)) % 2 ^ w)

/-- A big function: three rotations. -/
def hashBig (w : Nat) (r : Nat × Nat × Nat) (v : Nat) : Nat := rotr w v r.1 ^^^ rotr w v r.2.1 ^^^ rotr w v r.2.2

/-- A small function: two rotations and a shift. -/
def hashSmall (w : Nat) (r : Nat × Nat × Nat) (v : Nat) : Nat := rotr w v r.1 ^^^ rotr w v r.2.1 ^^^ (v >>> r.2.2)

/-- One round on the eight working variables with schedule word `x` and constant `c`. -/
def hashRound (q : HashKind) (v : List Nat) (x c : Nat) : List Nat :=
  let m := 2 ^ q.w
  match v with
  | [a, b, cc, d, e, f, g, h] =>
    let t1 := (h + hashBig q.w q.big1 e + ((e &&& f) ^^^ ((m - 1 - e) &&& g)) + c + x) % m
    let t2 := (hashBig q.w q.big0 a + ((a &&& b) ^^^ (a &&& cc) ^^^ (b &&& cc))) % m
    [(t1 + t2) % m, a, b, cc, (d + t1) % m, e, f, g]
  | v => v

/-- The next word of a schedule from its last 16. -/
def hashNext (q : HashKind) (l : List Nat) : Nat :=
  (hashSmall q.w q.small1 (l.getD 14 0) + l.getD 9 0 + hashSmall q.w q.small0 (l.getD 1 0) + l.getD 0 0) % 2 ^ q.w

/-- The rounds over the constants left, with a window of 16 schedule words. -/
def hashRounds (q : HashKind) : List Nat → List Nat → List Nat → List Nat
  | [], _, v => v
  | c :: t, l, v => hashRounds q t (l.drop 1 ++ [hashNext q l]) (hashRound q v (l.headD 0) c)

/-- The big-endian number of some bytes. -/
def hashWord (b : Bytes) : Nat := b.foldl (fun a x => a * 256 + x.toNat) 0

/-- A number as `n` big-endian bytes. -/
def toBe (n v : Nat) : Bytes := (toLe n v).reverse

/-- The 16 words of a block. -/
def hashWords (q : HashKind) (b : Bytes) : List Nat := (List.range 16).map (fun i => hashWord (slice b (i * (q.w / 8)) (q.w / 8)))

/-- The blocks left, into the hash value. -/
def hashBlocks (q : HashKind) : Nat → Bytes → List Nat → List Nat
  | 0, _, h => h
  | n + 1, b, h => hashBlocks q n (b.drop (q.w * 2)) (List.zipWith (fun x y => (x + y) % 2 ^ q.w) h (hashRounds q q.k (hashWords q b) h))

/-- A message with its padding. -/
def hashPad (q : HashKind) (b : Bytes) : Bytes :=
  let block := q.w * 2
  let len := q.w / 4
  b ++ [0x80#8] ++ zeros ((2 * block - 1 - len - b.length % block) % block) ++ toBe len (8 * b.length)

/-- The hash value as bytes. -/
def hashBytes (q : HashKind) (b : Bytes) : Bytes :=
  let p := hashPad q b
  ((hashBlocks q (p.length / (q.w * 2)) p q.h).map (toBe (q.w / 8))).flatten

/-- SHA-256. -/
def sha256 (b : Bytes) : Bytes := hashBytes sha256Kind b

/-- SHA-384. -/
def sha384 (b : Bytes) : Bytes := (hashBytes sha384Kind b).take 48

/-- HMAC-SHA-256 (R598). -/
def hmacSha256 (secret m : Bytes) : Bytes :=
  let k := padTo 64 (if 64 < secret.length then sha256 secret else secret)
  sha256 (k.map (· ^^^ 0x5C#8) ++ sha256 (k.map (· ^^^ 0x36#8) ++ m))

end Sys2Proof.Machine
end

