-- ==== Sys2Proof/Machine/Manager.lean ====
section
/-! DEFINITION. The fabric manager's commands (R339 to R343, R598): authentication, the operation of each SUBCMD, replies, the PROBE that carries one along a path, and the host command that sends one (R519). -/

namespace Sys2Proof.Machine

/-! Messages. -/

/-- A fabric-manager command as it arrives (R340): header ARG, body with its authenticator, source address, request number, the path block of the
PROBE that carried it (R339), empty for an FM_CMD, and the time in µs, which a reset needs (R546). -/
structure FmMsg where
  nonce : W64
  body : Bytes
  src : Nat
  seq : Nat
  path : Bytes
  now : Nat
  deriving DecidableEq, Repr

/-- SUBCMD of a message. -/
def fmSub (m : FmMsg) : Nat := u16 m.body 0
/-- FM_TERM of a message. -/
def fmTerm (m : FmMsg) : Nat := u32 m.body 4
/-- The arguments: from byte 8 to the authenticator. -/
def fmArgs (m : FmMsg) : Bytes := (m.body.take (m.body.length - 32)).drop 8

/-- The authenticator of a body without its last 32 bytes, under a key (R598). -/
def authCode (secret : Bytes) (nonce : Nat) (body : Bytes) : Bytes := hmacSha256 secret (toLe 8 nonce ++ body)

/-- Whether a command is accepted (R340, R597): a key is held, the authenticator is right, the term and the nonce stand. -/
def State.fmAccepts (s : State) (m : FmMsg) : Bool :=
  match s.mgmt.fabricKey with
  | none => false
  | some k =>
    decide (40 ≤ m.body.length) && m.body.drop (m.body.length - 32) == authCode k m.nonce.toNat (m.body.take (m.body.length - 32)) &&
      decide (s.regN Reg.FAB_FM_TERM ≤ fmTerm m) &&
      (decide (s.regN Reg.FAB_FM_TERM < fmTerm m) || (match s.fabric.nonce with | some n => decide (n < m.nonce.toNat) | none => true))

/-- Notes the term and the nonce of an accepted command. -/
def State.fmNote (s : State) (m : FmMsg) : State :=
  let s := s.setRegN Reg.FAB_FM_TERM (fmTerm m)
  { s with fabric := { s.fabric with nonce := some m.nonce.toNat } }

/-- A path block with its two lists swapped (R339). -/
def swapPath (b : Bytes) : Bytes := slice b 1 1 ++ slice b 0 1 ++ slice b 26 24 ++ slice b 2 24 ++ slice b 50 14

/-- Sends a PROBE on the link that its HOPS name, one hop fewer; a link that is not up loses it (R339). -/
def State.sendProbe (s : State) (port : Nat) (p : Packet) : State :=
  let l := byteAt p.payload (2 + (byteAt p.payload 0 - p.hops))
  if s.linkUp l then s.transmit port l { p with hops := p.hops - 1 } else s.count Reg.FAB_DROP_AGED

/-- A packet of the management class with an ARG of its own: PROBE and FM_CMD carry no tag (R318). -/
def State.fmPacket (s : State) (opcode flags dst hops nonce seq : Nat) (payload : Bytes) : Packet :=
  { s.mkPacket opcode flags dst none nonce seq payload with hops := hops }

/-- Whether the body of a reply keeps R9 and R340: a status code of R13 and reserved bytes 0. -/
def replyBodyOk (b : Bytes) : Bool := decide (40 ≤ b.length) && decide (byteAt b 2 ≤ 11) && zeroAt b 3 5

/-- The reply to a command that the host sent: its body as DATA, then its status code (R519); one that breaks R9 is discarded. -/
def State.fmAnswered (s : State) (r : Request) (body : Bytes) : State :=
  if !replyBodyOk body then s.count Reg.FAB_DROP_CRC
  else match r.cmd with
    | none => s.dropRequest r.seq
    | some (fn, cmd) => ((s.dropRequest r.seq).replyData fn cmd.id body).complete fn 0x0002 cmd (byteAt body 2)

/-- The request that a reply to a fabric-manager command answers: same opcode, SEQ and nonce. -/
def State.fmRequest (s : State) (p : Packet) : Option Request :=
  s.fabric.requests.find? (fun r => r.seq == p.seq && r.packet.opcode == p.opcode && r.packet.arg == p.arg)

/-- Sends the reply to an accepted command back the way it came, or answers the host of this device: status code in byte 2, data from byte 8, authenticated in the same way (R340). -/
def State.fmReply (s : State) (m : FmMsg) (code : Nat) (data : Bytes) : State :=
  let body := toLe 2 (fmSub m) ++ toLe 1 code ++ zeros 5 ++ data
  let body := body ++ authCode (s.mgmt.fabricKey.getD []) m.nonce.toNat body
  if m.path = [] then
    let p := s.fmPacket 0x21 48 m.src 32 m.nonce.toNat m.seq body
    match (if m.src = s.addr then s.fmRequest p else none) with
    | some r => s.fmAnswered r body
    | none => s.sendRouted p
  else
    let path := swapPath m.path
    s.sendProbe selfLink (s.fmPacket 0x20 48 m.src (byteAt path 0) m.nonce.toNat m.seq (path ++ body))

/-- Refuses a command that R340 does not accept: ERROR AUTH_FAIL by the route table, and the event. -/
def State.fmRefuse (s : State) (m : FmMsg) : State :=
  let s := s.event Reg.FAB_EVENT 6
  let op := if m.path = [] then 0x21 else 0x20
  match (if m.src = s.addr then s.fmRequest (s.fmPacket op 16 m.src 32 m.nonce.toNat m.seq []) else none) with
  | some r => s.failRequest r 6
  | none => s.sendRouted (s.mkPacket 0x14 0 m.src none 0 m.seq (toLe 1 6 ++ toLe 1 op ++ zeros 2))

/-! Operations: the state, the status code and the data of the reply. -/

/-- Reserved bytes 2 and 3 of a body, and an argument length. -/
def fmShape (m : FmMsg) (n : Nat) : Bool := zeroAt m.body 2 2 && decide ((fmArgs m).length = n)

/-- ASSIGN (R320, R340). -/
def State.fmAssign (s : State) (m : FmMsg) : State × Nat × Bytes :=
  let a := u16 (fmArgs m) 0
  if !fmShape m 2 ∨ a = 0xFFFF ∨ !addrOk a then (s, 7, []) else ((s.setRegN Reg.FAB_ADDR a).event Reg.FAB_EVENT 0, 0, [])

/-- NEIGHBOURS (R337, R340): a link that has received no record gives zeros (DESIGN CHOICE, log entry 30). -/
def State.fmNeighbours (s : State) (m : FmMsg) : State × Nat × Bytes :=
  if !fmShape m 0 then (s, 7, []) else (s, 0, ((List.range 24).map (fun l => ((s.link l).record.getD (zeros 32)))).flatten)

/-- Whether a packet held for a tick to come announces the version that the standby bank is sealed with (R341). -/
def State.standbyNamed (s : State) : Bool :=
  s.fabric.standby.sealed && s.tick.packets.any (fun p => decide (s.tick.now < p.1) && u16 p.2 28 == s.fabric.standby.version)

/-- Bytes of entries `i` to `i + n - 1` of a table: route entries of 4 bytes, placement entries of 2 (R322, R324, R328). -/
def Bank.tableBytes (k : Bank) (t i n : Nat) : Bytes :=
  ((List.range n).map (fun j => if t = 0 then toLe 4 (tget (fun _ => 0#32) k.route (i + j)).toNat else toLe 2 (k.seatAddr (t - 1) (i + j)))).flatten

/-- Writes entries from `i` on from their bytes. -/
def Bank.putTable (k : Bank) (t i n : Nat) (b : Bytes) : Bank :=
  (List.range n).foldl (fun (k : Bank) j =>
    if t = 0 then { k with route := tput k.route (i + j) (BitVec.ofNat 32 (u32 b (4 * j))) }
    else { k with place := tput k.place ((t - 1) * 32768 + i + j) (u16 b (2 * j)) }) k

/-- TABLE_WRITE (R322, R340, R341). -/
def State.fmTableWrite (s : State) (m : FmMsg) : State × Nat × Bytes :=
  let t := byteAt (fmArgs m) 0
  let off := u32 (fmArgs m) 4
  let d := (fmArgs m).drop 8
  let e := if t = 0 then 4 else 2
  if !zeroAt m.body 2 2 ∨ (fmArgs m).length < 9 ∨ 16 < t ∨ !zeroAt (fmArgs m) 1 3 ∨ (if t = 0 then 262144 else 65536) < off + d.length ∨ s.standbyNamed then (s, 7, [])
  else
    let i := off / e
    let n := (off + d.length - 1) / e + 1 - i
    let k := s.fabric.standby
    ({ s with fabric := { s.fabric with standby := { k.putTable t i n (patch (k.tableBytes t i n) (off % e) d) with sealed := false } } }, 0, [])

/-- CRC-32C over the standby bank's route table and then its placement tables in context order (R340). -/
def Bank.crc (k : Bank) : Nat := crc32c (k.tableBytes 0 0 65536 ++ ((List.range 16).map (fun c => k.tableBytes (c + 1) 0 32768)).flatten)

/-- TABLE_SEAL (R340, R341): a CRC that does not match is a check value that disagrees. -/
def State.fmTableSeal (s : State) (m : FmMsg) : State × Nat × Bytes :=
  if !fmShape m 8 ∨ !zeroAt (fmArgs m) 2 2 ∨ s.standbyNamed then (s, 7, [])
  else if s.fabric.standby.crc ≠ u32 (fmArgs m) 4 then (s, 11, [])
  else ({ s with fabric := { s.fabric with standby := { s.fabric.standby with sealed := true, version := u16 (fmArgs m) 0 } } }.event Reg.FAB_EVENT 1, 0, [])

/-- A register write by offset, as the fabric manager and management make it (R340, R594, R609); an offset outside BAR0 is malformed. -/
def State.remoteWrite (s : State) (off v now : Nat) : State × Nat :=
  if 0x01000000 ≤ off then (s, 7) else (s.barWrite 0 off 4 v now, 0)

/-- A register read by offset. -/
def State.remoteRead (s : State) (off : Nat) : State × Nat × Bytes :=
  if 0x01000000 ≤ off then (s, 7, []) else let r := s.barRead 0 off 4; (r.2, 0, toLe 4 r.1)

/-- REG_WRITE (R340). -/
def State.fmRegWrite (s : State) (m : FmMsg) : State × Nat × Bytes :=
  if !fmShape m 8 then (s, 7, []) else let r := s.remoteWrite (u32 (fmArgs m) 0) (u32 (fmArgs m) 4) m.now; (r.1, r.2, [])

/-- REG_READ (R340). -/
def State.fmRegRead (s : State) (m : FmMsg) : State × Nat × Bytes := if !fmShape m 4 then (s, 7, []) else s.remoteRead (u32 (fmArgs m) 0)

/-- TICK_START (R52, R66, R342, R556). The device is the tick master or the deputy as TCK_MASTER names them. The command comes after the boundary at
which the tick in progress began, so less than 4 ticks are left to tick `now` + 4 (DEDUCED, log entry 42). -/
def State.fmTickStart (s : State) (m : FmMsg) : State × Nat × Bytes :=
  let first := u64 (fmArgs m) 4
  let v := u16 (fmArgs m) 12
  let k := s.fabric.standby
  if !fmShape m 14 ∨ first ≤ s.tick.now + 4 ∨ !k.sealed ∨ k.version ≠ v ∨ s.reg Reg.FAB_GEOM = 0#32 ∨ (s.clk.holdover ∧ !s.clk.aOk ∧ !s.clk.bOk) then (s, 7, [])
  else
    let who := s.regN Reg.TCK_MASTER
    let s := s.stopTick
    let s := s.modTick (fun t => { t with
      run := .aligning, poised := false, term := u32 (fmArgs m) 0, firstTick := first, startVersion := v, placement := v
      master := decide (who % 65536 = s.addr), deputy := decide (who / 65536 = s.addr ∧ who % 65536 ≠ s.addr), leader := none, foVersion := none, watch := none
      packets := [], passed := [], mergedTick := none, seen := [], due := [], resumes := [] })
    ({ s with clk := { s.clk with holdStop := false } }, 0, [])

/-- RESUME (R82, R426): the tick master holds it until READY is merged; a context that is not WITHHELD cannot be resumed. -/
def State.fmResume (s : State) (m : FmMsg) : State × Nat × Bytes :=
  let c := byteAt (fmArgs m) 0
  if !fmShape m 1 ∨ 16 ≤ c ∨ (s.hasp c).phase ≠ .withheld then (s, 7, [])
  else if s.tick.master then (s.modTick (fun t => { t with resumes := t.resumes.filter (fun x => x != c) ++ [c] }), 0, [])
  else (s, 0, [])

/-- Status code that a RESET gets before it acts: the scope byte is legal, and a ward reset accepted (R536, R550). -/
def State.resetCode (s : State) (b : Nat) : Nat := if !scopeOk b ∨ (b % 4 = 3 ∧ !s.wardResetOk (b / 4)) then 7 else 0

/-- RESET (R340, R535 to R537): what follows its reply. -/
def State.fmResetAfter (s : State) (m : FmMsg) : State := s.resetScope (byteAt (fmArgs m) 0) [5] m.now

/-- The operation that a SUBCMD names, with the status code and data of its reply; a reserved one is malformed. -/
def State.fmOperate (s : State) (m : FmMsg) : State × Nat × Bytes :=
  match fmSub m with
  | 1 => s.fmAssign m
  | 2 => s.fmNeighbours m
  | 3 => s.fmTableWrite m
  | 4 => s.fmTableSeal m
  | 5 => s.fmRegWrite m
  | 6 => s.fmRegRead m
  | 7 => s.fmTickStart m
  | 8 => s.fmResume m
  | 9 => (s, if fmShape m 1 then s.resetCode (byteAt (fmArgs m) 0) else 7, [])
  | _ => (s, 7, [])

/-- A fabric-manager command at the device that it names (R340): refused, or run and answered; a RESET acts once its reply is sent. -/
def State.fmRun (s : State) (m : FmMsg) : State :=
  if !s.fmAccepts m then s.fmRefuse m
  else
    let r := (s.fmNote m).fmOperate m
    let s := r.1.fmReply m r.2.1 r.2.2
    if fmSub m = 9 ∧ r.2.1 = 0 then s.fmResetAfter m else s

/-- An FM_CMD that arrives on a link with the SUBCMD of one row, or with a reserved one, which is answered MALFORMED or refused whichever row brings it
(R9, R340); a body that another row's SUBCMD heads is not this command's message (DEDUCED, log entry 14). -/
def State.fmRow (s : State) (sub link : Nat) (b : Bytes) (now : Nat) : Host.Outcome State Fault Refusal :=
  .next (s.takePacket link b 0x21 (fun p s =>
    let m : FmMsg := ⟨BitVec.ofNat 64 p.arg, p.payload, p.src, p.seq, [], now⟩
    if p.isReply ∨ (fmSub m ≠ sub ∧ 1 ≤ fmSub m ∧ fmSub m ≤ 9) then s else if p.auth then s.fmRun m else s.fmRefuse m))

/-- ASSIGN (R320, R340). -/
def execAssign (link : Fin 24) (b : Bytes) (now : Nat) (s : State) : Host.Outcome State Fault Refusal := s.fmRow 1 link b now
/-- NEIGHBOURS (R340). -/
def execNeighbours (link : Fin 24) (b : Bytes) (now : Nat) (s : State) : Host.Outcome State Fault Refusal := s.fmRow 2 link b now
/-- TABLE_WRITE (R322, R341). -/
def execTableWrite (link : Fin 24) (b : Bytes) (now : Nat) (s : State) : Host.Outcome State Fault Refusal := s.fmRow 3 link b now
/-- TABLE_SEAL (R341). -/
def execTableSeal (link : Fin 24) (b : Bytes) (now : Nat) (s : State) : Host.Outcome State Fault Refusal := s.fmRow 4 link b now
/-- FM_REG_WRITE (R340). -/
def execFmRegWrite (link : Fin 24) (b : Bytes) (now : Nat) (s : State) : Host.Outcome State Fault Refusal := s.fmRow 5 link b now
/-- FM_REG_READ (R340). -/
def execFmRegRead (link : Fin 24) (b : Bytes) (now : Nat) (s : State) : Host.Outcome State Fault Refusal := s.fmRow 6 link b now
/-- TICK_START (R342). -/
def execTickStart (link : Fin 24) (b : Bytes) (now : Nat) (s : State) : Host.Outcome State Fault Refusal := s.fmRow 7 link b now
/-- RESUME (R426). -/
def execResume (link : Fin 24) (b : Bytes) (now : Nat) (s : State) : Host.Outcome State Fault Refusal := s.fmRow 8 link b now
/-- FM_RESET (R340). -/
def execFmReset (link : Fin 24) (b : Bytes) (now : Nat) (s : State) : Host.Outcome State Fault Refusal := s.fmRow 9 link b now

/-! PROBE and the host command. -/

/-- Whether a path block is right (R9, R339). -/
def pathOk (b : Bytes) : Bool :=
  let f := byteAt b 0
  let r := byteAt b 1
  decide (64 ≤ b.length) && decide (1 ≤ f ∧ f ≤ 24 ∧ 1 ≤ r ∧ r ≤ 24) && zeroAt b 50 14 &&
    (List.range f).all (fun i => decide (byteAt b (2 + i) < 24)) && (List.range r).all (fun i => decide (byteAt b (26 + i) < 24))

/-- PROBE (R339): forwarded while HOPS lasts; at the target the command it carries runs, and a reply completes its FM_CMD. -/
def execProbe (link : Fin 24) (b : Bytes) (now : Nat) (s : State) : Host.Outcome State Fault Refusal :=
  match s.accept link b with
  | (s, none) => .next s
  | (s, some p) =>
    if p.opcode ≠ 0x20 then .next s
    else if !p.payloadOk ∨ !pathOk p.payload ∨ byteAt p.payload 0 < p.hops then .next (s.count Reg.FAB_DROP_CRC)
    else if 0 < p.hops then .next (s.sendProbe link p)
    else if p.isReply then
      .next (match s.fmRequest p with | some r => s.fmAnswered r (p.payload.drop 64) | none => s)
    else
      let m : FmMsg := ⟨BitVec.ofNat 64 p.arg, p.payload.drop 64, p.src, p.seq, p.payload.take 64, now⟩
      .next (if p.auth then s.fmRun m else s.fmRefuse m)

/-- A reply to an FM_CMD that arrives on a link (R340, R519). -/
def State.takeFmReply (s : State) (link : Fin 24) (b : Bytes) : State :=
  s.takePacket link b 0x21 (fun p s => match s.fmRequest p with | some r => s.fmAnswered r p.payload | none => s)

/-- ACK (R316, R373, R427). A reply to an FM_CMD, which the table gives no row of its own, arrives by this one (DESIGN CHOICE, log entry 31). -/
def execAck (link : Fin 24) (b : Bytes) (errs : ReadErrs) (s : State) : Host.Outcome State Fault Refusal :=
  if byteAt b 0 = 0x21 ∧ bit (byteAt b 1) 5 then .next (s.takeFmReply link b) else .next (s.takeAck link b errs)

/-- FM_CMD (R519): sent once; it completes with its reply, or with TIMEOUT. A PROBE begins with its path block and takes its first link; a
body that no packet can carry, or a bad path, is malformed. -/
def execFmCmd (fn : Fin 17) (cmd : HostCmd) (s : State) : Host.Outcome State Fault Refusal :=
  s.adminCmd fn 2 cmd (fun s =>
    let probe := bit cmd.arg2 0
    let n := cmd.payload.length
    if cmd.payload = [] ∨ 4096 < n ∨ (probe ∧ !pathOk cmd.payload) then s.complete fn 2 cmd 7
    else
      let q := s.fabric.nextSeq
      let p := if probe then s.fmPacket 0x20 16 (cmd.arg0 % 65536) (byteAt cmd.payload 0) (cmd.arg1 % 2 ^ 64) q cmd.payload
        else s.fmPacket 0x21 16 (cmd.arg0 % 65536) 32 (cmd.arg1 % 2 ^ 64) q cmd.payload
      let s := { s with fabric := { s.fabric with nextSeq := (q + 1) % 65536, requests := s.fabric.requests ++ [(⟨q, p, s.tick.now, 0, some (fn.val, cmd)⟩ : Request)] } }
      if probe then s.sendProbe selfLink p else s.sendRouted p)

end Sys2Proof.Machine
end

