-- ==== Sys2Proof/Machine/Management.lean ====
section
/-! DEFINITION. The management controller's own message set (R589 to R598, R603 to R607) and its MCTP control messages: what it answers, and to whom; units, history, the clock, the fabric key, the debug lock. -/

namespace Sys2Proof.Machine

/-! Answers. -/

/-- Neither endpoint answers during a restart of the controller (R601); otherwise `f` answers. -/
def State.answers (s : State) (f : State → State) : Host.Outcome State Fault Refusal := if s.mgmt.restarting then .next s else .next (f s)

/-- Whether the PCIe link is up, which the VDM binding needs (R533, R567, R589). -/
def State.vdmUp (s : State) : Bool := !s.rst.hostReset && !s.rst.active && decide (s.pwr.rung < 3)

/-- A message on one of the two bindings: SMBus on every rung, VDM only while the PCIe link is up (R589). -/
def State.onBinding (s : State) (vdm : Bool) (f : State → State) : Host.Outcome State Fault Refusal :=
  if vdm ∧ !s.vdmUp then .next s else s.answers f

/-- Whether `sess` names an open session whose handshake has finished. -/
def State.inSession (s : State) (sess : Option Nat) : Bool :=
  match sess with
  | none => false
  | some n => s.mgmt.sessions.any (fun p => p.1 == n && p.2)

/-- The reply of a Sebaley command: its code, STATUS and data (R594). -/
def State.mgmtReply (s : State) (code status : Nat) (data : Bytes) : State := s.emit (.mgmt code status data)

/-- A command marked S: outside a secured session it is answered with AUTH_FAIL and has no effect (R594). -/
def State.secured (s : State) (sess : Option Nat) (code : Nat) (f : State → State) : Host.Outcome State Fault Refusal :=
  s.answers (fun s => if s.inSession sess then f s else s.mgmtReply code 6 [])

/-- A free run of bytes: what only a random source or an external standard decides (log entry 2). -/
def State.drawBytes (s : State) (n : Nat) : Bytes × State :=
  let d := s.draw
  ((List.range n).map (Config.freeByte d.1), d.2)

/-! MCTP control messages (R589, R590). What DSP0236 alone fixes of their bodies is PRESUMED (log entry 32). -/

/-- The endpoint ID on a binding. -/
def State.eid (s : State) (vdm : Bool) : Nat := if vdm then s.mgmt.eid1 else s.mgmt.eid0

/-- The message types that the controller supports (R590). -/
def mctpTypes : List Nat := [0x00, 0x01, 0x05, 0x06, 0x7F]

/-- SET_ENDPOINT_ID (R589): the null and the broadcast ID are refused as invalid data (PRESUMED, log entry 32). -/
def execSetEndpointId (vdm : Bool) (eid : Nat) (s : State) : Host.Outcome State Fault Refusal :=
  s.onBinding vdm (fun s =>
    if eid = 0 ∨ 255 ≤ eid then s.emit (.mctp 1 (toLe 1 2))
    else
      let m := s.mgmt
      let s := { s with mgmt := if vdm then { m with eid1 := eid } else { m with eid0 := eid } }
      s.emit (.mctp 1 (toLe 2 0 ++ toLe 1 eid ++ toLe 1 0)))

/-- GET_ENDPOINT_ID (R589). -/
def execGetEndpointId (vdm : Bool) (s : State) : Host.Outcome State Fault Refusal :=
  s.onBinding vdm (fun s => s.emit (.mctp 2 (toLe 1 0 ++ toLe 1 (s.eid vdm) ++ toLe 2 0)))

/-- GET_MCTP_VERSION_SUPPORT (R589): which version of a supported type is spoken the manual does not say (free value). -/
def execGetMctpVersionSupport (vdm : Bool) (msgType : Nat) (s : State) : Host.Outcome State Fault Refusal :=
  s.onBinding vdm (fun s =>
    if !mctpTypes.contains msgType then s.emit (.mctp 4 (toLe 1 0x80))
    else
      let v := s.drawBytes 4
      v.2.emit (.mctp 4 (toLe 1 0 ++ toLe 1 1 ++ v.1)))

/-- GET_MESSAGE_TYPE_SUPPORT (R589, R590). -/
def execGetMessageTypeSupport (vdm : Bool) (s : State) : Host.Outcome State Fault Refusal :=
  s.onBinding vdm (fun s => s.emit (.mctp 5 (toLe 1 0 ++ toLe 1 mctpTypes.length ++ (mctpTypes.map (toLe 1)).flatten)))

/-- GET_VENDOR_DEFINED_MESSAGE_SUPPORT (R589, R590): one set, by Sebaley's IANA number. -/
def execGetVendorDefinedMessageSupport (vdm : Bool) (s : State) : Host.Outcome State Fault Refusal :=
  s.onBinding vdm (fun s => s.emit (.mctp 6 (toLe 1 0 ++ toLe 1 0xFF ++ toLe 1 1 ++ (toLe 4 Config.enterprise.toNat).reverse ++ toLe 2 0)))

/-! Sebaley commands. -/

/-- The image of a component in use: the one last activated, else the one the part left manufacture with (R593, R599). -/
def State.firmware (s : State) (n : Nat) : Bytes := tget Config.factoryFirmware s.mgmt.inUse n

/-- GET_INFO (R590, R594). -/
def execGetInfo (s : State) : Host.Outcome State Fault Refusal :=
  s.answers (fun s => s.mgmtReply 1 0 (toLe 8 Config.fusedSerial.toNat ++ toLe 4 Config.enterprise.toNat ++ toLe 1 Config.fusedOrder.toNat ++ toLe 1 s.pwr.rung ++
    toLe 2 Config.fusedRev.toNat ++ toLe 4 (Config.imageVersion (s.firmware 1)).toNat ++ toLe 4 (s.regN Reg.MED_FW_VERSION)))

/-- MGMT_REG_READ (R594). -/
def execMgmtRegRead (off : Nat) (s : State) : Host.Outcome State Fault Refusal :=
  s.answers (fun s => let r := s.remoteRead off; r.1.mgmtReply 2 r.2.1 r.2.2)

/-- MGMT_REG_WRITE (R594): the register's own rules apply. -/
def execMgmtRegWrite (sess : Option Nat) (off : Nat) (v : W32) (now : Nat) (s : State) : Host.Outcome State Fault Refusal :=
  s.secured sess 3 (fun s => let r := s.remoteWrite off v.toNat now; r.1.mgmtReply 3 r.2 [])

/-- LADDER (R566, R568, R594): the target rung, by the rules of the register, and the only way out of L3 and L4. -/
def execLadder (sess : Option Nat) (rung : Nat) (s : State) : Host.Outcome State Fault Refusal :=
  s.secured sess 4 (fun s => ((s.eventIf (decide (4 < rung)) Reg.PWR_EVENT 8).setTarget (min 4 rung) true).mgmtReply 4 0 [])

/-- MGMT_RESET (R536, R594): the reply is sent before the reset begins. -/
def execMgmtReset (sess : Option Nat) (scope : Nat) (now : Nat) (s : State) : Host.Outcome State Fault Refusal :=
  s.secured sess 5 (fun s =>
    let code := s.resetCode scope
    let s := s.mgmtReply 5 code []
    if code = 0 then s.resetScope scope [4] now else s)

/-! Units. -/

/-- Whether kind and index name a unit (R449). -/
def unitNamed (kind unit : Nat) : Bool :=
  match kind with
  | 1 => decide (unit / 256 ≤ 16 ∧ unit % 256 < 16)
  | 2 => decide (unit < 16)
  | 3 => decide (unit < 16)
  | 4 => decide (unit < 16)
  | 5 => decide (unit < 8192)
  | 6 => decide (unit < 2 ^ 22 ∧ unit / 256 % 256 = 0)
  | 7 => decide (unit < 32)
  | 8 => decide (unit < 256)
  | 9 => decide (unit < 24)
  | 10 => decide (unit < 4)
  | 11 => decide (unit < 2)
  | _ => false

/-- The committed state of a unit: 0 in service, 1 fenced, 2 spare (R594, R606). -/
def State.unitPlace (s : State) (kind unit : Nat) : Nat :=
  if kind ≠ 1 then 0
  else
    let m := s.tileMap (unit % 16)
    if m.fenced.contains (unit / 256) then 1 else if m.spare = some (unit / 256) then 2 else 0

/-- The pending action of a unit: management's, else the checker's own fence (R454, R604, R606). -/
def State.unitAction (s : State) (kind unit : Nat) : Nat :=
  let a := tget (fun _ => 0) s.chk.actions (unitKey kind unit)
  if a = 0 ∧ kind = 1 ∧ (s.tileMap (unit % 16)).pending = some (unit / 256) then 1 else a

/-- The committed class of a unit. -/
def State.unitClass (s : State) (kind unit : Nat) : Nat := tget (fun _ => 0) s.chk.classes (unitKey kind unit)

/-- UNIT_READ (R594, R606). -/
def execUnitRead (kind unit : Nat) (s : State) : Host.Outcome State Fault Refusal :=
  s.answers (fun s =>
    if !unitNamed kind unit then s.mgmtReply 6 7 []
    else s.mgmtReply 6 0 (toLe 1 (s.unitClass kind unit) ++ toLe 1 (s.unitPlace kind unit) ++ toLe 1 (s.unitAction kind unit) ++ toLe 1 0 ++
      toLe 4 (tget (fun _ => 0) s.chk.disagreements (unitKey kind unit))))

/-- Enters a pending action, in place of the unit's earlier one (R604). -/
def State.enterAction (s : State) (kind unit action : Nat) : State :=
  { s with chk := { s.chk with actions := tput s.chk.actions (unitKey kind unit) action } }

/-- UNIT_REQUEST fence (R604, R605): of a tile. -/
def execUnitRequestFence (sess : Option Nat) (kind unit : Nat) (s : State) : Host.Outcome State Fault Refusal :=
  s.secured sess 7 (fun s =>
    if kind ≠ 1 ∨ !unitNamed kind unit then s.mgmtReply 7 7 [] else (s.enterAction kind unit 1).mgmtReply 7 0 [])

/-- UNIT_REQUEST restore (R604, R605): refused of a tile in class 4 or 5, and where the ward has a spare. -/
def execUnitRequestRestore (sess : Option Nat) (kind unit : Nat) (s : State) : Host.Outcome State Fault Refusal :=
  s.secured sess 7 (fun s =>
    if kind ≠ 1 ∨ !unitNamed kind unit ∨ 4 ≤ s.unitClass kind unit then s.mgmtReply 7 7 []
    else if (s.tileMap (unit % 16)).spare.isSome then s.mgmtReply 7 8 []
    else (s.enterAction kind unit 2).mgmtReply 7 0 [])

/-- UNIT_REQUEST clear class (R604, R605): of a unit of any kind. -/
def execUnitRequestClearClass (sess : Option Nat) (kind unit : Nat) (s : State) : Host.Outcome State Fault Refusal :=
  s.secured sess 7 (fun s => if !unitNamed kind unit then s.mgmtReply 7 7 [] else (s.enterAction kind unit 3).mgmtReply 7 0 [])

/-! History, clock, key, debug. -/

/-- A history record's bytes 0 to 59 (R449). -/
def HistRec.body (r : HistRec) : Bytes :=
  toLe 2 0x4855 ++ toLe 1 r.type ++ toLe 1 r.kind ++ toLe 4 r.seq ++ toLe 8 r.time ++ toLe 4 r.unit ++ toLe 1 r.event ++ toLe 1 r.cls ++
    toLe 1 (b2n r.timeValid + 2 * b2n r.reproduced) ++ toLe 1 r.ctx ++ toLe 2 r.gen.toNat ++ toLe 4 r.epoch ++ toLe 2 r.id ++ toLe 8 r.tick ++
    (r.detail ++ zeros 16).take 16 ++ toLe 4 r.boot

/-- A history record with its CRC-32C (R449). -/
def HistRec.bytes (r : HistRec) : Bytes := r.body ++ toLe 4 (crc32c r.body)

/-- HIST_READ (R594): the records in the store from the first SEQ on, in SEQ order. -/
def execHistRead (firstSeq count : Nat) (s : State) : Host.Outcome State Fault Refusal :=
  s.answers (fun s =>
    if count = 0 ∨ 16 < count then s.mgmtReply 8 7 []
    else s.mgmtReply 8 0 (((s.chk.history.filter (fun r => decide (firstSeq ≤ r.seq))).take count).map HistRec.bytes).flatten)

/-- SET_TIME (R596). -/
def execSetTime (sess : Option Nat) (seconds : Nat) (s : State) : Host.Outcome State Fault Refusal :=
  s.secured sess 9 (fun s => { s with mgmt := { s.mgmt with time := seconds, timeValid := true } }.mgmtReply 9 0 [])

/-- SET_FABRIC_KEY (R597): the key serves commands that arrive after this response. -/
def execSetFabricKey (sess : Option Nat) (fabKey : Bytes) (s : State) : Host.Outcome State Fault Refusal :=
  s.secured sess 10 (fun s =>
    if fabKey.length ≠ 32 then s.mgmtReply 10 7 []
    else
      let s := s.mgmtReply 10 0 []
      { s with mgmt := { s.mgmt with fabricKey := some fabKey } })

/-- DEBUG_UNLOCK (R613): inside a secured session. -/
def execDebugUnlock (sess : Option Nat) (s : State) : Host.Outcome State Fault Refusal :=
  s.answers (fun s => if s.inSession sess then { s with mgmt := { s.mgmt with debug := true } } else s)

/-- The SPDM requests that the controller supports, by their codes (R593; DSP0274, log entry 32). -/
def spdmRequests : List Nat := [0x81, 0x82, 0x83, 0x84, 0xE0, 0xE1, 0xE3, 0xE4, 0xE5, 0xE8, 0xE9, 0xEC]

/-- UNSUPPORTED_MESSAGE (R589, R590, R593, R594): a message longer than 4,096 bytes is dropped and counted, one of a type not supported dropped,
an SPDM request not supported receives UnsupportedRequest, a reserved Sebaley code MALFORMED. A message that some command does name is that
command's, not this one's. -/
def execUnsupportedMessage (msgType code len : Nat) (s : State) : Host.Outcome State Fault Refusal :=
  s.answers (fun s =>
    if 4096 < len then { s with mgmt := { s.mgmt with dropped := s.mgmt.dropped + 1 } }
    else if msgType = 0x05 ∧ !spdmRequests.contains code then s.emit (.spdmError 0x07)
    else if msgType = 0x7F ∧ (code = 0 ∨ 0x0A < code) then s.mgmtReply code 7 []
    else s)

end Sys2Proof.Machine
end

