-- ==== Sys2Proof/Machine/PlanCmds.lean ====
section
/-! DEFINITION. PLAN_LOAD and PLAN_UNLOAD (R40, R67, R134, R410, R431, R520, R576). -/

namespace Sys2Proof.Machine

/-- Image offsets of `n` records lying back to back from byte `o`. -/
def recOffs (b : Bytes) : Nat → Nat → List Nat
  | _, 0 => []
  | o, n + 1 => o :: recOffs b (o + (if bit (byteAt b (o + 1)) 0 then 128 else 64)) n

/-- Image offsets of every record of an image. -/
def imgRecOffs (b : Bytes) : List Nat :=
  let p := (imgSection b 4).off
  let dirs := ((frameEnts (imgRoles b * imgFrames b) (secBytes b 3)).map (fun e => e.1)).eraseDups
  ((dirs.map (fun d => ((dirEnts 288 (b.drop (p + d))).map (fun e => recOffs b (p + e.1) e.2)).flatten)).flatten).eraseDups

/-- The image with the context's number in CTX of every record (R134). -/
def placedImage (c : Nat) (b : Bytes) : Bytes :=
  (imgRecOffs b).foldl (fun b o => patch b (o + 8) [BitVec.ofNat 8 (byteAt b (o + 8) / 16 * 16 + c)]) b

/-- A guard entry kept across a device reset with retention: valid, for the same plan, seat and layout; its epoch is compared when a packet
shows the context (R431). -/
def State.retainedGuard (s : State) (c : Nat) : Option Guard :=
  let b := s.lpRead (s.guardBase + 64 * c) 64
  let g := guardOf b
  let x := (s.layGuard c).ctx c
  let n := x.twin.guard
  let whole := !s.lp.emptied.contains (.guardSlot c false) && !s.lp.emptied.contains (.guardSlot c true)
  if s.lp.afterRetain && (s.reg Reg.MEM_LP_STATUS).getLsbD 8 && whole && u32 b 60 == crc32c (b.take 60) && g.state == 2 && g.planId == n.planId && g.seat == n.seat &&
      g.granules == n.granules && g.latest == n.latest && g.clear == n.clear && n.state == 1 then some g else none

/-- Lays out or keeps the guard as a plan is loaded (R410, R431). -/
def State.loadGuard (s : State) (c : Nat) : State :=
  match s.retainedGuard c with
  | some g => s.putGuard c { g with check := 1 }
  | none =>
    let s' := s.layGuard c
    if s.lp.afterRetain ∧ (s'.ctx c).twin.guard.state ≠ 0 then s'.modCtx c (fun x => { x with twin := { x.twin with guard := { x.twin.guard with check := 2 } } })
    else s'

/-- Takes an image that passed the plan check: its copy at `base`, E 0, no clear hasp (older durable hasps stay in flash, R95), the guard, the adapter slots, PEAK_W; the command
waits for the first-frame copy (R39, R67, R134, R245, R410, R576). -/
def State.installPlan (s : State) (fn c : Nat) (cmd : HostCmd) : State :=
  let b := placedImage c cmd.payload
  let s := s.wrRaw c 3 0 cmd.arg0 b
  let s := s.modCtx c (fun x => { x with
    image := b, imageBase := cmd.arg0,
    hasp := { x.hasp with epoch := 0, eLast := 0, target := 0, loaded := true, clear := none, candidate := none, copyPending := true, loadCmd := some (fn, cmd) } })
  let s := ((s.latchHome c).loadGuard c).initSlots c
  s.setRegN (Reg.PWR_CTX_PEAK c) (imgPeak b)

/-- What PLAN_LOAD does for context `c`. -/
def State.loadPlan (s : State) (fn c : Nat) (cmd : HostCmd) : State :=
  let h := s.hasp c
  if (s.ctx c).adm ≠ .keyed then s.complete fn 0x10 cmd 8
  else if h.phase ≠ .stopped ∨ h.loaded ∨ cmd.arg0 % 2097152 ≠ 0 then s.complete fn 0x10 cmd 7
  else match s.planCheck c cmd.arg0 cmd.payload with
    | some f => s.completeR fn 0x10 cmd f.status f.result
    | none => s.installPlan fn c cmd

/-- PLAN_LOAD (R40, R520). -/
def execPlanLoad (fn : Fin 17) (cmd : HostCmd) (s : State) : Host.Outcome State Fault Refusal := s.vfCmd fn 0x10 cmd (fun c s => s.loadPlan fn c cmd)

/-- Commands of a context whose answer its plan owed: a start not yet due, a load whose copy is not made, deferred completions, records held
(MALFORMED for the first two, NOT_COMMITTED for the others; DEDUCED, log entry 29). -/
def State.cancelOwed (s : State) (c : Nat) : State :=
  let x := s.ctx c
  let s := s.over x.hasp.startCmd.toList (fun s p => s.complete p.1 0x11 p.2 7)
  let s := s.over x.hasp.loadCmd.toList (fun s p => s.complete p.1 0x10 p.2 7)
  let s := s.over x.effects (fun s e => match e.what with
    | .done fn op id quiet => s.finish fn op id quiet 4 0 false
    | _ => s)
  s.over ((x.ing.reading ++ x.ing.bins.map (·.2)).filterMap (fun r => r.cmd)) (fun s p => s.complete p.1 0x20 p.2 4)

/-- A context without its plan: G advanced, E and the epoch of the clear hasp as they were (R67), the durable hasps still in flash (R95), and nothing else
left that the plan brought (R82). -/
def State.unloadPlan (s : State) (c : Nat) : State :=
  let s := ((s.cancelOwed c).discardWork c).endStreams c
  let s := s.modCtx c (fun x => { x with
    hasp := { gen := x.hasp.gen, epoch := x.hasp.epoch, lastCmd := x.hasp.lastCmd, clear := x.hasp.clear, clearPlan := x.hasp.clearPlan, durables := x.hasp.durables,
              durableBusy := x.hasp.durableBusy, durableLeft := x.hasp.durableLeft }
    image := [], imageBase := 0, home := [], effects := [], log := [], late := [], lateCommitted := [],
    lateReplay := none, bounds := [], adopted := [], accum := [], steps := [], kv := {}, adp := {}, ing := {}, perm := {} })
  let s := s.modGuard c (fun _ => {})
  let s := s.modCtx c (fun x => { x with twin := {} })
  (s.clearBolts c).setRegN (Reg.PWR_CTX_PEAK c) 0

/-- PLAN_UNLOAD (R520). -/
def execPlanUnload (fn : Fin 17) (cmd : HostCmd) (s : State) : Host.Outcome State Fault Refusal :=
  s.vfCmd fn 0x12 cmd (fun c s =>
    let h := s.hasp c
    if h.phase = .stopped ∨ h.phase = .halted then
      (if h.loaded then s.unloadPlan c else s).complete fn 0x12 cmd 0
    else s.complete fn 0x12 cmd 7)

end Sys2Proof.Machine
end

