-- ==== Sys2Proof/Machine/PlanStart.lean ====
section
/-! DEFINITION. PLAN_START (R230, R441, R467, R520, R635). -/

namespace Sys2Proof.Machine

/-- The records of every engine in the frames of a role, with the ward of the engine. -/
def PlanView.engineRecs (v : PlanView) (role : Nat) : List (Nat × Bytes) :=
  ((v.frames.getD role []).map (fun f => (List.range 16).map (fun w => (f.recs.getD (272 + w) []).map (fun r => (w, r))))).flatten.flatten

/-- Whether every rule and schedule block that a record of this device's role names holds only defined encodings (R230). -/
def State.rulesOk (s : State) (c : Nat) (v : PlanView) : Bool :=
  match (s.seatOf c).map (fun t => v.roles.getD t 0) with
  | none => true
  | some role => (v.engineRecs role).all (fun p =>
      (!upUses (recClass p.2) 56 p.2 || ruleOk (upClip p.2) (s.rd c 1 p.1 (u32 p.2 56) 64)) &&
      (!upUses (recClass p.2) 60 p.2 || muScheduleOk (s.rd c 1 p.1 (u32 p.2 60) 264)))

/-! Shadow coverage (R441). -/

/-- The records of the tiles in one step: tile and record. -/
def PlanView.tileRecs (v : PlanView) (ts : List PTick) : List (Nat × Bytes) :=
  ((ts.map (fun t => ((v.tickRecs t).filter (fun u => decide (u.1 < 256))).map (fun u => u.2.map (fun r => (u.1, r))))).flatten).flatten

/-- Whether a record is of a class that shadows cover. -/
def shadowClass (r : Bytes) : Bool := decide (1 ≤ recClass r ∧ recClass r ≤ 0x0B)

/-- Whether a pair covers class `k` of tile `t` in a step: a primary, its export, a shadow on a tile of another ward, its compare (R165, R440, R441). -/
def shadowed (recs : List (Nat × Bytes)) (t k : Nat) : Bool :=
  recs.any (fun p => p.1 == t && recClass p.2 == k && recDigest p.2 && !recShadow p.2 &&
    recs.any (fun e => e.1 == t && recClass e.2 == 0x10 && byteAt e.2 16 == 0 && byteAt e.2 17 == recDslot p.2) &&
    recs.any (fun q => q.1 / 16 != t / 16 && recClass q.2 == k && recShadow q.2 &&
      recs.any (fun x => x.1 == q.1 && recClass x.2 == 0x10 && byteAt x.2 16 == 1 && byteAt x.2 17 == recDslot q.2 && u16 x.2 18 == recId p.2)))

/-- The first tile and class of a step that no pair covers. -/
def uncovered (recs : List (Nat × Bytes)) : Option (Nat × Nat) :=
  let runs := recs.filter (fun p => shadowClass p.2 && !recShadow p.2)
  (List.range 256).findSome? (fun t => ((List.range 12).find? (fun k => runs.any (fun p => p.1 == t && recClass p.2 == k) && !shadowed recs t k)).map (fun k => (t, k)))

/-- Whether shadows reach the fraction 1 / k of a step (R441). -/
def fractionOk (k : Nat) (recs : List (Nat × Bytes)) : Bool :=
  let sum := fun (f : Bytes → Bool) => ((recs.filter (fun p => shadowClass p.2 && f p.2)).map (fun p => recLength p.2)).foldl (· + ·) 0
  decide (sum recShadow + sum (fun r => !recShadow r) ≤ k * sum recShadow)

/-- CHK_COVER for the first variant that fails a condition; none when every variant passes, and with a fraction of 0. -/
def State.coverBad (s : State) (c : Nat) (v : PlanView) : Option Nat :=
  let code := s.regN (Reg.CHK_FRAC c) % 8
  match (s.seatOf c).map (fun t => v.roles.getD t 0) with
  | none => none
  | some role =>
    if code = 0 then none
    else (List.range v.variants.length).findSome? (fun i =>
      let recs := v.tileRecs ((v.ticksOf role).filter (fun t => t.variant == i))
      match uncovered recs with
      | some (t, k) => some (2 ^ 31 + i % 64 * 2 ^ 24 + t * 2 ^ 16 + k * 2 ^ 8)
      | none => if fractionOk (2 ^ (7 - code)) recs then none else some (2 ^ 31 + 2 ^ 30 + i % 64 * 2 ^ 24))

/-- What PLAN_START does for context `c`. -/
def State.startPlan (s : State) (fn c : Nat) (cmd : HostCmd) : State :=
  let h := s.hasp c
  let b := (s.ctx c).image
  let v := planView b
  let fail := fun (s : State) => s.complete fn 0x11 cmd 7
  if !h.loaded ∨ h.loadCmd.isSome ∨ h.phase ≠ .stopped ∨ h.startAt.isSome ∨ cmd.arg0 < s.tick.now + 4 then fail s
  else if !s.rulesOk c v then fail s
  else match s.coverBad c v with
    | some x => fail ((s.setRegN (Reg.CHK_COVER c) x).event Reg.CHK_EVENT 7)
    | none =>
      if (List.range (imgVariants b)).any (fun i => decide (imgVoteTick b i ≤ s.batchTick c)) then fail s
      else if (s.matchBad c v).isSome then fail s
      else s.modHasp c (fun h => { h with startAt := some cmd.arg0, startCmd := some (fn, cmd) })

/-- PLAN_START (R520). -/
def execPlanStart (fn : Fin 17) (cmd : HostCmd) (s : State) : Host.Outcome State Fault Refusal := s.vfCmd fn 0x11 cmd (fun c s => s.startPlan fn c cmd)

end Sys2Proof.Machine
end

