-- ==== Sys2Proof/Machine/Spdm.lean ====
section
/-! DEFINITION. SPDM (R593): the requests that the controller answers, its sessions and measurements. Codes and the order of requests are those of DSP0274 (PRESUMED, log entry 32). -/

namespace Sys2Proof.Machine

/-- An SPDM request that needs the algorithms negotiated: before that it is an unexpected request (PRESUMED, log entry 32). -/
def State.afterNegotiation (s : State) (f : State → State) : Host.Outcome State Fault Refusal :=
  s.answers (fun s => if s.mgmt.negotiated then f s else s.emit (.spdmError 0x04))

/-- GET_VERSION (R593): version 1.2; what was negotiated is negotiated again. -/
def execGetVersion (s : State) : Host.Outcome State Fault Refusal :=
  s.answers (fun s => { s with mgmt := { s.mgmt with negotiated := false } }.emit (.spdm 0x04 (toLe 1 0 ++ toLe 1 1 ++ toLe 2 0x1200)))

/-- GET_CAPABILITIES (R593): certificates, challenge, signed measurements, encryption and authentication of sessions, key exchange, heartbeat,
key update; no PSK, mutual authentication or chunking. -/
def execGetCapabilities (s : State) : Host.Outcome State Fault Refusal := s.answers (fun s => s.emit (.spdm 0x61 (toLe 4 0x000062D6)))

/-- NEGOTIATE_ALGORITHMS (R593): the requester must offer secp384r1, ECDSA P-384, SHA-384 and AES-256-GCM. -/
def execNegotiateAlgorithms (dhe sign hash aead : Bool) (s : State) : Host.Outcome State Fault Refusal :=
  s.answers (fun s =>
    if dhe && sign && hash && aead then { s with mgmt := { s.mgmt with negotiated := true } }.emit (.spdm 0x63 (toLe 4 0x01010101))
    else s.emit (.spdmError 0x01))

/-- GET_DIGESTS (R593): slot 0 holds the chain. -/
def execGetDigests (s : State) : Host.Outcome State Fault Refusal :=
  s.afterNegotiation (fun s => s.emit (.spdm 0x01 (toLe 1 1 ++ sha384 Config.certChain)))

/-- GET_CERTIFICATE (R593): a part of the chain and how much follows it. -/
def execGetCertificate (slot offset len : Nat) (s : State) : Host.Outcome State Fault Refusal :=
  s.afterNegotiation (fun s =>
    let n := Config.certChain.length
    if slot ≠ 0 ∨ n < offset then s.emit (.spdmError 0x01)
    else
      let part := slice Config.certChain offset len
      s.emit (.spdm 0x02 (toLe 2 part.length ++ toLe 2 (n - offset - part.length) ++ part)))

/-- CHALLENGE (R593): the device signs over the requester's nonce and one of its own, which is free. -/
def execChallenge (slot : Nat) (nonce : Bytes) (s : State) : Host.Outcome State Fault Refusal :=
  s.afterNegotiation (fun s =>
    if slot ≠ 0 then s.emit (.spdmError 0x01)
    else
      let own := s.drawBytes 32
      let body := sha384 Config.certChain ++ own.1
      own.2.emit (.spdm 0x03 (body ++ Config.ecdsaSign (nonce ++ body))))

/-- What measurement `n` digests (R593). -/
def State.measured (s : State) (n : Nat) : Bytes :=
  match n with
  | 1 => Config.bootRom
  | 2 => s.firmware 1
  | 3 => s.firmware 2
  | 4 => s.optCopyBytes s.rst.optCopy
  | _ => Config.fusedBytes

/-- GET_MEASUREMENTS (R593): index 0 asks how many there are, 255 for all. -/
def execGetMeasurements (idx : Nat) (s : State) : Host.Outcome State Fault Refusal :=
  s.afterNegotiation (fun s =>
    let one := fun (n : Nat) => toLe 1 n ++ sha384 (s.measured n)
    if idx = 0 then s.emit (.spdm 0x60 (toLe 1 5))
    else if idx = 255 then s.emit (.spdm 0x60 (((List.range 5).map (fun i => one (i + 1))).flatten))
    else if idx ≤ 5 then s.emit (.spdm 0x60 (one idx))
    else s.emit (.spdmError 0x01))

/-- KEY_EXCHANGE (R593): at most 4 sessions are open at once. The responder's half of the session number and its key are free values. -/
def execKeyExchange (reqId : Nat) (s : State) : Host.Outcome State Fault Refusal :=
  s.afterNegotiation (fun s =>
    if s.mgmt.sessions.any (fun p => p.1 == reqId) then s.emit (.spdmError 0x01)
    else if 4 ≤ s.mgmt.sessions.length then s.emit (.spdmError 0x0A)
    else
      let own := s.drawBytes 98
      let s := { own.2 with mgmt := { own.2.mgmt with sessions := own.2.mgmt.sessions ++ [(reqId, false)] } }
      s.emit (.spdm 0x64 (own.1 ++ Config.ecdsaSign own.1)))

/-- A session's own request; where no such session is open the error is InvalidSession (PRESUMED, log entry 32). -/
def State.onSession (s : State) (sess : Nat) (established : Bool) (f : State → State) : Host.Outcome State Fault Refusal :=
  s.answers (fun s => if s.mgmt.sessions.any (fun p => p.1 == sess && p.2 == established) then f s else s.emit (.spdmError 0x02))

/-- Closes a session. -/
def State.dropSession (s : State) (sess : Nat) : State :=
  { s with mgmt := { s.mgmt with sessions := s.mgmt.sessions.filter (fun p => p.1 != sess) } }

/-- FINISH (R593): the session is established, or closed where the requester's check value is wrong. -/
def execFinish (sess : Nat) (hmacOk : Bool) (s : State) : Host.Outcome State Fault Refusal :=
  s.onSession sess false (fun s =>
    if hmacOk then
      { s with mgmt := { s.mgmt with sessions := s.mgmt.sessions.map (fun (p : Nat × Bool) => if p.1 = sess then (sess, true) else p) } }.emit (.spdm 0x65 [])
    else (s.dropSession sess).emit (.spdmError 0x06))

/-- HEARTBEAT (R593). -/
def execHeartbeat (sess : Nat) (s : State) : Host.Outcome State Fault Refusal := s.onSession sess true (fun s => s.emit (.spdm 0x68 []))

/-- KEY_UPDATE (R593). -/
def execKeyUpdate (sess : Nat) (s : State) : Host.Outcome State Fault Refusal :=
  s.onSession sess true (fun s => { s with mgmt := { s.mgmt with keyUpdates := s.mgmt.keyUpdates + 1 } }.emit (.spdm 0x69 []))

/-- END_SESSION (R593). -/
def execEndSession (sess : Nat) (s : State) : Host.Outcome State Fault Refusal :=
  s.onSession sess true (fun s => (s.dropSession sess).emit (.spdm 0x6C []))

end Sys2Proof.Machine
end

