-- ==== Sys2Proof/Machine/Pldm.lean ====
section
/-! DEFINITION. PLDM: firmware update (R599 to R601), platform monitoring (R602, R603). Message codes are those of DSP0267 and DSP0248 (PRESUMED, log entry 32). -/

namespace Sys2Proof.Machine

/-! Firmware update. -/

/-- Notes which component an update is under way for; no image of it has been verified yet. -/
def State.setUpdate (s : State) (u : Option Nat) : State := { s with mgmt := { s.mgmt with update := u, ready := false } }

/-- REQUEST_UPDATE (R599): inside a secured session only, for a component of the table. -/
def execRequestUpdate (sess : Option Nat) (component : Nat) (s : State) : Host.Outcome State Fault Refusal :=
  s.answers (fun s =>
    if !s.inSession sess then s.emit (.pldm 5 0x10 (toLe 1 Config.notPermitted))
    else if s.mgmt.update.isSome then s.emit (.pldm 5 0x10 (toLe 1 0x81))
    else if component = 0 ∨ 3 < component then s.emit (.pldm 5 0x10 (toLe 1 2))
    else (s.setUpdate (some component)).emit (.pldm 5 0x10 (toLe 1 0)))

/-- Whether a signed image passes verification with a public key (R600). -/
def signedOk (component : Nat) (image pubKey : Bytes) : Bool :=
  let n := image.length - 256
  let t := image.drop n
  decide (256 ≤ image.length) && u32 t 0 == 0x47534B49 && u32 t 4 == component && decide (Config.fusedMinimum component ≤ u32 t 8) && u32 t 12 == n &&
    slice t 16 48 == sha384 (image.take n) && zeroAt t 160 96 && Config.fusedKeys.contains (sha384 pubKey, false) &&
    Config.ecdsaVerify pubKey (t.take 64) (slice t 64 96)

/-- Whether an image may be activated: management and media firmware are signed, the option block is one copy's size (R547, R599, R600). -/
def imageAllowed (component : Nat) (image pubKey : Bytes) : Bool :=
  if component = 3 then image.length == 4096 else signedOk component image pubKey

/-- FIRMWARE_VERIFY (R600): VerifyComplete with success, or with a verification failure, management event 6 and AUTH_FAIL. -/
def execFirmwareVerify (component : Nat) (image pubKey : Bytes) (s : State) : Host.Outcome State Fault Refusal :=
  s.answers (fun s =>
    if s.mgmt.update ≠ some component then s
    else if imageAllowed component image pubKey then
      { s with mgmt := { s.mgmt with verified := tput s.mgmt.verified component image, ready := true } }.emit (.pldm 5 0x17 (toLe 1 0))
    else ((s.setUpdate none).emit (.pldm 5 0x17 (toLe 1 1))).platformEvent 6 6)

/-- The option copy not in use, written from a new block with SEQ raised by 1 (R547, R599). -/
def State.writeOption (s : State) (image : Bytes) : State :=
  let i := 1 - s.rst.optCopy
  let b := patch image 8 (toLe 4 (u32 (s.optCopyBytes s.rst.optCopy) 8 + 1))
  let b := patch b 4092 (toLe 4 (crc32c (b.take 4092)))
  { s with stores := { s.stores with spi := mwrite s.stores.spi (i * 0x1000) b } }

/-- FIRMWARE_ACTIVATE (R506, R599, R601): a restart of the controller, a switch of the media firmware, or a write of the option copy not in use. -/
def execFirmwareActivate (component : Nat) (s : State) : Host.Outcome State Fault Refusal :=
  s.answers (fun s =>
    match s.mgmt.update, s.mgmt.verified.find? (fun p => p.1 == component) with
    | some u, some (_, image) =>
      if u ≠ component ∨ !s.mgmt.ready then s.emit (.pldm 5 0x1A (toLe 1 0x85))
      else
        let s := (s.setUpdate none).emit (.pldm 5 0x1A (toLe 1 0))
        if component = 1 then { s with mgmt := { s.mgmt with restarting := true } }
        else if component = 2 then s.modMedia (fun m => { m with switching := true })
        else s.writeOption image
    | none, _ => s.emit (.pldm 5 0x1A (toLe 1 0x80))
    | _, none => s.emit (.pldm 5 0x1A (toLe 1 0x85)))

/-- MGMT_RESTART_DONE (R450, R593, R601, R607): the new image is in use, its sessions are gone, what waited is recorded, the maps are compared. -/
def execMgmtRestartDone (s : State) : Host.Outcome State Fault Refusal :=
  if !s.mgmt.restarting then .next s
  else
    let m := s.mgmt
    let use := match m.verified.find? (fun p => p.1 == 1) with
      | some (_, b) => tput m.inUse 1 b
      | none => m.inUse
    let s := { s with mgmt := { m with restarting := false, inUse := use, sessions := [], negotiated := false, update := none, ready := false } }
    let s := if s.inhibited then s else { s with chk := { s.chk with history := s.chk.history ++ s.chk.queue, queue := [] } }
    .next s.compareMaps

/-! Platform monitoring. -/

/-- The unit of a numeric sensor, as DSP0248 numbers units: degrees C, volts, watts (R602). -/
def sensorUnit (n : Nat) : Nat := if n ≤ 2 then 2 else if n = 3 then 5 else 7

/-- GET_PDR (R602): the numeric sensor's number and unit; what else the record says is DSP0248's. -/
def execGetPdr (sensor : Nat) (s : State) : Host.Outcome State Fault Refusal :=
  s.answers (fun s =>
    if sensor = 0 ∨ 70 < sensor then s.emit (.pldm 2 0x51 (toLe 1 0x82)) else s.emit (.pldm 2 0x51 (toLe 1 0 ++ toLe 2 sensor ++ toLe 1 (sensorUnit sensor))))

/-- A sensor's reading: forecasts from the latched group, the others of this moment (R602). Sensor 3 reads in units of 10 mV. -/
def State.sensor (s : State) (n : Nat) : Nat :=
  match n with
  | 1 => s.regN Reg.PWR_TEMP % 256
  | 2 => bits (s.regN Reg.PWR_TEMP) 23 16
  | 3 => s.regN Reg.PWR_VIN % 65536
  | 4 => s.regN Reg.PWR_POWER % 65536
  | 5 => s.regN Reg.PWR_CAP_NOW % 65536
  | 6 => s.pwr.latchedMean
  | _ => (s.pwr.latchedFc.getD (n - 7) (0, false)).1

/-- GET_SENSOR_READING (R581, R602): sensor 7 latches the forecast group first. -/
def execGetSensorReading (sensor : Nat) (s : State) : Host.Outcome State Fault Refusal :=
  s.answers (fun s =>
    if sensor = 0 ∨ 70 < sensor then s.emit (.pldm 2 0x11 (toLe 1 0x80))
    else
      let s := if sensor = 7 then s.latchForecast else s
      s.emit (.pldm 2 0x11 (toLe 1 0 ++ toLe 4 (s.sensor sensor))))

/-- SET_EVENT_RECEIVER (R602, R603). -/
def execSetEventReceiver (eid : Nat) (s : State) : Host.Outcome State Fault Refusal :=
  s.answers (fun s => { s with mgmt := { s.mgmt with receiver := some eid } }.emit (.pldm 2 0x04 (toLe 1 0)))

end Sys2Proof.Machine
end

