-- ==== Sys2Proof/Machine/TickCmds.lean ====
section
/-! DEFINITION. The tick protocol's messages: tick packets (R49, R50, R55, R66, R84, R431), notices to the master (R46, R356, R357, R420, R421), the deputy (R53, R54), the timebase (R58, R59), the adrift limit (R64), the commit deadline (R78). -/

namespace Sys2Proof.Machine

/-! Tick packets. -/

/-- Whether packet `a` goes before packet `b` for one tick (R50): the higher TERM, then the lower MASTER. -/
def packetWins (a b : Bytes) : Bool := decide (pkTerm b < pkTerm a) || (pkTerm a == pkTerm b && decide (pkMaster a < pkMaster b))

/-- A missed command that a packet shows is repaired, or the context has diverged (R84). The packet agrees with the state of now and with every
state that the packets held, itself the last, lead to (DEDUCED, log entry 38). A missed rollback into WITHHELD is repaired as one with failover (DEDUCED, log
entry 50); in STOPPED and HALTED it leaves the phase as it is (DEDUCED, log entry 50). -/
def State.repair (s : State) (b : Bytes) : State :=
  let c := pkCtx b
  let h := s.hasp c
  let g := pkGen b
  let e := pkEpoch b
  let own := s.view c
  let agrees := fun (v : View) => v.gen == g && v.shown == e
  let soon := (viewsHeld s (s.tick.packets.filter (fun p => decide (s.tick.now < p.1 ∧ p.1 ≤ pkTick b))) s.views).any (fun l => (l[c]?).any agrees)
  let idle := h.phase == .stopped || h.phase == .halted
  if !s.loaded c ∨ soon then s
  else if g = h.gen ∧ e = h.epoch + 1 ∧ h.reported ∧ (h.phase = .running ∨ h.phase = .replaying) then (s.commitCore c e).event (Reg.HSP_EVENT c) 2
  else if g = h.gen + 1 ∧ idle ∧ e = h.epoch then (s.applyRollback c h.lastCmd e false h.phase h.held).event (Reg.HSP_EVENT c) 2
  else if g = h.gen + 1 ∧ !idle ∧ (e = own.shown ∨ (h.under = .restoring ∧ s.olderClear c e)) then
    (s.rollbackCore c (if pkPhase b = .withheld then 3 else 2) e (decide (pkPhase b = .withheld))).event (Reg.HSP_EVENT c) 2
  else (s.modHasp c (fun h => { h with diverged := true })).event (Reg.HSP_EVENT c) 3

/-- A retained guard entry meets the first packet that shows its context (R431). -/
def State.checkGuard (s : State) (b : Bytes) : State :=
  let c := pkCtx b
  let g := (s.ctx c).twin.guard
  if g.check = 0 then s
  else if g.check = 1 ∧ g.epoch = pkEpoch b then (s.modGuard c (fun g => { g with state := 2, check := 0 })).event Reg.HSP_TWIN_EVENT 4
  else
    let s := s.modGuard c (fun g => { g with state := 1, check := 0, rebuild := true, rebuilt := [] })
    s.sendMsg (s.twinAddr c) (some c) (toLe 2 2 ++ toLe 1 c ++ zeros 1 ++ toLe 4 0xFFFFFFFF ++ toLe 2 (s.hasp c).gen.toNat ++ zeros 2 ++ zeros 4)

/-- A valid packet that the device uses for its tick: the new term, the end of ALIGNING, a master that steps down, repairs (R50, R55, R66, R84). -/
def State.usePacket (s : State) (b : Bytes) : State :=
  let t := s.tick
  let later := decide (t.seenTerm < pkTerm b)
  let s := s.eventIf later Reg.TCK_EVENT 3
  let s := s.modTick (fun t => { t with
    packets := tput t.packets (pkTick b) b
    seenTerm := max t.seenTerm (pkTerm b)
    leader := if later ∧ pkMaster b ≠ s.masterAddr then some (pkMaster b) else t.leader
    master := t.master && !decide (t.term < pkTerm b)
    placement := if t.master then t.placement else u16 b 28
    run := if t.run = .aligning ∧ t.offsetOk then .running else t.run })
  (s.repair b).checkGuard b

/-- Forwards a packet on the child links of both trees (R49). -/
def State.forwardTick (s : State) (b : Bytes) : State :=
  s.over (pick 24 (fun n => s.children.contains n || s.backupChildren.contains n)) (fun s n => s.sendControl n 0x02 0 b)

/-- A tick packet that arrived on a link, or with the master's state (R49, R50). The first valid copy of a packet whose tick has begun is still forwarded. -/
def State.takeTick (s : State) (l : Option Nat) (b : Bytes) : State :=
  let t := s.tick
  let k := pkTick b
  if t.run = .stopped ∨ t.now < t.firstTick ∨ !tickPacketOk b ∨ pkTerm b < t.term then s
  else if k ≤ t.now then
    if t.passed.contains k ∨ t.packets.any (fun p => p.1 == k) then s
    else (s.forwardTick b).modTick (fun t => { t with passed := k :: t.passed })
  else
    let s := if l = some s.parent ∧ k = t.now + 2 then s.modTick (fun t => { t with primaryCopy := true }) else s
    let s := match t.packets.find? (fun p => p.1 == k) with
      | none => (s.forwardTick b).usePacket b
      | some p =>
        if p.2 = b then s
        else if packetWins b p.2 then s.usePacket b
        else if packetWins p.2 b then s
        else s.event Reg.TCK_EVENT 6
    s.tryReply false

/-- TICK_PACKET (R49). -/
def execTickPacket (link : Fin 24) (pkt : Bytes) (s : State) : Host.Outcome State Fault Refusal :=
  .next (s.takePacket link pkt 0x02 (fun p s => s.takeTick (some link) p.payload))

/-! Notices to the master. -/

/-- SILENCE (R46, R420): the master notes the device that a silence notice names. -/
def execSilence (link : Fin 24) (b : Bytes) (s : State) : Host.Outcome State Fault Refusal :=
  .next (s.takePacket link b 0x08 (fun p s =>
    if p.payload.length ≠ 2 then s.count Reg.FAB_DROP_CRC
    else if s.tick.master ∧ s.tick.now ≤ p.arg then s.modTick (fun t => { t with silence := t.silence ++ [(u16 p.payload 0, p.arg)] }) else s))

/-- PRESENCE_NOTICE (R420, R421). -/
def execPresenceNotice (link : Fin 24) (b : Bytes) (s : State) : Host.Outcome State Fault Refusal :=
  .next (s.takeMsg link b 3 (fun b s =>
    if b.length ≠ 16 ∨ !zeroAt b 2 2 ∨ !zeroAt b 6 2 then s.count Reg.FAB_DROP_CRC
    else if s.tick.master ∧ s.tick.now ≤ u64 b 8 then s.modTick (fun t => { t with presence := t.presence ++ [(u16 b 4, u64 b 8)] }) else s))

/-- A vote word for a context and the epoch that its step produces; one that is settled stays (R357). -/
def State.noteVote (s : State) (c e : Nat) (w : W64) : State :=
  let k := c * 2 ^ 32 + e
  if s.tick.votes.any (fun p => p.1 == k) then s else s.modTick (fun t => { t with votes := tput t.votes k w })

/-- Whether bytes are a vote notice (R9, R356). -/
def voteNoticeOk (b : Bytes) : Bool := decide (b.length = 16) && u16 b 0 == 1 && decide (byteAt b 2 < 16) && byteAt b 3 == 0

/-- What a vote notice tells the master. -/
def State.takeVoteNotice (s : State) (b : Bytes) : State := s.noteVote (byteAt b 2) (u32 b 4) (BitVec.ofNat 64 (u64 b 8))

/-- VOTE_NOTICE (R356). -/
def execVoteNotice (link : Fin 24) (b : Bytes) (s : State) : Host.Outcome State Fault Refusal :=
  .next (s.takeMsg link b 1 (fun b s => if !voteNoticeOk b then s.count Reg.FAB_DROP_CRC else if s.tick.master then s.takeVoteNotice b else s))

/-- VOTE_DEADLINE (R357): at the start of tick L - 2 the master settles on the last variant for a step whose vote it does not hold: a vote above
every ceiling selects it (R32). -/
def execVoteDeadline (c : Fin 16) (s : State) : Host.Outcome State Fault Refusal :=
  let h := s.hasp c
  if !s.tick.master ∨ !s.loaded c ∨ !h.stepOpen ∨ 2 ≤ (s.ctx c).perm.state ∨ h.stepTick + 2 < s.stepLen c then .next s
  else .next (s.noteVote c h.stepEpoch 0xFFFFFFFFFFFFFFFF#64)

/-! The deputy. -/

/-- The vote notices and the permanence notices in a master's state (R53), as `masterState` lays them out; none where the bytes break R9 (a length, a check
value, a reserved field or an encoding). -/
def parseMasterState (b : Bytes) : Option (List Bytes × List Bytes) :=
  let nv := u32 b 104
  let nn := u32 b 108
  if b.length < 112 ∨ b.length ≠ 112 + 16 * nv + 12 * nn then none
  else
    let vs := (List.range nv).map (fun i => slice b (112 + 16 * i) 16)
    let ns := (List.range nn).map (fun i => slice b (112 + 16 * nv + 12 * i) 12)
    if replyOk (b.take 32) && tickPacketOk (slice b 32 64) && vs.all voteNoticeOk && ns.all permanenceOk then some (vs, ns) else none

/-- TSTATE (R53): the deputy keeps the master's merged reply, votes, notices, packet and selector. One that breaks R9 is discarded whole. -/
def execTstate (link : Fin 24) (b : Bytes) (s : State) : Host.Outcome State Fault Refusal :=
  .next (s.takePacket link b 0x04 (fun p s =>
    let m := p.payload
    match parseMasterState m with
    | none => s.count Reg.FAB_DROP_CRC
    | some (vs, ns) =>
      if !s.tick.deputy ∨ s.tick.run = .stopped then s
      else
        let s := s.modTick (fun t => t.takeMerged s.oldestStep (u64 m 0) (u16 m 8) (u16 m 10) (u32 m 12) (byteAt m 16))
        let s := s.over vs State.takeVoteNotice
        (s.modTick (fun t => { t with notices := ns, select := BitVec.ofNat 64 (u64 m 96) })).takeTick none (slice m 32 64)))

/-- DEPUTY_TAKEOVER (R54, R421): the deputy that holds no packet announcing tick T + 2 becomes the master under the next term, gathers ready
states afresh and watches the previous master. -/
def execDeputyTakeover (s : State) : Host.Outcome State Fault Refusal :=
  let t := s.tick
  if !t.deputy ∨ t.run = .stopped ∨ t.now < t.firstTick ∨ t.packets.any (fun p => p.1 == t.now + 2) then .next s
  else
    let old := s.masterAddr
    let s := s.modTick (fun t => { t with
      master := true, deputy := false, term := max t.term t.seenTerm + 1, leader := some s.addr, watch := some (old, t.now + 2), mergedTick := none })
    .next (s.compose (s.tick.now + 2) true true)

/-! The timebase. -/

/-- An offset measurement (R58, R59), in 1/65,536 ns. The halved difference rounds toward minus infinity (DESIGN CHOICE, log entry 51). What is at most
1 µs is slewed; above 10 ns the device is a straggler, and above 1 µs it stays one that it was until it is back within 10 ns. -/
def State.measureOffset (s : State) (t1 t2 t3 t4 : Int) : State :=
  let o := ((t2 - t1) - (t4 - t3)) / 2
  let n := o.natAbs
  s.modTick (fun k => { k with
    offsetNs := o
    offsetOk := decide (n ≤ 10 * 65536)
    straggler := decide (10 * 65536 < n ∧ n ≤ 1000 * 65536) || (k.straggler && decide (1000 * 65536 < n))
    slew := if 1000 * 65536 < n then 0 else o
    stepPending := if 1000 * 65536 < n then some o else none })

/-- TSYNC (R58): from the device whose timebase this one follows, the packet carries t1, t2 and t3, and its arrival is t4; on a child link it asks for an
answer, with this device's t1 and t2 (the exchange is a DESIGN CHOICE, log entry 51). Any other TSYNC concerns nobody. -/
def execTsync (link : Fin 24) (b : Bytes) (arrival sent : Int) (s : State) : Host.Outcome State Fault Refusal :=
  .next (s.takePacket link b 0x05 (fun p s =>
    let t := fun (i : Nat) => toSigned 64 (u64 p.payload (8 * i))
    if p.payload.length ≠ 32 then s.count Reg.FAB_DROP_CRC
    else if s.syncParent = some link.val then s.measureOffset (t 0) (t 1) (t 2) arrival
    else if (s.children ++ s.backupChildren).contains link.val then s.sendSync link sent arrival (t 2) 0
    else s))

/-- OFFSET_MEASURE (R58): in the window of every 1,024th tick, and 100 ms after the last measurement, the device begins an exchange with its parent, sent
at `sent` on its timebase; the tick master and a root have nobody to measure. -/
def execOffsetMeasure (sent : Int) (s : State) : Host.Outcome State Fault Refusal :=
  .next (match s.syncParent with
    | some l => s.sendSync l 0 0 sent 0
    | none => s)

/-- ADRIFT_LIMIT (R64): after 3 consecutive adrift ticks the device begins no records at the next tick boundary. -/
def execAdriftLimit (s : State) : Host.Outcome State Fault Refusal :=
  .next (if s.tick.run = .adrift ∧ 3 ≤ s.tick.adriftRun then s.modTick (fun t => { t with stopNext := true }) else s)

/-! The commit deadline. -/

/-- Whether a packet held announces a command for context `c` in a tick to come. -/
def State.announced (s : State) (c : Nat) : Bool :=
  s.tick.packets.any (fun p => decide (s.tick.now < p.1) && pkCtx p.2 == c && (pkCmd p.2 != .none || pkPhase p.2 == .withheld))

/-- COMMIT_DEADLINE (R78): at the start of tick 2 of the following step, when no packet sent announces the commit, nor what stands in its place,
a Rollback to E, or phase WITHHELD, becomes due. -/
def execCommitDeadline (c : Fin 16) (s : State) : Host.Outcome State Fault Refusal :=
  let v := s.view c
  if !s.tick.master ∨ !s.loaded c ∨ !v.runs ∨ !v.stepOpen ∨ v.stepEpoch ≠ v.epoch + 2 ∨ v.index s.tick.now < 2 ∨ s.announced c then .next s
  else
    let d := s.missedChoice s.tick.now c v
    .next (s.modTick (fun t => { t with due := t.due.filter (fun (x : Due) => x.ctx != c.val || (x.cmd != .rollback && x.cmd != .none)) ++ [⟨c, d.cmd, d.arg, d.deadline⟩] }))

end Sys2Proof.Machine
end

