-- ==== Sys2Proof/Machine/Dispatch.lean ====
section
/-! DEFINITION. One arm per command of spec/opcode_table.json, in the table's order: each command calls its one meaning. -/

namespace Sys2Proof.Machine

/-- The effect of a command on everything but the queue of waiting commands. -/
def exec (i : Instr) (s : State) : Host.Outcome State Fault Refusal :=
  match i with
  | .tickBoundary k env => Sys2Proof.Machine.execTickBoundary k env s
  | .tickPacket link pkt => Sys2Proof.Machine.execTickPacket link pkt s
  | .reply link pkt => Sys2Proof.Machine.execReply link pkt s
  | .childReplyTimeout link => Sys2Proof.Machine.execChildReplyTimeout link s
  | .silence link pkt => Sys2Proof.Machine.execSilence link pkt s
  | .presenceNotice link pkt => Sys2Proof.Machine.execPresenceNotice link pkt s
  | .tstate link pkt => Sys2Proof.Machine.execTstate link pkt s
  | .deputyTakeover => Sys2Proof.Machine.execDeputyTakeover s
  | .tsync link pkt arrival sent => Sys2Proof.Machine.execTsync link pkt arrival sent s
  | .offsetMeasure sent => Sys2Proof.Machine.execOffsetMeasure sent s
  | .adriftLimit => Sys2Proof.Machine.execAdriftLimit s
  | .voteNotice link pkt => Sys2Proof.Machine.execVoteNotice link pkt s
  | .voteDeadline c => Sys2Proof.Machine.execVoteDeadline c s
  | .firstFrameCopyDone c => Sys2Proof.Machine.execFirstFrameCopyDone c s
  | .commitDeadline c => Sys2Proof.Machine.execCommitDeadline c s
  | .restoreCopyDone c bad => Sys2Proof.Machine.execRestoreCopyDone c bad s
  | .swapPageSent c slot layer idx errs => Sys2Proof.Machine.execSwapPageSent c slot layer idx errs s
  | .swapInPage c slot layer idx page => Sys2Proof.Machine.execSwapInPage c slot layer idx page s
  | .stackTempSample readings now => Sys2Proof.Machine.execStackTempSample readings now s
  | .permuteLimit c => Sys2Proof.Machine.execPermuteLimit c s
  | .failoverStreamComplete c => Sys2Proof.Machine.execFailoverStreamComplete c s
  | .deathDeclared addr => Sys2Proof.Machine.execDeathDeclared addr s
  | .matmul u rec env => Sys2Proof.Machine.execMatmul u rec env s
  | .elementwiseChain u rec env => Sys2Proof.Machine.execElementwiseChain u rec env s
  | .reductionSum u rec env => Sys2Proof.Machine.execReductionSum u rec env s
  | .reductionMax u rec env => Sys2Proof.Machine.execReductionMax u rec env s
  | .reductionMin u rec env => Sys2Proof.Machine.execReductionMin u rec env s
  | .reductionSumsq u rec env => Sys2Proof.Machine.execReductionSumsq u rec env s
  | .reductionMean u rec env => Sys2Proof.Machine.execReductionMean u rec env s
  | .softmax u rec env => Sys2Proof.Machine.execSoftmax u rec env s
  | .logSoftmax u rec env => Sys2Proof.Machine.execLogSoftmax u rec env s
  | .layerNorm u rec env => Sys2Proof.Machine.execLayerNorm u rec env s
  | .rmsNorm u rec env => Sys2Proof.Machine.execRmsNorm u rec env s
  | .relayout u rec env => Sys2Proof.Machine.execRelayout u rec env s
  | .gather u rec env => Sys2Proof.Machine.execGather u rec env s
  | .scatter u rec env => Sys2Proof.Machine.execScatter u rec env s
  | .scatterAdd u rec env => Sys2Proof.Machine.execScatterAdd u rec env s
  | .quantise u rec env => Sys2Proof.Machine.execQuantise u rec env s
  | .dequantise u rec env => Sys2Proof.Machine.execDequantise u rec env s
  | .send u rec env => Sys2Proof.Machine.execSend u rec env s
  | .receiveCopy u rec env => Sys2Proof.Machine.execReceiveCopy u rec env s
  | .receiveAdd u rec env => Sys2Proof.Machine.execReceiveAdd u rec env s
  | .receiveMax u rec env => Sys2Proof.Machine.execReceiveMax u rec env s
  | .dmaMove w rec env => Sys2Proof.Machine.execDmaMove w rec env s
  | .nextVariantMove w rec env => Sys2Proof.Machine.execNextVariantMove w rec env s
  | .boltWait u rec late => Sys2Proof.Machine.execBoltWait u rec late s
  | .boltAdd u rec late => Sys2Proof.Machine.execBoltAdd u rec late s
  | .boltSet u rec late => Sys2Proof.Machine.execBoltSet u rec late s
  | .boltWaitTimeout u => Sys2Proof.Machine.execBoltWaitTimeout u s
  | .checkerExport u rec env => Sys2Proof.Machine.execCheckerExport u rec env s
  | .checkerCompare u rec env => Sys2Proof.Machine.execCheckerCompare u rec env s
  | .convolution u rec env => Sys2Proof.Machine.execConvolution u rec env s
  | .maxPool u rec env => Sys2Proof.Machine.execMaxPool u rec env s
  | .averagePool u rec env => Sys2Proof.Machine.execAveragePool u rec env s
  | .bilinearResize u rec env => Sys2Proof.Machine.execBilinearResize u rec env s
  | .nearestResize u rec env => Sys2Proof.Machine.execNearestResize u rec env s
  | .attentionFwd u rec env => Sys2Proof.Machine.execAttentionFwd u rec env s
  | .attentionBwd u rec env => Sys2Proof.Machine.execAttentionBwd u rec env s
  | .attentionAppend u rec env => Sys2Proof.Machine.execAttentionAppend u rec env s
  | .attentionMerge u rec env => Sys2Proof.Machine.execAttentionMerge u rec env s
  | .elem w rec env => Sys2Proof.Machine.execElem w rec env s
  | .norm w rec env => Sys2Proof.Machine.execNorm w rec env s
  | .fuse w rec env => Sys2Proof.Machine.execFuse w rec env s
  | .scale w rec env => Sys2Proof.Machine.execScale w rec env s
  | .carry w rec env => Sys2Proof.Machine.execCarry w rec env s
  | .ortho w rec env => Sys2Proof.Machine.execOrtho w rec env s
  | .kstat w rec env => Sys2Proof.Machine.execKstat w rec env s
  | .kroot w rec env => Sys2Proof.Machine.execKroot w rec env s
  | .kapply w rec env => Sys2Proof.Machine.execKapply w rec env s
  | .variant w rec env => Sys2Proof.Machine.execVariant w rec env s
  | .recordRetire u tc => Sys2Proof.Machine.execRecordRetire u tc s
  | .reservationStart link c idx => Sys2Proof.Machine.execReservationStart link c idx s
  | .reservationEnd link c tx idx => Sys2Proof.Machine.execReservationEnd link c tx idx s
  | .mirrorAck link pkt => Sys2Proof.Machine.execMirrorAck link pkt s
  | .mirrorAckTimeout c pair => Sys2Proof.Machine.execMirrorAckTimeout c pair s
  | .sched link pkt => Sys2Proof.Machine.execSched link pkt s
  | .packetForward link pkt => Sys2Proof.Machine.execPacketForward link pkt s
  | .packetAged idx => Sys2Proof.Machine.execPacketAged idx s
  | .credit link pkt => Sys2Proof.Machine.execCredit link pkt s
  | .hello link pkt => Sys2Proof.Machine.execHello link pkt s
  | .helloTimer => Sys2Proof.Machine.execHelloTimer s
  | .write link pkt => Sys2Proof.Machine.execWrite link pkt s
  | .read link pkt errs => Sys2Proof.Machine.execRead link pkt errs s
  | .readData link pkt => Sys2Proof.Machine.execReadData link pkt s
  | .ack link pkt errs => Sys2Proof.Machine.execAck link pkt errs s
  | .error link pkt => Sys2Proof.Machine.execError link pkt s
  | .requestTimeout seq => Sys2Proof.Machine.execRequestTimeout seq s
  | .probe link pkt now => Sys2Proof.Machine.execProbe link pkt now s
  | .assign link pkt now => Sys2Proof.Machine.execAssign link pkt now s
  | .neighbours link pkt now => Sys2Proof.Machine.execNeighbours link pkt now s
  | .tableWrite link pkt now => Sys2Proof.Machine.execTableWrite link pkt now s
  | .tableSeal link pkt now => Sys2Proof.Machine.execTableSeal link pkt now s
  | .fmRegWrite link pkt now => Sys2Proof.Machine.execFmRegWrite link pkt now s
  | .fmRegRead link pkt now => Sys2Proof.Machine.execFmRegRead link pkt now s
  | .tickStart link pkt now => Sys2Proof.Machine.execTickStart link pkt now s
  | .resume link pkt now => Sys2Proof.Machine.execResume link pkt now s
  | .fmReset link pkt now => Sys2Proof.Machine.execFmReset link pkt now s
  | .linkTrainingDone link failure delay16 sent => Sys2Proof.Machine.execLinkTrainingDone link failure delay16 sent s
  | .linkDown link => Sys2Proof.Machine.execLinkDown link s
  | .codewordUncorrectable link => Sys2Proof.Machine.execCodewordUncorrectable link s
  | .fabPermAtWrite c v => Sys2Proof.Machine.execFabPermAtWrite c v s
  | .key c => Sys2Proof.Machine.execKey c s
  | .release c => Sys2Proof.Machine.execRelease c s
  | .zeroingComplete c => Sys2Proof.Machine.execZeroingComplete c s
  | .ctxSelectHiWrite v => Sys2Proof.Machine.execCtxSelectHiWrite v s
  | .ctxBoltValWrite v => Sys2Proof.Machine.execCtxBoltValWrite v s
  | .ctxBoltAddWrite v => Sys2Proof.Machine.execCtxBoltAddWrite v s
  | .hspEvictWrite v => Sys2Proof.Machine.execHspEvictWrite v s
  | .hspFoVersionWrite v => Sys2Proof.Machine.execHspFoVersionWrite v s
  | .enrol => Sys2Proof.Machine.execEnrol s
  | .permanenceNotice link pkt => Sys2Proof.Machine.execPermanenceNotice link pkt s
  | .sweepComplete u pass => Sys2Proof.Machine.execSweepComplete u pass s
  | .unitClassHourly now => Sys2Proof.Machine.execUnitClassHourly now s
  | .historyCompact => Sys2Proof.Machine.execHistoryCompact s
  | .recordIngest c scans flashBad => Sys2Proof.Machine.execRecordIngest c scans flashBad s
  | .recordDecoded c ok items ns => Sys2Proof.Machine.execRecordDecoded c ok items ns s
  | .batchDeadline c => Sys2Proof.Machine.execBatchDeadline c s
  | .adapterTransferDone c v fill => Sys2Proof.Machine.execAdapterTransferDone c v fill s
  | .pictureDecoded e own refs out ns => Sys2Proof.Machine.execPictureDecoded e own refs out ns s
  | .decodeTimeout e ns => Sys2Proof.Machine.execDecodeTimeout e ns s
  | .livePictureLate st => Sys2Proof.Machine.execLivePictureLate st s
  | .liveStreamEnable st v => Sys2Proof.Machine.execLiveStreamEnable st v s
  | .archiveEncodeDone unit => Sys2Proof.Machine.execArchiveEncodeDone unit s
  | .mediaFwSwitchDone => Sys2Proof.Machine.execMediaFwSwitchDone s
  | .nandProgramDone block dieFail => Sys2Proof.Machine.execNandProgramDone block dieFail s
  | .readDisturbRelocate block => Sys2Proof.Machine.execReadDisturbRelocate block s
  | .scrubRead row errs => Sys2Proof.Machine.execScrubRead row errs s
  | .rowRemap row bad => Sys2Proof.Machine.execRowRemap row bad s
  | .ringPoll fn words pkts => Sys2Proof.Machine.execRingPoll fn words pkts s
  | .nop fn cmd => Sys2Proof.Machine.execNop fn cmd s
  | .fmCmd fn cmd => Sys2Proof.Machine.execFmCmd fn cmd s
  | .tokLoad fn cmd => Sys2Proof.Machine.execTokLoad fn cmd s
  | .flashWrite fn cmd => Sys2Proof.Machine.execFlashWrite fn cmd s
  | .flashRead fn cmd bad => Sys2Proof.Machine.execFlashRead fn cmd bad s
  | .flashTrim fn cmd => Sys2Proof.Machine.execFlashTrim fn cmd s
  | .flashFlush fn cmd => Sys2Proof.Machine.execFlashFlush fn cmd s
  | .flashFormat fn cmd => Sys2Proof.Machine.execFlashFormat fn cmd s
  | .planLoad fn cmd => Sys2Proof.Machine.execPlanLoad fn cmd s
  | .planStart fn cmd => Sys2Proof.Machine.execPlanStart fn cmd s
  | .planUnload fn cmd => Sys2Proof.Machine.execPlanUnload fn cmd s
  | .waitEpoch fn cmd => Sys2Proof.Machine.execWaitEpoch fn cmd s
  | .stateRead fn cmd errs => Sys2Proof.Machine.execStateRead fn cmd errs s
  | .stateWrite fn cmd => Sys2Proof.Machine.execStateWrite fn cmd s
  | .ringBoltAdd fn cmd => Sys2Proof.Machine.execRingBoltAdd fn cmd s
  | .ringBoltSet fn cmd => Sys2Proof.Machine.execRingBoltSet fn cmd s
  | .record fn cmd scans => Sys2Proof.Machine.execRecord fn cmd scans s
  | .live fn cmd width height supported rap rasl => Sys2Proof.Machine.execLive fn cmd width height supported rap rasl s
  | .sensor fn cmd first last => Sys2Proof.Machine.execSensor fn cmd first last s
  | .ringEnable fn => Sys2Proof.Machine.execRingEnable fn s
  | .ringDisable fn => Sys2Proof.Machine.execRingDisable fn s
  | .irqTimer fn vec => Sys2Proof.Machine.execIrqTimer fn vec s
  | .functionLevelReset fn => Sys2Proof.Machine.execFunctionLevelReset fn s
  | .perstAssert => Sys2Proof.Machine.execPerstAssert s
  | .d3hotEntry fn => Sys2Proof.Machine.execD3hotEntry fn s
  | .powerOn => Sys2Proof.Machine.execPowerOn s
  | .resetNAssert now => Sys2Proof.Machine.execResetNAssert now s
  | .stretchExpiry now pinHigh => Sys2Proof.Machine.execStretchExpiry now pinHigh s
  | .resetHeld => Sys2Proof.Machine.execResetHeld s
  | .rstCmd v now => Sys2Proof.Machine.execRstCmd v now s
  | .watchdogExpiry now => Sys2Proof.Machine.execWatchdogExpiry now s
  | .fatalEscalation now => Sys2Proof.Machine.execFatalEscalation now s
  | .pllLockTimeout now => Sys2Proof.Machine.execPllLockTimeout now s
  | .bringupPhaseComplete ok bad => Sys2Proof.Machine.execBringupPhaseComplete ok bad s
  | .wardResetComplete w => Sys2Proof.Machine.execWardResetComplete w s
  | .refclkFail r => Sys2Proof.Machine.execRefclkFail r s
  | .refclkRecover r => Sys2Proof.Machine.execRefclkRecover r s
  | .clkSelect v => Sys2Proof.Machine.execClkSelect v s
  | .holdoverLimit => Sys2Proof.Machine.execHoldoverLimit s
  | .pcieRefclkFail => Sys2Proof.Machine.execPcieRefclkFail s
  | .pwrLadderWrite v => Sys2Proof.Machine.execPwrLadderWrite v s
  | .vinSample mv now => Sys2Proof.Machine.execVinSample mv now s
  | .supplyStageRecover => Sys2Proof.Machine.execSupplyStageRecover s
  | .railTimeout => Sys2Proof.Machine.execRailTimeout s
  | .railUndervolt now => Sys2Proof.Machine.execRailUndervolt now s
  | .shedAssert => Sys2Proof.Machine.execShedAssert s
  | .shedRelease => Sys2Proof.Machine.execShedRelease s
  | .governorTick measuredW fillW => Sys2Proof.Machine.execGovernorTick measuredW fillW s
  | .dieTempSample readings now => Sys2Proof.Machine.execDieTempSample readings now s
  | .setEndpointId vdm eid => Sys2Proof.Machine.execSetEndpointId vdm eid s
  | .getEndpointId vdm => Sys2Proof.Machine.execGetEndpointId vdm s
  | .getMctpVersionSupport vdm msgType => Sys2Proof.Machine.execGetMctpVersionSupport vdm msgType s
  | .getMessageTypeSupport vdm => Sys2Proof.Machine.execGetMessageTypeSupport vdm s
  | .getVendorDefinedMessageSupport vdm => Sys2Proof.Machine.execGetVendorDefinedMessageSupport vdm s
  | .getVersion => Sys2Proof.Machine.execGetVersion s
  | .getCapabilities => Sys2Proof.Machine.execGetCapabilities s
  | .negotiateAlgorithms dhe sign hash aead => Sys2Proof.Machine.execNegotiateAlgorithms dhe sign hash aead s
  | .getDigests => Sys2Proof.Machine.execGetDigests s
  | .getCertificate slot offset len => Sys2Proof.Machine.execGetCertificate slot offset len s
  | .challenge slot nonce => Sys2Proof.Machine.execChallenge slot nonce s
  | .getMeasurements idx => Sys2Proof.Machine.execGetMeasurements idx s
  | .keyExchange reqId => Sys2Proof.Machine.execKeyExchange reqId s
  | .finish sess hmacOk => Sys2Proof.Machine.execFinish sess hmacOk s
  | .heartbeat sess => Sys2Proof.Machine.execHeartbeat sess s
  | .keyUpdate sess => Sys2Proof.Machine.execKeyUpdate sess s
  | .endSession sess => Sys2Proof.Machine.execEndSession sess s
  | .getInfo => Sys2Proof.Machine.execGetInfo s
  | .mgmtRegRead off => Sys2Proof.Machine.execMgmtRegRead off s
  | .mgmtRegWrite sess off v now => Sys2Proof.Machine.execMgmtRegWrite sess off v now s
  | .ladder sess rung => Sys2Proof.Machine.execLadder sess rung s
  | .mgmtReset sess scope now => Sys2Proof.Machine.execMgmtReset sess scope now s
  | .unitRead kind unit => Sys2Proof.Machine.execUnitRead kind unit s
  | .unitRequestFence sess kind unit => Sys2Proof.Machine.execUnitRequestFence sess kind unit s
  | .unitRequestRestore sess kind unit => Sys2Proof.Machine.execUnitRequestRestore sess kind unit s
  | .unitRequestClearClass sess kind unit => Sys2Proof.Machine.execUnitRequestClearClass sess kind unit s
  | .histRead firstSeq count => Sys2Proof.Machine.execHistRead firstSeq count s
  | .setTime sess seconds => Sys2Proof.Machine.execSetTime sess seconds s
  | .setFabricKey sess fabKey => Sys2Proof.Machine.execSetFabricKey sess fabKey s
  | .requestUpdate sess component => Sys2Proof.Machine.execRequestUpdate sess component s
  | .firmwareVerify component image pubKey => Sys2Proof.Machine.execFirmwareVerify component image pubKey s
  | .firmwareActivate component => Sys2Proof.Machine.execFirmwareActivate component s
  | .mgmtRestartDone => Sys2Proof.Machine.execMgmtRestartDone s
  | .getPdr sensor => Sys2Proof.Machine.execGetPdr sensor s
  | .getSensorReading sensor => Sys2Proof.Machine.execGetSensorReading sensor s
  | .setEventReceiver eid => Sys2Proof.Machine.execSetEventReceiver eid s
  | .loWordRead fn off size => Sys2Proof.Machine.execLoWordRead fn off size s
  | .accSnapEpochRead c => Sys2Proof.Machine.execAccSnapEpochRead c s
  | .pwrFcastTickLoRead => Sys2Proof.Machine.execPwrFcastTickLoRead s
  | .registerWrite fn off size v now => Sys2Proof.Machine.execRegisterWrite fn off size v now s
  | .jtagBypass instr => Sys2Proof.Machine.execJtagBypass instr s
  | .jtagIdcode => Sys2Proof.Machine.execJtagIdcode s
  | .jtagSamplePreload => Sys2Proof.Machine.execJtagSamplePreload s
  | .jtagExtest lands => Sys2Proof.Machine.execJtagExtest lands s
  | .resetNRelease => Sys2Proof.Machine.execResetNRelease s
  | .perstRelease => Sys2Proof.Machine.execPerstRelease s
  | .rebuildComplete group => Sys2Proof.Machine.execRebuildComplete group s
  | .linkHoldEnd => Sys2Proof.Machine.execLinkHoldEnd s
  | .debugUnlock sess => Sys2Proof.Machine.execDebugUnlock sess s
  | .unsupportedMessage msgType code len => Sys2Proof.Machine.execUnsupportedMessage msgType code len s

end Sys2Proof.Machine
end

