-- ==== Sys2Proof/Safety.lean ====
section
/-! DEFINITION. What claims call a safe state and a safe run: memories in their canonical form, the bounds that the manual sets on what the device holds, a run that no fault or refusal ends. -/

namespace Sys2Proof.Machine

/-- Every memory is in its canonical form. -/
def State.memoryOk (s : State) : Bool :=
  s.stores.tiles.all (fun p => Memory.wf p.2) && s.stores.wards.all (fun p => Memory.wf p.2) && Memory.wf s.stores.staging && Memory.wf s.stores.dram &&
    Memory.wf s.stores.lpddr && Memory.wf s.stores.spi

/-- At most four management sessions are open (R593). -/
def State.sessionsOk (s : State) : Bool := decide (s.mgmt.sessions.length ≤ 4)

/-- Whether a command is the issue of an operation record on a unit. -/
def isRecord (c : Instr) : Bool :=
  match c with
  | .matmul .. | .elementwiseChain .. | .reductionSum .. | .reductionMax .. | .reductionMin .. | .reductionSumsq .. | .reductionMean .. | .softmax ..
  | .logSoftmax .. | .layerNorm .. | .rmsNorm .. | .relayout .. | .gather .. | .scatter .. | .scatterAdd .. | .quantise .. | .dequantise ..
  | .send .. | .receiveCopy .. | .receiveAdd .. | .receiveMax .. | .dmaMove .. | .nextVariantMove .. | .boltWait .. | .boltAdd .. | .boltSet ..
  | .checkerExport .. | .checkerCompare .. | .convolution .. | .maxPool .. | .averagePool .. | .bilinearResize .. | .nearestResize ..
  | .attentionFwd .. | .attentionBwd .. | .attentionAppend .. | .attentionMerge .. | .elem .. | .norm .. | .fuse .. | .scale .. | .carry ..
  | .ortho .. | .kstat .. | .kroot .. | .kapply .. | .variant .. => true
  | .tickBoundary .. | .tickPacket .. | .reply .. | .childReplyTimeout .. | .silence .. | .presenceNotice .. | .tstate .. | .deputyTakeover ..
  | .tsync .. | .offsetMeasure .. | .adriftLimit .. | .voteNotice .. | .voteDeadline .. | .firstFrameCopyDone .. | .commitDeadline ..
  | .restoreCopyDone .. | .swapPageSent .. | .swapInPage .. | .stackTempSample .. | .permuteLimit .. | .failoverStreamComplete .. | .deathDeclared ..
  | .boltWaitTimeout .. | .recordRetire .. | .reservationStart .. | .reservationEnd .. | .mirrorAck .. | .mirrorAckTimeout .. | .sched ..
  | .packetForward .. | .packetAged .. | .credit .. | .hello .. | .helloTimer .. | .write .. | .read .. | .readData .. | .ack .. | .error ..
  | .requestTimeout .. | .probe .. | .assign .. | .neighbours .. | .tableWrite .. | .tableSeal .. | .fmRegWrite .. | .fmRegRead .. | .tickStart ..
  | .resume .. | .fmReset .. | .linkTrainingDone .. | .linkDown .. | .codewordUncorrectable .. | .fabPermAtWrite .. | .key .. | .release ..
  | .zeroingComplete .. | .ctxSelectHiWrite .. | .ctxBoltValWrite .. | .ctxBoltAddWrite .. | .hspEvictWrite .. | .hspFoVersionWrite .. | .enrol ..
  | .permanenceNotice .. | .sweepComplete .. | .unitClassHourly .. | .historyCompact .. | .recordIngest .. | .recordDecoded .. | .batchDeadline ..
  | .adapterTransferDone .. | .pictureDecoded .. | .decodeTimeout .. | .livePictureLate .. | .liveStreamEnable .. | .archiveEncodeDone ..
  | .mediaFwSwitchDone .. | .nandProgramDone .. | .readDisturbRelocate .. | .scrubRead .. | .rowRemap .. | .ringPoll .. | .nop .. | .fmCmd ..
  | .tokLoad .. | .flashWrite .. | .flashRead .. | .flashTrim .. | .flashFlush .. | .flashFormat .. | .planLoad .. | .planStart .. | .planUnload ..
  | .waitEpoch .. | .stateRead .. | .stateWrite .. | .ringBoltAdd .. | .ringBoltSet .. | .record .. | .live .. | .sensor .. | .ringEnable ..
  | .ringDisable .. | .irqTimer .. | .functionLevelReset .. | .perstAssert .. | .d3hotEntry .. | .powerOn .. | .resetNAssert .. | .stretchExpiry ..
  | .resetHeld .. | .rstCmd .. | .watchdogExpiry .. | .fatalEscalation .. | .pllLockTimeout .. | .bringupPhaseComplete .. | .wardResetComplete ..
  | .refclkFail .. | .refclkRecover .. | .clkSelect .. | .holdoverLimit .. | .pcieRefclkFail .. | .pwrLadderWrite .. | .vinSample ..
  | .supplyStageRecover .. | .railTimeout .. | .railUndervolt .. | .shedAssert .. | .shedRelease .. | .governorTick .. | .dieTempSample ..
  | .setEndpointId .. | .getEndpointId .. | .getMctpVersionSupport .. | .getMessageTypeSupport .. | .getVendorDefinedMessageSupport ..
  | .getVersion .. | .getCapabilities .. | .negotiateAlgorithms .. | .getDigests .. | .getCertificate .. | .challenge .. | .getMeasurements ..
  | .keyExchange .. | .finish .. | .heartbeat .. | .keyUpdate .. | .endSession .. | .getInfo .. | .mgmtRegRead .. | .mgmtRegWrite .. | .ladder ..
  | .mgmtReset .. | .unitRead .. | .unitRequestFence .. | .unitRequestRestore .. | .unitRequestClearClass .. | .histRead .. | .setTime ..
  | .setFabricKey .. | .requestUpdate .. | .firmwareVerify .. | .firmwareActivate .. | .mgmtRestartDone .. | .getPdr .. | .getSensorReading ..
  | .setEventReceiver .. | .loWordRead .. | .accSnapEpochRead .. | .pwrFcastTickLoRead .. | .registerWrite .. | .jtagBypass .. | .jtagIdcode ..
  | .jtagSamplePreload .. | .jtagExtest .. | .resetNRelease .. | .perstRelease .. | .rebuildComplete .. | .linkHoldEnd .. | .debugUnlock ..
  | .unsupportedMessage .. => false

/-- Unit `u` runs record `r`, whose class rules are `legal`, whose bolt is in `reach` and whose regions are `regions`: the unit's sequencer hands the record
out, in a run tick, to a ward in service; the record is legal, its context is the one selected on the unit, and what it names lies in that context's bolts and
partitions (R23, R26, R133, R134, R166). -/
def Admits (s : State) (u : Nat) (r : Bytes) (legal reach : Bool) (regions : List Region) : Prop :=
  s.issues (s.selected u) = true ∧ s.wardOut u = false ∧ s.seqNext (s.selected u) u = some r ∧ recCtx r = s.selected u ∧
    headLegal r u = true ∧ legal = true ∧ regionsFit regions = true ∧ reach = true ∧
    regions.all (fun g => s.inPart (recCtx r) g.space g.addr g.len) = true

/-- Packet `p` arrives whole on a link that carries it, with this opcode, for this device: its checks pass and its generation is not stale (R315, R317,
R318). -/
def Delivers (s : State) (link : Nat) (b : Bytes) (opcode : Nat) (p : Packet) : Prop :=
  s.linkTakes link b = true ∧ packetOk b = true ∧ p = parsePacket b ∧ (s.landed link p).stale p = false ∧ p.opcode = opcode ∧
    (p.control = true ∨ p.dst = s.addr ∨ (opcode = 1 ∧ p.detour = false)) ∧ p.payloadOk = true

/-- The fabric-manager command `m` arrives whole in packet `b` on a link, with an authenticator field, and leaves the state `u` (R315, R317, R340). -/
def Manages (s u : State) (link : Nat) (b : Bytes) (now : Nat) (m : FmMsg) : Prop :=
  ∃ p : Packet, Delivers s link b 0x21 p ∧ u = s.landed link p ∧ p.isReply = false ∧ p.auth = true ∧
    m = ⟨BitVec.ofNat 64 p.arg, p.payload, p.src, p.seq, [], now⟩

/-- A command completes: it has a next state. -/
def Completes (c : Instr) (s : State) : Prop := ∃ t, exec c s = .next t

/-- A run of `k` steps that no fault or refusal ends. -/
def SafeRun (k : Nat) (s : State) : Prop := ∃ t, Sys2Proof.core.run k s = .next t

end Sys2Proof.Machine
end

