-- ==== Sys2Proof/Certificates/Slice0/Obligations.lean ====
section
/-! DEFINITION. The statements for the provers. -/

open Sys2Proof Sys2Proof.Machine

/-- For every command c, queue rest q and state s whose queue is c followed by q, step s is exec c on s with queue q. The queue is the model's interface (log entry 11). -/
def Obligations.StepRunsFront : Prop :=
  ∀ (c : Instr) (q : List Instr) (s : State), s.pending = c :: q → step s = exec c { s with pending := q }

/-- A step of a state whose queue is empty answers that state unchanged. The idle step is the model's own choice (log entry 11). -/
def Obligations.StepIdlesOnEmptyQueue : Prop :=
  ∀ s : State, s.pending = [] → step s = .next s

/-- Every command answers a next state in every state: no fault and no refusal ends a run. -/
def Obligations.EveryCommandCompletes : Prop :=
  ∀ (c : Instr) (s : State), ∃ t, exec c s = .next t

/-- At reset these registers read through BAR0 as the register map gives them: part number, capabilities, stack size and map version, the tick geometry and trees, the power caps, the stack control, the fabric retries, the durable keep count, the ingest and archive defaults; and RST_CAUSE reads POR alone. -/
def Obligations.ResetRegisterValues : Prop :=
  (State.reset.readReg Reg.ID_PART).1 = 0x00000480#32 ∧ (State.reset.readReg Reg.ID_CAP).1 = 0x10101011#32 ∧
  (State.reset.readReg Reg.ID_DRAM).1 = 0x000000C0#32 ∧ (State.reset.readReg Reg.ID_MAP).1 = 0x00010000#32 ∧
  (State.reset.readReg Reg.TCK_PERIOD).1 = 0x000000FA#32 ∧ (State.reset.readReg Reg.TCK_WINDOW).1 = 0x000009C4#32 ∧
  (State.reset.readReg Reg.TCK_GUARD).1 = 0x00000014#32 ∧ (State.reset.readReg Reg.TCK_TREE).1 = 0x001F001F#32 ∧
  (State.reset.readReg Reg.PWR_CAP).1 = 0x0000FFFF#32 ∧ (State.reset.readReg Reg.PWR_SHED_CAP).1 = 0x000001F4#32 ∧
  (State.reset.readReg Reg.PWR_SAG_CAP).1 = 0x000003E8#32 ∧ (State.reset.readReg Reg.PWR_SLEW).1 = 0x00000014#32 ∧
  (State.reset.readReg Reg.MEM_STK_CTRL).1 = 0x00180400#32 ∧ (State.reset.readReg Reg.FAB_BE_CTRL).1 = 0x00000203#32 ∧
  (State.reset.readReg Reg.MED_ARCH_CTRL).1 = 0x00080020#32 ∧ (State.reset.readReg Reg.RST_CAUSE).1 = 0x00000001#32 ∧
  (∀ c : Fin 16, (State.reset.readReg (Reg.HSP_DURABLE_KEEP c)).1 = 2#32 ∧ (State.reset.readReg (Reg.FAB_LATE_CTRL c)).1 = 1#32 ∧
    (State.reset.readReg (Reg.TCK_SEED c)).1 = 0#32)

/-- At reset the tick is STOPPED, every context is FREE and STOPPED with no plan loaded, every link is down, no reset is in force, every ring set is DISABLED, no command waits, and no fabric key and no session is held; memories list nothing (what an unlisted byte reads as is log entry 1). -/
def Obligations.ResetState : Prop :=
  State.reset.tick.run = .stopped ∧ (∀ c, State.reset.held c = false ∧ State.reset.loaded c = false ∧ (State.reset.hasp c).phase = .stopped) ∧
  (∀ l, State.reset.linkUp l = false) ∧ (∀ f, (State.reset.ring f).run = .disabled) ∧ State.reset.pending = [] ∧
  State.reset.mgmt.fabricKey = none ∧ State.reset.mgmt.sessions = [] ∧ State.reset.memoryOk = true

/-- The invariant of SessionsStayBounded holds of the state after reset. -/
def Obligations.ResetSessions : Prop :=
  State.reset.sessionsOk = true

/-- In every state with at most four open management sessions, a step of any command that answers a next state leaves at most four open sessions. -/
def Obligations.SessionsStayBounded : Prop :=
  ∀ s t : State, s.sessionsOk = true → step s = .next t → t.sessionsOk = true

/-- For every command and state, after a next state the fabric key is what it was, or none is held, or the command was SET_FABRIC_KEY with a 32-byte key inside an established session, and the key is that one. -/
def Obligations.FabricKeyRule : Prop :=
  ∀ (c : Instr) (s t : State), exec c s = .next t →
    t.mgmt.fabricKey = s.mgmt.fabricKey ∨ t.mgmt.fabricKey = none ∨
      ∃ sess k, c = .setFabricKey sess k ∧ s.inSession sess = true ∧ k.length = 32 ∧ t.mgmt.fabricKey = some k

/-- For every command and state, when the debug block is unlocked after a next state, it was unlocked before, or the command was DEBUG_UNLOCK naming an established session. -/
def Obligations.DebugLockRule : Prop :=
  ∀ (c : Instr) (s t : State), exec c s = .next t → t.mgmt.debug = true →
    s.mgmt.debug = true ∨ ∃ sess, c = .debugUnlock sess ∧ s.inSession sess = true

/-- A tick packet that arrives whole, valid, of a standing term and for a tick to come of which no packet is held yet goes on to the children of both trees and is used; the first copy of one whose tick has begun is only sent on. A child's first valid reply for the current reply tick merges READY by AND, POISON and FLAGS by OR and COUNT by sum, and the reply leaves once nothing is missing. The master keeps silence, presence and vote notices. The deputy keeps the master's state. -/
def Obligations.TickPacketsComplete : Prop :=
  (∀ (l : Fin 24) (b : Bytes) (p : Packet) (s u : State), Delivers s l b 0x02 p → u = s.landed l p → u.tick.run ≠ .stopped → u.tick.firstTick ≤ u.tick.now →
    tickPacketOk p.payload = true → u.tick.term ≤ pkTerm p.payload →
    (u.tick.now < pkTick p.payload → u.tick.packets.find? (fun q => q.1 == pkTick p.payload) = none → ∃ v : State,
      v = (if some l.val = some u.parent ∧ pkTick p.payload = u.tick.now + 2 then u.modTick (fun t => { t with primaryCopy := true }) else u) ∧
      exec (.tickPacket l b) s = .next (((v.forwardTick p.payload).usePacket p.payload).tryReply false)) ∧
    (pkTick p.payload ≤ u.tick.now → u.tick.passed.contains (pkTick p.payload) = false → u.tick.packets.any (fun q => q.1 == pkTick p.payload) = false →
      exec (.tickPacket l b) s = .next ((u.forwardTick p.payload).modTick (fun t => { t with passed := pkTick p.payload :: t.passed })))) ∧
  (∀ (l : Fin 24) (b : Bytes) (p : Packet) (s u : State), Delivers s l b 0x03 p → u = s.landed l p → replyOk p.payload = true → u.tick.run ≠ .stopped →
    u.tick.replied = false → u64 p.payload 0 = u.tick.replyTick → u.tick.heard.contains l.val = false → (u.children ++ u.backupChildren).contains l.val = true →
    exec (.reply l b) s = .next (({ u with tick := { u.tick with
      ready := u.tick.ready &&& u16 p.payload 8
      poison := u.tick.poison ||| u16 p.payload 10
      count := (u.tick.count + u32 p.payload 12) % 2 ^ 32
      flags := u.tick.flags ||| byteAt p.payload 16
      heard := u.tick.heard ++ [l.val] } } : State).tryReply false)) ∧
  (∀ (l : Fin 24) (b : Bytes) (p : Packet) (s u : State), Delivers s l b 0x08 p → u = s.landed l p → p.payload.length = 2 → u.tick.master = true →
    u.tick.now ≤ p.arg →
    exec (.silence l b) s = .next { u with tick := { u.tick with silence := u.tick.silence ++ [(u16 p.payload 0, p.arg)] } }) ∧
  (∀ (l : Fin 24) (b : Bytes) (p : Packet) (s u : State), Delivers s l b 0x18 p → u = s.landed l p → p.payload.length = 16 → u16 p.payload 0 = 3 →
    zeroAt p.payload 2 2 = true → zeroAt p.payload 6 2 = true → u.tick.master = true → u.tick.now ≤ u64 p.payload 8 →
    exec (.presenceNotice l b) s = .next { u with tick := { u.tick with presence := u.tick.presence ++ [(u16 p.payload 4, u64 p.payload 8)] } }) ∧
  (∀ (l : Fin 24) (b : Bytes) (p : Packet) (s u : State), Delivers s l b 0x18 p → u = s.landed l p → p.payload.length = 16 → u16 p.payload 0 = 1 →
    byteAt p.payload 2 < 16 → byteAt p.payload 3 = 0 → u.tick.master = true →
    exec (.voteNotice l b) s = .next (u.noteVote (byteAt p.payload 2) (u32 p.payload 4) (BitVec.ofNat 64 (u64 p.payload 8)))) ∧
  (∀ (l : Fin 24) (b : Bytes) (p : Packet) (vs ns : List Bytes) (s u : State), Delivers s l b 0x04 p → u = s.landed l p →
    parseMasterState p.payload = some (vs, ns) → u.tick.deputy = true → u.tick.run ≠ .stopped → ∃ v : State,
    v = (u.modTick (fun t => t.takeMerged u.oldestStep (u64 p.payload 0) (u16 p.payload 8) (u16 p.payload 10) (u32 p.payload 12) (byteAt p.payload 16))).over
      vs State.takeVoteNotice ∧
    exec (.tstate l b) s = .next (({ v with tick := { v.tick with notices := ns, select := BitVec.ofNat 64 (u64 p.payload 96) } } : State).takeTick none
      (slice p.payload 32 64)))

/-- Where the master holds a vote for the context and epoch, another notice changes nothing; where it holds none, the vote word is kept, no other vote changes, and nothing outside the tick changes. -/
def Obligations.NoteVoteRule : Prop :=
  (∀ (c e : Nat) (w : W64) (s : State), s.tick.votes.any (fun p => p.1 == c * 2 ^ 32 + e) = true → s.noteVote c e w = s) ∧
  (∀ (c e : Nat) (w : W64) (s : State), s.tick.votes.any (fun p => p.1 == c * 2 ^ 32 + e) = false →
    s.noteVote c e w = { s with tick := { s.tick with votes := tput s.tick.votes (c * 2 ^ 32 + e) w } })

/-- A boundary of a new tick runs the end of the old one, when the tick runs, and begins the new one, or idles while STOPPED; one of a tick that has begun changes nothing. A missing child merges as READY 0 with SILENT_CHILD and a silence notice to the master. A deputy without a packet for T + 2 takes over with the next term and composes that packet with no command. After three adrift ticks the device begins no records from the next boundary on. The vote, commit and permute deadlines make the master note the last variant, a Rollback or its exception, and a Rollback. A device counted silent three times is declared dead, once. -/
def Obligations.TickDeadlinesComplete : Prop :=
  (∀ (k : Nat) (env : BoundaryEnv) (s : State), k ≤ s.tick.now → exec (.tickBoundary k env) s = .next s) ∧
  (∀ (k : Nat) (env : BoundaryEnv) (s : State), s.tick.now < k → ∃ u v : State,
    u = (if s.tick.run = .running ∨ s.tick.run = .adrift then s.endTick env else s) ∧
    v = ({ u with tick := { u.tick with
      now := k, timebase := u.boundaryTime k, tree := some (u.reg Reg.TCK_TREE)
      primarySilent := decide (s.tick.run = .running ∨ s.tick.run = .adrift) && !u.tick.primaryCopy, primaryCopy := false
      packets := u.tick.packets.filter (fun p => decide (k ≤ p.1))
      passed := (u.tick.packets.filter (fun p => decide (p.1 < k))).map (·.1) ++ (u.tick.passed.filter (fun p => decide (k ≤ p + 4))) } } : State).expireCredits env ∧
    exec (.tickBoundary k env) s = .next (if v.tick.run = .stopped then v.idleTick else v.beginTick)) ∧
  (∀ (l : Fin 24) (s : State), s.tick.run ≠ .stopped → s.tick.replied = false → s.tick.heard.contains l.val = false → s.children.contains l.val = true →
    ∃ u v : State, u = ({ s with tick := { s.tick with ready := 0, heard := s.tick.heard ++ [l.val] } } : State).event Reg.TCK_EVENT 7 ∧
      v = u.sendRouted (u.mkPacket 0x08 0 u.masterAddr none u.tick.now 0 (toLe 2 ((u.recordAddr l).getD 0xFFFF))) ∧
      exec (.childReplyTimeout l) s = .next (v.tryReply (v.children.all v.tick.heard.contains))) ∧
  (∀ s : State, s.tick.deputy = true → s.tick.run ≠ .stopped → s.tick.firstTick ≤ s.tick.now → s.tick.packets.any (fun p => p.1 == s.tick.now + 2) = false →
    exec .deputyTakeover s = .next (({ s with tick := { s.tick with
      master := true, deputy := false, term := max s.tick.term s.tick.seenTerm + 1, leader := some s.addr
      watch := some (s.masterAddr, s.tick.now + 2), mergedTick := none } } : State).compose (s.tick.now + 2) true true)) ∧
  (∀ s : State, s.tick.run = .adrift → 3 ≤ s.tick.adriftRun → exec .adriftLimit s = .next { s with tick := { s.tick with stopNext := true } }) ∧
  (∀ s : State, ¬(s.tick.run = .adrift ∧ 3 ≤ s.tick.adriftRun) → exec .adriftLimit s = .next s) ∧
  (∀ (c : Fin 16) (s : State), s.tick.master = true → s.loaded c = true → (s.hasp c).stepOpen = true → (s.ctx c).perm.state < 2 →
    s.stepLen c ≤ (s.hasp c).stepTick + 2 → exec (.voteDeadline c) s = .next (s.noteVote c (s.hasp c).stepEpoch 0xFFFFFFFFFFFFFFFF#64)) ∧
  (∀ (c : Fin 16) (s : State), s.tick.master = true → s.loaded c = true → (s.view c).runs = true → (s.view c).stepOpen = true →
    (s.view c).stepEpoch = (s.view c).epoch + 2 → 2 ≤ (s.view c).index s.tick.now → s.announced c = false →
    exec (.commitDeadline c) s = .next { s with tick := { s.tick with
      due := s.tick.due.filter (fun (x : Due) => x.ctx != c.val || (x.cmd != .rollback && x.cmd != .none)) ++
        [⟨c, (s.missedChoice s.tick.now c (s.view c)).cmd, (s.missedChoice s.tick.now c (s.view c)).arg, (s.missedChoice s.tick.now c (s.view c)).deadline⟩] } }) ∧
  (∀ (c : Fin 16) (s : State), s.tick.master = true → 2 ≤ (s.ctx c).perm.state →
    (s.ctx c).perm.startTick + s.regN (Reg.FAB_PERM_CTRL c) / 65536 ≤ s.tick.now →
    (bit s.tick.mergedReady c && decide ((s.hasp c).gate ≤ s.tick.mergedTick.getD 0)) = false →
    exec (.permuteLimit c) s = .next { s with tick := { s.tick with
      due := s.tick.due.filter (fun d => d.ctx != c.val || d.cmd != .rollback) ++
        [⟨c, .rollback, (s.hasp c).epoch, (s.ctx c).perm.startTick + s.regN (Reg.FAB_PERM_CTRL c) / 65536⟩] } }) ∧
  (∀ (a : Nat) (s : State), (s.tick.master = true ∧ 3 ≤ s.silent a ∧ s.tick.dead.contains a = false → exec (.deathDeclared a) s = .next (s.declareDead a)) ∧
    (¬(s.tick.master = true ∧ 3 ≤ s.silent a ∧ s.tick.dead.contains a = false) → exec (.deathDeclared a) s = .next s))

/-- A TSYNC from the device whose timebase this one follows sets the measured offset to ((t2 - t1) - (t4 - t3)) / 2, in 1/65,536 ns, t4 being its arrival: at most 10 ns it is in order; above that and at most 1 microsecond the device is a straggler; above 1 microsecond a step of the timebase is pending and a straggler stays one; and nothing else changes. One from a child is answered with its t1 and t2 and this device's. OFFSET_MEASURE asks the parent for an exchange, and does nothing where there is no parent to follow. How a difference of odd length is halved, and the form of the exchange, are the model's choice (log entry 51). -/
def Obligations.OffsetMeasureRule : Prop :=
  (∀ (l : Fin 24) (b : Bytes) (p : Packet) (t4 sent t1 t2 t3 o : Int) (s u : State), Delivers s l b 0x05 p → u = s.landed l p → p.payload.length = 32 →
    u.syncParent = some l.val → t1 = toSigned 64 (u64 p.payload 0) → t2 = toSigned 64 (u64 p.payload 8) → t3 = toSigned 64 (u64 p.payload 16) →
    o = ((t2 - t1) - (t4 - t3)) / 2 →
    exec (.tsync l b t4 sent) s = .next { u with tick := { u.tick with
      offsetNs := o
      offsetOk := decide (o.natAbs ≤ 655360)
      straggler := decide (655360 < o.natAbs ∧ o.natAbs ≤ 65536000) || (u.tick.straggler && decide (65536000 < o.natAbs))
      slew := if 65536000 < o.natAbs then 0 else o
      stepPending := if 65536000 < o.natAbs then some o else none } }) ∧
  (∀ (l : Fin 24) (b : Bytes) (p : Packet) (arrival sent : Int) (s u : State), Delivers s l b 0x05 p → u = s.landed l p → p.payload.length = 32 →
    u.syncParent ≠ some l.val → (u.children ++ u.backupChildren).contains l.val = true →
    exec (.tsync l b arrival sent) s = .next (u.sendSync l sent arrival (toSigned 64 (u64 p.payload 16)) 0)) ∧
  (∀ (sent : Int) (s : State), (∀ l, s.syncParent = some l → exec (.offsetMeasure sent) s = .next (s.sendSync l 0 0 sent 0)) ∧
    (s.syncParent = none → exec (.offsetMeasure sent) s = .next s))

/-- When every stream that a failover sends to this WITHHELD device has arrived, the guard is settled, and the replay log and the committed late ledger become those that arrived; the expectation of them is dropped. -/
def Obligations.FailoverCompletes : Prop :=
  ∀ (c : Fin 16) (s : State), (s.hasp c).phase = .withheld → s.fabric.expects.any (fun x => x.ctx == c.val && x.kind == 1) = true → s.streamsDone c [1] = true →
    ∃ u : State, u = ((s.settleGuard c).modCtx c (fun x => { x with
        log := parseLog ((s.lpShare Reg.MEM_LP_REPLAY c).2 / 36 + 1) (s.lpRead (s.lpShare Reg.MEM_LP_REPLAY c).1 (s.lpShare Reg.MEM_LP_REPLAY c).2)
        lateCommitted := (s.settleGuard c).readLate c (s.hasp c).epoch })) ∧
      exec (.failoverStreamComplete c) s = .next { u with fabric := { u.fabric with expects := u.fabric.expects.filter (fun x => !(x.ctx == c.val && x.kind == 1)) } }


/-- Matrix multiply, elementwise chain, the five reductions, the two softmaxes, the two normalisations, relayout, gather, scatter, scatter-add, quantise and dequantise: a record that the unit admits answers the state after its run, with its own reads, outputs and results. -/
def Obligations.TileRecordsComplete : Prop :=
  (∀ (u : Fin 256) (r : Bytes) (env : RunEnv) (s t : State), Admits s u r (matLegal r) true (matReads r u ++ (matWrites r u)) → t = s.issued u r env.late →
    exec (.matmul u r env) s = .next (t.afterRun (recCtx r) u r env (matReads r u) (matWrites r u) (matOut r (t.escapeBytes env.errs.dram) (t.runCtx (recCtx r) u r)))) ∧
  (∀ (u : Fin 256) (r : Bytes) (env : RunEnv) (s t : State), Admits s u r (chainLegal r) true (chainReads r u ++ (chainWrites r u)) → t = s.issued u r env.late →
    exec (.elementwiseChain u r env) s = .next (t.afterRun (recCtx r) u r env (chainReads r u) (chainWrites r u) (chainOut r (t.escapeBytes env.errs.dram) (t.runCtx (recCtx r) u r)))) ∧
  (∀ (u : Fin 256) (r : Bytes) (env : RunEnv) (s t : State), Admits s u r (redLegal 0 r) true (rowReads r u ++ (rowWrites r u 1)) → t = s.issued u r env.late →
    exec (.reductionSum u r env) s = .next (t.afterRun (recCtx r) u r env (rowReads r u) (rowWrites r u 1) (redOut 0 r (t.escapeBytes env.errs.dram) (t.runCtx (recCtx r) u r)))) ∧
  (∀ (u : Fin 256) (r : Bytes) (env : RunEnv) (s t : State), Admits s u r (redLegal 1 r) true (rowReads r u ++ (rowWrites r u 1)) → t = s.issued u r env.late →
    exec (.reductionMax u r env) s = .next (t.afterRun (recCtx r) u r env (rowReads r u) (rowWrites r u 1) (redOut 1 r (t.escapeBytes env.errs.dram) (t.runCtx (recCtx r) u r)))) ∧
  (∀ (u : Fin 256) (r : Bytes) (env : RunEnv) (s t : State), Admits s u r (redLegal 2 r) true (rowReads r u ++ (rowWrites r u 1)) → t = s.issued u r env.late →
    exec (.reductionMin u r env) s = .next (t.afterRun (recCtx r) u r env (rowReads r u) (rowWrites r u 1) (redOut 2 r (t.escapeBytes env.errs.dram) (t.runCtx (recCtx r) u r)))) ∧
  (∀ (u : Fin 256) (r : Bytes) (env : RunEnv) (s t : State), Admits s u r (redLegal 3 r) true (rowReads r u ++ (rowWrites r u 1)) → t = s.issued u r env.late →
    exec (.reductionSumsq u r env) s = .next (t.afterRun (recCtx r) u r env (rowReads r u) (rowWrites r u 1) (redOut 3 r (t.escapeBytes env.errs.dram) (t.runCtx (recCtx r) u r)))) ∧
  (∀ (u : Fin 256) (r : Bytes) (env : RunEnv) (s t : State), Admits s u r (redLegal 4 r) true (rowReads r u ++ (rowWrites r u 1)) → t = s.issued u r env.late →
    exec (.reductionMean u r env) s = .next (t.afterRun (recCtx r) u r env (rowReads r u) (rowWrites r u 1) (redOut 4 r (t.escapeBytes env.errs.dram) (t.runCtx (recCtx r) u r)))) ∧
  (∀ (u : Fin 256) (r : Bytes) (env : RunEnv) (s t : State), Admits s u r (smLegal false r) true (smReads r u ++ (rowWrites r u (u32 r 36))) → t = s.issued u r env.late →
    exec (.softmax u r env) s = .next (t.afterRun (recCtx r) u r env (smReads r u) (rowWrites r u (u32 r 36)) (smOut false r (t.escapeBytes env.errs.dram) (t.runCtx (recCtx r) u r)))) ∧
  (∀ (u : Fin 256) (r : Bytes) (env : RunEnv) (s t : State), Admits s u r (smLegal true r) true (smReads r u ++ (rowWrites r u (u32 r 36))) → t = s.issued u r env.late →
    exec (.logSoftmax u r env) s = .next (t.afterRun (recCtx r) u r env (smReads r u) (rowWrites r u (u32 r 36)) (smOut true r (t.escapeBytes env.errs.dram) (t.runCtx (recCtx r) u r)))) ∧
  (∀ (u : Fin 256) (r : Bytes) (env : RunEnv) (s t : State), Admits s u r (nmLegal false r) true (nmReads r u ++ (rowWrites r u (u32 r 36))) → t = s.issued u r env.late →
    exec (.layerNorm u r env) s = .next (t.afterRun (recCtx r) u r env (nmReads r u) (rowWrites r u (u32 r 36)) (nmOut false r (t.escapeBytes env.errs.dram) (t.runCtx (recCtx r) u r)))) ∧
  (∀ (u : Fin 256) (r : Bytes) (env : RunEnv) (s t : State), Admits s u r (nmLegal true r) true (nmReads r u ++ (rowWrites r u (u32 r 36))) → t = s.issued u r env.late →
    exec (.rmsNorm u r env) s = .next (t.afterRun (recCtx r) u r env (nmReads r u) (rowWrites r u (u32 r 36)) (nmOut true r (t.escapeBytes env.errs.dram) (t.runCtx (recCtx r) u r)))) ∧
  (∀ (u : Fin 256) (r : Bytes) (env : RunEnv) (s t : State), Admits s u r (rlLegal r) true (rlReads r u ++ (rlWrites r u)) → t = s.issued u r env.late →
    exec (.relayout u r env) s = .next (t.afterRun (recCtx r) u r env (rlReads r u) (rlWrites r u) (rlOut r (t.escapeBytes env.errs.dram) (t.runCtx (recCtx r) u r)))) ∧
  (∀ (u : Fin 256) (r : Bytes) (env : RunEnv) (s t : State), Admits s u r (gsLegal 0 r) true ((gsIdx r u ++ gsTable r u) ++ (gsLocal r u)) → t = s.issued u r env.late →
    exec (.gather u r env) s = .next (t.afterRun (recCtx r) u r env ((gsIdx r u ++ gsTable r u)) (gsLocal r u) (gatherOut r (t.escapeBytes env.errs.dram) (t.runCtx (recCtx r) u r)))) ∧
  (∀ (u : Fin 256) (r : Bytes) (env : RunEnv) (s t : State), Admits s u r (gsLegal 1 r) true ((gsIdx r u ++ gsLocal r u) ++ (gsTable r u)) → t = s.issued u r env.late →
    exec (.scatter u r env) s = .next (t.afterRun (recCtx r) u r env ((gsIdx r u ++ gsLocal r u)) (gsTable r u) (scatterOut false r (t.escapeBytes env.errs.dram) (t.runCtx (recCtx r) u r)))) ∧
  (∀ (u : Fin 256) (r : Bytes) (env : RunEnv) (s t : State), Admits s u r (gsLegal 2 r) true ((gsIdx r u ++ gsLocal r u ++ gsTable r u) ++ (gsTable r u)) → t = s.issued u r env.late →
    exec (.scatterAdd u r env) s = .next (t.afterRun (recCtx r) u r env ((gsIdx r u ++ gsLocal r u ++ gsTable r u)) (gsTable r u) (scatterOut true r (t.escapeBytes env.errs.dram) (t.runCtx (recCtx r) u r)))) ∧
  (∀ (u : Fin 256) (r : Bytes) (env : RunEnv) (s t : State), Admits s u r (qzLegal false r) true (qzPlain r u ++ (qzPlanes r u)) → t = s.issued u r env.late →
    exec (.quantise u r env) s = .next (t.afterRun (recCtx r) u r env (qzPlain r u) (qzPlanes r u) (quantOut r (t.escapeBytes env.errs.dram) (t.runCtx (recCtx r) u r)))) ∧
  (∀ (u : Fin 256) (r : Bytes) (env : RunEnv) (s t : State), Admits s u r (qzLegal true r) true (qzPlanes r u ++ (qzPlain r u)) → t = s.issued u r env.late →
    exec (.dequantise u r env) s = .next (t.afterRun (recCtx r) u r env (qzPlanes r u) (qzPlain r u) (dequantOut r (t.escapeBytes env.errs.dram) (t.runCtx (recCtx r) u r))))

/-- Convolution, the pools, the resizes and the attention records: a record that the unit admits answers the state after its run. -/
def Obligations.WindowAndAttentionRecordsComplete : Prop :=
  (∀ (u : Fin 256) (r : Bytes) (env : RunEnv) (s t : State), Admits s u r (swLegal 0 r) true (swReads r u ++ (swWrites r u)) → t = s.issued u r env.late →
    exec (.convolution u r env) s = .next (t.afterRun (recCtx r) u r env (swReads r u) (swWrites r u) (swRun r (t.escapeBytes env.errs.dram) (t.runCtx (recCtx r) u r)))) ∧
  (∀ (u : Fin 256) (r : Bytes) (env : RunEnv) (s t : State), Admits s u r (swLegal 1 r) true (swReads r u ++ (swWrites r u)) → t = s.issued u r env.late →
    exec (.maxPool u r env) s = .next (t.afterRun (recCtx r) u r env (swReads r u) (swWrites r u) (swRun r (t.escapeBytes env.errs.dram) (t.runCtx (recCtx r) u r)))) ∧
  (∀ (u : Fin 256) (r : Bytes) (env : RunEnv) (s t : State), Admits s u r (swLegal 2 r) true (swReads r u ++ (swWrites r u)) → t = s.issued u r env.late →
    exec (.averagePool u r env) s = .next (t.afterRun (recCtx r) u r env (swReads r u) (swWrites r u) (swRun r (t.escapeBytes env.errs.dram) (t.runCtx (recCtx r) u r)))) ∧
  (∀ (u : Fin 256) (r : Bytes) (env : RunEnv) (s t : State), Admits s u r (swLegal 3 r) true (swReads r u ++ (swWrites r u)) → t = s.issued u r env.late →
    exec (.bilinearResize u r env) s = .next (t.afterRun (recCtx r) u r env (swReads r u) (swWrites r u) (swRun r (t.escapeBytes env.errs.dram) (t.runCtx (recCtx r) u r)))) ∧
  (∀ (u : Fin 256) (r : Bytes) (env : RunEnv) (s t : State), Admits s u r (swLegal 4 r) true (swReads r u ++ (swWrites r u)) → t = s.issued u r env.late →
    exec (.nearestResize u r env) s = .next (t.afterRun (recCtx r) u r env (swReads r u) (swWrites r u) (swRun r (t.escapeBytes env.errs.dram) (t.runCtx (recCtx r) u r)))) ∧
  (∀ (u : Fin 256) (r : Bytes) (env : RunEnv) (s t : State), Admits s u r (atLegal 0 r) true (s.atReads (s.runCtx (recCtx r) u r) r ++ (s.atOuts (s.runCtx (recCtx r) u r) r)) → t = s.issued u r env.late →
    exec (.attentionFwd u r env) s = .next (t.afterRun (recCtx r) u r env (s.atReads (s.runCtx (recCtx r) u r) r) (s.atOuts (s.runCtx (recCtx r) u r) r) (fwdOut r (t.escapeBytes env.errs.dram) (t.runCtx (recCtx r) u r)))) ∧
  (∀ (u : Fin 256) (r : Bytes) (env : RunEnv) (s t : State), Admits s u r (atLegal 1 r) true (s.atReads (s.runCtx (recCtx r) u r) r ++ (s.atOuts (s.runCtx (recCtx r) u r) r)) → t = s.issued u r env.late →
    exec (.attentionBwd u r env) s = .next (t.afterRun (recCtx r) u r env (s.atReads (s.runCtx (recCtx r) u r) r) (s.atOuts (s.runCtx (recCtx r) u r) r) (bwdOut r (t.escapeBytes env.errs.dram) (t.runCtx (recCtx r) u r)))) ∧
  (∀ (u : Fin 256) (r : Bytes) (env : RunEnv) (s t : State), Admits s u r (atLegal 2 r) true (s.atReads (s.runCtx (recCtx r) u r) r ++ (s.atOuts (s.runCtx (recCtx r) u r) r)) → t = s.issued u r env.late →
    exec (.attentionAppend u r env) s = .next (t.afterRun (recCtx r) u r env (s.atReads (s.runCtx (recCtx r) u r) r) (s.atOuts (s.runCtx (recCtx r) u r) r) (appendOut r (t.escapeBytes env.errs.dram) (t.runCtx (recCtx r) u r)))) ∧
  (∀ (u : Fin 256) (r : Bytes) (env : RunEnv) (s t : State), Admits s u r (mgLegal r) true (mgReads r u ++ (mgWrites r u)) → t = s.issued u r env.late →
    exec (.attentionMerge u r env) s = .next (t.afterRun (recCtx r) u r env (mgReads r u) (mgWrites r u) (mergeOut r (t.escapeBytes env.errs.dram) (t.runCtx (recCtx r) u r))))

/-- Send, the three receives, the DMA move, the next-variant move, and the checker's export and compare: a record that the unit admits answers the state after its run; a compare that differs from the stored digest then reports the mismatch. -/
def Obligations.TransferAndCheckerRecordsComplete : Prop :=
  (∀ (u : Fin 256) (r : Bytes) (env : RunEnv) (s t : State), Admits s u r (sendLegal r) true (sendReads r u ++ (if sendBinds r then [] else sendWrites r)) → t = s.issued u r env.late →
    exec (.send u r env) s = .next (t.afterRun (recCtx r) u r env (sendReads r u) (if sendBinds r then [] else sendWrites r) (sendOut r (t.escapeBytes env.errs.dram) (t.runCtx (recCtx r) u r)))) ∧
  (∀ (u : Fin 256) (r : Bytes) (env : RunEnv) (s : State), Admits s u r (recvLegal 0 r) true ([⟨2, 0, xfStage r, xfBytes r⟩, recvDst r u]) →
    exec (.receiveCopy u r env) s = .next ((s.issued u r env.late).runReceive (recCtx r) u r env)) ∧
  (∀ (u : Fin 256) (r : Bytes) (env : RunEnv) (s : State), Admits s u r (recvLegal 1 r) true ([⟨2, 0, xfStage r, xfBytes r⟩, recvDst r u]) →
    exec (.receiveAdd u r env) s = .next ((s.issued u r env.late).runReceive (recCtx r) u r env)) ∧
  (∀ (u : Fin 256) (r : Bytes) (env : RunEnv) (s : State), Admits s u r (recvLegal 2 r) true ([⟨2, 0, xfStage r, xfBytes r⟩, recvDst r u]) →
    exec (.receiveMax u r env) s = .next ((s.issued u r env.late).runReceive (recCtx r) u r env)) ∧
  (∀ (w : Fin 16) (r : Bytes) (env : RunEnv) (s t : State), Admits s (256 + w) r (dmFields r && !recNext r) true (dmRegion r w (s.frameArg (recCtx r)) false ++ dmRegion r w (s.frameArg (recCtx r)) true) → t = s.issued (256 + w) r env.late →
    exec (.dmaMove w r env) s = .next (t.afterRun (recCtx r) (256 + w) r env (dmRegion r w (s.frameArg (recCtx r)) false) (dmRegion r w (s.frameArg (recCtx r)) true) (dmaOut r w (t.escapeBytes env.errs.dram) (t.runCtx (recCtx r) (256 + w) r)))) ∧
  (∀ (w : Fin 16) (r : Bytes) (env : RunEnv) (l : Ledger) (p : Region × Region) (s t : State), s.entryOf (recCtx r) r w = some l → p = s.nextMove (recCtx r) r l →
    Admits s (256 + w) r (dmFields r && recNext r && dmSpace r false == 3 && decide (dmSpace r true ≤ 1)) true [p.1, p.2] → t = s.issued (256 + w) r env.late →
    exec (.nextVariantMove w r env) s = .next (t.afterRun (recCtx r) (256 + w) r env [p.1] [p.2]
      { groups := [[⟨p.2.space, p.2.unit, p.2.addr, (t.escapeBytes env.errs.dram).rd (recCtx r) 3 0 p.1.addr p.1.len⟩]] })) ∧
  (∀ (u : Fin 256) (r : Bytes) (env : RunEnv) (s t : State), Admits s u r (checkLegal 0 r) true [⟨0, u, u32 r 20, 8⟩] → t = s.issued u r env.late →
    exec (.checkerExport u r env) s = .next ((t.afterRun (recCtx r) u r env [] [⟨0, u, u32 r 20, 8⟩]
      { groups := [[⟨0, u, u32 r 20, toLe 8 (t.digest u (byteAt r 17)).toNat⟩]] }).clearDigest u (byteAt r 17))) ∧
  (∀ (u : Fin 256) (r : Bytes) (env : RunEnv) (s t v : State), Admits s u r (checkLegal 1 r) true [⟨0, u, u32 r 20, 8⟩] → t = s.issued u r env.late →
    v = (t.afterRun (recCtx r) u r env [⟨0, u, u32 r 20, 8⟩] [] { groups := [] }).clearDigest u (byteAt r 17) →
    exec (.checkerCompare u r env) s = .next (if (t.digest u (byteAt r 17)).toNat = le (t.rd (recCtx r) 0 u (u32 r 20) 8) 0 8 then v
      else v.digestMismatch (recCtx r) u (u16 r 18)))

/-- ELEM, NORM, FUSE, SCALE, CARRY, ORTHO, KSTAT, KROOT, KAPPLY and VARIANT: a record that the engine admits and whose parameter blocks are in order answers the state after its run and after what its verdict brings about. -/
def Obligations.UpdateRecordsComplete : Prop :=
  (∀ (w : Fin 16) (r : Bytes) (env : RunEnv) (s t : State) (q : UpCtx) (rd wr : List Region), q = s.upCtx (recCtx r) w r →
    rd = upGregion r w (upCount r) :: s.elemOuts q r (q.x - 1) ++ s.upCommon q r → wr = s.elemOuts q r q.x →
    Admits s (272 + w) r (upLegal 0x20 r) true (rd ++ wr) → t = s.issued (272 + w) r env.late → (t.escapeBytes env.errs.dram).blocksOk q r = true → ∃ v : State,
    v = t.afterRun (recCtx r) (272 + w) r env rd wr (elemOut r q (t.escapeBytes env.errs.dram)) ∧
    exec (.elem w r env) s = .next ((v).afterVerdict q r wr)) ∧
  (∀ (w : Fin 16) (r : Bytes) (env : RunEnv) (s t : State) (q : UpCtx) (rd wr : List Region), q = s.upCtx (recCtx r) w r →
    rd = upGregion r w (upCount r) :: s.upCommon q r → wr = [] →
    Admits s (272 + w) r (upLegal 0x21 r) true (rd ++ wr) → t = s.issued (272 + w) r env.late → (t.escapeBytes env.errs.dram).blocksOk q r = true → ∃ v : State,
    v = t.afterRun (recCtx r) (272 + w) r env rd wr ({ groups := [] }) ∧
    exec (.norm w r env) s = .next ((v.normAdd q r).afterVerdict q r wr)) ∧
  (∀ (w : Fin 16) (r : Bytes) (env : RunEnv) (s t : State) (q : UpCtx) (rd wr : List Region), q = s.upCtx (recCtx r) w r →
    rd = [] → wr = [⟨2, 0, u32 r 68, 8⟩] →
    Admits s (272 + w) r (upLegal 0x22 r) true (rd ++ wr) → t = s.issued (272 + w) r env.late → (t.escapeBytes env.errs.dram).blocksOk q r = true → ∃ v : State,
    v = t.afterRun (recCtx r) (272 + w) r env rd wr ({ groups := [[⟨2, 0, u32 r 68, (t.escapeBytes env.errs.dram).fusedWord q.c⟩]] }) ∧
    exec (.fuse w r env) s = .next ((v).afterVerdict q r wr)) ∧
  (∀ (w : Fin 16) (r : Bytes) (env : RunEnv) (s t : State) (q : UpCtx) (rd wr : List Region), q = s.upCtx (recCtx r) w r →
    rd = s.upCommon q r → wr = [s.lsRegion q r q.x] →
    Admits s (272 + w) r (upLegal 0x23 r) true (rd ++ wr) → t = s.issued (272 + w) r env.late → (t.escapeBytes env.errs.dram).blocksOk q r = true → ∃ v : State,
    v = t.afterRun (recCtx r) (272 + w) r env rd wr (scaleOut r q (t.escapeBytes env.errs.dram)) ∧
    exec (.scale w r env) s = .next ((match (if v.replaying q.c then none else (v.ctx q.c).dueBounds) with
      | some b => v.modCtx q.c (fun x => { x with adopted := tput x.adopted q.x b })
      | none => v).afterVerdict q r wr)) ∧
  (∀ (w : Fin 16) (r : Bytes) (env : RunEnv) (s t : State) (q : UpCtx) (rd wr : List Region), q = s.upCtx (recCtx r) w r →
    rd = s.upCommon q r ++ (if s.skips q r then carryRegions r w (q.x - 1) else []) → wr = (if s.skips q r then carryRegions r w q.x else []) →
    Admits s (272 + w) r (upLegal 0x24 r) true (rd ++ wr) → t = s.issued (272 + w) r env.late → (t.escapeBytes env.errs.dram).blocksOk q r = true → ∃ v : State,
    v = t.afterRun (recCtx r) (272 + w) r env rd wr ({ groups := if (t.escapeBytes env.errs.dram).skips q r then [(t.escapeBytes env.errs.dram).copyRegions q (carryRegions r w (q.x - 1)) (carryRegions r w q.x)] else [] }) ∧
    exec (.carry w r env) s = .next ((v).afterVerdict q r wr)) ∧
  (∀ (w : Fin 16) (r : Bytes) (env : RunEnv) (s t : State) (q : UpCtx) (rd wr : List Region), q = s.upCtx (recCtx r) w r →
    rd = upGregion r w (upM r * upN r) :: orthoOuts r w (q.x - 1) ++ s.upCommon q r → wr = orthoOuts r w q.x →
    Admits s (272 + w) r (upLegal 0x25 r) true (rd ++ wr) → t = s.issued (272 + w) r env.late → (t.escapeBytes env.errs.dram).blocksOk q r = true → ∃ v : State,
    v = t.afterRun (recCtx r) (272 + w) r env rd wr (orthoOut r q (t.escapeBytes env.errs.dram)) ∧
    exec (.ortho w r env) s = .next ((v).afterVerdict q r wr)) ∧
  (∀ (w : Fin 16) (r : Bytes) (env : RunEnv) (s t : State) (q : UpCtx) (rd wr : List Region), q = s.upCtx (recCtx r) w r →
    rd = upGregion r w (upM r * upN r) :: kstatOuts r w (q.x - 1) ++ s.upCommon q r → wr = kstatOuts r w q.x →
    Admits s (272 + w) r (upLegal 0x26 r) true (rd ++ wr) → t = s.issued (272 + w) r env.late → (t.escapeBytes env.errs.dram).blocksOk q r = true → ∃ v : State,
    v = t.afterRun (recCtx r) (272 + w) r env rd wr (kstatOut r q (t.escapeBytes env.errs.dram)) ∧
    exec (.kstat w r env) s = .next ((v).afterVerdict q r wr)) ∧
  (∀ (w : Fin 16) (r : Bytes) (env : RunEnv) (s t : State) (q : UpCtx) (rd wr : List Region), q = s.upCtx (recCtx r) w r →
    rd = ⟨upSpace r, upUnit w (upSpace r), upHalf r 24 (q.x - 1), upM r * upM r * 4⟩ :: krootOuts r w (q.x - 1) ++ s.upCommon q r → wr = krootOuts r w q.x →
    Admits s (272 + w) r (upLegal 0x27 r) true (rd ++ wr) → t = s.issued (272 + w) r env.late → (t.escapeBytes env.errs.dram).blocksOk q r = true → ∃ v : State,
    v = t.afterRun (recCtx r) (272 + w) r env rd wr (krootOut r q (t.escapeBytes env.errs.dram)) ∧
    exec (.kroot w r env) s = .next ((v).afterVerdict q r wr)) ∧
  (∀ (w : Fin 16) (r : Bytes) (env : RunEnv) (s t : State) (q : UpCtx) (rd wr : List Region), q = s.upCtx (recCtx r) w r →
    rd = upGregion r w (upM r * upN r) :: kstatOuts r w (q.x - 1) ++ kapplyOuts r w (q.x - 1) ++ s.upCommon q r → wr = kapplyOuts r w q.x →
    Admits s (272 + w) r (upLegal 0x28 r) true (rd ++ wr) → t = s.issued (272 + w) r env.late → (t.escapeBytes env.errs.dram).blocksOk q r = true → ∃ v : State,
    v = t.afterRun (recCtx r) (272 + w) r env rd wr (kapplyOut r q (t.escapeBytes env.errs.dram)) ∧
    exec (.kapply w r env) s = .next ((v).afterVerdict q r wr)) ∧
  (∀ (w : Fin 16) (r : Bytes) (env : RunEnv) (s t : State) (q : UpCtx) (rd wr : List Region), q = s.upCtx (recCtx r) w r →
    rd = ⟨1, w, u32 r 92, u32 r 96 * 4⟩ :: upGregion r w (u32 r 96 * upCount r) ::
      ((s.vlistGood q r).map (fun p => s.slotRegions q r p.2 (s.slotCur q r p.2))).flatten ++ s.upCommon q r → wr = s.variantOuts q r →
    Admits s (272 + w) r (upLegal 0x29 r) true (rd ++ wr) → t = s.issued (272 + w) r env.late → (t.escapeBytes env.errs.dram).blocksOk q r = true → ∃ v : State,
    v = t.afterRun (recCtx r) (272 + w) r env rd wr (variantOut r q (t.escapeBytes env.errs.dram)) ∧
    exec (.variant w r env) s = .next ((v.eventIf (decide (0 < v.vlistBad q r)) (Reg.UPD_EVENT q.c) 4).afterVerdict q r wr))

/-- BOLT_WAIT, BOLT_ADD and BOLT_SET that their unit admits act on the bolt that they name and wait on the unit for their retirement. A wait still unsatisfied when its tumbler ends leaves the queue of its bolt, retires, poisons its guarded region and posts a TIMEOUT op fault. -/
def Obligations.BoltRecordsComplete : Prop :=
  (∀ (u : Fin 288) (r : Bytes) (late : Bool) (s : State), Admits s u r (boltLegal 0 r) (s.boltReach (recCtx r) 0 (boltNo r)) [] →
    exec (.boltWait u r late) s = .next (((s.issued u r late).boltWait (boltNo r) ⟨u, u32 r 20, boltGuard r u, recId r, recCtx r⟩).begun (recCtx r) u r true)) ∧
  (∀ (u : Fin 288) (r : Bytes) (late : Bool) (s : State), Admits s u r (boltLegal 1 r) (s.boltReach (recCtx r) 1 (boltNo r)) [] →
    exec (.boltAdd u r late) s = .next (((s.issued u r late).boltAdd (recCtx r) (boltNo r) (boltVal r)).begun (recCtx r) u r false)) ∧
  (∀ (u : Fin 288) (r : Bytes) (late : Bool) (s : State), Admits s u r (boltLegal 2 r) (s.boltReach (recCtx r) 2 (boltNo r)) [] →
    exec (.boltSet u r late) s = .next (((s.issued u r late).boltSet (boltNo r) (boltVal r)).begun (recCtx r) u r false)) ∧
  (∀ (u : Fin 288) (o : OpenRec) (rest : List OpenRec) (s : State), (s.unit u).queue = o :: rest → s.unsatisfied u o = true →
    ∃ t : State, t = (s.setBolt (boltNo o.bytes) { s.bolt (boltNo o.bytes) with waits := (s.bolt (boltNo o.bytes)).waits.filter (fun w => w.requester != u.val) }).modUnit u
        (fun x => { x with queue := x.queue.drop 1, retired := x.retired + 1 }) ∧
      exec (.boltWaitTimeout u) s = .next ((t.markAll o.ctx ((boltGuard o.bytes u).toList)).opFault o.ctx u (recId o.bytes) 0x09))

/-- On a bolt with no wait queued: set makes the count the value; add adds and saturates at 0xFFFF_FFFF, and exactly when it saturates it sets BOLT_SAT in the requester's context; a wait that the count covers subtracts its amount and queues nothing, and any other wait joins the queue and leaves the count. No other bolt changes. -/
def Obligations.BoltRule : Prop :=
  ∀ (s : State) (b : Nat), (s.bolt b).waits = [] →
    (∀ v, ((s.boltSet b v).bolt b).count = v ∧ ((s.boltSet b v).bolt b).waits = [] ∧ ∀ a, a ≠ b → (s.boltSet b v).bolt a = s.bolt a) ∧
    (∀ c v, ((s.boltAdd c b v).bolt b).count.toNat = min ((s.bolt b).count.toNat + v.toNat) 0xFFFFFFFF ∧
      (0xFFFFFFFF < (s.bolt b).count.toNat + v.toNat → (s.boltAdd c b v).reg (Reg.CTX_EVENT c) = s.reg (Reg.CTX_EVENT c) ||| 0x10#32) ∧
      ((s.bolt b).count.toNat + v.toNat ≤ 0xFFFFFFFF → (s.boltAdd c b v).regs = s.regs) ∧ ∀ a, a ≠ b → (s.boltAdd c b v).bolt a = s.bolt a) ∧
    (∀ w : Wait, w.amount ≤ (s.bolt b).count.toNat →
      ((s.boltWait b w).bolt b).count.toNat = (s.bolt b).count.toNat - w.amount ∧ ((s.boltWait b w).bolt b).waits = [] ∧ ∀ a, a ≠ b → (s.boltWait b w).bolt a = s.bolt a) ∧
    (∀ w : Wait, (s.bolt b).count.toNat < w.amount →
      ((s.boltWait b w).bolt b).count = (s.bolt b).count ∧ ((s.boltWait b w).bolt b).waits = [w] ∧ ∀ a, a ≠ b → (s.boltWait b w).bolt a = s.bolt a)

/-- For every count and queue of waits there is a number k of waits served: the waits left are the queue without its first k, the count is lower by exactly the amounts of those k, and the first wait left, if any, asks more than the count that is left. -/
def Obligations.BoltQueueRule : Prop :=
  ∀ (shared : Bool) (n : W32) (l : List Wait), ∃ k ≤ l.length,
    (serveWaits shared n l).2.1 = l.drop k ∧
    n.toNat = (serveWaits shared n l).1.toNat + ((l.take k).map (fun w => w.amount)).sum ∧
    ∀ w ∈ (l.drop k).head?, (serveWaits shared n l).1.toNat < w.amount

/-- RECORD_RETIRE takes the oldest record off its unit's queue. One of a stale generation is discarded with no further effect. One of the generation in force counts in the unit and in the cycle account of its unit's kind, marks what it wrote dirty, binds a send to its reservation, and, when it ends the vote, takes the vote. -/
def Obligations.RecordRetires : Prop :=
  (∀ (u : Fin 288) (tc : Nat) (o : OpenRec) (rest : List OpenRec) (s : State), (s.unit u).queue = o :: rest → s.unsatisfied u o = false →
    o.gen ≠ (s.hasp o.ctx).gen → exec (.recordRetire u tc) s = .next (s.modUnit u (fun x => { x with queue := x.queue.drop 1 }))) ∧
  (∀ (u : Fin 288) (tc : Nat) (o : OpenRec) (rest : List OpenRec) (s : State), (s.unit u).queue = o :: rest → s.unsatisfied u o = false →
    o.gen = (s.hasp o.ctx).gen → ∃ t v : State,
      t = (((s.modUnit u (fun x => { x with queue := x.queue.drop 1, retired := x.retired + 1 })).account o.ctx
        (if u.val < 256 then 0 else if u.val < 272 then 1 else 2) tc).over o.wrote (fun s g => s.dirty o.ctx g.space g.unit g.addr g.len)) ∧
      v = (if recClass o.bytes = 0x0C then t.modLink (xfLink o.bytes)
        (fun l => { l with bound := l.bound ++ [⟨o.ctx, xfRes o.bytes, xfStage o.bytes, xfBytes o.bytes⟩] }) else t) ∧
      exec (.recordRetire u tc) s = .next (if v.endsVote o.ctx o then v.takeVote o.ctx else v))

/-- For each kind of unit: where the selected context begins no records, or the ward is out of service, or the sequencer hands out another record, a record changes nothing. One that the sequencer hands out and whose context differs from the one selected is not run: its context is marked poisoned and an op fault MALFORMED is reported. One of the selected context that breaks the rules of its class is not run, with an op fault MALFORMED, and a legal one that names bolts or bytes outside its context's with NO_SPACE; which code these two have where they are met is the model's choice (log entry 40). -/
def Obligations.RecordOutsideRunTick : Prop :=
  ∀ (u : Nat) (r : Bytes) (late legal reach : Bool) (regions : List Region) (go : Nat → State → State) (s t : State), t = s.takeRecord u r →
    ((s.issues (s.selected u) = false ∨ s.wardOut u = true ∨ s.seqNext (s.selected u) u ≠ some r) → issueG u r late legal reach regions go s = .next s) ∧
    (s.issues (s.selected u) = true → s.wardOut u = false → s.seqNext (s.selected u) u = some r →
      (recCtx r ≠ s.selected u → issueG u r late legal reach regions go s =
        .next (((t.poisonCtx (recCtx r)).modUnit u (fun x => { x with retired := x.retired + 1 })).opFault (recCtx r) u (recId r) 0x07)) ∧
      (recCtx r = s.selected u → (headLegal r u && legal && regionsFit regions) = false → issueG u r late legal reach regions go s =
        .next ((t.modUnit u (fun x => { x with retired := x.retired + 1 })).opFault (recCtx r) u (recId r) 0x07)) ∧
      (recCtx r = s.selected u → (headLegal r u && legal && regionsFit regions) = true →
        (reach = false ∨ ∃ g ∈ regions, s.inPart (recCtx r) g.space g.addr g.len = false) → issueG u r late legal reach regions go s =
        .next ((t.modUnit u (fun x => { x with retired := x.retired + 1 })).opFault (recCtx r) u (recId r) 0x08)))

/-- A record leaves the reset and clock state, the power state, the options, the flash store, the LPDDR state, the management controller, the latched registers and the queue as they were. -/
def Obligations.RecordFrame : Prop :=
  ∀ (c : Instr) (s t : State), isRecord c = true → exec c s = .next t →
    t.rst = s.rst ∧ t.clk = s.clk ∧ t.pwr = s.pwr ∧ t.opt = s.opt ∧ t.flash = s.flash ∧ t.lp = s.lp ∧ t.mgmt = s.mgmt ∧ t.latches = s.latches ∧ t.pending = s.pending

/-- The memories after a record are those of the state with its result groups written in order, and no other; a record with SHADOW, and one whose parameters are malformed, stores nothing. -/
def Obligations.RecordStoresItsGroups : Prop :=
  ∀ (c u : Nat) (r : Bytes) (env : RunEnv) (reads outs : List Region) (o : RunOut) (s : State),
    ((recShadow r = true ∨ o.malformed = true) → (s.afterRun c u r env reads outs o).stores = s.stores) ∧
    (recShadow r = false → o.malformed = false → ∃ v : State, v = (if recDigest r then s.modUnit u (fun x =>
        { x with digests := tput x.digests (recDslot r) (digestOf (o.groups.map foldedBytes).flatten) }) else s).readFaults c env.errs reads outs ∧
      (s.afterRun c u r env reads outs o).stores = (v.over o.groups.flatten (fun s w => s.wr c w.space w.unit w.addr w.data)).stores)

/-- A write of a record at a partition address leaves every byte of every store unchanged at every device address outside the extent that it names and outside the device addresses of its bytes; and it leaves every store of another space unchanged. Where it meets no adapter slot and no late version write, reading the extent back gives the bytes written. -/
def Obligations.RecordWriteFrame : Prop :=
  ∀ (c sp u a : Nat) (b : Bytes) (s : State),
    (∀ sp' u' x, (∀ i < b.length, s.devAddr c sp (a + i) ≠ some x) → (x < (s.partition c sp).1 + a ∨ (s.partition c sp).1 + a + b.length ≤ x) →
      mget ((s.wr c sp u a b).store sp' u') x = mget (s.store sp' u') x) ∧
    (∀ sp' u', sp < 5 → sp' < 5 → sp' ≠ sp → (s.wr c sp u a b).store sp' u' = s.store sp' u') ∧
    (sp ≠ 3 → s.lateWrites c = false → (s.wr c sp u a b).rd c sp u a b.length = b)

/-- In every state whose memories are in canonical form, a write of a record and a write without a guard leave every memory in canonical form. -/
def Obligations.MemoryWritesKeepForm : Prop :=
  ∀ (c sp u a : Nat) (b : Bytes) (s : State), s.memoryOk = true → (s.wr c sp u a b).memoryOk = true ∧ (s.wrRaw c sp u a b).memoryOk = true

/-- A SCHED packet that belongs to a receive reservation goes to STAGE and counts as received. A WRITE inside the context's partition is applied, accounted and acknowledged when ACKREQ asks. A READ of at most 4,096 bytes counts the errors that it meets and an absent adapter slot; it is answered with the bytes, or with CHECK_MISMATCH where an error that no code corrects, a fenced row or an absent slot keeps them from it. READ_DATA, ACK and ERROR end the request that they answer. A routed packet for another device is forwarded. A packet that waited across two boundaries is dropped, counted and answered with TIMEOUT when ACKREQ asks. A PROBE with hops left is sent on. -/
def Obligations.PacketCommandsComplete : Prop :=
  (∀ (l : Fin 24) (b : Bytes) (p : Packet) (k : Nat) (x : RxRes) (s u : State), Delivers s l b 0x01 p → u = s.landed l p →
    u.rxByPair p.ctx (p.arg % 2 ^ 32) = some (k, x) → mirrorResv k (p.arg % 2 ^ 32) = false → u.schedOk p.ctx k (p.arg / 2 ^ 32) x p = true →
    exec (.sched l b) s = .next ((u.wrRaw p.ctx 2 0 (x.stage + 4096 * (p.arg / 2 ^ 32)) p.payload).gotPacket k x (p.arg / 2 ^ 32))) ∧
  (∀ (l : Fin 24) (b : Bytes) (p : Packet) (s u : State), Delivers s l b 0x10 p → u = s.landed l p → p.payload ≠ [] →
    u.spotOk p.ctx (argSpot p.arg) p.payload.length true = true →
    ¬((argSpot p.arg).place = 0 ∧ (argSpot p.arg).space = 1 ∧ u.wardGone (argSpot p.arg).unit = true) →
    ∃ t : State, t = ((((u.spotWrite p.ctx (argSpot p.arg) 0 p.payload).countSpot p.ctx (argSpot p.arg) p.payload.length).noteArrival p.ctx (argSpot p.arg)
        p.payload.length).settleGuard p.ctx).moves p.ctx ∧
      exec (.write l b) s = .next (if p.ackReq then t.answer p 0x13 [] else t)) ∧
  (∀ (l : Fin 24) (b : Bytes) (errs : ReadErrs) (p : Packet) (n : Nat) (s u : State), Delivers s l b 0x11 p → u = s.landed l p → p.payload.length = 4 →
    n = u32 p.payload 0 → 0 < n → n ≤ 4096 → u.spotOk p.ctx (argSpot p.arg) n false = true →
    ¬((argSpot p.arg).place = 0 ∧ (argSpot p.arg).space = 1 ∧ u.wardGone (argSpot p.arg).unit = true) → p.ackReq = true → ∃ t : State,
    t = ((u.noteErrs errs).eventIf (u.adpMiss p.ctx (argSpot p.arg).space (argSpot p.arg).addr n) (Reg.MEM_ADP_EVENT p.ctx) 1).countSpot p.ctx (argSpot p.arg) n ∧
    ((u.readFails errs = true ∨ u.readsPoison p.ctx [⟨(argSpot p.arg).space, (argSpot p.arg).unit, (argSpot p.arg).addr, n⟩] = true) →
      exec (.read l b errs) s = .next (t.answerError p 11)) ∧
    (u.readFails errs = false → u.readsPoison p.ctx [⟨(argSpot p.arg).space, (argSpot p.arg).unit, (argSpot p.arg).addr, n⟩] = false →
      exec (.read l b errs) s = .next (t.answer p 0x12 ((u.escapeBytes errs.dram).spotRead p.ctx (argSpot p.arg) 0 n)))) ∧
  (∀ (l : Fin 24) (b : Bytes) (p : Packet) (r : Request) (s u : State), Delivers s l b 0x12 p → u = s.landed l p → u.requestOf p = some r → r.packet.opcode = 0x11 →
    exec (.readData l b) s = .next { u with fabric := { u.fabric with requests := u.fabric.requests.filter (fun q => q.seq != r.seq) } }) ∧
  (∀ (l : Fin 24) (b : Bytes) (errs : ReadErrs) (p : Packet) (r : Request) (s u : State), Delivers s l b 0x13 p → u = s.landed l p → byteAt b 0 ≠ 0x21 →
    u.requestOf p = some r → exec (.ack l b errs) s =
      .next (({ u with fabric := { u.fabric with requests := u.fabric.requests.filter (fun q => q.seq != r.seq) } } : State).streamAcked errs r.seq
        r.packet.payload.length)) ∧
  (∀ (l : Fin 24) (b : Bytes) (p : Packet) (r : Request) (s u : State), Delivers s l b 0x14 p → u = s.landed l p → p.payload.length = 4 → byteAt p.payload 0 ≤ 11 →
    zeroAt p.payload 2 2 = true → u.requestOf p = some r → exec (.error l b) s = .next (u.failRequest r (byteAt p.payload 0))) ∧
  (∀ (l : Fin 24) (b : Bytes) (p : Packet) (s u : State), s.linkTakes l b = true → packetOk b = true → p = parsePacket b → u = s.landed l p →
    u.stale p = false → p.routed = true → p.dst ≠ u.addr → exec (.packetForward l b) s = .next (u.forward l p)) ∧
  (∀ (i : Nat) (w : Waiting) (s : State), s.fabric.buffer[i]? = some w → 2 ≤ w.boundaries →
    exec (.packetAged i) s = .next ((({ s with fabric := { s.fabric with buffer := s.fabric.buffer.eraseIdx i } } : State).count Reg.FAB_DROP_AGED).answerError w.packet 9)) ∧
  (∀ (l : Fin 24) (b : Bytes) (p : Packet) (now : Nat) (s u : State), s.linkTakes l b = true → packetOk b = true → p = parsePacket b → u = s.landed l p →
    u.stale p = false → p.opcode = 0x20 → p.payloadOk = true → pathOk p.payload = true → p.hops ≤ byteAt p.payload 0 → 0 < p.hops →
    exec (.probe l b now) s = .next (u.sendProbe l p))

/-- A WRITE outside the context's extents is refused with NO_SPACE, and a READ of a length outside 1 to 4,096 with MALFORMED: an ERROR when ACKREQ asks for an answer, a failure counted otherwise; nothing is written. A packet on a link that carries none changes nothing, whatever command brings it; one whose header checks fail is counted in FAB_DROP_CRC and changes nothing else. -/
def Obligations.PacketsRefused : Prop :=
  (∀ (l : Fin 24) (b : Bytes) (p : Packet) (s u : State), Delivers s l b 0x10 p → u = s.landed l p → p.payload ≠ [] →
    u.spotOk p.ctx (argSpot p.arg) p.payload.length true = false → exec (.write l b) s =
      .next (if p.ackReq then u.answerError p 8 else { u with fabric := { u.fabric with failures := u.fabric.failures + 1 } })) ∧
  (∀ (l : Fin 24) (b : Bytes) (errs : ReadErrs) (p : Packet) (s u : State), Delivers s l b 0x11 p → u = s.landed l p →
    (p.payload.length ≠ 4 ∨ u32 p.payload 0 = 0 ∨ 4096 < u32 p.payload 0) → exec (.read l b errs) s =
      .next (if p.ackReq then u.answerError p 7 else { u with fabric := { u.fabric with failures := u.fabric.failures + 1 } })) ∧
  (∀ (l : Fin 24) (b : Bytes) (s v : State), (s.linkTakes l b = false ∧ v = s ∨ s.linkTakes l b = true ∧ packetOk b = false ∧ v = s.count Reg.FAB_DROP_CRC) →
    (∀ errs, exec (.read l b errs) s = .next v ∧ exec (.ack l b errs) s = .next v) ∧
    (∀ now, exec (.probe l b now) s = .next v ∧ exec (.assign l b now) s = .next v ∧ exec (.neighbours l b now) s = .next v ∧
      exec (.tableWrite l b now) s = .next v ∧ exec (.tableSeal l b now) s = .next v ∧ exec (.fmRegWrite l b now) s = .next v ∧
      exec (.fmRegRead l b now) s = .next v ∧ exec (.tickStart l b now) s = .next v ∧ exec (.resume l b now) s = .next v ∧ exec (.fmReset l b now) s = .next v) ∧
    (∀ arrival sent, exec (.tsync l b arrival sent) s = .next v) ∧
    exec (.write l b) s = .next v ∧ exec (.readData l b) s = .next v ∧ exec (.error l b) s = .next v ∧ exec (.sched l b) s = .next v ∧
    exec (.packetForward l b) s = .next v ∧ exec (.tickPacket l b) s = .next v ∧ exec (.reply l b) s = .next v ∧ exec (.silence l b) s = .next v ∧
    exec (.presenceNotice l b) s = .next v ∧ exec (.voteNotice l b) s = .next v ∧ exec (.tstate l b) s = .next v ∧ exec (.hello l b) s = .next v ∧
    exec (.credit l b) s = .next v ∧ exec (.mirrorAck l b) s = .next v)

/-- A transmit reservation whose send has retired sends its payload and is noted as sent; a mirror reservation sends dirty granules; one whose send has not retired, or that no link can carry, makes the device a straggler. The end of a carriable reservation writes its carry region; the end of a mirror receive reservation acknowledges it. A mirror acknowledgement in order, or its timer, settles the granules in flight. A request past its time is sent again under the same SEQ while retries are left, and then fails with TIMEOUT; a host's FM_CMD is not sent again. -/
def Obligations.ReservationCommandsComplete : Prop :=
  (∀ (l : Fin 24) (c : Fin 16) (i : Nat) (r : Resv) (b : Bound) (s : State), (s.hasp c).run = true → (s.frameResvs c l true)[i]? = some r →
    mirrorResv l r.pair = false → s.canCarry c l = true → (s.link l).bound.find? (fun b => b.ctx == c.val && b.idx == i) = some b →
    exec (.reservationStart l c i) s = .next ((s.sendPayload c l r.pair b).modLink l (fun k => { k with sent := k.sent ++ [(c.val, i)] }))) ∧
  (∀ (l : Fin 24) (c : Fin 16) (i : Nat) (r : Resv) (s : State), (s.hasp c).run = true → (s.frameResvs c l true)[i]? = some r →
    mirrorResv l r.pair = true → exec (.reservationStart l c i) s = .next (s.sendMirror c l r)) ∧
  (∀ (l : Fin 24) (c : Fin 16) (i : Nat) (r : Resv) (s : State), (s.hasp c).run = true → (s.frameResvs c l true)[i]? = some r → mirrorResv l r.pair = false →
    (s.canCarry c l = false ∨ (s.link l).bound.find? (fun b => b.ctx == c.val && b.idx == i) = none) → exec (.reservationStart l c i) s = .next (s.flag 1)) ∧
  (∀ (l : Fin 24) (c : Fin 16) (i : Nat) (r : Resv) (s : State), (s.hasp c).run = true → (s.frameResvs c l true)[i]? = some r → bit r.pair 31 = true →
    exec (.reservationEnd l c true i) s = .next (s.endCarry c l i r.pair ((s.link l).sent.contains (c.val, i)))) ∧
  (∀ (l : Fin 24) (c : Fin 16) (i : Nat) (r : Resv) (s : State), (s.hasp c).run = true → (s.frameResvs c l false)[i]? = some r → mirrorResv l r.pair = true →
    s.mirrorCarriage c l = 0 → exec (.reservationEnd l c false i) s = .next (s.ackMirror c l r.pair)) ∧
  (∀ (l : Fin 24) (b g : Bytes) (p : Packet) (m : Mirrored) (s u : State), Delivers s l b 0x18 p → u = s.landed l p → g = p.payload → g.length = 16 → u16 g 0 = 2 →
    byteAt g 2 < 16 → byteAt g 3 = 0 → zeroAt g 10 2 = true → u32 g 4 ≠ 0xFFFFFFFF →
    (u.ctx (byteAt g 2)).twin.inflight.find? (fun m => m.pair == u32 g 4) = some m →
    exec (.mirrorAck l b) s = .next (u.settleMirror (byteAt g 2) (u32 g 4)
      (decide (u16 g 8 = (u.hasp (byteAt g 2)).gen.toNat ∧ m.gen = (u.hasp (byteAt g 2)).gen ∧ u32 g 12 = m.granules.length)))) ∧
  (∀ (c : Fin 16) (pair : Nat) (m : Mirrored) (s : State), (s.ctx c).twin.inflight.find? (fun m => m.pair == pair) = some m → m.sentTick + 1 ≤ s.tick.now →
    exec (.mirrorAckTimeout c pair) s = .next (s.settleMirror c pair false)) ∧
  (∀ (seq : Nat) (r : Request) (s : State), s.fabric.requests.find? (fun r => r.seq == seq) = some r → r.cmd = none →
    r.sentTick + bits (s.regN Reg.FAB_BE_CTRL) 11 8 ≤ s.tick.now → r.tries < s.regN Reg.FAB_BE_CTRL % 16 →
    exec (.requestTimeout seq) s = .next (({ s with fabric := { s.fabric with requests := s.fabric.requests.map (fun (q : Request) =>
      if q.seq = seq then { q with tries := q.tries + 1, sentTick := s.tick.now } else q) } } : State).sendRouted r.packet)) ∧
  (∀ (seq : Nat) (r : Request) (s : State), s.fabric.requests.find? (fun r => r.seq == seq) = some r → r.cmd = none →
    r.sentTick + bits (s.regN Reg.FAB_BE_CTRL) 11 8 ≤ s.tick.now → s.regN Reg.FAB_BE_CTRL % 16 ≤ r.tries →
    exec (.requestTimeout seq) s = .next (s.failRequest r 9)) ∧
  (∀ (seq : Nat) (r : Request) (s : State), s.fabric.requests.find? (fun r => r.seq == seq) = some r → r.cmd.isSome = true →
    r.sentTick + bits (s.regN Reg.FAB_BE_CTRL) 11 8 * (s.regN Reg.FAB_BE_CTRL % 16 + 1) ≤ s.tick.now →
    exec (.requestTimeout seq) s = .next (s.failRequest r 9))

/-- Training that succeeds within the delay bound brings the link up with no reason; one above it, or that fails, leaves it FAILED with its reason. A link that trained notes its delay in sixteenths of a nanosecond, and the parent's link begins an exchange of timestamps. A link that goes down loses its credits and sets LINK_DOWN. An uncorrectable codeword is counted on its link alone. A HELLO with a record in order replaces the record kept; on a tray link whose record does not fit R307 the link is MISWIRED. The HELLO timer greets on every link that is up or MISWIRED before the tick runs, and leaves a running tick to its boundaries. The grants of a CREDIT packet add to its link's pools, and what waits for the link and may begin is sent. At the end of the link hold, links that have not trained begin to where bring-up is at the fabric links. -/
def Obligations.LinkCommandsComplete : Prop :=
  (∀ (l : Fin 24) (f d : Nat) (sent : Int) (s : State), ∃ (reason : Nat) (u v : State),
    (reason = 0 ↔ f = 0 ∧ d ≤ (if l.val < 7 then 608 else 1536)) ∧ (f = 0 → reason ≠ 0 → reason = 2) ∧ (f = 1 → reason = 1) ∧ (1 < f → reason = 3) ∧
    u = s.modLink l (fun k => { k with state := if reason = 0 then 2 else 4, reason := reason }) ∧ v = (if f = 0 then u.setRegN (Reg.FAB_LINK_DELAY l) d else u) ∧
    exec (.linkTrainingDone l f d sent) s = .next (if v.syncParent = some l.val then v.sendSync l 0 0 sent 0 else v)) ∧
  (∀ (l : Fin 24) (s : State), exec (.linkDown l) s =
    .next ((s.modLink l (fun k => { k with state := 3, credMgmt := 0, credDetour := 0, credCtx := [], granted := [] })).event Reg.FAB_EVENT 4)) ∧
  (∀ (l : Fin 24) (s : State), exec (.codewordUncorrectable l) s = .next { s with regs := tput s.regs (Reg.FAB_LINK_UE l) (satInc (s.reg (Reg.FAB_LINK_UE l))) }) ∧
  (∀ (l : Fin 24) (b r : Bytes) (p : Packet) (s u : State), Delivers s l b 0x07 p → u = s.landed l p → r = p.payload → recordOk r = true → ∃ changed bad : Bool,
    (changed = true ↔ ∃ o, (u.link l).record = some o ∧ u64 o 0 ≠ u64 r 0) ∧ (bad = true ↔ l.val < 7 ∧ u.trayRecord l r = false) ∧
    exec (.hello l b) s = .next (((u.modLink l (fun k => { k with record := some r, state := if bad then 5 else 2 })).eventIf changed Reg.FAB_EVENT 2).eventIf bad Reg.FAB_EVENT 3)) ∧
  (∀ s : State, exec .helloTimer s = .next (if s.tick.run = .running ∨ s.tick.run = .adrift then s else
    s.over (List.range 24) (fun s l => if (s.link l).state = 2 ∨ (s.link l).state = 5 then
      s.emit (.packet l { s.mkPacket 0x07 0 0xFFFF none 0 0 (s.ownRecord l) with hops := 1 }) else s))) ∧
  (∀ (l : Fin 24) (b g : Bytes) (p : Packet) (s u : State), Delivers s l b 0x06 p → u = s.landed l p → g = p.payload → g.length = 36 →
    exec (.credit l b) s = .next ((u.modLink l (fun k => { k with
      credMgmt := k.credMgmt + u16 g 0
      credDetour := k.credDetour + u16 g 2
      credCtx := (List.range 16).map (fun c => (c, tget (fun _ => 0) k.credCtx c + u16 g (4 + 2 * c))) })).drainLink l)) ∧
  (∀ (s u : State), u = { s with rst := { s.rst with holdLinks := false } } →
    exec .linkHoldEnd s = .next (if s.rst.phase ≠ 9 then u else
      u.over (List.range 24) (fun s l => s.modLink l (fun k => if k.state = 0 then { k with state := 1 } else k))))

/-- A command that R340 accepts notes its term and nonce, does what its SUBCMD names, and is answered with status OK: ASSIGN sets FAB_ADDR; NEIGHBOURS returns the 24 records; TABLE_WRITE patches the standby bank; TABLE_SEAL seals it under its version; REG_WRITE and REG_READ reach BAR0; TICK_START aligns the device to a first tick at least four ahead of the timebase; RESUME is held by the master; RESET answers and then resets. -/
def Obligations.FabricManagerCommandsComplete : Prop :=
  ∀ (l : Fin 24) (b : Bytes) (now : Nat) (m : FmMsg) (s w u : State), Manages s w l b now m → w.fmAccepts m = true → u = w.fmNote m →
    (fmSub m = 1 → fmShape m 2 = true → u16 (fmArgs m) 0 ≠ 0xFFFF → addrOk (u16 (fmArgs m) 0) = true →
      exec (.assign l b now) s = .next (((u.setRegN Reg.FAB_ADDR (u16 (fmArgs m) 0)).event Reg.FAB_EVENT 0).fmReply m 0 [])) ∧
    (fmSub m = 2 → fmShape m 0 = true →
      exec (.neighbours l b now) s = .next (u.fmReply m 0 ((List.range 24).map (fun l => ((u.link l).record.getD (zeros 32)))).flatten)) ∧
    (fmSub m = 3 → (u.fmTableWrite m).2.1 = 0 → exec (.tableWrite l b now) s = .next ((u.fmTableWrite m).1.fmReply m 0 (u.fmTableWrite m).2.2)) ∧
    (fmSub m = 4 → fmShape m 8 = true → zeroAt (fmArgs m) 2 2 = true → u.standbyNamed = false → u.fabric.standby.crc = u32 (fmArgs m) 4 →
      exec (.tableSeal l b now) s = .next ((({ u with fabric := { u.fabric with standby := { u.fabric.standby with sealed := true, version := u16 (fmArgs m) 0 } } } : State).event
        Reg.FAB_EVENT 1).fmReply m 0 [])) ∧
    (fmSub m = 5 → fmShape m 8 = true → u32 (fmArgs m) 0 < 0x01000000 →
      exec (.fmRegWrite l b now) s = .next ((u.barWrite 0 (u32 (fmArgs m) 0) 4 (u32 (fmArgs m) 4) now).fmReply m 0 [])) ∧
    (fmSub m = 6 → fmShape m 4 = true → (u.remoteRead (u32 (fmArgs m) 0)).2.1 = 0 →
      exec (.fmRegRead l b now) s = .next ((u.remoteRead (u32 (fmArgs m) 0)).1.fmReply m 0 (u.remoteRead (u32 (fmArgs m) 0)).2.2)) ∧
    (fmSub m = 7 → fmShape m 14 = true → u.tick.now + 4 < u64 (fmArgs m) 4 → u.fabric.standby.sealed = true → u.fabric.standby.version = u16 (fmArgs m) 12 →
      u.reg Reg.FAB_GEOM ≠ 0#32 → (u.clk.holdover = false ∨ u.clk.aOk = true ∨ u.clk.bOk = true) →
      (u.fmTickStart m).1.tick.run = .aligning ∧ (u.fmTickStart m).1.tick.firstTick = u64 (fmArgs m) 4 ∧ (u.fmTickStart m).1.tick.term = u32 (fmArgs m) 0 ∧
      exec (.tickStart l b now) s = .next ((u.fmTickStart m).1.fmReply m 0 [])) ∧
    (fmSub m = 8 → fmShape m 1 = true → byteAt (fmArgs m) 0 < 16 → (u.hasp (byteAt (fmArgs m) 0)).phase = .withheld → u.tick.master = true →
      exec (.resume l b now) s = .next (({ u with tick := { u.tick with
        resumes := u.tick.resumes.filter (fun x => x != byteAt (fmArgs m) 0) ++ [byteAt (fmArgs m) 0] } } : State).fmReply m 0 [])) ∧
    (fmSub m = 9 → fmShape m 1 = true → u.resetCode (byteAt (fmArgs m) 0) = 0 →
      exec (.fmReset l b now) s = .next ((u.fmReply m 0 []).resetScope (byteAt (fmArgs m) 0) [5] now))

/-- While no fabric key is held, no command is accepted, and the nine fabric-manager commands, each with its own SUBCMD, do nothing but refuse it: ERROR AUTH_FAIL goes back, AUTH_FAIL of FAB_EVENT is set, and a command from another device changes no memory. -/
def Obligations.FabricManagerNeedsKey : Prop :=
  ∀ (l : Fin 24) (b : Bytes) (now : Nat) (m : FmMsg) (s u : State), Manages s u l b now m → u.mgmt.fabricKey = none → u.fmAccepts m = false ∧
    (m.src ≠ u.addr → (u.fmRefuse m).stores = u.stores) ∧
    (fmSub m = 1 → exec (.assign l b now) s = .next (u.fmRefuse m)) ∧ (fmSub m = 2 → exec (.neighbours l b now) s = .next (u.fmRefuse m)) ∧
    (fmSub m = 3 → exec (.tableWrite l b now) s = .next (u.fmRefuse m)) ∧ (fmSub m = 4 → exec (.tableSeal l b now) s = .next (u.fmRefuse m)) ∧
    (fmSub m = 5 → exec (.fmRegWrite l b now) s = .next (u.fmRefuse m)) ∧ (fmSub m = 6 → exec (.fmRegRead l b now) s = .next (u.fmRefuse m)) ∧
    (fmSub m = 7 → exec (.tickStart l b now) s = .next (u.fmRefuse m)) ∧ (fmSub m = 8 → exec (.resume l b now) s = .next (u.fmRefuse m)) ∧
    (fmSub m = 9 → exec (.fmReset l b now) s = .next (u.fmRefuse m))

/-- A packet of the switch buffer that has waited across two boundaries leaves the buffer, the other packets stay in their order, and FAB_DROP_AGED counts it; with ACKREQ the ERROR TIMEOUT that R316 lays out goes back to its source, and without it nothing is sent. One that has waited across fewer stays. A boundary counts one for every packet that waits. -/
def Obligations.AgedPacketRule : Prop :=
  (∀ (i : Nat) (w : Waiting) (s u : State), s.fabric.buffer[i]? = some w → 2 ≤ w.boundaries →
    u = ({ s with fabric := { s.fabric with buffer := s.fabric.buffer.eraseIdx i } } : State).setReg Reg.FAB_DROP_AGED (satInc (s.reg Reg.FAB_DROP_AGED)) →
    (w.packet.ackReq = false → exec (.packetAged i) s = .next u) ∧
    (w.packet.ackReq = true → exec (.packetAged i) s = .next (u.answer w.packet 0x14 (toLe 1 9 ++ toLe 1 w.packet.opcode ++ zeros 2)))) ∧
  (∀ (i : Nat) (w : Waiting) (s : State), s.fabric.buffer[i]? = some w → w.boundaries < 2 → exec (.packetAged i) s = .next s) ∧
  (∀ (env : BoundaryEnv) (s : State), (s.expireCredits env).fabric.buffer = s.fabric.buffer.map (fun w => { w with boundaries := w.boundaries + 1 }))

/-- While the power cap holds no best-effort work: a first-frame copy that waits is made, and the PLAN_LOAD that waits for it completes with OK. A restore copy that is clean fills its half, and the target becomes the epoch; a bad one holds READY. A page sent reaches its arena record with its trailer and is freed, and one that cannot be read drops its slot; a page read back that passes is placed, and one that fails sets SWAP_BAD. While the cap holds that work, none of them does anything (what it holds is log entry 68, and the dropped slot log entry 56). -/
def Obligations.HaspCopyCommandsComplete : Prop :=
  (∀ (c : Fin 16) (s : State), (s.hasp c).copyPending = true → ¬((s.hasp c).under = .restoring ∧ (s.hasp c).restoreDone = false) → s.pwr.beHeld = false → ∃ t : State,
    t = (s.copyFirstFrames c (s.pendingFrame c).1 (s.pendingFrame c).2).modHasp c (fun h => { h with copyPending := false }) ∧
    exec (.firstFrameCopyDone c) s = .next (match (s.hasp c).loadCmd with
      | some (fn, cmd) => (t.modHasp c (fun h => { h with loadCmd := none })).complete fn 0x0010 cmd 0
      | none => t)) ∧
  (∀ (c : Fin 16) (s : State), (s.hasp c).under = .restoring → (s.hasp c).restoreDone = false → (s.hasp c).missing = false → s.pwr.beHeld = false → ∃ (n : Nat) (u t : State),
    n = ((s.versionRegions c).map (fun l => l.size)).foldl (· + ·) 0 ∧
    u = placeCopy c (s.hasp c).target (s.versionRegions c) (s.lpRead (s.lpShare Reg.MEM_LP_CLEAR c).1 n) s ∧
    t = (((u.countVersion c).account c 5 n).restoreSlots c).modKv c (fun k => { k with committed := k.cleared }) ∧
    exec (.restoreCopyDone c false) s = .next (((t.modCtx c (fun x => { x with
      hasp := { x.hasp with epoch := (s.hasp c).target, restoreDone := true }, lateCommitted := t.readLate c (s.hasp c).target })).resetPool c).showLs c)) ∧
  (∀ (c : Fin 16) (s : State), (s.hasp c).under = .restoring → (s.hasp c).restoreDone = false → s.pwr.beHeld = false →
    exec (.restoreCopyDone c true) s = .next (((s.modHasp c (fun h => { h with missing := true })).event Reg.MEM_LP_EVENT 2).count Reg.MEM_LP_UE_TOTAL)) ∧
  (∀ (c : Fin 16) (slot layer idx : Nat) (errs : ReadErrs) (a : PageId × Nat × BitVec 16) (s u : State), (s.kv c).outgoing.contains ⟨slot, layer, idx⟩ = true →
    (s.kv c).arena.find? (fun a => a.1 == ⟨slot, layer, idx⟩) = some a → s.pwr.beHeld = false → u = (s.escapeBytes errs.dram).noteErrs errs →
    ((s.readFails errs || s.sourcePoison c 3 (s.pageAddr c ((s.kv c).pageNo ⟨slot, layer, idx⟩)) (s.regN (Reg.MEM_KV_PAGE_BYTES c))) = true →
      exec (.swapPageSent c slot layer idx errs) s = .next (((u.modKv c (fun k => { (((k.freeSlot slot).freeArena slot).modSlot slot
        (fun x => { x with state := 5, pre := 0 })) with outgoing := k.outgoing.filter (fun q => q.slot != slot) })).event (Reg.MEM_KV_EVENT c) 1).count
        (Reg.MEM_KV_DROPS c))) ∧
    ((s.readFails errs || s.sourcePoison c 3 (s.pageAddr c ((s.kv c).pageNo ⟨slot, layer, idx⟩)) (s.regN (Reg.MEM_KV_PAGE_BYTES c))) = false →
      ∃ (t : State) (page : Bytes),
      page = u.rd c 3 0 (u.pageAddr c ((s.kv c).pageNo ⟨slot, layer, idx⟩)) (u.regN (Reg.MEM_KV_PAGE_BYTES c)) ∧
      t = ((u.emit (.host (u.ctxFn c) (u.regN (Reg.RING_ARENA_LO (u.ctxFn c)) + u.regN (Reg.RING_ARENA_HI (u.ctxFn c)) * 2 ^ 32 + u.arenaOff c a.2.1)
        (page ++ u.pageTrailer c ⟨slot, layer, idx⟩ a.2.2 page))).account c 7 (page.length + 64)).account c 4 page.length ∧
      exec (.swapPageSent c slot layer idx errs) s = .next (t.modKv c (fun k => { (k.modSlot slot (fun x => x.setPage layer idx noPage)) with
        free := (s.kv c).pageNo ⟨slot, layer, idx⟩ :: k.free, outgoing := k.outgoing.filter (fun q => q != ⟨slot, layer, idx⟩) })))) ∧
  (∀ (c : Fin 16) (slot layer idx : Nat) (page : Bytes) (s u : State), (s.kv c).incoming.contains ⟨slot, layer, idx⟩ = true → s.pwr.beHeld = false →
    u = s.account c 7 page.length →
    (u.pageGood c ⟨slot, layer, idx⟩ page = false → exec (.swapInPage c slot layer idx page) s = .next ((u.modKv c (fun k =>
      ((k.freeSlot slot).freeArena slot).modSlot slot (fun x => { x with state := 5, pre := 0 }))).event (Reg.MEM_KV_EVENT c) 3)) ∧
    (u.pageGood c ⟨slot, layer, idx⟩ page = true → ∃ t : State,
      t = (u.wrRaw c 3 0 (u.pageAddr c ((s.kv c).pageNo ⟨slot, layer, idx⟩)) (page.take (u.regN (Reg.MEM_KV_PAGE_BYTES c)))).account c 4
        (u.regN (Reg.MEM_KV_PAGE_BYTES c)) ∧
      exec (.swapInPage c slot layer idx page) s = .next (t.modKv c (fun k =>
        let k := { k with incoming := k.incoming.filter (fun q => q != ⟨slot, layer, idx⟩), arena := k.arena.filter (fun a => a.1 != ⟨slot, layer, idx⟩) }
        if k.incoming.any (fun q => q.slot == slot) then k else k.modSlot slot (fun x => { x with state := 2 }))))) ∧
  (∀ (c : Fin 16) (s : State), s.pwr.beHeld = true → exec (.firstFrameCopyDone c) s = .next s ∧ (∀ bad, exec (.restoreCopyDone c bad) s = .next s) ∧
    (∀ slot layer idx errs, exec (.swapPageSent c slot layer idx errs) s = .next s) ∧ ∀ slot layer idx page, exec (.swapInPage c slot layer idx page) s = .next s)

/-- While the context is KEYED and has no plan loaded, RELEASE makes it FREE. At any other time, FREE and ZEROING among them, RELEASE changes nothing but IGNORED of CTX_EVENT. -/
def Obligations.ReleaseRule : Prop :=
  (∀ (c : Fin 16) (s : State), (s.ctx c).adm = .keyed → s.loaded c = false → ∃ t, exec (.release c) s = .next t ∧ (t.ctx c).adm = .free) ∧
  (∀ (c : Fin 16) (s : State), ¬((s.ctx c).adm = .keyed ∧ s.loaded c = false) → exec (.release c) s = .next (s.event (Reg.CTX_EVENT c) 2)) ∧
  (∀ (c : Fin 16) (s : State), (s.ctx c).adm = .free ∨ (s.ctx c).adm = .zeroing → exec (.release c) s = .next (s.event (Reg.CTX_EVENT c) 2))

/-- KEY on a FREE context whose keyring passes makes it ZEROING, with its own bolts, its counters and its generation at 0; a keyring that fails is recorded with its reason, and a context that is not FREE sets IGNORED. The end of zeroing zeroes the partitions and makes the context KEYED. RELEASE of a KEYED context with no plan loaded makes it FREE. CTX_SELECT_HI takes effect with the held low word. CTX_BOLT_VAL sets the selected bolt and CTX_BOLT_ADD adds to it (log entry 63). FAB_PERM_AT arms a permute, or disarms it, while it is IDLE or ARMED. On the master an eviction and a failover version are announced. A device without a seat enrols. -/
def Obligations.ContextCommandsComplete : Prop :=
  (∀ (c : Fin 16) (s : State), s.held c = false → s.admission c = none → ∃ t : State,
    t = s.modCtx c (fun x => { x with adm := .zeroing, reason := 0, code := 0, acc := {}, hasp := { x.hasp with gen := 0 } }) ∧
    exec (.key c) s = .next { t with bolts := tmap (fun i b => if s.ownBolt c i then {} else b) s.bolts }) ∧
  (∀ (c : Fin 16) (r : Nat × Nat) (s : State), s.held c = false → s.admission c = some r →
    exec (.key c) s = .next ((s.modCtx c (fun x => { x with reason := r.1, code := r.2 })).event (Reg.CTX_EVENT c) 1)) ∧
  (∀ (c : Fin 16) (s : State), s.held c = true → exec (.key c) s = .next (s.event (Reg.CTX_EVENT c) 2)) ∧
  (∀ (c : Fin 16) (s : State), (s.ctx c).adm = .zeroing → s.pwr.beHeld = false →
    exec (.zeroingComplete c) s = .next (((s.zeroPartitions c).modCtx c (fun x => { x with adm := .keyed })).event (Reg.CTX_EVENT c) 0)) ∧
  (∀ (c : Fin 16) (s : State), (s.ctx c).adm = .keyed → s.loaded c = false → (s.ctxFn c = 0 ∨ (s.ring (s.ctxFn c)).run = .disabled) →
    exec (.release c) s = .next (s.modCtx c (fun x => { x with adm := .free }))) ∧
  (∀ (v : W32) (s : State), ∃ t, exec (.ctxSelectHiWrite v) s = .next t ∧ t.reg Reg.CTX_SELECT_HI = v ∧
    t.tick = { s.tick with select := BitVec.ofNat 64 (v.toNat * 2 ^ 32 + (s.setReg Reg.CTX_SELECT_HI v).regN Reg.CTX_SELECT_LO) }) ∧
  (∀ (v : W32) (s : State), exec (.ctxBoltValWrite v) s = .next (s.boltSet s.selBolt v) ∧
    exec (.ctxBoltAddWrite v) s = .next (s.boltSet s.selBolt (satAdd (s.bolt s.selBolt).count v.toNat))) ∧
  (∀ (c : Fin 16) (v : W32) (s : State), (s.ctx c).perm.state < 2 → exec (.fabPermAtWrite c v) s = .next ((s.setReg (Reg.FAB_PERM_AT c) v).modCtx c
    (fun x => { x with perm := { x.perm with state := if v = 0xFFFFFFFF#32 then 0 else 1 } }))) ∧
  (∀ (c : Fin 16) (v : W32) (s : State), 2 ≤ (s.ctx c).perm.state → exec (.fabPermAtWrite c v) s = .next (s.event (Reg.FAB_PERM_EVENT c) 5)) ∧
  (∀ (v : W32) (s : State), s.tick.master = true →
    exec (.hspEvictWrite v) s = .next { s with tick := { s.tick with evict := s.tick.evict ++ [v.toNat % 65536] } } ∧
    exec (.hspFoVersionWrite v) s = .next ((s.setRegN Reg.HSP_FO_VERSION (v.toNat % 65536)).modTick (fun t => { t with foVersion := some (v.toNat % 65536) }))) ∧
  (∀ s : State, (∀ c, c < 16 → s.seatOf c = none) → s.pwr.rung ≤ 1 → ∃ t, exec .enrol s = .next t ∧ t.pwr.rung = 1 ∧ t.reg Reg.HSP_SPARE = 1#32)

/-- A permanence notice in order is kept by the master and by nobody else. A sweep that passes clears the tile's count of failures and settles a suspect; one that fails counts, writes event 0x04, and makes a suspect, or a tile that failed the sweep before, PERMANENT. The hourly pass classes again every unit that has a class. At seven eighths of its region the history is compacted. -/
def Obligations.CheckerCommandsComplete : Prop :=
  (∀ (l : Fin 24) (b g : Bytes) (p : Packet) (s u : State), Delivers s l b 0x18 p → u = s.landed l p → g = p.payload → u16 g 0 = 4 → permanenceOk g = true →
    (u.tick.master = true → exec (.permanenceNotice l b) s = .next { u with tick := { u.tick with notices := u.tick.notices ++ [g] } }) ∧
    (u.tick.master = false → exec (.permanenceNotice l b) s = .next u)) ∧
  (∀ (u : Fin 256) (s : State), exec (.sweepComplete u true) s = .next ((s.modUnit u (fun x => { x with sweepFails := 0 })).markSuspect u 1).settleSuspects) ∧
  (∀ (u : Fin 256) (s : State), ∃ t v : State, t = ((s.modUnit u (fun x => { x with sweepFails := x.sweepFails + 1 })).count Reg.CHK_SWEEP_COUNT).event Reg.CHK_EVENT 3 ∧
    v = t.unitEvent (s.histUnit u).1 (s.histUnit u).2 0x04 false none ∧
    exec (.sweepComplete u false) s = .next ((if s.chk.suspects.any (fun p => p.1 == u.val) ∨ 1 ≤ (s.unit u).sweepFails then
      v.makePermanent (s.histUnit u).1 (s.histUnit u).2 else v).markSuspect u 2).settleSuspects) ∧
  (∀ (now : Nat) (s : State), s.chk.corrections.filter (fun p => p.2 != 0) = [] → ∃ t : State,
    t = { s with mgmt := { s.mgmt with time := max s.mgmt.time now }, chk := { s.chk with corrections := [] } } ∧
    exec (.unitClassHourly now) s = .next (t.over s.chk.classes (fun t p => t.reclass (p.1 / 2 ^ 24) (p.1 % 2 ^ 24)))) ∧
  (∀ s : State, 7 * s.opt.histSize ≤ 8 * 64 * s.chk.history.length →
    exec .historyCompact s = .next { s with chk := { s.chk with history := compactGo s.mgmt.time s.mgmt.boot s.chk.history } }) ∧
  (∀ s : State, 8 * 64 * s.chk.history.length < 7 * s.opt.histSize → exec .historyCompact s = .next s)

/-- The program in progress, that of the oldest version accepted, makes it durable and counts; a die that fails with it is noted, a store out of spare blocks becomes read-only, and the next program begins. A block at its read limit is relocated and counted while programs are not inhibited. A scrub counts what it finds. A scheduled row with a spare left switches at the next boundary once it is copied while no record runs, one row of a vault in a tick; a copy that meets a bad beat is an uncorrectable error; a bank out of spares sets SPARES_OUT. Best-effort work that the power cap holds is not done (log entry 68). The end of a rebuild ends it for its group. Stack temperatures below 105 °C are shown, each layer's the highest of its sensors. -/
def Obligations.StorageCommandsComplete : Prop :=
  (∀ (block : Nat) (e : Nat × Bytes) (rest : List (Nat × Bytes)) (fail : Bool) (s : State), s.flash.cache = e :: rest → s.flash.busy = true → e.1 = block → ∃ u t v : State,
    u = { s with flash := { s.flash with
      cache := rest, busy := false, durable := tput s.flash.durable block e.2, dies := tput s.flash.dies block (s.programDie block),
      reads := tdel s.flash.reads block, programs := s.flash.programs + 1, lost := s.flash.lost.filter (fun b => b != block) } } ∧
    t = (u.settleFlushes false block).over (List.range 16) (fun s c => (s.pumpDurable c).settleDurable c) ∧
    v = (if fail then t.dieFails (s.programDie block) else t) ∧
    exec (.nandProgramDone block fail) s = .next (if v.spareOut then v.flashReadOnly else v).nextFlush) ∧
  (∀ (block : Nat) (s : State), (if Config.qlcNand then 20000 else 100000) ≤ tget (fun _ => 0) s.flash.reads block → s.inhibited = false → s.pwr.beHeld = false →
    exec (.readDisturbRelocate block) s = .next (({ s with flash := { s.flash with
      reads := tdel s.flash.reads block, dies := tput s.flash.dies block (s.programDie block),
      programs := s.flash.programs + 1 } } : State).count Reg.MEM_FL_RELOCS)) ∧
  (∀ (row : Nat) (errs : List MemErr) (s : State), s.pwr.beHeld = false → exec (.scrubRead row errs) s = .next (s.dramErrs errs)) ∧
  (∀ (row : Nat) (s u : State), s.stack.scheduled.contains row = true → s.stack.switching.contains row = false → s.recordRunning = false →
    s.stack.copied.contains (rowVault row) = false → s.pwr.beHeld = false → s.sparesLeft (row / 4096) ≠ 0 →
    u = { s with stack := { s.stack with copied := s.stack.copied ++ [rowVault row] } } →
    exec (.rowRemap row false) s = .next { u with stack := { u.stack with switching := u.stack.switching ++ [row] } } ∧
    exec (.rowRemap row true) s = .next (u.dramUe (rowAddr row))) ∧
  (∀ (row : Nat) (bad : Bool) (s : State), s.stack.scheduled.contains row = true → s.stack.switching.contains row = false → s.recordRunning = false →
    s.stack.copied.contains (rowVault row) = false → s.pwr.beHeld = false → s.sparesLeft (row / 4096) = 0 →
    exec (.rowRemap row bad) s = .next (s.event Reg.MEM_STK_EVENT 6)) ∧
  (∀ s : State, s.pwr.beHeld = true → (∀ block, exec (.readDisturbRelocate block) s = .next s) ∧ (∀ row errs, exec (.scrubRead row errs) s = .next s) ∧
    ∀ row bad, exec (.rowRemap row bad) s = .next s) ∧
  (∀ (g : Nat) (s : State), exec (.rebuildComplete g) s = .next { s with flash := { s.flash with rebuilding := s.flash.rebuilding.filter (fun d => d / 16 != g) } }) ∧
  (∀ (readings : List Nat) (now : Nat) (s : State), s.rst.tripHold = false → (∀ t ∈ layerReadings readings, t < 105) → ∃ u : State,
    u = { s with stack := { s.stack with
      readings := layerReadings readings
      valid := s.stack.valid && !(s.rst.active && (layerReadings readings).any (fun t => decide (95 < t))) } } ∧
    exec (.stackTempSample readings now) s = .next u.showLayers.showTemp)

/-- While a context ingests, the next record of its shard list is read; a record whose pictures are done and whose items check is decoded, and one that fails is rejected with its reason. At run tick D the batch of the step in progress falls due. Adapter write-backs come first, then fills, in order. A decoded picture frees its engine, is counted and completes the LIVE command or its record; a timeout is a decode-engine fault; both charge the busy time. A live picture that is late is dropped, and the stream skips to its next random access point. A write of MED_LIVE_CTRL without EN turns a stream off; with EN it is admitted or refused. An encoded unit joins its stream's group. A media firmware switch answers what was gone and raises the generation. -/
def Obligations.MediaCommandsComplete : Prop :=
  (∀ (c : Fin 16) (l : List HeaderScan) (flashBad : Bool) (s : State) (at_ n : Nat) (bad : Bool), s.ingests c = true → s.media.switching = false → s.ingSource c = 0 →
    (s.ing c).pausedReading = false → s.flash.mount = 2 → s.shardCount c ≠ 0 → at_ = ((s.shardAt c (s.ing c).shard).1 + (s.ing c).offset) / 4096 →
    n = cdiv (frameSize (u32 (s.flashRead ((s.shardAt c (s.ing c).shard).1 + (s.ing c).offset) 8) 0)) 4096 + 2 →
    bad = (flashBad || s.flashLost (s.flash.lost.filter (fun b => decide (at_ ≤ b ∧ b < at_ + n)))) →
    exec (.recordIngest c l flashBad) s = .next (shardGo c l bad (2 * s.shardCount c + 2) (s.eventIf (s.limitsHigh c) (Reg.MED_ING_EVENT c) 3))) ∧
  (∀ (c : Fin 16) (items : List ItemSource) (ns : Nat) (r : IngRecord) (s u : State), (s.ing c).reading.find? (fun r => !r.decoded) = some r → u = s.account c 3 ns →
    exec (.recordDecoded c false items ns) s = .next (u.rejectDecode c r 0x21).feedEngines ∧
    (r.pics ≠ 0 → exec (.recordDecoded c true items ns) s = .next s) ∧
    (r.pics = 0 → recordOf (u.keepsVariants c) r.frame = none → exec (.recordDecoded c true items ns) s = .next (u.rejectDecode c r 0x21).feedEngines) ∧
    (r.pics = 0 → ∀ m l, recordOf (u.keepsVariants c) r.frame = some m → u.decodeItems c m.items items = .ok l →
      exec (.recordDecoded c true items ns) s = .next (((u.freeDecode r.uid).modReading c r.uid (fun r => u.decodedRec c r l)).settleIngest c).feedEngines) ∧
    (r.pics = 0 → ∀ m e, recordOf (u.keepsVariants c) r.frame = some m → u.decodeItems c m.items items = .error e →
      exec (.recordDecoded c true items ns) s = .next (u.rejectDecode c r e).feedEngines)) ∧
  (∀ (c : Fin 16) (s : State), (s.hasp c).run = true → (s.hasp c).stepOpen = true → (s.ctx c).perm.state < 2 → (s.hasp c).stepTick = s.batchTick c →
    exec (.batchDeadline c) s = .next (dueGo c 2 s)) ∧
  (∀ (c : Fin 16) (v f : Nat) (s : State), s.adpFrame c v = some f → (s.adp c).writeBacks.head? = some v → s.pwr.beHeld = false →
    exec (.adapterTransferDone c v false) s = .next ((s.copySlot c v f false).modAdp c (fun a => { a with
      writeBacks := a.writeBacks.drop 1,
      frames := a.frames.map (fun x => if x.variant = some v then { x with dirty := false } else x) }))) ∧
  (∀ (c : Fin 16) (v f named : Nat) (rest : List (Nat × Nat)) (s : State), (s.adp c).writeBacks = [] → (s.adp c).fills = (v, named) :: rest → s.fillFrame c = some f →
    s.pwr.beHeld = false → exec (.adapterTransferDone c v true) s = .next ((s.copySlot c v f true).modAdp c (fun a => { a with
      fills := rest, frames := a.frames.set f { variant := some v, dirty := false, named := named } }))) ∧
  (∀ (e : Fin 4) (own : Nat) (refs : List (Nat × Nat)) (outs : List (Nat × RawPic)) (ns : Nat) (p : LivePic) (s : State), (s.engine e).current = some p → ∃ t u v : State,
    t = s.account (s.liveCtx p.stream) 3 ns ∧
    u = t.setPool p.stream (markPool (t.pool p.stream) (s.engine e).buffer own refs (outs.map (·.1))) ∧
    v = (u.count (Reg.MED_ENG_PICS e)).modEngine e (fun x => { x with current := none }) ∧
    exec (.pictureDecoded e own refs outs ns) s =
      .next ((v.over outs (fun s o => s.liveOutput p o.2)).complete p.cmd.1 0x21 p.cmd.2 0).feedEngines ∧
    exec (.decodeTimeout e ns) s = .next ((t.abandonPic e).unitEvent 10 e 0x0B false none).feedEngines) ∧
  (∀ (e : Fin 4) (own : Nat) (refs : List (Nat × Nat)) (outs : List (Nat × RawPic)) (ns : Nat) (j : Nat × Nat) (s : State), (s.engine e).current = none →
    (s.engine e).job = some j → ∃ t u : State, t = s.account j.1 3 ns ∧
    u = t.setPool (64 + j.2) (markPool (t.pool (64 + j.2)) (s.engine e).buffer own refs (outs.map (·.1))) ∧
    exec (.pictureDecoded e own refs outs ns) s =
      .next (((u.count (Reg.MED_ENG_PICS e)).modEngine e (fun x => { x with job := none })).recordPicDone j.1 j.2).feedEngines ∧
    exec (.decodeTimeout e ns) s = .next ((t.faultRecord e j.1 j.2).unitEvent 10 e 0x0B false none).feedEngines) ∧
  (∀ (st : Fin 64) (p : LivePic) (l : List LivePic) (s : State), (s.stream st).waiting = p :: l →
    exec (.livePictureLate st) s = .next ((((s.modLive st (fun v => { v with waiting := l })).event (Reg.MED_LIVE_EVENT st) 0).dropPic p).skipToRap st)) ∧
  (∀ (st : Fin 64) (v : W32) (s : State), (s.hasp (v.toNat % 16)).phase = .stopped → bit (s.regN (Reg.MED_LIVE_CTRL st)) 31 = false → ∃ t : State,
    t = (((((s.setRegN (Reg.MED_LIVE_CTRL st) (liveCtrl v.toNat).1).eventIf (liveCtrl v.toNat).2 Reg.MED_FE_EVENT 6).dropWaiting st).releaseStream st).modLive st
      (fun _ => {})).setPool st [] ∧
    (bit (liveCtrl v.toNat).1 31 = false → exec (.liveStreamEnable st v) s = .next t.feedEngines) ∧
    (bit (liveCtrl v.toNat).1 31 = true → (t.admitStream st 2).2 = true → exec (.liveStreamEnable st v) s =
      .next (((t.admitStream st 2).1.setPool st (List.replicate ((t.admitStream st 2).1.livePool st) {})).feedEngines)) ∧
    (bit (liveCtrl v.toNat).1 31 = true → (t.admitStream st 2).2 = false → exec (.liveStreamEnable st v) s =
      .next ((t.admitStream st 2).1.event (Reg.MED_LIVE_EVENT st) 4))) ∧
  (∀ (b : Bytes) (q : Nat × Nat × Nat) (l : List (Nat × Nat × Nat)) (s v : State), v = marksGo s.media.archQueue s → v.media.archQueue = q :: l → ∃ t u : State,
    t = ((v.modMedia (fun m => { m with archQueue := l })).account q.1 3 q.2.2).modLive q.2.1 (fun x => { x with units := x.units ++ [b] }) ∧
    u = (if max 1 (bits (t.regN Reg.MED_ARCH_CTRL) 21 16) ≤ (t.stream q.2.1).units.length then t.closeGroup q.1 q.2.1 else t) ∧
    exec (.archiveEncodeDone b) s = .next (marksGo u.media.archQueue u)) ∧
  (∀ s : State, s.media.switching = true → s.mediaBusy = false → ∃ t u v : State,
    t = s.answerGone.modMedia (fun m => { m with switching := false }) ∧
    u = (t.setRegN Reg.MED_FW_GEN ((t.regN Reg.MED_FW_GEN + 1) % 256)).event Reg.MED_FE_EVENT 2 ∧
    (u.mgmt.verified.find? (fun p => p.1 == 2) = none → v = u) ∧
    (∀ q, u.mgmt.verified.find? (fun p => p.1 == 2) = some q → v = { u.setReg Reg.MED_FW_VERSION (Config.imageVersion q.2) with
      mgmt := { u.mgmt with inUse := tput u.mgmt.inUse 2 q.2 } }) ∧
    exec .mediaFwSwitchDone s = .next (if v.anyLoaded then v.returnLater 16 else v).feedEngines)

/-- A poll of a STARTING ring set whose indices read 0 makes it RUNNING; one whose indices do not, or whose tail stands outside what was fetched and the ring size, enters ERROR; a RUNNING one notes the indices, writes what waits, fetches, and shows its own index. Enabling a DISABLED ring set with aligned addresses, legal sizes and a context behind it makes it STARTING. Disabling acts in every state. An interrupt timer with unsignalled entries signals its vector. A function-level reset disables the ring set and returns its registers to reset, of the PF every ring set. PERST# and D3hot act on the ring sets, and PERST# counts a host generation. -/
def Obligations.RingCommandsComplete : Prop :=
  (∀ (fn : Fin 17) (w : RingWords) (pkts : List RingPacket) (s : State), s.rst.hostReset = false → s.rst.returning.contains 18 = false → (s.ring fn).run = .starting →
    exec (.ringPoll fn w pkts) s = .next (if w = ⟨0, 0, 0, 0, 0, 0⟩ then s.ringUp fn else s.ringError fn 2)) ∧
  (∀ (fn : Fin 17) (w : RingWords) (pkts : List RingPacket) (s : State), s.rst.hostReset = false → s.rst.returning.contains 18 = false → (s.ring fn).run = .running →
    ((s.ring fn).head ≤ w.cmdTail → w.cmdTail ≤ (s.ring fn).head + (s.ringSizes fn).1 → exec (.ringPoll fn w pkts) s =
      .next ((fetchGo fn pkts ((s.modRing fn (fun r => { r with cmdTail := w.cmdTail, cplHead := w.cplHead, evtHead := w.evtHead, stalled := false })).ringDrain fn)).showHead fn)) ∧
    ((w.cmdTail < (s.ring fn).head ∨ (s.ring fn).head + (s.ringSizes fn).1 < w.cmdTail) → exec (.ringPoll fn w pkts) s = .next (s.ringError fn 2))) ∧
  (∀ (fn : Fin 17) (w : RingWords) (pkts : List RingPacket) (s : State), ((s.ring fn).run = .disabled ∨ (s.ring fn).run = .error) → exec (.ringPoll fn w pkts) s = .next s) ∧
  (∀ (fn : Fin 17) (s u : State), (s.ring fn).run = .disabled → s.rst.hostReset = false → u = s.setRegN (Reg.RING_CTRL fn) 1 → (fn.val = 0 ∨ u.fnCtx fn ≠ none) →
    (∀ p ∈ [(Reg.RING_CB_LO fn, 64), (Reg.RING_CMD_LO fn, 4096), (Reg.RING_CPL_LO fn, 4096), (Reg.RING_EVT_LO fn, 4096)], u.regN p.1 % p.2 = 0) →
    10 ≤ bits (u.regN (Reg.RING_SIZES fn)) 4 0 → bits (u.regN (Reg.RING_SIZES fn)) 4 0 ≤ 20 → 6 ≤ bits (u.regN (Reg.RING_SIZES fn)) 12 8 →
    bits (u.regN (Reg.RING_SIZES fn)) 12 8 ≤ 20 → 10 ≤ bits (u.regN (Reg.RING_SIZES fn)) 20 16 → bits (u.regN (Reg.RING_SIZES fn)) 20 16 ≤ 20 →
    exec (.ringEnable fn) s = .next (u.modRing fn (fun r => { r with run := .starting }))) ∧
  (∀ (fn : Fin 17) (s : State), (s.ring fn).run ≠ .disabled → exec (.ringEnable fn) s = .next s) ∧
  (∀ (fn : Fin 17) (s : State), exec (.ringDisable fn) s = .next ((s.setRegN (Reg.RING_CTRL fn) 0).disableRing fn)) ∧
  (∀ (fn : Fin 17) (s : State), ((s.ring fn).unsignalled0 ≠ 0 → exec (.irqTimer fn 0) s = .next ((s.modRing fn (fun r => { r with unsignalled0 := 0 })).signal fn 0)) ∧
    ((s.ring fn).unsignalled1 ≠ 0 → exec (.irqTimer fn 1) s = .next ((s.modRing fn (fun r => { r with unsignalled1 := 0 })).signal fn 1))) ∧
  (∀ (fn : Fin 17) (s : State), fn.val ≠ 0 → exec (.functionLevelReset fn) s = .next ((s.disableRing fn).clearRingRegs fn)) ∧
  (∀ s : State, exec (.functionLevelReset 0) s = .next (s.over (List.range 17) (fun s f => (s.disableRing f).clearRingRegs f))) ∧
  (∀ s : State, s.rst.hostReset = false → ∃ u t : State, u = s.resetHost.event Reg.RST_CAUSE 3 ∧
    t = (u.setRegN Reg.RST_HOST_GEN ((s.regN Reg.RST_HOST_GEN + 1) % 256)).returnLater 18 ∧
    exec .perstAssert s = .next { t with rst := { t.rst with hostReset := true, lastScope := 2 } }) ∧
  (∀ s : State, exec .perstRelease s = .next { s with rst := { s.rst with hostReset := false } }) ∧
  (∀ (fn : Fin 17) (s : State), exec (.d3hotEntry fn) s = .next (s.resetRing fn))

/-- A command that begins acts and completes. NOP completes with OK on every ring. FM_CMD is sent once and waits for its reply. TOK_LOAD loads a table that no stream names. On a mounted store, FLASH_WRITE of whole 4 KiB blocks within the capacity that nothing refuses takes its blocks and completes with OK, or with NO_SPACE and CACHE_FULL where the frames end midway (log entry 60); FLASH_READ returns the bytes, or CHECK_MISMATCH where they cannot be recovered; FLASH_TRIM unmaps; FLASH_FLUSH completes once nothing accepted before is left in the cache; FLASH_FORMAT erases while no plan is loaded. Before the mount ends a flash command is held; after a failed mount it completes with UNIT_GONE. -/
def Obligations.AdminCommandsComplete : Prop :=
  (∀ (fn : Fin 17) (cmd : HostCmd) (s u : State), s.takeCmd fn 1 cmd = some u → exec (.nop fn cmd) s = .next (u.complete fn 1 cmd 0)) ∧
  ∀ (cmd : HostCmd) (s u : State),
    (s.takeCmd 0 2 cmd = some u → cmd.payload ≠ [] → cmd.payload.length ≤ 4096 → bit cmd.arg2 0 = false → ∃ (p : Packet) (t : State),
      p = u.fmPacket 0x21 16 (cmd.arg0 % 65536) 32 (cmd.arg1 % 2 ^ 64) u.fabric.nextSeq cmd.payload ∧
      t = { u with fabric := { u.fabric with
        nextSeq := (u.fabric.nextSeq + 1) % 65536
        requests := u.fabric.requests ++ [(⟨u.fabric.nextSeq, p, u.tick.now, 0, some (0, cmd)⟩ : Request)] } } ∧
      exec (.fmCmd 0 cmd) s = .next (t.sendRouted p)) ∧
    (s.takeCmd 0 3 cmd = some u → cmd.arg0 < 4 → tokTableOk cmd.payload = true → u.mediaGone = false → u.tokNamed cmd.arg0 = false →
      exec (.tokLoad 0 cmd) s = .next ((u.modMedia (fun m => { m with tokens := tput m.tokens cmd.arg0 cmd.payload })).complete 0 3 cmd 0)) ∧
    (s.takeCmd 0 4 cmd = some u → u.flash.mount = 2 → cmd.payload ≠ [] → cmd.payload.length % 4096 = 0 → cmd.arg0 + cmd.payload.length / 4096 ≤ u.flashBlocks →
      u.flashRefusal = 0 → ∃ p : State × Bool, p = acceptGo ((List.range (cmd.payload.length / 4096)).map (fun i => (cmd.arg0 + i, slice cmd.payload (4096 * i) 4096))) u ∧
      exec (.flashWrite 0 cmd) s = .next (if p.2 then p.1.complete 0 4 cmd 0 else (p.1.event Reg.MEM_FL_EVENT 0).complete 0 4 cmd 8)) ∧
    (s.takeCmd 0 5 cmd = some u → u.flash.mount = 2 → 0 < cmd.arg1 → cmd.arg1 ≤ 16384 → cmd.arg0 + cmd.arg1 ≤ u.flashBlocks → ∃ t : State,
      t = u.countReads ((List.range cmd.arg1).map (fun i => cmd.arg0 + i)) ∧
      (t.flashLost ((List.range cmd.arg1).map (fun i => cmd.arg0 + i)) = false → exec (.flashRead 0 cmd false) s =
        .next ((t.replyData 0 cmd.id (t.flashRead (cmd.arg0 * 4096) (cmd.arg1 * 4096))).completeR 0 5 cmd 0 (cmd.arg1 * 4096))) ∧
      (t.flashLost ((List.range cmd.arg1).map (fun i => cmd.arg0 + i)) = true →
        exec (.flashRead 0 cmd false) s = .next ((t.flashUnrecoverable cmd.arg0).complete 0 5 cmd 11)) ∧
      exec (.flashRead 0 cmd true) s = .next ((t.flashUnrecoverable cmd.arg0).complete 0 5 cmd 11)) ∧
    (s.takeCmd 0 6 cmd = some u → u.flash.mount = 2 → cmd.arg0 + cmd.arg1 ≤ u.flashBlocks → exec (.flashTrim 0 cmd) s = .next (u.flashTrimNow 0 cmd)) ∧
    (s.takeCmd 0 7 cmd = some u → u.flash.mount = 2 → u.flash.cache = [] → exec (.flashFlush 0 cmd) s = .next (u.complete 0 7 cmd 0)) ∧
    (s.takeCmd 0 7 cmd = some u → u.flash.mount = 2 → u.flash.cache ≠ [] → exec (.flashFlush 0 cmd) s =
      .next { u with flash := { u.flash with flushWaits := u.flash.flushWaits ++ [(0, cmd, u.flash.cache.map (·.1))] } }) ∧
    (s.takeCmd 0 8 cmd = some u → u.flash.mount = 2 → u.anyLoaded = false → u.inhibited = false → ∃ t v : State,
      t = { u with flash := { u.flash with
        cache := [], busy := false, durable := [], dies := [], reads := [], lost := [], flushWaits := [],
        overprov := clamp 70 280 (u.regN Reg.MEM_FL_CTRL % 1024) } } ∧
      v = t.over u.flash.flushWaits (fun s e => s.complete e.1 7 e.2.1 0) ∧ exec (.flashFormat 0 cmd) s = .next (v.complete 0 8 cmd 0)) ∧
    (s.takeCmd 0 6 cmd = some u → u.flash.mount < 2 → exec (.flashTrim 0 cmd) s = .next { u with flash := { u.flash with held := u.flash.held ++ [(0, 6, cmd, false)] } }) ∧
    (s.takeCmd 0 6 cmd = some u → u.flash.mount = 3 → exec (.flashTrim 0 cmd) s = .next (u.complete 0 6 cmd 2))

/-- On a ring with a context behind it, a command that begins acts. PLAN_LOAD of an aligned image that passes every check installs it, and one that fails completes with the check's status. PLAN_START of a loaded, STOPPED context whose checks pass waits for its tick. PLAN_UNLOAD of a STOPPED context unloads. WAIT_EPOCH of an epoch committed completes at once. STATE_READ within the partition returns the bytes, or CHECK_MISMATCH where they cannot be read, STATE_WRITE while STOPPED stores them. BOLT_ADD and BOLT_SET reach a bolt of the context's range. RECORD takes a frame that passes; LIVE queues a picture of a stream that is up; SENSOR adds bytes to a frame. -/
def Obligations.ContextRingCommandsComplete : Prop :=
  ∀ (fn : Fin 17) (cmd : HostCmd) (c : Nat) (s u : State), u.fnCtx fn = some c →
    (s.takeCmd fn 0x10 cmd = some u → (u.ctx c).adm = .keyed → (u.hasp c).phase = .stopped → (u.hasp c).loaded = false → cmd.arg0 % 2097152 = 0 →
      (u.planCheck c cmd.arg0 cmd.payload = none → exec (.planLoad fn cmd) s = .next (u.installPlan fn c cmd)) ∧
      ∀ f, u.planCheck c cmd.arg0 cmd.payload = some f → exec (.planLoad fn cmd) s = .next (u.completeR fn 0x10 cmd f.status f.result)) ∧
    (s.takeCmd fn 0x11 cmd = some u → (u.hasp c).loaded = true → (u.hasp c).loadCmd = none → (u.hasp c).phase = .stopped → (u.hasp c).startAt = none →
      u.tick.now + 4 ≤ cmd.arg0 → u.rulesOk c (planView (u.ctx c).image) = true → u.coverBad c (planView (u.ctx c).image) = none →
      (∀ i, i < imgVariants (u.ctx c).image → u.batchTick c < imgVoteTick (u.ctx c).image i) → u.matchBad c (planView (u.ctx c).image) = none →
      exec (.planStart fn cmd) s = .next (u.modHasp c (fun h => { h with startAt := some cmd.arg0, startCmd := some (fn.val, cmd) }))) ∧
    (s.takeCmd fn 0x12 cmd = some u → (u.hasp c).phase = .stopped →
      exec (.planUnload fn cmd) s = .next ((if (u.hasp c).loaded then u.unloadPlan c else u).complete fn 0x12 cmd 0)) ∧
    (s.takeCmd fn 0x12 cmd = some u → (u.hasp c).phase ≠ .stopped → (u.hasp c).phase ≠ .halted → exec (.planUnload fn cmd) s = .next (u.complete fn 0x12 cmd 7)) ∧
    (s.takeCmd fn 0x13 cmd = some u → cmd.arg0 ≤ (u.hasp c).shown → exec (.waitEpoch fn cmd) s = .next (u.complete fn 0x13 cmd 0)) ∧
    (s.takeCmd fn 0x13 cmd = some u → (u.hasp c).shown < cmd.arg0 → (u.hasp c).phase ≠ .halted →
      exec (.waitEpoch fn cmd) s = .next (u.modCtx c (fun x => { x with waits := x.waits ++ [(fn.val, cmd)] }))) ∧
    (s.takeCmd fn 0x14 cmd = some u → cmd.arg0 % 16 = 4 → 0 < cmd.arg2 → cmd.arg2 ≤ 16777216 → bit cmd.arg3 0 = false → (u.ctx c).adm = .keyed →
      u.inPart c 4 cmd.arg1 cmd.arg2 = true → u.meetsArena c 4 cmd.arg1 cmd.arg2 = false → ∀ (errs : ReadErrs) (v : State),
      v = (((u.eventIf (u.adpMiss c 4 cmd.arg1 cmd.arg2) (Reg.MEM_ADP_EVENT c) 1).escapeBytes errs.dram).noteErrs errs).account c 5 cmd.arg2 →
      exec (.stateRead fn cmd errs) s = .next (if u.readsPoison c [⟨4, (u.hostUnits c 4).headD 0, cmd.arg1, cmd.arg2⟩] || u.readFails errs then v.complete fn 0x14 cmd 11
        else (v.replyData fn cmd.id (v.hostRead c 4 cmd.arg1 cmd.arg2)).completeR fn 0x14 cmd 0 cmd.arg2)) ∧
    (s.takeCmd fn 0x15 cmd = some u → cmd.arg0 = 4 → cmd.payload ≠ [] → (u.hasp c).phase = .stopped → (u.ctx c).adm = .keyed →
      u.inPart c 4 cmd.arg1 cmd.payload.length = true → exec (.stateWrite fn cmd) s = .next (((u.account c 5 cmd.payload.length).over
        ((u.account c 5 cmd.payload.length).hostUnits c 4) (fun s k => (s.wrRaw c 4 k cmd.arg1 cmd.payload).dirty c 4 k cmd.arg1 cmd.payload.length)).complete fn 0x15 cmd 0)) ∧
    (s.takeCmd fn 0x16 cmd = some u → cmd.arg0 % 4 = 1 → u.ownBolt c (cmd.arg1 % 65536) = true →
      exec (.ringBoltAdd fn cmd) s = .next ((u.boltAdd c (cmd.arg1 % 65536) (BitVec.ofNat 32 cmd.arg2)).complete fn 0x16 cmd 0)) ∧
    (s.takeCmd fn 0x16 cmd = some u → cmd.arg0 % 4 = 2 → u.ownBolt c (cmd.arg1 % 65536) = true →
      exec (.ringBoltSet fn cmd) s = .next ((u.boltSet (cmd.arg1 % 65536) (BitVec.ofNat 32 cmd.arg2)).complete fn 0x16 cmd 0)) ∧
    (s.takeCmd fn 0x20 cmd = some u → u.mediaGone = false → u.ingests c = true → u.ingSource c = 1 → ∀ scans r, u.frameCheck c cmd.payload scans = .ok r →
      exec (.record fn cmd scans) s = .next (((u.eventIf (u.limitsHigh c) (Reg.MED_ING_EVENT c) 3).modIng c (fun i => { i with lastRecord := cmd.id })).acceptRec c
        { frame := r.1, cmd := some (fn.val, cmd) } r.2 scans)) ∧
    (s.takeCmd fn 0x21 cmd = some u → cmd.arg0 < 64 → u.liveCtx cmd.arg0 = c → u.mediaGone = false → (u.stream cmd.arg0).status = 1 → (u.stream cmd.arg0).skipping = false →
      ∀ w h rap rasl, ((u.stream cmd.arg0).dropRasl = false ∨ rasl = false ∨ rap = true) → w ≤ (u.liveGeom cmd.arg0).1 → h ≤ (u.liveGeom cmd.arg0).2 →
      8 * cmd.payload.length ≤ u.regN (Reg.MED_LIVE_MAXBITS cmd.arg0) →
      exec (.live fn cmd w h true rap rasl) s = .next (u.arrive.2.modLive cmd.arg0 (fun v => { v with
        skipping := false, dropRasl := if rap then v.skipping else v.dropRasl,
        waiting := v.waiting ++ [⟨cmd.arg0, w, h, rap, rasl, (fn.val, cmd), u.arrive.1⟩] })).feedEngines) ∧
    (s.takeCmd fn 0x22 cmd = some u → cmd.arg0 < 64 → u.regN (Reg.MED_SENS_CTRL cmd.arg0) % 16 = c → u.mediaGone = false → bit (u.regN (Reg.MED_SENS_CTRL cmd.arg0)) 31 = true →
      (tget (fun _ => {}) u.media.sensors cmd.arg0).openFrame = false →
      exec (.sensor fn cmd true false) s = .next (u.modMedia (fun m => { m with
        sensors := tput m.sensors cmd.arg0 { openFrame := true, data := cmd.payload, cmd := some (fn.val, cmd) } })) ∧
      exec (.sensor fn cmd false false) s = .next (u.count (Reg.MED_SENS_ORPHAN cmd.arg0)))

/-- A command of the admin ring on a VF ring, and a command of a VF ring on the admin ring or on a function with no context, completes with MALFORMED and has no other effect. -/
def Obligations.RingOfTheWrongKind : Prop :=
  (∀ (fn : Fin 17) (cmd : HostCmd) (bad : Bool) (s u : State), fn.val ≠ 0 →
    (s.takeCmd fn 2 cmd = some u → exec (.fmCmd fn cmd) s = .next (u.complete fn 2 cmd 7)) ∧ (s.takeCmd fn 3 cmd = some u → exec (.tokLoad fn cmd) s = .next (u.complete fn 3 cmd 7)) ∧
    (s.takeCmd fn 4 cmd = some u → exec (.flashWrite fn cmd) s = .next (u.complete fn 4 cmd 7)) ∧
    (s.takeCmd fn 5 cmd = some u → exec (.flashRead fn cmd bad) s = .next (u.complete fn 5 cmd 7)) ∧
    (s.takeCmd fn 6 cmd = some u → exec (.flashTrim fn cmd) s = .next (u.complete fn 6 cmd 7)) ∧
    (s.takeCmd fn 7 cmd = some u → exec (.flashFlush fn cmd) s = .next (u.complete fn 7 cmd 7)) ∧
    (s.takeCmd fn 8 cmd = some u → exec (.flashFormat fn cmd) s = .next (u.complete fn 8 cmd 7))) ∧
  (∀ (fn : Fin 17) (cmd : HostCmd) (errs : ReadErrs) (s u : State), u.fnCtx fn = none →
    (s.takeCmd fn 0x10 cmd = some u → exec (.planLoad fn cmd) s = .next (u.complete fn 0x10 cmd 7)) ∧
    (s.takeCmd fn 0x11 cmd = some u → exec (.planStart fn cmd) s = .next (u.complete fn 0x11 cmd 7)) ∧
    (s.takeCmd fn 0x12 cmd = some u → exec (.planUnload fn cmd) s = .next (u.complete fn 0x12 cmd 7)) ∧
    (s.takeCmd fn 0x13 cmd = some u → exec (.waitEpoch fn cmd) s = .next (u.complete fn 0x13 cmd 7)) ∧
    (s.takeCmd fn 0x14 cmd = some u → exec (.stateRead fn cmd errs) s = .next (u.complete fn 0x14 cmd 7)) ∧
    (s.takeCmd fn 0x15 cmd = some u → exec (.stateWrite fn cmd) s = .next (u.complete fn 0x15 cmd 7)) ∧
    (s.takeCmd fn 0x20 cmd = some u → (∀ l, exec (.record fn cmd l) s = .next (u.complete fn 0x20 cmd 7))) ∧
    (s.takeCmd fn 0x16 cmd = some u → exec (.ringBoltAdd fn cmd) s = .next (u.complete fn 0x16 cmd 7) ∧ exec (.ringBoltSet fn cmd) s = .next (u.complete fn 0x16 cmd 7)) ∧
    (s.takeCmd fn 0x21 cmd = some u → ∀ w h sup rap rasl, exec (.live fn cmd w h sup rap rasl) s = .next (u.complete fn 0x21 cmd 7)) ∧
    (s.takeCmd fn 0x22 cmd = some u → ∀ f l, exec (.sensor fn cmd f l) s = .next (u.complete fn 0x22 cmd 7)))

/-- A power-on leaves every register at its reset value, with RESET_N driven low and RAIL_EN high. RESET_N, the watchdog, a fatal event and a PLL that does not relock begin a reset of device scope; RST_CMD with its key and a legal scope begins the reset it names. The end of the stretch releases RESET_N: where the pin is high, bring-up begins at supply qualify. A hold of 10 s is noted; its release starts the stretch again. Each bring-up phase that completes hands over to the next one, the links that have not trained by its end have no peer, and the last leaves the device Poised; one that fails stops there, an LPDDR part outside the supported set failing its phase. The end of a ward reset zeroes the ward and the digests of its units, and returns it later. -/
def Obligations.ResetCommandsComplete : Prop :=
  (∀ s : State, ∃ t, exec .powerOn s = .next t ∧ t.regs = [] ∧ t.rst.active = true ∧ t.rst.driven = true ∧ t.pwr.railEn = true ∧ t.reg Reg.RST_CAUSE = 1#32) ∧
  (∀ (now : Nat) (s : State), s.rst.active = false → exec (.resetNAssert now) s = .next (s.beginReset [2] false false now)) ∧
  (∀ (now : Nat) (s : State), s.rst.active = true → exec (.resetNAssert now) s = .next s) ∧
  (∀ (now : Nat) (s : State), exec (.fatalEscalation now) s = .next (s.beginReset [8] false false now) ∧
    exec (.pllLockTimeout now) s = .next (s.beginReset [8] false false now)) ∧
  (∀ (now : Nat) (s : State), s.mgmt.restarting = false → exec (.watchdogExpiry now) s = .next (s.beginReset [6] false false now)) ∧
  (∀ (now : Nat) (s : State), s.mgmt.restarting = true → exec (.watchdogExpiry now) s = .next s) ∧
  (∀ (v : W32) (now : Nat) (s : State), v.toNat / 65536 = 0xA5C3 → scopeOk (v.toNat % 256) = true →
    ((v.toNat % 256 % 4 = 3 → s.wardResetOk (v.toNat % 256 / 4) = true) → exec (.rstCmd v now) s = .next (s.resetScope (v.toNat % 256) [] now)) ∧
    (v.toNat % 256 % 4 = 3 → s.wardResetOk (v.toNat % 256 / 4) = false → exec (.rstCmd v now) s = .next (s.event Reg.RST_EVENT 1))) ∧
  (∀ (v : W32) (now : Nat) (s : State), (v.toNat / 65536 ≠ 0xA5C3 ∨ scopeOk (v.toNat % 256) = false) → exec (.rstCmd v now) s = .next (s.event Reg.RST_EVENT 0)) ∧
  (∀ (now : Nat) (s : State), s.rst.active = true → s.rst.tripHold = false → s.rst.driven = true → ∃ u : State, u = s.emit (.pin 0 true) ∧
    exec (.stretchExpiry now true) s = .next { u with rst := { u.rst with
      active := false, driven := false, external := false, phase := 1, holdLinks := decide (16 ≤ (recentAsserts s.rst.assertions now).length) } } ∧
    exec (.stretchExpiry now false) s = .next (({ u with rst := { u.rst with external := true, driven := false } } : State).event Reg.RST_CAUSE 2)) ∧
  (∀ s : State, s.rst.active = true → s.rst.external = true → exec .resetHeld s = .next ((s.event Reg.RST_CAUSE 9).platformEvent 1 0) ∧
    exec .resetNRelease s = .next (({ s with rst := { s.rst with external := false, driven := true } } : State).emit (.pin 0 false))) ∧
  (∀ (bad : List LpCopy) (s : State), s.rst.active = false → s.rst.failed = false →
    (s.rst.phase = 1 → exec (.bringupPhaseComplete true bad) s = .next (({ s with rst := { s.rst with slotId := Config.slotStraps.toNat } } : State).toPhase 2)) ∧
    (s.rst.phase = 2 → exec (.bringupPhaseComplete true bad) s = .next s.optionLoad) ∧ (s.rst.phase = 3 → exec (.bringupPhaseComplete true bad) s = .next s.pllLock) ∧
    (s.rst.phase = 4 → exec (.bringupPhaseComplete true bad) s = .next (s.loadMaps.toPhase 5)) ∧
    (s.rst.phase = 5 → exec (.bringupPhaseComplete true bad) s = .next
      (({ s with stores := { s.stores with tiles := [], wards := [], staging := [] } } : State).toPhase 6)) ∧
    (s.rst.phase = 6 → exec (.bringupPhaseComplete true bad) s = .next (s.stackPhase.toPhase 7)) ∧
    (s.rst.phase = 7 → exec (.bringupPhaseComplete true bad) s = .next (if lpSupported Config.lpConfig
      then ({ s.lpPhase bad with flash := { s.flash with mount := 1 } } : State).toPhase 8 else (s.setRegN Reg.MEM_LP_STATUS 4).bringupFails)) ∧
    (s.rst.phase = 8 → exec (.bringupPhaseComplete true bad) s = .next ((s.mountDone true).toPhase 9).trainLinks) ∧
    (s.rst.phase = 9 → s.rst.holdLinks = false → exec (.bringupPhaseComplete true bad) s =
      .next (((s.over (List.range 24) (fun s l => s.modLink l (fun k => if k.state = 1 then { k with state := 0 } else k))).toPhase 10).modPwr (fun p => { p with rung := 1 }))) ∧
    (0 < s.rst.phase → s.rst.phase < 7 → exec (.bringupPhaseComplete false bad) s = .next s.bringupFails) ∧
    (s.rst.phase = 7 → exec (.bringupPhaseComplete false bad) s = .next (s.setRegN Reg.MEM_LP_STATUS 4).bringupFails) ∧
    (s.rst.phase = 8 → exec (.bringupPhaseComplete false bad) s = .next (s.mountDone false).bringupFails)) ∧
  (∀ (w : Fin 16) (s : State), s.rst.wardBusy.contains w.val = true → ∃ t u : State, exec (.wardResetComplete w) s = .next t ∧ t = u.returnLater w ∧
    u.bolts = s.bolts.filter (fun p => p.1 / 4096 != w.val) ∧ u.stores.wards = s.stores.wards.filter (fun p => p.1 != w.val) ∧
    u.stores.tiles = s.stores.tiles.filter (fun p => p.1 / 17 != w.val) ∧ u.rst.wardBusy = s.rst.wardBusy.filter (fun x => x != w.val) ∧
    u.units = tmap (fun k (x : UnitSt) => if (if k < 256 then k / 16 else k % 16) = w.val then { x with digests := [] } else x) s.units)

/-- A power-on leaves RST_CAUSE with POR alone. Every other reset leaves every bit of RST_CAUSE that was set: RESET_N, RST_CMD of any scope, the watchdog, a fatal event, a PLL timeout, a brown-out, both temperature trips, PERST#, a function-level reset, D3hot, the end of a ward reset, and the reset of any scope that management or the fabric manager asks for. -/
def Obligations.ResetCauseRule : Prop :=
  (∀ s : State, ∃ t, exec .powerOn s = .next t ∧ t.reg Reg.RST_CAUSE = 1#32) ∧
  (∀ (c : Instr) (s t : State) (i : Nat), (∃ now, c = .resetNAssert now ∨ c = .watchdogExpiry now ∨ c = .fatalEscalation now ∨ c = .pllLockTimeout now ∨ c = .railUndervolt now ∨
      (∃ v, c = .rstCmd v now) ∨ (∃ mv, c = .vinSample mv now) ∨ (∃ l, c = .dieTempSample l now ∨ c = .stackTempSample l now) ∨ (∃ b, c = .stretchExpiry now b) ∨
      c = .perstAssert ∨ (∃ fn, c = .functionLevelReset fn ∨ c = .d3hotEntry fn) ∨ (∃ w, c = .wardResetComplete w)) →
    exec c s = .next t → (s.reg Reg.RST_CAUSE).getLsbD i = true → (t.reg Reg.RST_CAUSE).getLsbD i = true) ∧
  (∀ (scope now i : Nat) (cause : List Nat) (s : State), (s.reg Reg.RST_CAUSE).getLsbD i = true → ((s.resetScope scope cause now).reg Reg.RST_CAUSE).getLsbD i = true)

/-- A reference that was not good fails without effect. One that fails while it is not the source, or during holdover, only sets its event bit; one that is the source hands over to the other one if that is good; otherwise the device holds over, but not during a reset or bring-up. A recovery marks the reference good and ends holdover on it, whose length is a free value. A selection takes effect only for a good reference, and a refused one sets its event bit. After the holdover limit the tick stops, once. A failure of PCIE_REFCLK resets the host side and sets no cause bit. -/
def Obligations.ClockCommandsComplete : Prop :=
  (∀ (r : RefClk) (n : Nat) (good other : Bool) (s u : State), n = (if r = .a then 0 else 1) → good = (if r = .a then s.clk.aOk else s.clk.bOk) →
    other = (if r = .a then s.clk.bOk else s.clk.aOk) →
    u = ({ s with clk := if r = .a then { s.clk with aOk := false } else { s.clk with bOk := false } } : State).event Reg.CLK_EVENT n →
    (good = false → exec (.refclkFail r) s = .next s) ∧
    (good = true → (s.clk.source ≠ n ∨ s.clk.holdover = true) → exec (.refclkFail r) s = .next u) ∧
    (good = true → s.clk.source = n → s.clk.holdover = false → other = true →
      exec (.refclkFail r) s = .next (({ u with clk := { u.clk with source := 1 - n } } : State).event Reg.CLK_EVENT 2)) ∧
    (good = true → s.clk.source = n → s.clk.holdover = false → other = false → (s.rst.active = true ∨ s.rst.phase < 10) → exec (.refclkFail r) s = .next u) ∧
    (good = true → s.clk.source = n → s.clk.holdover = false → other = false → s.rst.active = false → 10 ≤ s.rst.phase → exec (.refclkFail r) s =
      .next ((({ u with clk := { u.clk with source := 2, holdover := true } } : State).event Reg.CLK_EVENT 3).platformEvent 2 1))) ∧
  (∀ (r : RefClk) (n : Nat) (s u : State), n = (if r = .a then 0 else 1) →
    u = { s with clk := if r = .a then { s.clk with aOk := true } else { s.clk with bOk := true } } →
    (s.clk.holdover = false → exec (.refclkRecover r) s = .next u) ∧
    (s.clk.holdover = true → ∃ (v : W32) (t : State), t = ({ u with fresh := u.fresh + 1 } : State).setReg Reg.CLK_HOLD_MS v ∧ exec (.refclkRecover r) s =
      .next ((({ t with clk := { t.clk with holdover := false, source := n } } : State).event Reg.CLK_EVENT 2).platformEvent 2 0))) ∧
  (∀ (v : W32) (s u : State), u = s.setRegN Reg.CLK_CTRL (v.toNat % 2) →
    ((if v.toNat % 2 = 0 then s.clk.aOk else s.clk.bOk) = true → s.clk.source ≠ v.toNat % 2 →
      exec (.clkSelect v) s = .next (({ u with clk := { u.clk with source := v.toNat % 2 } } : State).event Reg.CLK_EVENT 2)) ∧
    ((if v.toNat % 2 = 0 then s.clk.aOk else s.clk.bOk) = true → s.clk.source = v.toNat % 2 → exec (.clkSelect v) s = .next u) ∧
    ((if v.toNat % 2 = 0 then s.clk.aOk else s.clk.bOk) = false → exec (.clkSelect v) s = .next (u.event Reg.CLK_EVENT 6))) ∧
  (∀ s : State, (s.clk.holdover = true → s.clk.holdStop = false → ∃ u : State, u = s.stopTick ∧
      exec .holdoverLimit s = .next (({ u with clk := { s.clk with holdStop := true } } : State).event Reg.CLK_EVENT 4)) ∧
    ((s.clk.holdover = false ∨ s.clk.holdStop = true) → exec .holdoverLimit s = .next s)) ∧
  (∀ s : State, ∃ u : State, u = s.resetHost ∧ exec .pcieRefclkFail s = .next (({ u with clk := { s.clk with pcieOk := false } } : State).event Reg.CLK_EVENT 5))

/-- A write of TARGET follows the ladder, clamped to 4. A sample of VIN is shown; with four samples their mean enters a deeper stage or, at brown-out, begins a cold reset. A stage is left 1 V above its threshold. A rail that times out fails supply qualify; one that falls while RAIL_EN is high is a brown-out. SHED caps power and is released. Above the cap the governor stops fill, then holds best-effort memory work, then lowers the tile clocks, and chooses the core voltage for the clocks that run and those to come. A die below 105 °C only shows its temperature; at 115 °C it trips. -/
def Obligations.PowerCommandsComplete : Prop :=
  (∀ (v : W32) (s : State), exec (.pwrLadderWrite v) s = .next ((s.eventIf (decide (4 < v.toNat % 8)) Reg.PWR_EVENT 8).setTarget (min 4 (v.toNat % 8)) false)) ∧
  (∀ (mv now : Nat) (s : State), ∃ (bus : Nat) (u : State), bus = mv * (s.regN Reg.PWR_VIN_RATIO % 65536) / 1000 ∧
    u = (s.setRegN Reg.PWR_VIN (min 65535 (bus / 10))).modPwr (fun p => { p with samples := (s.pwr.samples ++ [bus]).drop ((s.pwr.samples ++ [bus]).length - 4) }) ∧
    (u.pwr.samples.length < 4 → exec (.vinSample mv now) s = .next u) ∧
    (4 ≤ u.pwr.samples.length → u.vinStage u.vinMean = 4 → exec (.vinSample mv now) s = .next (u.beginReset [1] true false now)) ∧
    (4 ≤ u.pwr.samples.length → u.vinStage u.vinMean ≠ 4 → exec (.vinSample mv now) s = .next (u.enterStage (u.vinStage u.vinMean)))) ∧
  (∀ (g : Nat) (s : State), s.pwr.stage = g → 0 < g → g ≤ 3 →
    (if g = 3 then s.vinThresholds.2.2.1 else if g = 2 then s.vinThresholds.2.1 else s.vinThresholds.1) + 1000 ≤ s.vinMean → ∃ u : State,
    u = (s.modPwr (fun p => { p with stage := g - 1, hold := p.hold && decide (g ≠ 3) })).showCap ∧
    exec .supplyStageRecover s = .next (if g = 1 then u.retryHeld else u)) ∧
  (∀ s : State, s.rst.phase = 1 → s.rst.active = false →
    exec .railTimeout s = .next (({ s with pwr := { s.pwr with railEn := false }, rst := { s.rst with failed := true } } : State).emit (.pin 1 false))) ∧
  (∀ (now : Nat) (s : State), (s.pwr.railEn = true → exec (.railUndervolt now) s = .next (s.beginReset [1] true false now)) ∧
    (s.pwr.railEn = false → exec (.railUndervolt now) s = .next s)) ∧
  (∀ s : State, s.pwr.shed = false → exec .shedAssert s = .next (((s.modPwr (fun p => { p with shed := true })).event Reg.PWR_EVENT 4).showCap)) ∧
  (∀ s : State, exec .shedRelease s = .next ((s.modPwr (fun p => { p with shed := false })).showCap)) ∧
  (∀ (m f : Nat) (s : State), s.cap < m → ∃ (u v : State) (p : Power), p = s.pwr.measure true (decide (0 < f)) ∧ v = u.setClocks false ∧
    exec (.governorTick m f) s = .next (v.setVolts (v.voltsFor (max v.topClock v.comingClock))) ∧ u.pwr.measured = m ∧ u.pwr.fill = 0 ∧
    u.pwr.beHeld = p.beHeld ∧ u.pwr.capClock = p.capClock ∧
    p.beHeld = (s.pwr.beHeld || decide (f = 0)) ∧ p.capClock = if f = 0 ∧ s.pwr.beHeld = true then min 60 (s.pwr.capClock + 1) else s.pwr.capClock) ∧
  (∀ (l : List Nat) (now : Nat) (s : State), s.rst.tripHold = false → ∃ u : State, u = (s.modPwr (fun p => { p with tj := (hottestOf (l.take 72)).1, tjSensor := (hottestOf (l.take 72)).2 })).showTemp ∧
    ((hottestOf (l.take 72)).1 < 105 → exec (.dieTempSample l now) s = .next (u.modPwr (fun p => { p with
      dieHot := 0, dieLow := p.dieLow || (decide ((hottestOf (l.take 72)).1 < 102) && decide (0 < p.dieThrottle)) }))) ∧
    (115 ≤ (hottestOf (l.take 72)).1 → exec (.dieTempSample l now) s = .next (((u.beginReset [7] false true now).modPwr
      (fun p => { p with tj := (hottestOf (l.take 72)).1, tjSensor := (hottestOf (l.take 72)).2 })).showTemp)))

/-- While the controller does not restart, an endpoint ID from 1 to 254 is set and answered, and is read back; version, type and vendor support are answered. SPDM: GET_VERSION forgets what was negotiated; GET_CAPABILITIES answers; the right algorithms are negotiated; with them negotiated, digests, certificates, the challenge, measurements and a key exchange are answered; FINISH with a right check value establishes its session, a wrong one closes it; HEARTBEAT, KEY_UPDATE and END_SESSION act on an established session. -/
def Obligations.EndpointAndSessionCommandsComplete : Prop :=
  ∀ s : State, s.mgmt.restarting = false →
    (∀ eid, 0 < eid → eid < 255 → exec (.setEndpointId false eid) s =
      .next (({ s with mgmt := { s.mgmt with eid0 := eid } } : State).emit (.mctp 1 (toLe 2 0 ++ toLe 1 eid ++ toLe 1 0)))) ∧
    (∀ eid, 0 < eid → eid < 255 → s.vdmUp = true → exec (.setEndpointId true eid) s =
      .next (({ s with mgmt := { s.mgmt with eid1 := eid } } : State).emit (.mctp 1 (toLe 2 0 ++ toLe 1 eid ++ toLe 1 0)))) ∧
    (∀ vdm, (vdm = true → s.vdmUp = true) →
      exec (.getEndpointId vdm) s = .next (s.emit (.mctp 2 (toLe 1 0 ++ toLe 1 (s.eid vdm) ++ toLe 2 0))) ∧
      (∀ n, mctpTypes.contains n = true → exec (.getMctpVersionSupport vdm n) s = .next ((s.drawBytes 4).2.emit (.mctp 4 (toLe 1 0 ++ toLe 1 1 ++ (s.drawBytes 4).1)))) ∧
      exec (.getMessageTypeSupport vdm) s = .next (s.emit (.mctp 5 (toLe 1 0 ++ toLe 1 mctpTypes.length ++ (mctpTypes.map (toLe 1)).flatten))) ∧
      exec (.getVendorDefinedMessageSupport vdm) s =
        .next (s.emit (.mctp 6 (toLe 1 0 ++ toLe 1 0xFF ++ toLe 1 1 ++ (toLe 4 Config.enterprise.toNat).reverse ++ toLe 2 0)))) ∧
    (exec .getVersion s = .next (({ s with mgmt := { s.mgmt with negotiated := false } } : State).emit (.spdm 0x04 (toLe 1 0 ++ toLe 1 1 ++ toLe 2 0x1200)))) ∧
    (exec .getCapabilities s = .next (s.emit (.spdm 0x61 (toLe 4 0x000062D6)))) ∧
    (exec (.negotiateAlgorithms true true true true) s =
      .next (({ s with mgmt := { s.mgmt with negotiated := true } } : State).emit (.spdm 0x63 (toLe 4 0x01010101)))) ∧
    (s.mgmt.negotiated = true →
      exec .getDigests s = .next (s.emit (.spdm 0x01 (toLe 1 1 ++ sha384 Config.certChain))) ∧
      (∀ offset len, offset ≤ Config.certChain.length → ∃ part : Bytes, part = slice Config.certChain offset len ∧
        exec (.getCertificate 0 offset len) s = .next (s.emit (.spdm 0x02 (toLe 2 part.length ++ toLe 2 (Config.certChain.length - offset - part.length) ++ part)))) ∧
      (∀ nonce, ∃ body : Bytes, body = sha384 Config.certChain ++ (s.drawBytes 32).1 ∧
        exec (.challenge 0 nonce) s = .next ((s.drawBytes 32).2.emit (.spdm 0x03 (body ++ Config.ecdsaSign (nonce ++ body))))) ∧
      exec (.getMeasurements 0) s = .next (s.emit (.spdm 0x60 (toLe 1 5))) ∧
      (∀ n, 0 < n → n ≤ 5 → exec (.getMeasurements n) s = .next (s.emit (.spdm 0x60 (toLe 1 n ++ sha384 (s.measured n))))) ∧
      (∀ id, s.mgmt.sessions.any (fun p => p.1 == id) = false → s.mgmt.sessions.length < 4 → ∃ t, exec (.keyExchange id) s = .next t ∧
        t.mgmt = { s.mgmt with sessions := s.mgmt.sessions ++ [(id, false)] })) ∧
    (∀ n, (s.mgmt.sessions.any (fun p => p.1 == n && p.2 == false)) = true →
      exec (.finish n true) s = .next (({ s with mgmt := { s.mgmt with
        sessions := s.mgmt.sessions.map (fun (p : Nat × Bool) => if p.1 = n then (n, true) else p) } } : State).emit (.spdm 0x65 [])) ∧
      exec (.finish n false) s = .next ((s.dropSession n).emit (.spdmError 0x06))) ∧
    (∀ n, (s.mgmt.sessions.any (fun p => p.1 == n && p.2 == true)) = true →
      exec (.heartbeat n) s = .next (s.emit (.spdm 0x68 [])) ∧
      exec (.keyUpdate n) s = .next (({ s with mgmt := { s.mgmt with keyUpdates := s.mgmt.keyUpdates + 1 } } : State).emit (.spdm 0x69 [])) ∧
      exec (.endSession n) s = .next ((s.dropSession n).emit (.spdm 0x6C [])))

/-- While the controller does not restart, GET_INFO, a register read, UNIT_READ of a named unit and HIST_READ of 1 to 16 records are answered with OK. Inside a secured session a register write acts by the register's rules, LADDER sets the target rung, RESET answers and then resets, a unit request enters the unit's pending action, the time and the fabric key are set, and debug access is unlocked. A message too long is dropped and counted. -/
def Obligations.SebaleyCommandsComplete : Prop :=
  ∀ s : State, s.mgmt.restarting = false →
    (∃ b, exec .getInfo s = .next (s.mgmtReply 1 0 b) ∧ b.length = 28) ∧
    (∀ off, off < 0x01000000 → exec (.mgmtRegRead off) s = .next ((s.barRead 0 off 4).2.mgmtReply 2 0 (toLe 4 (s.barRead 0 off 4).1))) ∧
    (∀ kind unit, unitNamed kind unit = true → exec (.unitRead kind unit) s = .next (s.mgmtReply 6 0 (toLe 1 (s.unitClass kind unit) ++ toLe 1 (s.unitPlace kind unit) ++
      toLe 1 (s.unitAction kind unit) ++ toLe 1 0 ++ toLe 4 (tget (fun _ => 0) s.chk.disagreements (unitKey kind unit))))) ∧
    (∀ kind unit, unitNamed kind unit = false → exec (.unitRead kind unit) s = .next (s.mgmtReply 6 7 [])) ∧
    (∀ q n, 0 < n → n ≤ 16 → exec (.histRead q n) s =
      .next (s.mgmtReply 8 0 (((s.chk.history.filter (fun r => decide (q ≤ r.seq))).take n).map HistRec.bytes).flatten)) ∧
    (∀ t c n, 4096 < n → exec (.unsupportedMessage t c n) s = .next { s with mgmt := { s.mgmt with dropped := s.mgmt.dropped + 1 } }) ∧
    (∀ c n, n ≤ 4096 → (c = 0 ∨ 0x0A < c) → exec (.unsupportedMessage 0x7F c n) s = .next (s.mgmtReply c 7 [])) ∧
    ∀ q, s.inSession q = true →
      (∀ off v now, off < 0x01000000 → exec (.mgmtRegWrite q off v now) s = .next ((s.barWrite 0 off 4 v.toNat now).mgmtReply 3 0 [])) ∧
      (∀ n, n ≤ 4 → exec (.ladder q n) s = .next ((s.setTarget n true).mgmtReply 4 0 [])) ∧
      (∀ b now, s.resetCode b = 0 → exec (.mgmtReset q b now) s = .next ((s.mgmtReply 5 0 []).resetScope b [4] now)) ∧
      (∀ unit, unitNamed 1 unit = true → exec (.unitRequestFence q 1 unit) s = .next ((s.enterAction 1 unit 1).mgmtReply 7 0 []) ∧
        (s.unitClass 1 unit < 4 → (s.tileMap (unit % 16)).spare = none → exec (.unitRequestRestore q 1 unit) s = .next ((s.enterAction 1 unit 2).mgmtReply 7 0 [])) ∧
        (4 ≤ s.unitClass 1 unit → exec (.unitRequestRestore q 1 unit) s = .next (s.mgmtReply 7 7 []))) ∧
      (∀ kind unit, unitNamed kind unit = true → exec (.unitRequestClearClass q kind unit) s = .next ((s.enterAction kind unit 3).mgmtReply 7 0 [])) ∧
      (∀ n, exec (.setTime q n) s = .next (({ s with mgmt := { s.mgmt with time := n, timeValid := true } } : State).mgmtReply 9 0 [])) ∧
      (∀ b : Bytes, b.length = 32 → ∃ t, exec (.setFabricKey q b) s = .next t ∧ t.mgmt = { s.mgmt with fabricKey := some b }) ∧
      (exec (.debugUnlock q) s = .next { s with mgmt := { s.mgmt with debug := true } })

/-- In a session, an update of component 1 to 3 is begun while none runs. An image that its component allows is verified; one that it does not ends the update with a verification failure and an AUTH_FAIL event. Activation of the verified component restarts the controller, switches the media firmware, or writes the option copy not in use. The end of a restart brings the verified image into use, closes the sessions and compares the maps. Sensors 1 to 70 are described and read, and the event receiver is set. -/
def Obligations.FirmwareAndTelemetryCommandsComplete : Prop :=
  (∀ s : State, s.mgmt.restarting = false →
    (∀ q n, s.inSession q = true → s.mgmt.update = none → 0 < n → n ≤ 3 → exec (.requestUpdate q n) s = .next ((s.setUpdate (some n)).emit (.pldm 5 0x10 (toLe 1 0)))) ∧
    (∀ n image pub, s.mgmt.update = some n → (imageAllowed n image pub = true → exec (.firmwareVerify n image pub) s =
        .next (({ s with mgmt := { s.mgmt with verified := tput s.mgmt.verified n image, ready := true } } : State).emit (.pldm 5 0x17 (toLe 1 0)))) ∧
      (imageAllowed n image pub = false → exec (.firmwareVerify n image pub) s = .next (((s.setUpdate none).emit (.pldm 5 0x17 (toLe 1 1))).platformEvent 6 6))) ∧
    (∀ n e, s.mgmt.update = some n → s.mgmt.ready = true → s.mgmt.verified.find? (fun p => p.1 == n) = some e → ∃ t : State, t = (s.setUpdate none).emit (.pldm 5 0x1A (toLe 1 0)) ∧
      exec (.firmwareActivate n) s = .next (if n = 1 then { t with mgmt := { t.mgmt with restarting := true } } else if n = 2 then
        { t with media := { t.media with switching := true } } else t.writeOption e.2)) ∧
    (∀ n, 0 < n → n ≤ 70 → exec (.getPdr n) s = .next (s.emit (.pldm 2 0x51 (toLe 1 0 ++ toLe 2 n ++ toLe 1 (sensorUnit n)))) ∧
      (n ≠ 7 → exec (.getSensorReading n) s = .next (s.emit (.pldm 2 0x11 (toLe 1 0 ++ toLe 4 (s.sensor n)))))) ∧
    (exec (.getSensorReading 7) s = .next (s.latchForecast.emit (.pldm 2 0x11 (toLe 1 0 ++ toLe 4 (s.latchForecast.sensor 7))))) ∧
    (∀ e, exec (.setEventReceiver e) s = .next (({ s with mgmt := { s.mgmt with receiver := some e } } : State).emit (.pldm 2 0x04 (toLe 1 0))))) ∧
  (∀ s : State, s.mgmt.restarting = true → ∃ (m : List (Nat × Bytes)) (t u : State),
    m = (match s.mgmt.verified.find? (fun p => p.1 == 1) with | some e => tput s.mgmt.inUse 1 e.2 | none => s.mgmt.inUse) ∧
    t = { s with mgmt := { s.mgmt with restarting := false, inUse := m, sessions := [], negotiated := false, update := none, ready := false } } ∧
    u = (if t.inhibited then t else { t with chk := { t.chk with history := t.chk.history ++ t.chk.queue, queue := [] } }) ∧
    exec .mgmtRestartDone s = .next u.compareMaps)

/-- While the controller does not restart, each command marked S is answered with AUTH_FAIL where no session of that number has finished its handshake, and nothing but the answer changes. The debug unlock then changes nothing at all. -/
def Obligations.SecuredCommandsNeedSession : Prop :=
  ∀ (q : Option Nat) (s : State), s.mgmt.restarting = false → s.inSession q = false →
    (∀ off v now, exec (.mgmtRegWrite q off v now) s = .next { s with out := s.out ++ [.mgmt 3 6 []] }) ∧
    (∀ n, exec (.ladder q n) s = .next { s with out := s.out ++ [.mgmt 4 6 []] }) ∧
    (∀ b now, exec (.mgmtReset q b now) s = .next { s with out := s.out ++ [.mgmt 5 6 []] }) ∧
    (∀ k u, exec (.unitRequestFence q k u) s = .next { s with out := s.out ++ [.mgmt 7 6 []] } ∧
      exec (.unitRequestRestore q k u) s = .next { s with out := s.out ++ [.mgmt 7 6 []] } ∧
      exec (.unitRequestClearClass q k u) s = .next { s with out := s.out ++ [.mgmt 7 6 []] }) ∧
    (∀ n, exec (.setTime q n) s = .next { s with out := s.out ++ [.mgmt 9 6 []] }) ∧
    (∀ b, exec (.setFabricKey q b) s = .next { s with out := s.out ++ [.mgmt 10 6 []] }) ∧
    exec (.debugUnlock q) s = .next s

/-- While the controller restarts, every message to an endpoint, MCTP, SPDM, Sebaley or PLDM, changes nothing, and the watchdog is paused. -/
def Obligations.SilentWhileRestarting : Prop :=
  ∀ (s : State), s.mgmt.restarting = true →
    (∀ (v : Bool) (n : Nat), exec (.setEndpointId v n) s = .next s ∧ exec (.getEndpointId v) s = .next s ∧ exec (.getMctpVersionSupport v n) s = .next s ∧
      exec (.getMessageTypeSupport v) s = .next s ∧ exec (.getVendorDefinedMessageSupport v) s = .next s) ∧
    exec .getVersion s = .next s ∧ exec .getCapabilities s = .next s ∧ exec .getDigests s = .next s ∧ exec .getInfo s = .next s ∧
    (∀ a b c d, exec (.negotiateAlgorithms a b c d) s = .next s) ∧
    (∀ (a b c : Nat) (l : Bytes), exec (.getCertificate a b c) s = .next s ∧ exec (.challenge a l) s = .next s ∧ exec (.getMeasurements a) s = .next s ∧
      exec (.keyExchange a) s = .next s ∧ exec (.heartbeat a) s = .next s ∧ exec (.keyUpdate a) s = .next s ∧ exec (.endSession a) s = .next s ∧
      exec (.mgmtRegRead a) s = .next s ∧ exec (.unitRead a b) s = .next s ∧ exec (.histRead a b) s = .next s ∧ exec (.firmwareVerify a l l) s = .next s ∧
      exec (.firmwareActivate a) s = .next s ∧ exec (.getPdr a) s = .next s ∧ exec (.getSensorReading a) s = .next s ∧ exec (.setEventReceiver a) s = .next s ∧
      exec (.unsupportedMessage a b c) s = .next s ∧ exec (.watchdogExpiry a) s = .next s) ∧
    (∀ (a : Nat) (b : Bool), exec (.finish a b) s = .next s) ∧
    (∀ (q : Option Nat) (a b now : Nat) (v : W32) (l : Bytes), exec (.mgmtRegWrite q a v now) s = .next s ∧ exec (.ladder q a) s = .next s ∧ exec (.mgmtReset q a now) s = .next s ∧
      exec (.unitRequestFence q a b) s = .next s ∧ exec (.unitRequestRestore q a b) s = .next s ∧ exec (.unitRequestClearClass q a b) s = .next s ∧
      exec (.setTime q a) s = .next s ∧ exec (.setFabricKey q l) s = .next s ∧ exec (.requestUpdate q a) s = .next s ∧ exec (.debugUnlock q) s = .next s)

/-- A read through a BAR of an address and size that are legal answers with the register's value, and a legal write goes through the register's own write rule; a wide access takes the low word first. An access that is not legal reads as 0, writes nothing and is counted in ID_BAD_ACCESS. A read of ACC_SNAP_EPOCH latches the context's commit snapshot and one of PWR_FCAST_TICK_LO the forecast group, and each answers with its register. -/
def Obligations.RegisterAccessCompletes : Prop :=
  (∀ (fn : Fin 17) (off : Nat) (s : State), accessOk (regAddr fn off) 4 = true →
    exec (.loWordRead fn off 4) s = .next ((s.readReg (regAddr fn off)).2.emit (.regRead fn off (s.readReg (regAddr fn off)).1.toNat)) ∧
    ∀ v now, exec (.registerWrite fn off 4 v now) s = .next (s.regWrite (regAddr fn off) (BitVec.ofNat 32 v) now)) ∧
  (∀ (fn : Fin 17) (off : Nat) (s t : State), accessOk (regAddr fn off) 8 = true → t = (s.readReg (regAddr fn off)).2 →
    exec (.loWordRead fn off 8) s = .next ((t.readReg (regAddr fn off + 4)).2.emit
      (.regRead fn off ((s.readReg (regAddr fn off)).1.toNat + (t.readReg (regAddr fn off + 4)).1.toNat * 2 ^ 32))) ∧
    ∀ v now, exec (.registerWrite fn off 8 v now) s =
      .next ((s.regWrite (regAddr fn off) (BitVec.ofNat 32 v) now).regWrite (regAddr fn off + 4) (BitVec.ofNat 32 (v / 2 ^ 32)) now)) ∧
  (∀ (fn : Fin 17) (off n v now : Nat) (s : State), accessOk (regAddr fn off) n = false →
    exec (.loWordRead fn off n) s = .next ((s.count Reg.ID_BAD_ACCESS).emit (.regRead fn off 0)) ∧
    exec (.registerWrite fn off n v now) s = .next (s.count Reg.ID_BAD_ACCESS)) ∧
  (∀ (c : Fin 16) (s : State), exec (.accSnapEpochRead c) s =
    .next ((s.readReg (Reg.ACC_SNAP_EPOCH c)).2.emit (.regRead 0 (Reg.ACC_SNAP_EPOCH c) (s.readReg (Reg.ACC_SNAP_EPOCH c)).1.toNat)) ∧
    s.readReg (Reg.ACC_SNAP_EPOCH c) = ((s.latchSnap c).regValue (Reg.ACC_SNAP_EPOCH c), s.latchSnap c)) ∧
  (∀ s : State, s.readReg Reg.PWR_FCAST_TICK_LO = (s.latchForecast.regValue Reg.PWR_FCAST_TICK_LO, s.latchForecast) ∧ exec .pwrFcastTickLoRead s =
    .next ((s.readReg Reg.PWR_FCAST_TICK_LO).2.emit (.regRead 0 Reg.PWR_FCAST_TICK_LO (s.readReg Reg.PWR_FCAST_TICK_LO).1.toNat)))

/-- BYPASS shifts the one-bit register, IDCODE the identification code, SAMPLE/PRELOAD a sample of the chain, which is a free value. EXTEST drives the lands while a reset of device or cold scope holds, and samples otherwise. None of them changes anything else of the machine. -/
def Obligations.JtagCommandsComplete : Prop :=
  (∀ (n : Nat) (s : State), exec (.jtagBypass n) s = .next (s.emit (.tdo 0))) ∧ (∀ s : State, exec .jtagIdcode s = .next (s.emit (.tdo idcode))) ∧
  (∀ s : State, ∃ v, exec .jtagSamplePreload s = .next { s with fresh := s.fresh + 1, out := s.out ++ [.tdo v] }) ∧
  (∀ (l : List Bool) (s : State), s.rst.active = true → exec (.jtagExtest l) s = .next (s.emit (.lands l))) ∧
  (∀ (l : List Bool) (s : State), s.rst.active = false → ∃ v, exec (.jtagExtest l) s = .next { s with fresh := s.fresh + 1, out := s.out ++ [.tdo v] })

/-- A write to a read-only register, to an offset without a register, or to the debug block changes nothing. A write to an event register clears exactly the bits written as 1 that the register has, and changes no other register. -/
def Obligations.RegisterKindsRule : Prop :=
  (∀ (fn : Fin 17) (off v now : Nat) (s : State), off % 4 = 0 → (regRow (regAddr fn off) = none ∨ ∃ r, regRow (regAddr fn off) = some r ∧ r.acc = .ro) →
    exec (.registerWrite fn off 4 v now) s = .next s) ∧
  (∀ (off : Nat), debugBlock off = true → regRow off = none) ∧
  (∀ (fn : Fin 17) (off v now : Nat) (r : RegRow) (s : State), off % 4 = 0 → regRow (regAddr fn off) = some r → r.acc = .w1c →
    ∃ t, exec (.registerWrite fn off 4 v now) s = .next t ∧ ∀ a, t.reg a = if a = regAddr fn off then
      s.reg a &&& ~~~(BitVec.ofNat 32 v &&& BitVec.ofNat 32 r.mask) else s.reg a)

/-- Requests that only ask change nothing but what the device sends. Requests that set something of the management controller change its own state, what is sent and the counter of free values, and nothing else: no register, no memory, no context. A unit request enters a pending action and nothing else. A sensor reading may latch the power forecast and nothing else. -/
def Obligations.ManagementFrame : Prop :=
  (∀ (c : Instr) (s t : State), ((∃ v, c = .getEndpointId v ∨ c = .getMessageTypeSupport v ∨ c = .getVendorDefinedMessageSupport v) ∨ c = .getCapabilities ∨ c = .getDigests ∨ c = .getInfo ∨
      (∃ a b d, c = .getCertificate a b d) ∨ (∃ n, c = .getMeasurements n ∨ c = .heartbeat n ∨ c = .getPdr n) ∨ (∃ a b, c = .unitRead a b ∨ c = .histRead a b)) →
    exec c s = .next t → t = { s with out := t.out }) ∧
  (∀ (c : Instr) (s t : State), ((∃ v n, c = .setEndpointId v n ∨ c = .getMctpVersionSupport v n) ∨ c = .getVersion ∨ (∃ a b d e, c = .negotiateAlgorithms a b d e) ∨
      (∃ a l, c = .challenge a l) ∨ (∃ n, c = .keyExchange n ∨ c = .keyUpdate n ∨ c = .endSession n ∨ c = .setEventReceiver n) ∨ (∃ n b, c = .finish n b) ∨
      (∃ q n, c = .setTime q n ∨ c = .requestUpdate q n) ∨ (∃ q, c = .debugUnlock q) ∨ (∃ q l, c = .setFabricKey q l) ∨ (∃ n a b, c = .firmwareVerify n a b) ∨
      (∃ a b n, c = .unsupportedMessage a b n)) →
    exec c s = .next t → t = { s with mgmt := t.mgmt, out := t.out, fresh := t.fresh }) ∧
  (∀ (c : Instr) (s t : State), (∃ q k u, c = .unitRequestFence q k u ∨ c = .unitRequestRestore q k u ∨ c = .unitRequestClearClass q k u) →
    exec c s = .next t → t = { s with chk := { s.chk with actions := t.chk.actions }, out := t.out }) ∧
  (∀ (n : Nat) (s t : State), exec (.getSensorReading n) s = .next t → t = { s with
    pwr := { s.pwr with latchedFc := t.pwr.latchedFc, latchedTick := t.pwr.latchedTick, latchedMean := t.pwr.latchedMean }, out := t.out })

/-- A clock selection changes the source and two registers. Asserting or releasing SHED changes the shed state and two registers. A link that goes down, ends its training or receives a HELLO leaves every other link, and every register but its delay and FAB_EVENT, as it was. Enabling or disabling a ring set, and its interrupt timer, leave every other ring set, every memory and every context as they were. Arming a permute leaves every other context as it was. A write of the high selector word changes the selector and its register. None of them touches a memory or a bolt. -/
def Obligations.RegisterCommandsFrame : Prop :=
  (∀ (v : W32) (s t : State), exec (.clkSelect v) s = .next t → t = { s with regs := t.regs, clk := { s.clk with source := t.clk.source } } ∧
    ∀ a, a ≠ Reg.CLK_CTRL → a ≠ Reg.CLK_EVENT → t.reg a = s.reg a) ∧
  (∀ (c : Instr) (s t : State), (c = .shedAssert ∨ c = .shedRelease) → exec c s = .next t →
    t = { s with regs := t.regs, pwr := { s.pwr with shed := t.pwr.shed, capLow := t.pwr.capLow } } ∧
    ∀ a, a ≠ Reg.PWR_CAP_NOW → a ≠ Reg.PWR_EVENT → t.reg a = s.reg a) ∧
  (∀ (c : Instr) (l : Fin 24) (s t : State), (c = .linkDown l ∨ (∃ f d n, c = .linkTrainingDone l f d n) ∨ (∃ b, c = .hello l b) ∨ c = .codewordUncorrectable l) → exec c s = .next t →
    t = { s with regs := t.regs, links := t.links, out := t.out } ∧ (∀ k, k ≠ l.val → t.link k = s.link k) ∧
    ∀ a, a ≠ Reg.FAB_LINK_DELAY l → a ≠ Reg.FAB_LINK_UE l → a ≠ Reg.FAB_EVENT → a ≠ Reg.FAB_DROP_CRC → a ≠ Reg.FAB_DROP_STALE → t.reg a = s.reg a) ∧
  (∀ (c : Instr) (fn : Fin 17) (s t : State), (c = .ringEnable fn ∨ c = .ringDisable fn ∨ ∃ v, c = .irqTimer fn v) → exec c s = .next t →
    t = { s with regs := t.regs, rings := t.rings, out := t.out } ∧ ∀ g, g ≠ fn.val → t.ring g = s.ring g) ∧
  (∀ (c : Fin 16) (v : W32) (s t : State), exec (.fabPermAtWrite c v) s = .next t → t = { s with regs := t.regs, ctxs := t.ctxs } ∧
    (∀ d, d ≠ c.val → t.ctx d = s.ctx d) ∧ ∀ a, a ≠ Reg.FAB_PERM_AT c → a ≠ Reg.FAB_PERM_EVENT c → t.reg a = s.reg a) ∧
  (∀ (v : W32) (s t : State), exec (.ctxSelectHiWrite v) s = .next t → t = { s with regs := t.regs, tick := { s.tick with select := t.tick.select } } ∧
    ∀ a, a ≠ Reg.CTX_SELECT_HI → t.reg a = s.reg a)
end

