-- ==== Sys2Proof/Laws/Auth.lean ====
section
/-! SUPPORT. The lengths and ranges of check values and authenticators, and when a fabric-manager message is accepted. -/

namespace Sys2Proof.Machine

@[simp] theorem toLe_length (n v : Nat) : (toLe n v).length = n := by
  induction n generalizing v with
  | zero => rfl
  | succ n h => simp [toLe, h]

@[simp] theorem toBe_length (n v : Nat) : (toBe n v).length = n := by simp [toBe]

theorem hashRound_length (q : HashKind) (v : List Nat) (x c : Nat) (h : v.length = 8) : (hashRound q v x c).length = 8 := by
  unfold hashRound
  split <;> simp_all

theorem hashRounds_length (q : HashKind) (k l v : List Nat) (h : v.length = 8) : (hashRounds q k l v).length = 8 := by
  induction k generalizing l v with
  | nil => exact h
  | cons c t ih => exact ih _ _ (hashRound_length q v _ c h)

theorem hashBlocks_length (q : HashKind) (n : Nat) (b : Bytes) (h : List Nat) (e : h.length = 8) : (hashBlocks q n b h).length = 8 := by
  induction n generalizing b h with
  | zero => exact e
  | succ n ih => exact ih _ _ (by simp [List.length_zipWith, hashRounds_length _ _ _ _ e, e])

/-- A SHA-256 value has 32 bytes. -/
theorem sha256_length (b : Bytes) : (sha256 b).length = 32 := by
  have h : ∀ l : List Nat, ((l.map (toBe 4)).flatten).length = 4 * l.length := by
    intro l; induction l with
    | nil => rfl
    | cons x t ih => simp only [List.map_cons, List.flatten_cons, List.length_append, toBe_length, ih, List.length_cons]; omega
  show ((List.map (toBe 4) (hashBlocks sha256Kind _ _ sha256Kind.h)).flatten).length = 32
  rw [h, hashBlocks_length _ _ _ _ rfl]

/-- An authenticator has 32 bytes. -/
@[simp] theorem authCode_length (k : Bytes) (n : Nat) (b : Bytes) : (authCode k n b).length = 32 := sha256_length _

/-- A body that carries its own authenticator, with FM_TERM 0 and its nonce, is accepted by a device whose term is 0 and that has taken no nonce yet. -/
theorem fmAccepts_of (s : State) (m : FmMsg) (k b : Bytes) (hk : s.mgmt.fabricKey = some k) (hm : m.body = b ++ authCode k m.nonce.toNat b)
    (hl : 8 ≤ b.length) (ht : s.regN Reg.FAB_FM_TERM ≤ fmTerm m) (hn : s.fabric.nonce = none) : s.fmAccepts m = true := by
  simp [State.fmAccepts, hk, hm, ht, hn]
  omega

theorem byteAt_toLe (n v i : Nat) (h : i < n) : byteAt (toLe n v) i = v / 256 ^ i % 256 := by
  induction n generalizing v i with
  | zero => omega
  | succ n ih =>
    cases i with
    | zero => simp [byteAt, toLe]
    | succ i =>
      have := ih (v / 256) i (by omega)
      simp only [byteAt, toLe, List.getD_cons_succ] at this ⊢
      rw [this, Nat.div_div_eq_div_mul, Nat.pow_succ, Nat.mul_comm]

/-- The arguments of a body that carries its authenticator. -/
theorem fmArgs_of (m : FmMsg) (k b : Bytes) (n : Nat) (hm : m.body = b ++ authCode k n b) : fmArgs m = b.drop 8 := by simp [fmArgs, hm]

theorem crc32cBit_lt {c : Nat} (h : c < 2 ^ 32) : crc32cBit c < 2 ^ 32 := by
  unfold crc32cBit
  split
  · exact Nat.xor_lt_two_pow (by omega) (by decide)
  · omega

theorem crc32cByte_lt {c : Nat} (b : Byte) (h : c < 2 ^ 32) : crc32cByte c b < 2 ^ 32 := by
  unfold crc32cByte
  have hb : b.toNat < 2 ^ 32 := by omega
  exact crc32cBit_lt (crc32cBit_lt (crc32cBit_lt (crc32cBit_lt (crc32cBit_lt (crc32cBit_lt (crc32cBit_lt (crc32cBit_lt (Nat.xor_lt_two_pow h hb))))))))

@[simp] theorem forced_eq {α : Type} (v : Nat) (f : Nat → α) : forced v f = f v := by cases v <;> rfl

/-- The CRC-32C register after a string is the fold of its bytes. -/
theorem crc32cGo_eq (b : Bytes) (c : Nat) : crc32cGo b c = b.foldl crc32cByte c := by
  induction b generalizing c with
  | nil => rfl
  | cons x t ih => simp [crc32cGo, ih]

/-- A CRC-32C has 32 bits. -/
theorem crc32c_lt (b : Bytes) : crc32c b < 2 ^ 32 := by
  have h : ∀ (l : Bytes) (c : Nat), c < 2 ^ 32 → crc32cGo l c < 2 ^ 32 := by
    intro l; induction l with
    | nil => exact fun _ h => h
    | cons x t ih => exact fun c h => by simpa [crc32cGo] using ih _ (crc32cByte_lt x h)
  exact Nat.xor_lt_two_pow (h b _ (by decide)) (by decide)

/-- A 32-bit number written as four bytes reads as itself. -/
theorem u32_toLe (v : Nat) (h : v < 2 ^ 32) : u32 (toLe 4 v) 0 = v := by
  simp only [u32, le, byteAt_toLe 4 v 0 (by omega), byteAt_toLe 4 v 1 (by omega), byteAt_toLe 4 v 2 (by omega), byteAt_toLe 4 v 3 (by omega)]
  omega

end Sys2Proof.Machine
end

