-- ==== Sys2Proof/Laws/Command.lean ====
section
/-! SUPPORT. One lemma for each command, that exec runs its meaning, and what the shared steps of packets, records, management requests and ring commands do
when they go through. -/

set_option linter.all false

namespace Sys2Proof.Machine


theorem exec_tickBoundary (k : Nat) (env : BoundaryEnv) (s : State) : exec (.tickBoundary k env) s = execTickBoundary k env s := rfl
theorem exec_tickPacket (link : Fin 24) (pkt : Bytes) (s : State) : exec (.tickPacket link pkt) s = execTickPacket link pkt s := rfl
theorem exec_reply (link : Fin 24) (pkt : Bytes) (s : State) : exec (.reply link pkt) s = execReply link pkt s := rfl
theorem exec_childReplyTimeout (link : Fin 24) (s : State) : exec (.childReplyTimeout link) s = execChildReplyTimeout link s := rfl
theorem exec_silence (link : Fin 24) (pkt : Bytes) (s : State) : exec (.silence link pkt) s = execSilence link pkt s := rfl
theorem exec_presenceNotice (link : Fin 24) (pkt : Bytes) (s : State) : exec (.presenceNotice link pkt) s = execPresenceNotice link pkt s := rfl
theorem exec_tstate (link : Fin 24) (pkt : Bytes) (s : State) : exec (.tstate link pkt) s = execTstate link pkt s := rfl
theorem exec_deputyTakeover (s : State) : exec .deputyTakeover s = execDeputyTakeover s := rfl
theorem exec_tsync (link : Fin 24) (pkt : Bytes) (arrival sent : Int) (s : State) : exec (.tsync link pkt arrival sent) s = execTsync link pkt arrival sent s := rfl
theorem exec_offsetMeasure (sent : Int) (s : State) : exec (.offsetMeasure sent) s = execOffsetMeasure sent s := rfl
theorem exec_adriftLimit (s : State) : exec .adriftLimit s = execAdriftLimit s := rfl
theorem exec_voteNotice (link : Fin 24) (pkt : Bytes) (s : State) : exec (.voteNotice link pkt) s = execVoteNotice link pkt s := rfl
theorem exec_voteDeadline (c : Fin 16) (s : State) : exec (.voteDeadline c) s = execVoteDeadline c s := rfl
theorem exec_firstFrameCopyDone (c : Fin 16) (s : State) : exec (.firstFrameCopyDone c) s = execFirstFrameCopyDone c s := rfl
theorem exec_commitDeadline (c : Fin 16) (s : State) : exec (.commitDeadline c) s = execCommitDeadline c s := rfl
theorem exec_restoreCopyDone (c : Fin 16) (bad : Bool) (s : State) : exec (.restoreCopyDone c bad) s = execRestoreCopyDone c bad s := rfl
theorem exec_swapPageSent (c : Fin 16) (slot layer idx : Nat) (errs : ReadErrs) (s : State) : exec (.swapPageSent c slot layer idx errs) s = execSwapPageSent c slot layer idx errs s := rfl
theorem exec_swapInPage (c : Fin 16) (slot layer idx : Nat) (page : Bytes) (s : State) : exec (.swapInPage c slot layer idx page) s = execSwapInPage c slot layer idx page s := rfl
theorem exec_stackTempSample (readings : List Nat) (now : Nat) (s : State) : exec (.stackTempSample readings now) s = execStackTempSample readings now s := rfl
theorem exec_permuteLimit (c : Fin 16) (s : State) : exec (.permuteLimit c) s = execPermuteLimit c s := rfl
theorem exec_failoverStreamComplete (c : Fin 16) (s : State) : exec (.failoverStreamComplete c) s = execFailoverStreamComplete c s := rfl
theorem exec_deathDeclared (addr : Nat) (s : State) : exec (.deathDeclared addr) s = execDeathDeclared addr s := rfl
theorem exec_matmul (u : Fin 256) (rec : Bytes) (env : RunEnv) (s : State) : exec (.matmul u rec env) s = execMatmul u rec env s := rfl
theorem exec_elementwiseChain (u : Fin 256) (rec : Bytes) (env : RunEnv) (s : State) : exec (.elementwiseChain u rec env) s = execElementwiseChain u rec env s := rfl
theorem exec_reductionSum (u : Fin 256) (rec : Bytes) (env : RunEnv) (s : State) : exec (.reductionSum u rec env) s = execReductionSum u rec env s := rfl
theorem exec_reductionMax (u : Fin 256) (rec : Bytes) (env : RunEnv) (s : State) : exec (.reductionMax u rec env) s = execReductionMax u rec env s := rfl
theorem exec_reductionMin (u : Fin 256) (rec : Bytes) (env : RunEnv) (s : State) : exec (.reductionMin u rec env) s = execReductionMin u rec env s := rfl
theorem exec_reductionSumsq (u : Fin 256) (rec : Bytes) (env : RunEnv) (s : State) : exec (.reductionSumsq u rec env) s = execReductionSumsq u rec env s := rfl
theorem exec_reductionMean (u : Fin 256) (rec : Bytes) (env : RunEnv) (s : State) : exec (.reductionMean u rec env) s = execReductionMean u rec env s := rfl
theorem exec_softmax (u : Fin 256) (rec : Bytes) (env : RunEnv) (s : State) : exec (.softmax u rec env) s = execSoftmax u rec env s := rfl
theorem exec_logSoftmax (u : Fin 256) (rec : Bytes) (env : RunEnv) (s : State) : exec (.logSoftmax u rec env) s = execLogSoftmax u rec env s := rfl
theorem exec_layerNorm (u : Fin 256) (rec : Bytes) (env : RunEnv) (s : State) : exec (.layerNorm u rec env) s = execLayerNorm u rec env s := rfl
theorem exec_rmsNorm (u : Fin 256) (rec : Bytes) (env : RunEnv) (s : State) : exec (.rmsNorm u rec env) s = execRmsNorm u rec env s := rfl
theorem exec_relayout (u : Fin 256) (rec : Bytes) (env : RunEnv) (s : State) : exec (.relayout u rec env) s = execRelayout u rec env s := rfl
theorem exec_gather (u : Fin 256) (rec : Bytes) (env : RunEnv) (s : State) : exec (.gather u rec env) s = execGather u rec env s := rfl
theorem exec_scatter (u : Fin 256) (rec : Bytes) (env : RunEnv) (s : State) : exec (.scatter u rec env) s = execScatter u rec env s := rfl
theorem exec_scatterAdd (u : Fin 256) (rec : Bytes) (env : RunEnv) (s : State) : exec (.scatterAdd u rec env) s = execScatterAdd u rec env s := rfl
theorem exec_quantise (u : Fin 256) (rec : Bytes) (env : RunEnv) (s : State) : exec (.quantise u rec env) s = execQuantise u rec env s := rfl
theorem exec_dequantise (u : Fin 256) (rec : Bytes) (env : RunEnv) (s : State) : exec (.dequantise u rec env) s = execDequantise u rec env s := rfl
theorem exec_send (u : Fin 256) (rec : Bytes) (env : RunEnv) (s : State) : exec (.send u rec env) s = execSend u rec env s := rfl
theorem exec_receiveCopy (u : Fin 256) (rec : Bytes) (env : RunEnv) (s : State) : exec (.receiveCopy u rec env) s = execReceiveCopy u rec env s := rfl
theorem exec_receiveAdd (u : Fin 256) (rec : Bytes) (env : RunEnv) (s : State) : exec (.receiveAdd u rec env) s = execReceiveAdd u rec env s := rfl
theorem exec_receiveMax (u : Fin 256) (rec : Bytes) (env : RunEnv) (s : State) : exec (.receiveMax u rec env) s = execReceiveMax u rec env s := rfl
theorem exec_dmaMove (w : Fin 16) (rec : Bytes) (env : RunEnv) (s : State) : exec (.dmaMove w rec env) s = execDmaMove w rec env s := rfl
theorem exec_nextVariantMove (w : Fin 16) (rec : Bytes) (env : RunEnv) (s : State) : exec (.nextVariantMove w rec env) s = execNextVariantMove w rec env s := rfl
theorem exec_boltWait (u : Fin 288) (rec : Bytes) (late : Bool) (s : State) : exec (.boltWait u rec late) s = execBoltWait u rec late s := rfl
theorem exec_boltAdd (u : Fin 288) (rec : Bytes) (late : Bool) (s : State) : exec (.boltAdd u rec late) s = execBoltAdd u rec late s := rfl
theorem exec_boltSet (u : Fin 288) (rec : Bytes) (late : Bool) (s : State) : exec (.boltSet u rec late) s = execBoltSet u rec late s := rfl
theorem exec_boltWaitTimeout (u : Fin 288) (s : State) : exec (.boltWaitTimeout u) s = execBoltWaitTimeout u s := rfl
theorem exec_checkerExport (u : Fin 256) (rec : Bytes) (env : RunEnv) (s : State) : exec (.checkerExport u rec env) s = execCheckerExport u rec env s := rfl
theorem exec_checkerCompare (u : Fin 256) (rec : Bytes) (env : RunEnv) (s : State) : exec (.checkerCompare u rec env) s = execCheckerCompare u rec env s := rfl
theorem exec_convolution (u : Fin 256) (rec : Bytes) (env : RunEnv) (s : State) : exec (.convolution u rec env) s = execConvolution u rec env s := rfl
theorem exec_maxPool (u : Fin 256) (rec : Bytes) (env : RunEnv) (s : State) : exec (.maxPool u rec env) s = execMaxPool u rec env s := rfl
theorem exec_averagePool (u : Fin 256) (rec : Bytes) (env : RunEnv) (s : State) : exec (.averagePool u rec env) s = execAveragePool u rec env s := rfl
theorem exec_bilinearResize (u : Fin 256) (rec : Bytes) (env : RunEnv) (s : State) : exec (.bilinearResize u rec env) s = execBilinearResize u rec env s := rfl
theorem exec_nearestResize (u : Fin 256) (rec : Bytes) (env : RunEnv) (s : State) : exec (.nearestResize u rec env) s = execNearestResize u rec env s := rfl
theorem exec_attentionFwd (u : Fin 256) (rec : Bytes) (env : RunEnv) (s : State) : exec (.attentionFwd u rec env) s = execAttentionFwd u rec env s := rfl
theorem exec_attentionBwd (u : Fin 256) (rec : Bytes) (env : RunEnv) (s : State) : exec (.attentionBwd u rec env) s = execAttentionBwd u rec env s := rfl
theorem exec_attentionAppend (u : Fin 256) (rec : Bytes) (env : RunEnv) (s : State) : exec (.attentionAppend u rec env) s = execAttentionAppend u rec env s := rfl
theorem exec_attentionMerge (u : Fin 256) (rec : Bytes) (env : RunEnv) (s : State) : exec (.attentionMerge u rec env) s = execAttentionMerge u rec env s := rfl
theorem exec_elem (w : Fin 16) (rec : Bytes) (env : RunEnv) (s : State) : exec (.elem w rec env) s = execElem w rec env s := rfl
theorem exec_norm (w : Fin 16) (rec : Bytes) (env : RunEnv) (s : State) : exec (.norm w rec env) s = execNorm w rec env s := rfl
theorem exec_fuse (w : Fin 16) (rec : Bytes) (env : RunEnv) (s : State) : exec (.fuse w rec env) s = execFuse w rec env s := rfl
theorem exec_scale (w : Fin 16) (rec : Bytes) (env : RunEnv) (s : State) : exec (.scale w rec env) s = execScale w rec env s := rfl
theorem exec_carry (w : Fin 16) (rec : Bytes) (env : RunEnv) (s : State) : exec (.carry w rec env) s = execCarry w rec env s := rfl
theorem exec_ortho (w : Fin 16) (rec : Bytes) (env : RunEnv) (s : State) : exec (.ortho w rec env) s = execOrtho w rec env s := rfl
theorem exec_kstat (w : Fin 16) (rec : Bytes) (env : RunEnv) (s : State) : exec (.kstat w rec env) s = execKstat w rec env s := rfl
theorem exec_kroot (w : Fin 16) (rec : Bytes) (env : RunEnv) (s : State) : exec (.kroot w rec env) s = execKroot w rec env s := rfl
theorem exec_kapply (w : Fin 16) (rec : Bytes) (env : RunEnv) (s : State) : exec (.kapply w rec env) s = execKapply w rec env s := rfl
theorem exec_variant (w : Fin 16) (rec : Bytes) (env : RunEnv) (s : State) : exec (.variant w rec env) s = execVariant w rec env s := rfl
theorem exec_recordRetire (u : Fin 288) (tc : Nat) (s : State) : exec (.recordRetire u tc) s = execRecordRetire u tc s := rfl
theorem exec_reservationStart (link : Fin 24) (c : Fin 16) (idx : Nat) (s : State) : exec (.reservationStart link c idx) s = execReservationStart link c idx s := rfl
theorem exec_reservationEnd (link : Fin 24) (c : Fin 16) (tx : Bool) (idx : Nat) (s : State) : exec (.reservationEnd link c tx idx) s = execReservationEnd link c tx idx s := rfl
theorem exec_mirrorAck (link : Fin 24) (pkt : Bytes) (s : State) : exec (.mirrorAck link pkt) s = execMirrorAck link pkt s := rfl
theorem exec_mirrorAckTimeout (c : Fin 16) (pair : Nat) (s : State) : exec (.mirrorAckTimeout c pair) s = execMirrorAckTimeout c pair s := rfl
theorem exec_sched (link : Fin 24) (pkt : Bytes) (s : State) : exec (.sched link pkt) s = execSched link pkt s := rfl
theorem exec_packetForward (link : Fin 24) (pkt : Bytes) (s : State) : exec (.packetForward link pkt) s = execPacketForward link pkt s := rfl
theorem exec_packetAged (idx : Nat) (s : State) : exec (.packetAged idx) s = execPacketAged idx s := rfl
theorem exec_credit (link : Fin 24) (pkt : Bytes) (s : State) : exec (.credit link pkt) s = execCredit link pkt s := rfl
theorem exec_hello (link : Fin 24) (pkt : Bytes) (s : State) : exec (.hello link pkt) s = execHello link pkt s := rfl
theorem exec_helloTimer (s : State) : exec .helloTimer s = execHelloTimer s := rfl
theorem exec_write (link : Fin 24) (pkt : Bytes) (s : State) : exec (.write link pkt) s = execWrite link pkt s := rfl
theorem exec_read (link : Fin 24) (pkt : Bytes) (errs : ReadErrs) (s : State) : exec (.read link pkt errs) s = execRead link pkt errs s := rfl
theorem exec_readData (link : Fin 24) (pkt : Bytes) (s : State) : exec (.readData link pkt) s = execReadData link pkt s := rfl
theorem exec_ack (link : Fin 24) (pkt : Bytes) (errs : ReadErrs) (s : State) : exec (.ack link pkt errs) s = execAck link pkt errs s := rfl
theorem exec_error (link : Fin 24) (pkt : Bytes) (s : State) : exec (.error link pkt) s = execError link pkt s := rfl
theorem exec_requestTimeout (seq : Nat) (s : State) : exec (.requestTimeout seq) s = execRequestTimeout seq s := rfl
theorem exec_probe (link : Fin 24) (pkt : Bytes) (now : Nat) (s : State) : exec (.probe link pkt now) s = execProbe link pkt now s := rfl
theorem exec_assign (link : Fin 24) (pkt : Bytes) (now : Nat) (s : State) : exec (.assign link pkt now) s = execAssign link pkt now s := rfl
theorem exec_neighbours (link : Fin 24) (pkt : Bytes) (now : Nat) (s : State) : exec (.neighbours link pkt now) s = execNeighbours link pkt now s := rfl
theorem exec_tableWrite (link : Fin 24) (pkt : Bytes) (now : Nat) (s : State) : exec (.tableWrite link pkt now) s = execTableWrite link pkt now s := rfl
theorem exec_tableSeal (link : Fin 24) (pkt : Bytes) (now : Nat) (s : State) : exec (.tableSeal link pkt now) s = execTableSeal link pkt now s := rfl
theorem exec_fmRegWrite (link : Fin 24) (pkt : Bytes) (now : Nat) (s : State) : exec (.fmRegWrite link pkt now) s = execFmRegWrite link pkt now s := rfl
theorem exec_fmRegRead (link : Fin 24) (pkt : Bytes) (now : Nat) (s : State) : exec (.fmRegRead link pkt now) s = execFmRegRead link pkt now s := rfl
theorem exec_tickStart (link : Fin 24) (pkt : Bytes) (now : Nat) (s : State) : exec (.tickStart link pkt now) s = execTickStart link pkt now s := rfl
theorem exec_resume (link : Fin 24) (pkt : Bytes) (now : Nat) (s : State) : exec (.resume link pkt now) s = execResume link pkt now s := rfl
theorem exec_fmReset (link : Fin 24) (pkt : Bytes) (now : Nat) (s : State) : exec (.fmReset link pkt now) s = execFmReset link pkt now s := rfl
theorem exec_linkTrainingDone (link : Fin 24) (failure : Nat) (delay16 : Nat) (sent : Int) (s : State) : exec (.linkTrainingDone link failure delay16 sent) s = execLinkTrainingDone link failure delay16 sent s := rfl
theorem exec_linkDown (link : Fin 24) (s : State) : exec (.linkDown link) s = execLinkDown link s := rfl
theorem exec_codewordUncorrectable (link : Fin 24) (s : State) : exec (.codewordUncorrectable link) s = execCodewordUncorrectable link s := rfl
theorem exec_fabPermAtWrite (c : Fin 16) (v : W32) (s : State) : exec (.fabPermAtWrite c v) s = execFabPermAtWrite c v s := rfl
theorem exec_key (c : Fin 16) (s : State) : exec (.key c) s = execKey c s := rfl
theorem exec_release (c : Fin 16) (s : State) : exec (.release c) s = execRelease c s := rfl
theorem exec_zeroingComplete (c : Fin 16) (s : State) : exec (.zeroingComplete c) s = execZeroingComplete c s := rfl
theorem exec_ctxSelectHiWrite (v : W32) (s : State) : exec (.ctxSelectHiWrite v) s = execCtxSelectHiWrite v s := rfl
theorem exec_ctxBoltValWrite (v : W32) (s : State) : exec (.ctxBoltValWrite v) s = execCtxBoltValWrite v s := rfl
theorem exec_ctxBoltAddWrite (v : W32) (s : State) : exec (.ctxBoltAddWrite v) s = execCtxBoltAddWrite v s := rfl
theorem exec_hspEvictWrite (v : W32) (s : State) : exec (.hspEvictWrite v) s = execHspEvictWrite v s := rfl
theorem exec_hspFoVersionWrite (v : W32) (s : State) : exec (.hspFoVersionWrite v) s = execHspFoVersionWrite v s := rfl
theorem exec_enrol (s : State) : exec .enrol s = execEnrol s := rfl
theorem exec_permanenceNotice (link : Fin 24) (pkt : Bytes) (s : State) : exec (.permanenceNotice link pkt) s = execPermanenceNotice link pkt s := rfl
theorem exec_sweepComplete (u : Fin 256) (pass : Bool) (s : State) : exec (.sweepComplete u pass) s = execSweepComplete u pass s := rfl
theorem exec_unitClassHourly (now : Nat) (s : State) : exec (.unitClassHourly now) s = execUnitClassHourly now s := rfl
theorem exec_historyCompact (s : State) : exec .historyCompact s = execHistoryCompact s := rfl
theorem exec_recordIngest (c : Fin 16) (scans : List HeaderScan) (flashBad : Bool) (s : State) : exec (.recordIngest c scans flashBad) s = execRecordIngest c scans flashBad s := rfl
theorem exec_recordDecoded (c : Fin 16) (ok : Bool) (items : List ItemSource) (ns : Nat) (s : State) : exec (.recordDecoded c ok items ns) s = execRecordDecoded c ok items ns s := rfl
theorem exec_batchDeadline (c : Fin 16) (s : State) : exec (.batchDeadline c) s = execBatchDeadline c s := rfl
theorem exec_adapterTransferDone (c : Fin 16) (v : Nat) (fill : Bool) (s : State) : exec (.adapterTransferDone c v fill) s = execAdapterTransferDone c v fill s := rfl
theorem exec_pictureDecoded (e : Fin 4) (own : Nat) (refs : List (Nat × Nat)) (out : List (Nat × RawPic)) (ns : Nat) (s : State) : exec (.pictureDecoded e own refs out ns) s = execPictureDecoded e own refs out ns s := rfl
theorem exec_decodeTimeout (e : Fin 4) (ns : Nat) (s : State) : exec (.decodeTimeout e ns) s = execDecodeTimeout e ns s := rfl
theorem exec_livePictureLate (st : Fin 64) (s : State) : exec (.livePictureLate st) s = execLivePictureLate st s := rfl
theorem exec_liveStreamEnable (st : Fin 64) (v : W32) (s : State) : exec (.liveStreamEnable st v) s = execLiveStreamEnable st v s := rfl
theorem exec_archiveEncodeDone (unit : Bytes) (s : State) : exec (.archiveEncodeDone unit) s = execArchiveEncodeDone unit s := rfl
theorem exec_mediaFwSwitchDone (s : State) : exec .mediaFwSwitchDone s = execMediaFwSwitchDone s := rfl
theorem exec_nandProgramDone (block : Nat) (dieFail : Bool) (s : State) : exec (.nandProgramDone block dieFail) s = execNandProgramDone block dieFail s := rfl
theorem exec_readDisturbRelocate (block : Nat) (s : State) : exec (.readDisturbRelocate block) s = execReadDisturbRelocate block s := rfl
theorem exec_scrubRead (row : Nat) (errs : List MemErr) (s : State) : exec (.scrubRead row errs) s = execScrubRead row errs s := rfl
theorem exec_rowRemap (row : Nat) (bad : Bool) (s : State) : exec (.rowRemap row bad) s = execRowRemap row bad s := rfl
theorem exec_ringPoll (fn : Fin 17) (words : RingWords) (pkts : List RingPacket) (s : State) : exec (.ringPoll fn words pkts) s = execRingPoll fn words pkts s := rfl
theorem exec_nop (fn : Fin 17) (cmd : HostCmd) (s : State) : exec (.nop fn cmd) s = execNop fn cmd s := rfl
theorem exec_fmCmd (fn : Fin 17) (cmd : HostCmd) (s : State) : exec (.fmCmd fn cmd) s = execFmCmd fn cmd s := rfl
theorem exec_tokLoad (fn : Fin 17) (cmd : HostCmd) (s : State) : exec (.tokLoad fn cmd) s = execTokLoad fn cmd s := rfl
theorem exec_flashWrite (fn : Fin 17) (cmd : HostCmd) (s : State) : exec (.flashWrite fn cmd) s = execFlashWrite fn cmd s := rfl
theorem exec_flashRead (fn : Fin 17) (cmd : HostCmd) (bad : Bool) (s : State) : exec (.flashRead fn cmd bad) s = execFlashRead fn cmd bad s := rfl
theorem exec_flashTrim (fn : Fin 17) (cmd : HostCmd) (s : State) : exec (.flashTrim fn cmd) s = execFlashTrim fn cmd s := rfl
theorem exec_flashFlush (fn : Fin 17) (cmd : HostCmd) (s : State) : exec (.flashFlush fn cmd) s = execFlashFlush fn cmd s := rfl
theorem exec_flashFormat (fn : Fin 17) (cmd : HostCmd) (s : State) : exec (.flashFormat fn cmd) s = execFlashFormat fn cmd s := rfl
theorem exec_planLoad (fn : Fin 17) (cmd : HostCmd) (s : State) : exec (.planLoad fn cmd) s = execPlanLoad fn cmd s := rfl
theorem exec_planStart (fn : Fin 17) (cmd : HostCmd) (s : State) : exec (.planStart fn cmd) s = execPlanStart fn cmd s := rfl
theorem exec_planUnload (fn : Fin 17) (cmd : HostCmd) (s : State) : exec (.planUnload fn cmd) s = execPlanUnload fn cmd s := rfl
theorem exec_waitEpoch (fn : Fin 17) (cmd : HostCmd) (s : State) : exec (.waitEpoch fn cmd) s = execWaitEpoch fn cmd s := rfl
theorem exec_stateRead (fn : Fin 17) (cmd : HostCmd) (errs : ReadErrs) (s : State) : exec (.stateRead fn cmd errs) s = execStateRead fn cmd errs s := rfl
theorem exec_stateWrite (fn : Fin 17) (cmd : HostCmd) (s : State) : exec (.stateWrite fn cmd) s = execStateWrite fn cmd s := rfl
theorem exec_ringBoltAdd (fn : Fin 17) (cmd : HostCmd) (s : State) : exec (.ringBoltAdd fn cmd) s = execRingBoltAdd fn cmd s := rfl
theorem exec_ringBoltSet (fn : Fin 17) (cmd : HostCmd) (s : State) : exec (.ringBoltSet fn cmd) s = execRingBoltSet fn cmd s := rfl
theorem exec_record (fn : Fin 17) (cmd : HostCmd) (scans : List HeaderScan) (s : State) : exec (.record fn cmd scans) s = execRecord fn cmd scans s := rfl
theorem exec_live (fn : Fin 17) (cmd : HostCmd) (width height : Nat) (supported rap rasl : Bool) (s : State) : exec (.live fn cmd width height supported rap rasl) s = execLive fn cmd width height supported rap rasl s := rfl
theorem exec_sensor (fn : Fin 17) (cmd : HostCmd) (first last : Bool) (s : State) : exec (.sensor fn cmd first last) s = execSensor fn cmd first last s := rfl
theorem exec_ringEnable (fn : Fin 17) (s : State) : exec (.ringEnable fn) s = execRingEnable fn s := rfl
theorem exec_ringDisable (fn : Fin 17) (s : State) : exec (.ringDisable fn) s = execRingDisable fn s := rfl
theorem exec_irqTimer (fn : Fin 17) (vec : Fin 2) (s : State) : exec (.irqTimer fn vec) s = execIrqTimer fn vec s := rfl
theorem exec_functionLevelReset (fn : Fin 17) (s : State) : exec (.functionLevelReset fn) s = execFunctionLevelReset fn s := rfl
theorem exec_perstAssert (s : State) : exec .perstAssert s = execPerstAssert s := rfl
theorem exec_d3hotEntry (fn : Fin 17) (s : State) : exec (.d3hotEntry fn) s = execD3hotEntry fn s := rfl
theorem exec_powerOn (s : State) : exec .powerOn s = execPowerOn s := rfl
theorem exec_resetNAssert (now : Nat) (s : State) : exec (.resetNAssert now) s = execResetNAssert now s := rfl
theorem exec_stretchExpiry (now : Nat) (pinHigh : Bool) (s : State) : exec (.stretchExpiry now pinHigh) s = execStretchExpiry now pinHigh s := rfl
theorem exec_resetHeld (s : State) : exec .resetHeld s = execResetHeld s := rfl
theorem exec_rstCmd (v : W32) (now : Nat) (s : State) : exec (.rstCmd v now) s = execRstCmd v now s := rfl
theorem exec_watchdogExpiry (now : Nat) (s : State) : exec (.watchdogExpiry now) s = execWatchdogExpiry now s := rfl
theorem exec_fatalEscalation (now : Nat) (s : State) : exec (.fatalEscalation now) s = execFatalEscalation now s := rfl
theorem exec_pllLockTimeout (now : Nat) (s : State) : exec (.pllLockTimeout now) s = execPllLockTimeout now s := rfl
theorem exec_bringupPhaseComplete (ok : Bool) (bad : List LpCopy) (s : State) : exec (.bringupPhaseComplete ok bad) s = execBringupPhaseComplete ok bad s := rfl
theorem exec_wardResetComplete (w : Fin 16) (s : State) : exec (.wardResetComplete w) s = execWardResetComplete w s := rfl
theorem exec_refclkFail (r : RefClk) (s : State) : exec (.refclkFail r) s = execRefclkFail r s := rfl
theorem exec_refclkRecover (r : RefClk) (s : State) : exec (.refclkRecover r) s = execRefclkRecover r s := rfl
theorem exec_clkSelect (v : W32) (s : State) : exec (.clkSelect v) s = execClkSelect v s := rfl
theorem exec_holdoverLimit (s : State) : exec .holdoverLimit s = execHoldoverLimit s := rfl
theorem exec_pcieRefclkFail (s : State) : exec .pcieRefclkFail s = execPcieRefclkFail s := rfl
theorem exec_pwrLadderWrite (v : W32) (s : State) : exec (.pwrLadderWrite v) s = execPwrLadderWrite v s := rfl
theorem exec_vinSample (mv : Nat) (now : Nat) (s : State) : exec (.vinSample mv now) s = execVinSample mv now s := rfl
theorem exec_supplyStageRecover (s : State) : exec .supplyStageRecover s = execSupplyStageRecover s := rfl
theorem exec_railTimeout (s : State) : exec .railTimeout s = execRailTimeout s := rfl
theorem exec_railUndervolt (now : Nat) (s : State) : exec (.railUndervolt now) s = execRailUndervolt now s := rfl
theorem exec_shedAssert (s : State) : exec .shedAssert s = execShedAssert s := rfl
theorem exec_shedRelease (s : State) : exec .shedRelease s = execShedRelease s := rfl
theorem exec_governorTick (measuredW fillW : Nat) (s : State) : exec (.governorTick measuredW fillW) s = execGovernorTick measuredW fillW s := rfl
theorem exec_dieTempSample (readings : List Nat) (now : Nat) (s : State) : exec (.dieTempSample readings now) s = execDieTempSample readings now s := rfl
theorem exec_setEndpointId (vdm : Bool) (eid : Nat) (s : State) : exec (.setEndpointId vdm eid) s = execSetEndpointId vdm eid s := rfl
theorem exec_getEndpointId (vdm : Bool) (s : State) : exec (.getEndpointId vdm) s = execGetEndpointId vdm s := rfl
theorem exec_getMctpVersionSupport (vdm : Bool) (msgType : Nat) (s : State) : exec (.getMctpVersionSupport vdm msgType) s = execGetMctpVersionSupport vdm msgType s := rfl
theorem exec_getMessageTypeSupport (vdm : Bool) (s : State) : exec (.getMessageTypeSupport vdm) s = execGetMessageTypeSupport vdm s := rfl
theorem exec_getVendorDefinedMessageSupport (vdm : Bool) (s : State) : exec (.getVendorDefinedMessageSupport vdm) s = execGetVendorDefinedMessageSupport vdm s := rfl
theorem exec_getVersion (s : State) : exec .getVersion s = execGetVersion s := rfl
theorem exec_getCapabilities (s : State) : exec .getCapabilities s = execGetCapabilities s := rfl
theorem exec_negotiateAlgorithms (dhe sign hash aead : Bool) (s : State) : exec (.negotiateAlgorithms dhe sign hash aead) s = execNegotiateAlgorithms dhe sign hash aead s := rfl
theorem exec_getDigests (s : State) : exec .getDigests s = execGetDigests s := rfl
theorem exec_getCertificate (slot offset len : Nat) (s : State) : exec (.getCertificate slot offset len) s = execGetCertificate slot offset len s := rfl
theorem exec_challenge (slot : Nat) (nonce : Bytes) (s : State) : exec (.challenge slot nonce) s = execChallenge slot nonce s := rfl
theorem exec_getMeasurements (idx : Nat) (s : State) : exec (.getMeasurements idx) s = execGetMeasurements idx s := rfl
theorem exec_keyExchange (reqId : Nat) (s : State) : exec (.keyExchange reqId) s = execKeyExchange reqId s := rfl
theorem exec_finish (sess : Nat) (hmacOk : Bool) (s : State) : exec (.finish sess hmacOk) s = execFinish sess hmacOk s := rfl
theorem exec_heartbeat (sess : Nat) (s : State) : exec (.heartbeat sess) s = execHeartbeat sess s := rfl
theorem exec_keyUpdate (sess : Nat) (s : State) : exec (.keyUpdate sess) s = execKeyUpdate sess s := rfl
theorem exec_endSession (sess : Nat) (s : State) : exec (.endSession sess) s = execEndSession sess s := rfl
theorem exec_getInfo (s : State) : exec .getInfo s = execGetInfo s := rfl
theorem exec_mgmtRegRead (off : Nat) (s : State) : exec (.mgmtRegRead off) s = execMgmtRegRead off s := rfl
theorem exec_mgmtRegWrite (sess : Option Nat) (off : Nat) (v : W32) (now : Nat) (s : State) : exec (.mgmtRegWrite sess off v now) s = execMgmtRegWrite sess off v now s := rfl
theorem exec_ladder (sess : Option Nat) (rung : Nat) (s : State) : exec (.ladder sess rung) s = execLadder sess rung s := rfl
theorem exec_mgmtReset (sess : Option Nat) (scope : Nat) (now : Nat) (s : State) : exec (.mgmtReset sess scope now) s = execMgmtReset sess scope now s := rfl
theorem exec_unitRead (kind unit : Nat) (s : State) : exec (.unitRead kind unit) s = execUnitRead kind unit s := rfl
theorem exec_unitRequestFence (sess : Option Nat) (kind unit : Nat) (s : State) : exec (.unitRequestFence sess kind unit) s = execUnitRequestFence sess kind unit s := rfl
theorem exec_unitRequestRestore (sess : Option Nat) (kind unit : Nat) (s : State) : exec (.unitRequestRestore sess kind unit) s = execUnitRequestRestore sess kind unit s := rfl
theorem exec_unitRequestClearClass (sess : Option Nat) (kind unit : Nat) (s : State) : exec (.unitRequestClearClass sess kind unit) s = execUnitRequestClearClass sess kind unit s := rfl
theorem exec_histRead (firstSeq count : Nat) (s : State) : exec (.histRead firstSeq count) s = execHistRead firstSeq count s := rfl
theorem exec_setTime (sess : Option Nat) (seconds : Nat) (s : State) : exec (.setTime sess seconds) s = execSetTime sess seconds s := rfl
theorem exec_setFabricKey (sess : Option Nat) (fabKey : Bytes) (s : State) : exec (.setFabricKey sess fabKey) s = execSetFabricKey sess fabKey s := rfl
theorem exec_requestUpdate (sess : Option Nat) (component : Nat) (s : State) : exec (.requestUpdate sess component) s = execRequestUpdate sess component s := rfl
theorem exec_firmwareVerify (component : Nat) (image : Bytes) (pubKey : Bytes) (s : State) : exec (.firmwareVerify component image pubKey) s = execFirmwareVerify component image pubKey s := rfl
theorem exec_firmwareActivate (component : Nat) (s : State) : exec (.firmwareActivate component) s = execFirmwareActivate component s := rfl
theorem exec_mgmtRestartDone (s : State) : exec .mgmtRestartDone s = execMgmtRestartDone s := rfl
theorem exec_getPdr (sensor : Nat) (s : State) : exec (.getPdr sensor) s = execGetPdr sensor s := rfl
theorem exec_getSensorReading (sensor : Nat) (s : State) : exec (.getSensorReading sensor) s = execGetSensorReading sensor s := rfl
theorem exec_setEventReceiver (eid : Nat) (s : State) : exec (.setEventReceiver eid) s = execSetEventReceiver eid s := rfl
theorem exec_loWordRead (fn : Fin 17) (off : Nat) (size : Nat) (s : State) : exec (.loWordRead fn off size) s = execLoWordRead fn off size s := rfl
theorem exec_accSnapEpochRead (c : Fin 16) (s : State) : exec (.accSnapEpochRead c) s = execAccSnapEpochRead c s := rfl
theorem exec_pwrFcastTickLoRead (s : State) : exec .pwrFcastTickLoRead s = execPwrFcastTickLoRead s := rfl
theorem exec_registerWrite (fn : Fin 17) (off : Nat) (size : Nat) (v : Nat) (now : Nat) (s : State) : exec (.registerWrite fn off size v now) s = execRegisterWrite fn off size v now s := rfl
theorem exec_jtagBypass (instr : Nat) (s : State) : exec (.jtagBypass instr) s = execJtagBypass instr s := rfl
theorem exec_jtagIdcode (s : State) : exec .jtagIdcode s = execJtagIdcode s := rfl
theorem exec_jtagSamplePreload (s : State) : exec .jtagSamplePreload s = execJtagSamplePreload s := rfl
theorem exec_jtagExtest (lands : List Bool) (s : State) : exec (.jtagExtest lands) s = execJtagExtest lands s := rfl
theorem exec_resetNRelease (s : State) : exec .resetNRelease s = execResetNRelease s := rfl
theorem exec_perstRelease (s : State) : exec .perstRelease s = execPerstRelease s := rfl
theorem exec_rebuildComplete (group : Nat) (s : State) : exec (.rebuildComplete group) s = execRebuildComplete group s := rfl
theorem exec_linkHoldEnd (s : State) : exec .linkHoldEnd s = execLinkHoldEnd s := rfl
theorem exec_debugUnlock (sess : Option Nat) (s : State) : exec (.debugUnlock sess) s = execDebugUnlock sess s := rfl
theorem exec_unsupportedMessage (msgType code len : Nat) (s : State) : exec (.unsupportedMessage msgType code len) s = execUnsupportedMessage msgType code len s := rfl

/-- A packet whose header checks pass and whose generation stands is accepted; it is no longer under way on its link. -/
theorem accept_ok {s : State} {l : Nat} {b : Bytes} (h1 : s.linkTakes l b = true) (h2 : packetOk b = true)
    (h3 : (s.landed l (parsePacket b)).stale (parsePacket b) = false) : s.accept l b = (s.landed l (parsePacket b), some (parsePacket b)) := by
  unfold State.accept; simp [h1, h2, h3]

/-- On a link that is not up nothing is accepted. -/
theorem accept_down {s : State} {l : Nat} {b : Bytes} (h : s.linkTakes l b = false) : s.accept l b = (s, none) := by unfold State.accept; simp [h]

/-- A packet whose header checks fail is counted. -/
theorem accept_bad {s : State} {l : Nat} {b : Bytes} (h : s.linkTakes l b = true) (h2 : packetOk b = false) :
    s.accept l b = (s.count Reg.FAB_DROP_CRC, none) := by
  unfold State.accept; simp [h, h2]

/-- Arrival changes nothing but what the link has granted. -/
theorem landed_addr (s : State) (l : Nat) (p : Packet) : (s.landed l p).addr = s.addr := by
  unfold State.landed; split <;> rfl

/-- A packet that arrives for this device is taken by its command. -/
theorem takePacket_delivers {s : State} {l : Nat} {b : Bytes} {op : Nat} {p : Packet} (f : Packet → State → State) (h : Delivers s l b op p) :
    s.takePacket l b op f = f p (s.landed l p) := by
  obtain ⟨h1, h2, rfl, h4, h5, h6, h7⟩ := h
  unfold State.takePacket
  rw [accept_ok h1 h2 h4]
  simp only [h5, h7, landed_addr]
  rcases h6 with h | h | ⟨rfl, h⟩ <;> simp [h]

/-- A message of a command's own type is taken by it. -/
theorem takeMsg_delivers {s : State} {l : Nat} {b : Bytes} {ty : Nat} {p : Packet} (f : Bytes → State → State) (h : Delivers s l b 0x18 p)
    (ht : u16 p.payload 0 = ty) : s.takeMsg l b ty f = f p.payload (s.landed l p) := by
  unfold State.takeMsg
  rw [takePacket_delivers _ h]
  simp only [ht, if_true]

/-- On a link that is not up no packet is taken. -/
theorem takePacket_down {s : State} {l : Nat} {b : Bytes} {op : Nat} (f : Packet → State → State) (h : s.linkTakes l b = false) :
    s.takePacket l b op f = s := by
  unfold State.takePacket; rw [accept_down h]

/-- A packet whose header checks fail is counted, whatever command brings it. -/
theorem takePacket_bad {s : State} {l : Nat} {b : Bytes} {op : Nat} (f : Packet → State → State) (h : s.linkTakes l b = true) (h2 : packetOk b = false) :
    s.takePacket l b op f = s.count Reg.FAB_DROP_CRC := by
  unfold State.takePacket; rw [accept_bad h h2]

/-- A record that its unit admits runs. -/
theorem issueG_admits {u : Nat} {r : Bytes} {late l k : Bool} {rs : List Region} {go} {s : State} (h : Admits s u r l k rs) :
    issueG u r late l k rs go s = .next (go (recCtx r) (s.issued u r late)) := by
  obtain ⟨h1, h2, h3, h4, h5, h6, h7, h8, h9⟩ := h
  unfold issueG
  dsimp only
  rw [if_neg (by simp [h1, h2, h3]), if_neg (by simp [h4]), if_neg (by simp [h5, h6, h7]), if_neg (by simp only [h8, h9]; decide)]

/-- What an issue can do: nothing, a refusal of the record by an op fault, or its run. -/
theorem issueG_cases (u : Nat) (r : Bytes) (late l k : Bool) (rs : List Region) (go : Nat → State → State) (s : State) :
    ∃ t, issueG u r late l k rs go s = .next t ∧ (t = s ∨ t = (s.takeRecord u r).ctxClash (recCtx r) u r ∨
      t = (s.takeRecord u r).refuseRecord (recCtx r) u r 0x07 ∨ t = (s.takeRecord u r).refuseRecord (recCtx r) u r 0x08 ∨
      t = go (recCtx r) (s.issued u r late)) := by
  unfold issueG
  dsimp only
  split
  · exact ⟨_, rfl, .inl rfl⟩
  · refine ⟨_, rfl, ?_⟩
    repeat' split
    · exact .inr (.inl rfl)
    · exact .inr (.inr (.inl rfl))
    · exact .inr (.inr (.inr (.inl rfl)))
    · exact .inr (.inr (.inr (.inr rfl)))

/-- While the controller does not restart, a request is answered. -/
theorem answers_awake {s : State} {f : State → State} (h : s.mgmt.restarting = false) : s.answers f = .next (f s) := by simp [State.answers, h]

/-- While it restarts, nothing is. -/
theorem answers_restarting {s : State} {f : State → State} (h : s.mgmt.restarting = true) : s.answers f = .next s := by simp [State.answers, h]

/-- Inside a session a command marked S runs. -/
theorem secured_inSession {s : State} {q : Option Nat} {n : Nat} {f : State → State} (h : s.mgmt.restarting = false) (hq : s.inSession q = true) :
    s.secured q n f = .next (f s) := by simp [State.secured, State.answers, h, hq]

/-- Outside one it is answered with AUTH_FAIL. -/
theorem secured_outside {s : State} {q : Option Nat} {n : Nat} {f : State → State} (h : s.mgmt.restarting = false) (hq : s.inSession q = false) :
    s.secured q n f = .next { s with out := s.out ++ [.mgmt n 6 []] } := by simp [State.secured, State.answers, h, hq]; rfl

/-- A ring command that begins on a function with a context runs for it. -/
theorem vfCmd_begins {s u : State} {fn op c : Nat} {cmd : HostCmd} {f : Nat → State → State} (h : s.takeCmd fn op cmd = some u) (hc : u.fnCtx fn = some c) :
    s.vfCmd fn op cmd f = .next (f c u) := by simp [State.vfCmd, h, hc]

/-- One with no context behind it is malformed. -/
theorem vfCmd_noCtx {s u : State} {fn op : Nat} {cmd : HostCmd} {f : Nat → State → State} (h : s.takeCmd fn op cmd = some u) (hc : u.fnCtx fn = none) :
    s.vfCmd fn op cmd f = .next (u.complete fn op cmd 7) := by simp [State.vfCmd, h, hc]

/-- A command of the admin ring that begins runs. -/
theorem adminCmd_begins {s u : State} {op : Nat} {cmd : HostCmd} {f : State → State} (h : s.takeCmd 0 op cmd = some u) :
    s.adminCmd 0 op cmd f = .next (f u) := by simp [State.adminCmd, h]

/-- On another function it is malformed. -/
theorem adminCmd_other {s u : State} {fn op : Nat} {cmd : HostCmd} {f : State → State} (h : s.takeCmd fn op cmd = some u) (hn : fn ≠ 0) :
    s.adminCmd fn op cmd f = .next (u.complete fn op cmd 7) := by simp [State.adminCmd, h, hn]

end Sys2Proof.Machine
end

