-- ==== Sys2Proof/Laws/Table.lean ====
section
/-! SUPPORT. Tables and memories: what reading after writing gives, and that every memory operation keeps the canonical form. -/

namespace Sys2Proof.Machine

variable {α : Type} {d : Nat → α}

@[simp] theorem tget_nil (n : Nat) : tget d [] n = d n := rfl

theorem tget_cons (k n : Nat) (v : α) (t : Tbl α) : tget d ((k, v) :: t) n = if n = k then v else tget d t n := rfl

/-- Reading what was put. -/
@[simp] theorem tget_tput_self (t : Tbl α) (n : Nat) (v : α) : tget d (tput t n v) n = v := by
  induction t with
  | nil => simp [tput, tget]
  | cons p t ih =>
    obtain ⟨k, w⟩ := p
    simp only [tput]
    split
    · simp [tget]
    · split
      · simp [tget]
      · rename_i h _; simp [tget, h, ih]

/-- Putting leaves every other number alone. -/
theorem tget_tput_ne (t : Tbl α) {n m : Nat} (v : α) (h : m ≠ n) : tget d (tput t n v) m = tget d t m := by
  induction t with
  | nil => simp [tput, tget, h]
  | cons p t ih =>
    obtain ⟨k, w⟩ := p
    simp only [tput]
    split
    · rename_i e; subst e; simp [tget, h]
    · split
      · simp [tget, h]
      · simp only [tget, ih]

theorem tget_tput (t : Tbl α) (n m : Nat) (v : α) : tget d (tput t n v) m = if m = n then v else tget d t m := by
  split
  · rename_i h; subst h; exact tget_tput_self t _ v
  · rename_i h; exact tget_tput_ne t v h

theorem tdel_cons_self (t : Tbl α) (n : Nat) (v : α) : tdel ((n, v) :: t) n = tdel t n := by simp [tdel]

theorem tdel_cons_ne (t : Tbl α) {k n : Nat} (v : α) (h : k ≠ n) : tdel ((k, v) :: t) n = (k, v) :: tdel t n := by simp [tdel, h]

theorem tget_tdel_self (t : Tbl α) (n : Nat) : tget d (tdel t n) n = d n := by
  induction t with
  | nil => rfl
  | cons p t ih =>
    obtain ⟨k, w⟩ := p
    by_cases h : k = n
    · subst h; rw [tdel_cons_self]; exact ih
    · rw [tdel_cons_ne _ _ h, tget_cons, if_neg (fun e => h e.symm)]; exact ih

theorem tget_tdel_ne (t : Tbl α) {n m : Nat} (h : m ≠ n) : tget d (tdel t n) m = tget d t m := by
  induction t with
  | nil => rfl
  | cons p t ih =>
    obtain ⟨k, w⟩ := p
    by_cases e : k = n
    · subst e; rw [tdel_cons_self, tget_cons, if_neg h]; exact ih
    · rw [tdel_cons_ne _ _ e, tget_cons, tget_cons, ih]

theorem tget_tset [DecidableEq α] (t : Tbl α) (n m : Nat) (v : α) : tget d (tset d t n v) m = if m = n then v else tget d t m := by
  unfold tset
  split
  · rename_i e
    by_cases h : m = n
    · subst h; simp [tget_tdel_self, e]
    · simp [tget_tdel_ne t h, h]
  · exact tget_tput t n m v

/-! The canonical form. -/

theorem mem_tput {t : Tbl α} {n : Nat} {v : α} {p : Nat × α} (h : p ∈ tput t n v) : p = (n, v) ∨ p ∈ t := by
  induction t with
  | nil => simpa [tput] using h
  | cons q t ih =>
    obtain ⟨k, w⟩ := q
    simp only [tput] at h
    split at h
    · rcases List.mem_cons.mp h with h | h
      · exact .inl h
      · exact .inr (List.mem_cons_of_mem _ h)
    · split at h
      · rcases List.mem_cons.mp h with h | h
        · exact .inl h
        · exact .inr h
      · rcases List.mem_cons.mp h with h | h
        · exact .inr (h ▸ List.mem_cons_self ..)
        · rcases ih h with h | h
          · exact .inl h
          · exact .inr (List.mem_cons_of_mem _ h)

theorem tsorted_cons {k : Nat} {v : α} {t : Tbl α} : tsorted ((k, v) :: t) = true ↔ (∀ p ∈ t, k < p.1) ∧ tsorted t = true := by
  simp [tsorted]

theorem tsorted_tput {t : Tbl α} (n : Nat) (v : α) (h : tsorted t = true) : tsorted (tput t n v) = true := by
  induction t with
  | nil => rfl
  | cons q t ih =>
    obtain ⟨k, w⟩ := q
    obtain ⟨hk, ht⟩ := tsorted_cons.mp h
    simp only [tput]
    split
    · rename_i e; subst e; exact tsorted_cons.mpr ⟨hk, ht⟩
    · split
      · rename_i l
        refine tsorted_cons.mpr ⟨fun p hp => ?_, h⟩
        rcases List.mem_cons.mp hp with e | e
        · exact e ▸ l
        · exact Nat.lt_trans l (hk p e)
      · refine tsorted_cons.mpr ⟨fun p hp => ?_, ih ht⟩
        rcases mem_tput hp with e | e
        · subst e; show k < n; omega
        · exact hk p e

theorem tsorted_filter {t : Tbl α} (f : Nat × α → Bool) (h : tsorted t = true) : tsorted (t.filter f) = true := by
  induction t with
  | nil => rfl
  | cons q t ih =>
    obtain ⟨k, w⟩ := q
    obtain ⟨hk, ht⟩ := tsorted_cons.mp h
    simp only [List.filter]
    split
    · exact tsorted_cons.mpr ⟨fun p hp => hk p (List.mem_of_mem_filter hp), ih ht⟩
    · exact ih ht

theorem twf_iff [DecidableEq α] {t : Tbl α} : twf d t = true ↔ tsorted t = true ∧ ∀ p ∈ t, p.2 ≠ d p.1 := by
  simp [twf]

theorem twf_filter [DecidableEq α] {t : Tbl α} (f : Nat × α → Bool) (h : twf d t = true) : twf d (t.filter f) = true := by
  obtain ⟨hs, hd⟩ := twf_iff.mp h
  exact twf_iff.mpr ⟨tsorted_filter f hs, fun p hp => hd p (List.mem_of_mem_filter hp)⟩

theorem twf_tset [DecidableEq α] {t : Tbl α} (n : Nat) (v : α) (h : twf d t = true) : twf d (tset d t n v) = true := by
  unfold tset
  split
  · exact twf_filter _ h
  · rename_i e
    obtain ⟨hs, hd⟩ := twf_iff.mp h
    refine twf_iff.mpr ⟨tsorted_tput n v hs, fun p hp => ?_⟩
    rcases mem_tput hp with q | q
    · subst q; exact e
    · exact hd p q

/-! Memories. -/

@[simp] theorem Memory_wf_nil : Memory.wf [] = true := rfl

/-- Writing one byte keeps the canonical form. -/
theorem wf_mset {m : Mem} (a : Nat) (v : Byte) (h : Memory.wf m = true) : Memory.wf (mset m a v) = true := twf_tset a v h

/-- Writing a byte string keeps the canonical form. -/
theorem wf_mwrite {m : Mem} (a : Nat) (b : Bytes) (h : Memory.wf m = true) : Memory.wf (mwrite m a b) = true := by
  induction b generalizing m a with
  | nil => exact h
  | cons x b ih => exact ih (a + 1) (wf_mset a x h)

/-- Zeroing keeps the canonical form. -/
theorem wf_mzero {m : Mem} (a n : Nat) (h : Memory.wf m = true) : Memory.wf (mzero m a n) = true := twf_filter _ h

/-- What reads after one byte is written. -/
theorem mget_mset (m : Mem) (a b : Nat) (v : Byte) : mget (mset m a v) b = if b = a then v else mget m b := tget_tset m a b v

/-- Below the bytes written, memory reads as before. -/
theorem mget_mwrite_below (m : Mem) (a c : Nat) (b : Bytes) (h : c < a) : mget (mwrite m a b) c = mget m c := by
  induction b generalizing m a with
  | nil => rfl
  | cons x b ih =>
    rw [mwrite, ih _ _ (by omega), mget_mset, if_neg (by omega)]

/-- What reads after a byte string is written: its byte inside, what was there outside. -/
theorem mget_mwrite (m : Mem) (a c : Nat) (b : Bytes) :
    mget (mwrite m a b) c = if a ≤ c ∧ c < a + b.length then b.getD (c - a) 0#8 else mget m c := by
  induction b generalizing m a with
  | nil => rw [mwrite, if_neg (by simp)]
  | cons x b ih =>
    rw [mwrite, ih]
    by_cases h1 : a + 1 ≤ c ∧ c < a + 1 + b.length
    · have h2 : a ≤ c ∧ c < a + (x :: b).length := by simp; omega
      rw [if_pos h1, if_pos h2]
      have : c - a = (c - (a + 1)) + 1 := by omega
      rw [this]; rfl
    · rw [if_neg h1, mget_mset]
      by_cases e : c = a
      · subst e
        have h2 : c ≤ c ∧ c < c + (x :: b).length := by simp
        rw [if_pos rfl, if_pos h2]; simp
      · have h2 : ¬ (a ≤ c ∧ c < a + (x :: b).length) := by simp; omega
        rw [if_neg e, if_neg h2]

/-- What reads after zeroing. -/
theorem mget_mzero (m : Mem) (a n c : Nat) : mget (mzero m a n) c = if a ≤ c ∧ c < a + n then 0#8 else mget m c := by
  induction m with
  | nil => simp [mzero, mget, memDefault]
  | cons p m ih =>
    obtain ⟨k, w⟩ := p
    unfold mzero at ih ⊢
    simp only [List.filter]
    by_cases hk : k < a ∨ a + n ≤ k
    · have : (decide (k < a) || decide (a + n ≤ k)) = true := by simpa using hk
      simp only [this]
      unfold mget at ih ⊢
      simp only [tget]
      by_cases e : c = k
      · subst e; rw [if_pos rfl, if_neg (by omega), if_pos rfl]
      · rw [if_neg e, if_neg e]; exact ih
    · have : (decide (k < a) || decide (a + n ≤ k)) = false := by simpa using hk
      simp only [this]
      unfold mget at ih ⊢
      rw [ih]
      by_cases e : c = k
      · subst e; rw [if_pos (by omega), if_pos (by omega)]
      · simp only [tget, if_neg e]

/-- A string read back from where it was written. -/
theorem mread_mwrite (m : Mem) (a : Nat) (b : Bytes) : mread (mwrite m a b) a b.length = b := by
  have key : ∀ (n i : Nat), i + n = b.length → mread (mwrite m a b) (a + i) n = b.drop i := by
    intro n
    induction n with
    | zero => intro i h; simp [mread, ← h]
    | succ n ih =>
      intro i h
      have hi : i < b.length := by omega
      rw [mread, mget_mwrite, if_pos (by omega), Nat.add_assoc, ih (i + 1) (by omega)]
      rw [List.drop_eq_getElem_cons hi]
      simp [List.getD, hi]
  simpa using key b.length 0 (by simp)

end Sys2Proof.Machine
end

