-- ==== Sys2Proof/Laws/State.lean ====
section
/-! SUPPORT. What each update of the state leaves alone, field by field, and what its own field reads after it. -/

namespace Sys2Proof.Machine

variable (s : State)

@[simp] theorem State.setReg_latches (off : Nat) (v : W32) : (s.setReg off v).latches = s.latches := rfl
@[simp] theorem State.setReg_tick (off : Nat) (v : W32) : (s.setReg off v).tick = s.tick := rfl
@[simp] theorem State.setReg_ctxs (off : Nat) (v : W32) : (s.setReg off v).ctxs = s.ctxs := rfl
@[simp] theorem State.setReg_units (off : Nat) (v : W32) : (s.setReg off v).units = s.units := rfl
@[simp] theorem State.setReg_links (off : Nat) (v : W32) : (s.setReg off v).links = s.links := rfl
@[simp] theorem State.setReg_fabric (off : Nat) (v : W32) : (s.setReg off v).fabric = s.fabric := rfl
@[simp] theorem State.setReg_stores (off : Nat) (v : W32) : (s.setReg off v).stores = s.stores := rfl
@[simp] theorem State.setReg_poison (off : Nat) (v : W32) : (s.setReg off v).poison = s.poison := rfl
@[simp] theorem State.setReg_bolts (off : Nat) (v : W32) : (s.setReg off v).bolts = s.bolts := rfl
@[simp] theorem State.setReg_stack (off : Nat) (v : W32) : (s.setReg off v).stack = s.stack := rfl
@[simp] theorem State.setReg_lp (off : Nat) (v : W32) : (s.setReg off v).lp = s.lp := rfl
@[simp] theorem State.setReg_flash (off : Nat) (v : W32) : (s.setReg off v).flash = s.flash := rfl
@[simp] theorem State.setReg_rings (off : Nat) (v : W32) : (s.setReg off v).rings = s.rings := rfl
@[simp] theorem State.setReg_chk (off : Nat) (v : W32) : (s.setReg off v).chk = s.chk := rfl
@[simp] theorem State.setReg_media (off : Nat) (v : W32) : (s.setReg off v).media = s.media := rfl
@[simp] theorem State.setReg_opt (off : Nat) (v : W32) : (s.setReg off v).opt = s.opt := rfl
@[simp] theorem State.setReg_rst (off : Nat) (v : W32) : (s.setReg off v).rst = s.rst := rfl
@[simp] theorem State.setReg_clk (off : Nat) (v : W32) : (s.setReg off v).clk = s.clk := rfl
@[simp] theorem State.setReg_pwr (off : Nat) (v : W32) : (s.setReg off v).pwr = s.pwr := rfl
@[simp] theorem State.setReg_mgmt (off : Nat) (v : W32) : (s.setReg off v).mgmt = s.mgmt := by rfl
@[simp] theorem State.setReg_out (off : Nat) (v : W32) : (s.setReg off v).out = s.out := rfl
@[simp] theorem State.setReg_fresh (off : Nat) (v : W32) : (s.setReg off v).fresh = s.fresh := rfl
@[simp] theorem State.setReg_pending (off : Nat) (v : W32) : (s.setReg off v).pending = s.pending := rfl

@[simp] theorem State.setRegN_latches (off v : Nat) : (s.setRegN off v).latches = s.latches := rfl
@[simp] theorem State.setRegN_tick (off v : Nat) : (s.setRegN off v).tick = s.tick := rfl
@[simp] theorem State.setRegN_ctxs (off v : Nat) : (s.setRegN off v).ctxs = s.ctxs := rfl
@[simp] theorem State.setRegN_units (off v : Nat) : (s.setRegN off v).units = s.units := rfl
@[simp] theorem State.setRegN_links (off v : Nat) : (s.setRegN off v).links = s.links := rfl
@[simp] theorem State.setRegN_fabric (off v : Nat) : (s.setRegN off v).fabric = s.fabric := rfl
@[simp] theorem State.setRegN_stores (off v : Nat) : (s.setRegN off v).stores = s.stores := rfl
@[simp] theorem State.setRegN_poison (off v : Nat) : (s.setRegN off v).poison = s.poison := rfl
@[simp] theorem State.setRegN_bolts (off v : Nat) : (s.setRegN off v).bolts = s.bolts := rfl
@[simp] theorem State.setRegN_stack (off v : Nat) : (s.setRegN off v).stack = s.stack := rfl
@[simp] theorem State.setRegN_lp (off v : Nat) : (s.setRegN off v).lp = s.lp := rfl
@[simp] theorem State.setRegN_flash (off v : Nat) : (s.setRegN off v).flash = s.flash := rfl
@[simp] theorem State.setRegN_rings (off v : Nat) : (s.setRegN off v).rings = s.rings := rfl
@[simp] theorem State.setRegN_chk (off v : Nat) : (s.setRegN off v).chk = s.chk := rfl
@[simp] theorem State.setRegN_media (off v : Nat) : (s.setRegN off v).media = s.media := rfl
@[simp] theorem State.setRegN_opt (off v : Nat) : (s.setRegN off v).opt = s.opt := rfl
@[simp] theorem State.setRegN_rst (off v : Nat) : (s.setRegN off v).rst = s.rst := rfl
@[simp] theorem State.setRegN_clk (off v : Nat) : (s.setRegN off v).clk = s.clk := rfl
@[simp] theorem State.setRegN_pwr (off v : Nat) : (s.setRegN off v).pwr = s.pwr := rfl
@[simp] theorem State.setRegN_mgmt (off v : Nat) : (s.setRegN off v).mgmt = s.mgmt := by rfl
@[simp] theorem State.setRegN_out (off v : Nat) : (s.setRegN off v).out = s.out := rfl
@[simp] theorem State.setRegN_fresh (off v : Nat) : (s.setRegN off v).fresh = s.fresh := rfl
@[simp] theorem State.setRegN_pending (off v : Nat) : (s.setRegN off v).pending = s.pending := rfl

@[simp] theorem State.event_latches (off i : Nat) : (s.event off i).latches = s.latches := rfl
@[simp] theorem State.event_tick (off i : Nat) : (s.event off i).tick = s.tick := rfl
@[simp] theorem State.event_ctxs (off i : Nat) : (s.event off i).ctxs = s.ctxs := rfl
@[simp] theorem State.event_units (off i : Nat) : (s.event off i).units = s.units := rfl
@[simp] theorem State.event_links (off i : Nat) : (s.event off i).links = s.links := rfl
@[simp] theorem State.event_fabric (off i : Nat) : (s.event off i).fabric = s.fabric := rfl
@[simp] theorem State.event_stores (off i : Nat) : (s.event off i).stores = s.stores := rfl
@[simp] theorem State.event_poison (off i : Nat) : (s.event off i).poison = s.poison := rfl
@[simp] theorem State.event_bolts (off i : Nat) : (s.event off i).bolts = s.bolts := rfl
@[simp] theorem State.event_stack (off i : Nat) : (s.event off i).stack = s.stack := rfl
@[simp] theorem State.event_lp (off i : Nat) : (s.event off i).lp = s.lp := rfl
@[simp] theorem State.event_flash (off i : Nat) : (s.event off i).flash = s.flash := rfl
@[simp] theorem State.event_rings (off i : Nat) : (s.event off i).rings = s.rings := rfl
@[simp] theorem State.event_chk (off i : Nat) : (s.event off i).chk = s.chk := rfl
@[simp] theorem State.event_media (off i : Nat) : (s.event off i).media = s.media := rfl
@[simp] theorem State.event_opt (off i : Nat) : (s.event off i).opt = s.opt := rfl
@[simp] theorem State.event_rst (off i : Nat) : (s.event off i).rst = s.rst := rfl
@[simp] theorem State.event_clk (off i : Nat) : (s.event off i).clk = s.clk := rfl
@[simp] theorem State.event_pwr (off i : Nat) : (s.event off i).pwr = s.pwr := rfl
@[simp] theorem State.event_mgmt (off i : Nat) : (s.event off i).mgmt = s.mgmt := by rfl
@[simp] theorem State.event_out (off i : Nat) : (s.event off i).out = s.out := rfl
@[simp] theorem State.event_fresh (off i : Nat) : (s.event off i).fresh = s.fresh := rfl
@[simp] theorem State.event_pending (off i : Nat) : (s.event off i).pending = s.pending := rfl

@[simp] theorem State.count_latches (off : Nat) : (s.count off).latches = s.latches := rfl
@[simp] theorem State.count_tick (off : Nat) : (s.count off).tick = s.tick := rfl
@[simp] theorem State.count_ctxs (off : Nat) : (s.count off).ctxs = s.ctxs := rfl
@[simp] theorem State.count_units (off : Nat) : (s.count off).units = s.units := rfl
@[simp] theorem State.count_links (off : Nat) : (s.count off).links = s.links := rfl
@[simp] theorem State.count_fabric (off : Nat) : (s.count off).fabric = s.fabric := rfl
@[simp] theorem State.count_stores (off : Nat) : (s.count off).stores = s.stores := rfl
@[simp] theorem State.count_poison (off : Nat) : (s.count off).poison = s.poison := rfl
@[simp] theorem State.count_bolts (off : Nat) : (s.count off).bolts = s.bolts := rfl
@[simp] theorem State.count_stack (off : Nat) : (s.count off).stack = s.stack := rfl
@[simp] theorem State.count_lp (off : Nat) : (s.count off).lp = s.lp := rfl
@[simp] theorem State.count_flash (off : Nat) : (s.count off).flash = s.flash := rfl
@[simp] theorem State.count_rings (off : Nat) : (s.count off).rings = s.rings := rfl
@[simp] theorem State.count_chk (off : Nat) : (s.count off).chk = s.chk := rfl
@[simp] theorem State.count_media (off : Nat) : (s.count off).media = s.media := rfl
@[simp] theorem State.count_opt (off : Nat) : (s.count off).opt = s.opt := rfl
@[simp] theorem State.count_rst (off : Nat) : (s.count off).rst = s.rst := rfl
@[simp] theorem State.count_clk (off : Nat) : (s.count off).clk = s.clk := rfl
@[simp] theorem State.count_pwr (off : Nat) : (s.count off).pwr = s.pwr := rfl
@[simp] theorem State.count_mgmt (off : Nat) : (s.count off).mgmt = s.mgmt := by rfl
@[simp] theorem State.count_out (off : Nat) : (s.count off).out = s.out := rfl
@[simp] theorem State.count_fresh (off : Nat) : (s.count off).fresh = s.fresh := rfl
@[simp] theorem State.count_pending (off : Nat) : (s.count off).pending = s.pending := rfl

@[simp] theorem State.countBy_latches (off n : Nat) : (s.countBy off n).latches = s.latches := rfl
@[simp] theorem State.countBy_tick (off n : Nat) : (s.countBy off n).tick = s.tick := rfl
@[simp] theorem State.countBy_ctxs (off n : Nat) : (s.countBy off n).ctxs = s.ctxs := rfl
@[simp] theorem State.countBy_units (off n : Nat) : (s.countBy off n).units = s.units := rfl
@[simp] theorem State.countBy_links (off n : Nat) : (s.countBy off n).links = s.links := rfl
@[simp] theorem State.countBy_fabric (off n : Nat) : (s.countBy off n).fabric = s.fabric := rfl
@[simp] theorem State.countBy_stores (off n : Nat) : (s.countBy off n).stores = s.stores := rfl
@[simp] theorem State.countBy_poison (off n : Nat) : (s.countBy off n).poison = s.poison := rfl
@[simp] theorem State.countBy_bolts (off n : Nat) : (s.countBy off n).bolts = s.bolts := rfl
@[simp] theorem State.countBy_stack (off n : Nat) : (s.countBy off n).stack = s.stack := rfl
@[simp] theorem State.countBy_lp (off n : Nat) : (s.countBy off n).lp = s.lp := rfl
@[simp] theorem State.countBy_flash (off n : Nat) : (s.countBy off n).flash = s.flash := rfl
@[simp] theorem State.countBy_rings (off n : Nat) : (s.countBy off n).rings = s.rings := rfl
@[simp] theorem State.countBy_chk (off n : Nat) : (s.countBy off n).chk = s.chk := rfl
@[simp] theorem State.countBy_media (off n : Nat) : (s.countBy off n).media = s.media := rfl
@[simp] theorem State.countBy_opt (off n : Nat) : (s.countBy off n).opt = s.opt := rfl
@[simp] theorem State.countBy_rst (off n : Nat) : (s.countBy off n).rst = s.rst := rfl
@[simp] theorem State.countBy_clk (off n : Nat) : (s.countBy off n).clk = s.clk := rfl
@[simp] theorem State.countBy_pwr (off n : Nat) : (s.countBy off n).pwr = s.pwr := rfl
@[simp] theorem State.countBy_mgmt (off n : Nat) : (s.countBy off n).mgmt = s.mgmt := by rfl
@[simp] theorem State.countBy_out (off n : Nat) : (s.countBy off n).out = s.out := rfl
@[simp] theorem State.countBy_fresh (off n : Nat) : (s.countBy off n).fresh = s.fresh := rfl
@[simp] theorem State.countBy_pending (off n : Nat) : (s.countBy off n).pending = s.pending := rfl

@[simp] theorem State.setCtx_regs (c : Nat) (x : Ctx) : (s.setCtx c x).regs = s.regs := rfl
@[simp] theorem State.setCtx_latches (c : Nat) (x : Ctx) : (s.setCtx c x).latches = s.latches := rfl
@[simp] theorem State.setCtx_tick (c : Nat) (x : Ctx) : (s.setCtx c x).tick = s.tick := rfl
@[simp] theorem State.setCtx_units (c : Nat) (x : Ctx) : (s.setCtx c x).units = s.units := rfl
@[simp] theorem State.setCtx_links (c : Nat) (x : Ctx) : (s.setCtx c x).links = s.links := rfl
@[simp] theorem State.setCtx_fabric (c : Nat) (x : Ctx) : (s.setCtx c x).fabric = s.fabric := rfl
@[simp] theorem State.setCtx_stores (c : Nat) (x : Ctx) : (s.setCtx c x).stores = s.stores := rfl
@[simp] theorem State.setCtx_poison (c : Nat) (x : Ctx) : (s.setCtx c x).poison = s.poison := rfl
@[simp] theorem State.setCtx_bolts (c : Nat) (x : Ctx) : (s.setCtx c x).bolts = s.bolts := rfl
@[simp] theorem State.setCtx_stack (c : Nat) (x : Ctx) : (s.setCtx c x).stack = s.stack := rfl
@[simp] theorem State.setCtx_lp (c : Nat) (x : Ctx) : (s.setCtx c x).lp = s.lp := rfl
@[simp] theorem State.setCtx_flash (c : Nat) (x : Ctx) : (s.setCtx c x).flash = s.flash := rfl
@[simp] theorem State.setCtx_rings (c : Nat) (x : Ctx) : (s.setCtx c x).rings = s.rings := rfl
@[simp] theorem State.setCtx_chk (c : Nat) (x : Ctx) : (s.setCtx c x).chk = s.chk := rfl
@[simp] theorem State.setCtx_media (c : Nat) (x : Ctx) : (s.setCtx c x).media = s.media := rfl
@[simp] theorem State.setCtx_opt (c : Nat) (x : Ctx) : (s.setCtx c x).opt = s.opt := rfl
@[simp] theorem State.setCtx_rst (c : Nat) (x : Ctx) : (s.setCtx c x).rst = s.rst := rfl
@[simp] theorem State.setCtx_clk (c : Nat) (x : Ctx) : (s.setCtx c x).clk = s.clk := rfl
@[simp] theorem State.setCtx_pwr (c : Nat) (x : Ctx) : (s.setCtx c x).pwr = s.pwr := rfl
@[simp] theorem State.setCtx_mgmt (c : Nat) (x : Ctx) : (s.setCtx c x).mgmt = s.mgmt := by rfl
@[simp] theorem State.setCtx_out (c : Nat) (x : Ctx) : (s.setCtx c x).out = s.out := rfl
@[simp] theorem State.setCtx_fresh (c : Nat) (x : Ctx) : (s.setCtx c x).fresh = s.fresh := rfl
@[simp] theorem State.setCtx_pending (c : Nat) (x : Ctx) : (s.setCtx c x).pending = s.pending := rfl

@[simp] theorem State.modCtx_regs (c : Nat) (f : Ctx → Ctx) : (s.modCtx c f).regs = s.regs := rfl
@[simp] theorem State.modCtx_latches (c : Nat) (f : Ctx → Ctx) : (s.modCtx c f).latches = s.latches := rfl
@[simp] theorem State.modCtx_tick (c : Nat) (f : Ctx → Ctx) : (s.modCtx c f).tick = s.tick := rfl
@[simp] theorem State.modCtx_units (c : Nat) (f : Ctx → Ctx) : (s.modCtx c f).units = s.units := rfl
@[simp] theorem State.modCtx_links (c : Nat) (f : Ctx → Ctx) : (s.modCtx c f).links = s.links := rfl
@[simp] theorem State.modCtx_fabric (c : Nat) (f : Ctx → Ctx) : (s.modCtx c f).fabric = s.fabric := rfl
@[simp] theorem State.modCtx_stores (c : Nat) (f : Ctx → Ctx) : (s.modCtx c f).stores = s.stores := rfl
@[simp] theorem State.modCtx_poison (c : Nat) (f : Ctx → Ctx) : (s.modCtx c f).poison = s.poison := rfl
@[simp] theorem State.modCtx_bolts (c : Nat) (f : Ctx → Ctx) : (s.modCtx c f).bolts = s.bolts := rfl
@[simp] theorem State.modCtx_stack (c : Nat) (f : Ctx → Ctx) : (s.modCtx c f).stack = s.stack := rfl
@[simp] theorem State.modCtx_lp (c : Nat) (f : Ctx → Ctx) : (s.modCtx c f).lp = s.lp := rfl
@[simp] theorem State.modCtx_flash (c : Nat) (f : Ctx → Ctx) : (s.modCtx c f).flash = s.flash := rfl
@[simp] theorem State.modCtx_rings (c : Nat) (f : Ctx → Ctx) : (s.modCtx c f).rings = s.rings := rfl
@[simp] theorem State.modCtx_chk (c : Nat) (f : Ctx → Ctx) : (s.modCtx c f).chk = s.chk := rfl
@[simp] theorem State.modCtx_media (c : Nat) (f : Ctx → Ctx) : (s.modCtx c f).media = s.media := rfl
@[simp] theorem State.modCtx_opt (c : Nat) (f : Ctx → Ctx) : (s.modCtx c f).opt = s.opt := rfl
@[simp] theorem State.modCtx_rst (c : Nat) (f : Ctx → Ctx) : (s.modCtx c f).rst = s.rst := rfl
@[simp] theorem State.modCtx_clk (c : Nat) (f : Ctx → Ctx) : (s.modCtx c f).clk = s.clk := rfl
@[simp] theorem State.modCtx_pwr (c : Nat) (f : Ctx → Ctx) : (s.modCtx c f).pwr = s.pwr := rfl
@[simp] theorem State.modCtx_mgmt (c : Nat) (f : Ctx → Ctx) : (s.modCtx c f).mgmt = s.mgmt := by rfl
@[simp] theorem State.modCtx_out (c : Nat) (f : Ctx → Ctx) : (s.modCtx c f).out = s.out := rfl
@[simp] theorem State.modCtx_fresh (c : Nat) (f : Ctx → Ctx) : (s.modCtx c f).fresh = s.fresh := rfl
@[simp] theorem State.modCtx_pending (c : Nat) (f : Ctx → Ctx) : (s.modCtx c f).pending = s.pending := rfl

@[simp] theorem State.modHasp_regs (c : Nat) (f : Hasp → Hasp) : (s.modHasp c f).regs = s.regs := rfl
@[simp] theorem State.modHasp_latches (c : Nat) (f : Hasp → Hasp) : (s.modHasp c f).latches = s.latches := rfl
@[simp] theorem State.modHasp_tick (c : Nat) (f : Hasp → Hasp) : (s.modHasp c f).tick = s.tick := rfl
@[simp] theorem State.modHasp_units (c : Nat) (f : Hasp → Hasp) : (s.modHasp c f).units = s.units := rfl
@[simp] theorem State.modHasp_links (c : Nat) (f : Hasp → Hasp) : (s.modHasp c f).links = s.links := rfl
@[simp] theorem State.modHasp_fabric (c : Nat) (f : Hasp → Hasp) : (s.modHasp c f).fabric = s.fabric := rfl
@[simp] theorem State.modHasp_stores (c : Nat) (f : Hasp → Hasp) : (s.modHasp c f).stores = s.stores := rfl
@[simp] theorem State.modHasp_poison (c : Nat) (f : Hasp → Hasp) : (s.modHasp c f).poison = s.poison := rfl
@[simp] theorem State.modHasp_bolts (c : Nat) (f : Hasp → Hasp) : (s.modHasp c f).bolts = s.bolts := rfl
@[simp] theorem State.modHasp_stack (c : Nat) (f : Hasp → Hasp) : (s.modHasp c f).stack = s.stack := rfl
@[simp] theorem State.modHasp_lp (c : Nat) (f : Hasp → Hasp) : (s.modHasp c f).lp = s.lp := rfl
@[simp] theorem State.modHasp_flash (c : Nat) (f : Hasp → Hasp) : (s.modHasp c f).flash = s.flash := rfl
@[simp] theorem State.modHasp_rings (c : Nat) (f : Hasp → Hasp) : (s.modHasp c f).rings = s.rings := rfl
@[simp] theorem State.modHasp_chk (c : Nat) (f : Hasp → Hasp) : (s.modHasp c f).chk = s.chk := rfl
@[simp] theorem State.modHasp_media (c : Nat) (f : Hasp → Hasp) : (s.modHasp c f).media = s.media := rfl
@[simp] theorem State.modHasp_opt (c : Nat) (f : Hasp → Hasp) : (s.modHasp c f).opt = s.opt := rfl
@[simp] theorem State.modHasp_rst (c : Nat) (f : Hasp → Hasp) : (s.modHasp c f).rst = s.rst := rfl
@[simp] theorem State.modHasp_clk (c : Nat) (f : Hasp → Hasp) : (s.modHasp c f).clk = s.clk := rfl
@[simp] theorem State.modHasp_pwr (c : Nat) (f : Hasp → Hasp) : (s.modHasp c f).pwr = s.pwr := rfl
@[simp] theorem State.modHasp_mgmt (c : Nat) (f : Hasp → Hasp) : (s.modHasp c f).mgmt = s.mgmt := by rfl
@[simp] theorem State.modHasp_out (c : Nat) (f : Hasp → Hasp) : (s.modHasp c f).out = s.out := rfl
@[simp] theorem State.modHasp_fresh (c : Nat) (f : Hasp → Hasp) : (s.modHasp c f).fresh = s.fresh := rfl
@[simp] theorem State.modHasp_pending (c : Nat) (f : Hasp → Hasp) : (s.modHasp c f).pending = s.pending := rfl

@[simp] theorem State.modKv_regs (c : Nat) (f : Kv → Kv) : (s.modKv c f).regs = s.regs := rfl
@[simp] theorem State.modKv_latches (c : Nat) (f : Kv → Kv) : (s.modKv c f).latches = s.latches := rfl
@[simp] theorem State.modKv_tick (c : Nat) (f : Kv → Kv) : (s.modKv c f).tick = s.tick := rfl
@[simp] theorem State.modKv_units (c : Nat) (f : Kv → Kv) : (s.modKv c f).units = s.units := rfl
@[simp] theorem State.modKv_links (c : Nat) (f : Kv → Kv) : (s.modKv c f).links = s.links := rfl
@[simp] theorem State.modKv_fabric (c : Nat) (f : Kv → Kv) : (s.modKv c f).fabric = s.fabric := rfl
@[simp] theorem State.modKv_stores (c : Nat) (f : Kv → Kv) : (s.modKv c f).stores = s.stores := rfl
@[simp] theorem State.modKv_poison (c : Nat) (f : Kv → Kv) : (s.modKv c f).poison = s.poison := rfl
@[simp] theorem State.modKv_bolts (c : Nat) (f : Kv → Kv) : (s.modKv c f).bolts = s.bolts := rfl
@[simp] theorem State.modKv_stack (c : Nat) (f : Kv → Kv) : (s.modKv c f).stack = s.stack := rfl
@[simp] theorem State.modKv_lp (c : Nat) (f : Kv → Kv) : (s.modKv c f).lp = s.lp := rfl
@[simp] theorem State.modKv_flash (c : Nat) (f : Kv → Kv) : (s.modKv c f).flash = s.flash := rfl
@[simp] theorem State.modKv_rings (c : Nat) (f : Kv → Kv) : (s.modKv c f).rings = s.rings := rfl
@[simp] theorem State.modKv_chk (c : Nat) (f : Kv → Kv) : (s.modKv c f).chk = s.chk := rfl
@[simp] theorem State.modKv_media (c : Nat) (f : Kv → Kv) : (s.modKv c f).media = s.media := rfl
@[simp] theorem State.modKv_opt (c : Nat) (f : Kv → Kv) : (s.modKv c f).opt = s.opt := rfl
@[simp] theorem State.modKv_rst (c : Nat) (f : Kv → Kv) : (s.modKv c f).rst = s.rst := rfl
@[simp] theorem State.modKv_clk (c : Nat) (f : Kv → Kv) : (s.modKv c f).clk = s.clk := rfl
@[simp] theorem State.modKv_pwr (c : Nat) (f : Kv → Kv) : (s.modKv c f).pwr = s.pwr := rfl
@[simp] theorem State.modKv_mgmt (c : Nat) (f : Kv → Kv) : (s.modKv c f).mgmt = s.mgmt := by rfl
@[simp] theorem State.modKv_out (c : Nat) (f : Kv → Kv) : (s.modKv c f).out = s.out := rfl
@[simp] theorem State.modKv_fresh (c : Nat) (f : Kv → Kv) : (s.modKv c f).fresh = s.fresh := rfl
@[simp] theorem State.modKv_pending (c : Nat) (f : Kv → Kv) : (s.modKv c f).pending = s.pending := rfl

@[simp] theorem State.modIng_regs (c : Nat) (f : Ingest → Ingest) : (s.modIng c f).regs = s.regs := rfl
@[simp] theorem State.modIng_latches (c : Nat) (f : Ingest → Ingest) : (s.modIng c f).latches = s.latches := rfl
@[simp] theorem State.modIng_tick (c : Nat) (f : Ingest → Ingest) : (s.modIng c f).tick = s.tick := rfl
@[simp] theorem State.modIng_units (c : Nat) (f : Ingest → Ingest) : (s.modIng c f).units = s.units := rfl
@[simp] theorem State.modIng_links (c : Nat) (f : Ingest → Ingest) : (s.modIng c f).links = s.links := rfl
@[simp] theorem State.modIng_fabric (c : Nat) (f : Ingest → Ingest) : (s.modIng c f).fabric = s.fabric := rfl
@[simp] theorem State.modIng_stores (c : Nat) (f : Ingest → Ingest) : (s.modIng c f).stores = s.stores := rfl
@[simp] theorem State.modIng_poison (c : Nat) (f : Ingest → Ingest) : (s.modIng c f).poison = s.poison := rfl
@[simp] theorem State.modIng_bolts (c : Nat) (f : Ingest → Ingest) : (s.modIng c f).bolts = s.bolts := rfl
@[simp] theorem State.modIng_stack (c : Nat) (f : Ingest → Ingest) : (s.modIng c f).stack = s.stack := rfl
@[simp] theorem State.modIng_lp (c : Nat) (f : Ingest → Ingest) : (s.modIng c f).lp = s.lp := rfl
@[simp] theorem State.modIng_flash (c : Nat) (f : Ingest → Ingest) : (s.modIng c f).flash = s.flash := rfl
@[simp] theorem State.modIng_rings (c : Nat) (f : Ingest → Ingest) : (s.modIng c f).rings = s.rings := rfl
@[simp] theorem State.modIng_chk (c : Nat) (f : Ingest → Ingest) : (s.modIng c f).chk = s.chk := rfl
@[simp] theorem State.modIng_media (c : Nat) (f : Ingest → Ingest) : (s.modIng c f).media = s.media := rfl
@[simp] theorem State.modIng_opt (c : Nat) (f : Ingest → Ingest) : (s.modIng c f).opt = s.opt := rfl
@[simp] theorem State.modIng_rst (c : Nat) (f : Ingest → Ingest) : (s.modIng c f).rst = s.rst := rfl
@[simp] theorem State.modIng_clk (c : Nat) (f : Ingest → Ingest) : (s.modIng c f).clk = s.clk := rfl
@[simp] theorem State.modIng_pwr (c : Nat) (f : Ingest → Ingest) : (s.modIng c f).pwr = s.pwr := rfl
@[simp] theorem State.modIng_mgmt (c : Nat) (f : Ingest → Ingest) : (s.modIng c f).mgmt = s.mgmt := by rfl
@[simp] theorem State.modIng_out (c : Nat) (f : Ingest → Ingest) : (s.modIng c f).out = s.out := rfl
@[simp] theorem State.modIng_fresh (c : Nat) (f : Ingest → Ingest) : (s.modIng c f).fresh = s.fresh := rfl
@[simp] theorem State.modIng_pending (c : Nat) (f : Ingest → Ingest) : (s.modIng c f).pending = s.pending := rfl

@[simp] theorem State.modAdp_regs (c : Nat) (f : Adapters → Adapters) : (s.modAdp c f).regs = s.regs := rfl
@[simp] theorem State.modAdp_latches (c : Nat) (f : Adapters → Adapters) : (s.modAdp c f).latches = s.latches := rfl
@[simp] theorem State.modAdp_tick (c : Nat) (f : Adapters → Adapters) : (s.modAdp c f).tick = s.tick := rfl
@[simp] theorem State.modAdp_units (c : Nat) (f : Adapters → Adapters) : (s.modAdp c f).units = s.units := rfl
@[simp] theorem State.modAdp_links (c : Nat) (f : Adapters → Adapters) : (s.modAdp c f).links = s.links := rfl
@[simp] theorem State.modAdp_fabric (c : Nat) (f : Adapters → Adapters) : (s.modAdp c f).fabric = s.fabric := rfl
@[simp] theorem State.modAdp_stores (c : Nat) (f : Adapters → Adapters) : (s.modAdp c f).stores = s.stores := rfl
@[simp] theorem State.modAdp_poison (c : Nat) (f : Adapters → Adapters) : (s.modAdp c f).poison = s.poison := rfl
@[simp] theorem State.modAdp_bolts (c : Nat) (f : Adapters → Adapters) : (s.modAdp c f).bolts = s.bolts := rfl
@[simp] theorem State.modAdp_stack (c : Nat) (f : Adapters → Adapters) : (s.modAdp c f).stack = s.stack := rfl
@[simp] theorem State.modAdp_lp (c : Nat) (f : Adapters → Adapters) : (s.modAdp c f).lp = s.lp := rfl
@[simp] theorem State.modAdp_flash (c : Nat) (f : Adapters → Adapters) : (s.modAdp c f).flash = s.flash := rfl
@[simp] theorem State.modAdp_rings (c : Nat) (f : Adapters → Adapters) : (s.modAdp c f).rings = s.rings := rfl
@[simp] theorem State.modAdp_chk (c : Nat) (f : Adapters → Adapters) : (s.modAdp c f).chk = s.chk := rfl
@[simp] theorem State.modAdp_media (c : Nat) (f : Adapters → Adapters) : (s.modAdp c f).media = s.media := rfl
@[simp] theorem State.modAdp_opt (c : Nat) (f : Adapters → Adapters) : (s.modAdp c f).opt = s.opt := rfl
@[simp] theorem State.modAdp_rst (c : Nat) (f : Adapters → Adapters) : (s.modAdp c f).rst = s.rst := rfl
@[simp] theorem State.modAdp_clk (c : Nat) (f : Adapters → Adapters) : (s.modAdp c f).clk = s.clk := rfl
@[simp] theorem State.modAdp_pwr (c : Nat) (f : Adapters → Adapters) : (s.modAdp c f).pwr = s.pwr := rfl
@[simp] theorem State.modAdp_mgmt (c : Nat) (f : Adapters → Adapters) : (s.modAdp c f).mgmt = s.mgmt := by rfl
@[simp] theorem State.modAdp_out (c : Nat) (f : Adapters → Adapters) : (s.modAdp c f).out = s.out := rfl
@[simp] theorem State.modAdp_fresh (c : Nat) (f : Adapters → Adapters) : (s.modAdp c f).fresh = s.fresh := rfl
@[simp] theorem State.modAdp_pending (c : Nat) (f : Adapters → Adapters) : (s.modAdp c f).pending = s.pending := rfl

@[simp] theorem State.account_regs (c n v : Nat) : (s.account c n v).regs = s.regs := rfl
@[simp] theorem State.account_latches (c n v : Nat) : (s.account c n v).latches = s.latches := rfl
@[simp] theorem State.account_tick (c n v : Nat) : (s.account c n v).tick = s.tick := rfl
@[simp] theorem State.account_units (c n v : Nat) : (s.account c n v).units = s.units := rfl
@[simp] theorem State.account_links (c n v : Nat) : (s.account c n v).links = s.links := rfl
@[simp] theorem State.account_fabric (c n v : Nat) : (s.account c n v).fabric = s.fabric := rfl
@[simp] theorem State.account_stores (c n v : Nat) : (s.account c n v).stores = s.stores := rfl
@[simp] theorem State.account_poison (c n v : Nat) : (s.account c n v).poison = s.poison := rfl
@[simp] theorem State.account_bolts (c n v : Nat) : (s.account c n v).bolts = s.bolts := rfl
@[simp] theorem State.account_stack (c n v : Nat) : (s.account c n v).stack = s.stack := rfl
@[simp] theorem State.account_lp (c n v : Nat) : (s.account c n v).lp = s.lp := rfl
@[simp] theorem State.account_flash (c n v : Nat) : (s.account c n v).flash = s.flash := rfl
@[simp] theorem State.account_rings (c n v : Nat) : (s.account c n v).rings = s.rings := rfl
@[simp] theorem State.account_chk (c n v : Nat) : (s.account c n v).chk = s.chk := rfl
@[simp] theorem State.account_media (c n v : Nat) : (s.account c n v).media = s.media := rfl
@[simp] theorem State.account_opt (c n v : Nat) : (s.account c n v).opt = s.opt := rfl
@[simp] theorem State.account_rst (c n v : Nat) : (s.account c n v).rst = s.rst := rfl
@[simp] theorem State.account_clk (c n v : Nat) : (s.account c n v).clk = s.clk := rfl
@[simp] theorem State.account_pwr (c n v : Nat) : (s.account c n v).pwr = s.pwr := rfl
@[simp] theorem State.account_mgmt (c n v : Nat) : (s.account c n v).mgmt = s.mgmt := by rfl
@[simp] theorem State.account_out (c n v : Nat) : (s.account c n v).out = s.out := rfl
@[simp] theorem State.account_fresh (c n v : Nat) : (s.account c n v).fresh = s.fresh := rfl
@[simp] theorem State.account_pending (c n v : Nat) : (s.account c n v).pending = s.pending := rfl

@[simp] theorem State.modUnit_regs (u : Nat) (f : UnitSt → UnitSt) : (s.modUnit u f).regs = s.regs := rfl
@[simp] theorem State.modUnit_latches (u : Nat) (f : UnitSt → UnitSt) : (s.modUnit u f).latches = s.latches := rfl
@[simp] theorem State.modUnit_tick (u : Nat) (f : UnitSt → UnitSt) : (s.modUnit u f).tick = s.tick := rfl
@[simp] theorem State.modUnit_ctxs (u : Nat) (f : UnitSt → UnitSt) : (s.modUnit u f).ctxs = s.ctxs := rfl
@[simp] theorem State.modUnit_links (u : Nat) (f : UnitSt → UnitSt) : (s.modUnit u f).links = s.links := rfl
@[simp] theorem State.modUnit_fabric (u : Nat) (f : UnitSt → UnitSt) : (s.modUnit u f).fabric = s.fabric := rfl
@[simp] theorem State.modUnit_stores (u : Nat) (f : UnitSt → UnitSt) : (s.modUnit u f).stores = s.stores := rfl
@[simp] theorem State.modUnit_poison (u : Nat) (f : UnitSt → UnitSt) : (s.modUnit u f).poison = s.poison := rfl
@[simp] theorem State.modUnit_bolts (u : Nat) (f : UnitSt → UnitSt) : (s.modUnit u f).bolts = s.bolts := rfl
@[simp] theorem State.modUnit_stack (u : Nat) (f : UnitSt → UnitSt) : (s.modUnit u f).stack = s.stack := rfl
@[simp] theorem State.modUnit_lp (u : Nat) (f : UnitSt → UnitSt) : (s.modUnit u f).lp = s.lp := rfl
@[simp] theorem State.modUnit_flash (u : Nat) (f : UnitSt → UnitSt) : (s.modUnit u f).flash = s.flash := rfl
@[simp] theorem State.modUnit_rings (u : Nat) (f : UnitSt → UnitSt) : (s.modUnit u f).rings = s.rings := rfl
@[simp] theorem State.modUnit_chk (u : Nat) (f : UnitSt → UnitSt) : (s.modUnit u f).chk = s.chk := rfl
@[simp] theorem State.modUnit_media (u : Nat) (f : UnitSt → UnitSt) : (s.modUnit u f).media = s.media := rfl
@[simp] theorem State.modUnit_opt (u : Nat) (f : UnitSt → UnitSt) : (s.modUnit u f).opt = s.opt := rfl
@[simp] theorem State.modUnit_rst (u : Nat) (f : UnitSt → UnitSt) : (s.modUnit u f).rst = s.rst := rfl
@[simp] theorem State.modUnit_clk (u : Nat) (f : UnitSt → UnitSt) : (s.modUnit u f).clk = s.clk := rfl
@[simp] theorem State.modUnit_pwr (u : Nat) (f : UnitSt → UnitSt) : (s.modUnit u f).pwr = s.pwr := rfl
@[simp] theorem State.modUnit_mgmt (u : Nat) (f : UnitSt → UnitSt) : (s.modUnit u f).mgmt = s.mgmt := by rfl
@[simp] theorem State.modUnit_out (u : Nat) (f : UnitSt → UnitSt) : (s.modUnit u f).out = s.out := rfl
@[simp] theorem State.modUnit_fresh (u : Nat) (f : UnitSt → UnitSt) : (s.modUnit u f).fresh = s.fresh := rfl
@[simp] theorem State.modUnit_pending (u : Nat) (f : UnitSt → UnitSt) : (s.modUnit u f).pending = s.pending := rfl

@[simp] theorem State.modLink_regs (n : Nat) (f : Link → Link) : (s.modLink n f).regs = s.regs := rfl
@[simp] theorem State.modLink_latches (n : Nat) (f : Link → Link) : (s.modLink n f).latches = s.latches := rfl
@[simp] theorem State.modLink_tick (n : Nat) (f : Link → Link) : (s.modLink n f).tick = s.tick := rfl
@[simp] theorem State.modLink_ctxs (n : Nat) (f : Link → Link) : (s.modLink n f).ctxs = s.ctxs := rfl
@[simp] theorem State.modLink_units (n : Nat) (f : Link → Link) : (s.modLink n f).units = s.units := rfl
@[simp] theorem State.modLink_fabric (n : Nat) (f : Link → Link) : (s.modLink n f).fabric = s.fabric := rfl
@[simp] theorem State.modLink_stores (n : Nat) (f : Link → Link) : (s.modLink n f).stores = s.stores := rfl
@[simp] theorem State.modLink_poison (n : Nat) (f : Link → Link) : (s.modLink n f).poison = s.poison := rfl
@[simp] theorem State.modLink_bolts (n : Nat) (f : Link → Link) : (s.modLink n f).bolts = s.bolts := rfl
@[simp] theorem State.modLink_stack (n : Nat) (f : Link → Link) : (s.modLink n f).stack = s.stack := rfl
@[simp] theorem State.modLink_lp (n : Nat) (f : Link → Link) : (s.modLink n f).lp = s.lp := rfl
@[simp] theorem State.modLink_flash (n : Nat) (f : Link → Link) : (s.modLink n f).flash = s.flash := rfl
@[simp] theorem State.modLink_rings (n : Nat) (f : Link → Link) : (s.modLink n f).rings = s.rings := rfl
@[simp] theorem State.modLink_chk (n : Nat) (f : Link → Link) : (s.modLink n f).chk = s.chk := rfl
@[simp] theorem State.modLink_media (n : Nat) (f : Link → Link) : (s.modLink n f).media = s.media := rfl
@[simp] theorem State.modLink_opt (n : Nat) (f : Link → Link) : (s.modLink n f).opt = s.opt := rfl
@[simp] theorem State.modLink_rst (n : Nat) (f : Link → Link) : (s.modLink n f).rst = s.rst := rfl
@[simp] theorem State.modLink_clk (n : Nat) (f : Link → Link) : (s.modLink n f).clk = s.clk := rfl
@[simp] theorem State.modLink_pwr (n : Nat) (f : Link → Link) : (s.modLink n f).pwr = s.pwr := rfl
@[simp] theorem State.modLink_mgmt (n : Nat) (f : Link → Link) : (s.modLink n f).mgmt = s.mgmt := by rfl
@[simp] theorem State.modLink_out (n : Nat) (f : Link → Link) : (s.modLink n f).out = s.out := rfl
@[simp] theorem State.modLink_fresh (n : Nat) (f : Link → Link) : (s.modLink n f).fresh = s.fresh := rfl
@[simp] theorem State.modLink_pending (n : Nat) (f : Link → Link) : (s.modLink n f).pending = s.pending := rfl

@[simp] theorem State.modRing_regs (fn : Nat) (f : Ring → Ring) : (s.modRing fn f).regs = s.regs := rfl
@[simp] theorem State.modRing_latches (fn : Nat) (f : Ring → Ring) : (s.modRing fn f).latches = s.latches := rfl
@[simp] theorem State.modRing_tick (fn : Nat) (f : Ring → Ring) : (s.modRing fn f).tick = s.tick := rfl
@[simp] theorem State.modRing_ctxs (fn : Nat) (f : Ring → Ring) : (s.modRing fn f).ctxs = s.ctxs := rfl
@[simp] theorem State.modRing_units (fn : Nat) (f : Ring → Ring) : (s.modRing fn f).units = s.units := rfl
@[simp] theorem State.modRing_links (fn : Nat) (f : Ring → Ring) : (s.modRing fn f).links = s.links := rfl
@[simp] theorem State.modRing_fabric (fn : Nat) (f : Ring → Ring) : (s.modRing fn f).fabric = s.fabric := rfl
@[simp] theorem State.modRing_stores (fn : Nat) (f : Ring → Ring) : (s.modRing fn f).stores = s.stores := rfl
@[simp] theorem State.modRing_poison (fn : Nat) (f : Ring → Ring) : (s.modRing fn f).poison = s.poison := rfl
@[simp] theorem State.modRing_bolts (fn : Nat) (f : Ring → Ring) : (s.modRing fn f).bolts = s.bolts := rfl
@[simp] theorem State.modRing_stack (fn : Nat) (f : Ring → Ring) : (s.modRing fn f).stack = s.stack := rfl
@[simp] theorem State.modRing_lp (fn : Nat) (f : Ring → Ring) : (s.modRing fn f).lp = s.lp := rfl
@[simp] theorem State.modRing_flash (fn : Nat) (f : Ring → Ring) : (s.modRing fn f).flash = s.flash := rfl
@[simp] theorem State.modRing_chk (fn : Nat) (f : Ring → Ring) : (s.modRing fn f).chk = s.chk := rfl
@[simp] theorem State.modRing_media (fn : Nat) (f : Ring → Ring) : (s.modRing fn f).media = s.media := rfl
@[simp] theorem State.modRing_opt (fn : Nat) (f : Ring → Ring) : (s.modRing fn f).opt = s.opt := rfl
@[simp] theorem State.modRing_rst (fn : Nat) (f : Ring → Ring) : (s.modRing fn f).rst = s.rst := rfl
@[simp] theorem State.modRing_clk (fn : Nat) (f : Ring → Ring) : (s.modRing fn f).clk = s.clk := rfl
@[simp] theorem State.modRing_pwr (fn : Nat) (f : Ring → Ring) : (s.modRing fn f).pwr = s.pwr := rfl
@[simp] theorem State.modRing_mgmt (fn : Nat) (f : Ring → Ring) : (s.modRing fn f).mgmt = s.mgmt := by rfl
@[simp] theorem State.modRing_out (fn : Nat) (f : Ring → Ring) : (s.modRing fn f).out = s.out := rfl
@[simp] theorem State.modRing_fresh (fn : Nat) (f : Ring → Ring) : (s.modRing fn f).fresh = s.fresh := rfl
@[simp] theorem State.modRing_pending (fn : Nat) (f : Ring → Ring) : (s.modRing fn f).pending = s.pending := rfl

@[simp] theorem State.setBolt_regs (b : Nat) (x : Bolt) : (s.setBolt b x).regs = s.regs := rfl
@[simp] theorem State.setBolt_latches (b : Nat) (x : Bolt) : (s.setBolt b x).latches = s.latches := rfl
@[simp] theorem State.setBolt_tick (b : Nat) (x : Bolt) : (s.setBolt b x).tick = s.tick := rfl
@[simp] theorem State.setBolt_ctxs (b : Nat) (x : Bolt) : (s.setBolt b x).ctxs = s.ctxs := rfl
@[simp] theorem State.setBolt_units (b : Nat) (x : Bolt) : (s.setBolt b x).units = s.units := rfl
@[simp] theorem State.setBolt_links (b : Nat) (x : Bolt) : (s.setBolt b x).links = s.links := rfl
@[simp] theorem State.setBolt_fabric (b : Nat) (x : Bolt) : (s.setBolt b x).fabric = s.fabric := rfl
@[simp] theorem State.setBolt_stores (b : Nat) (x : Bolt) : (s.setBolt b x).stores = s.stores := rfl
@[simp] theorem State.setBolt_poison (b : Nat) (x : Bolt) : (s.setBolt b x).poison = s.poison := rfl
@[simp] theorem State.setBolt_stack (b : Nat) (x : Bolt) : (s.setBolt b x).stack = s.stack := rfl
@[simp] theorem State.setBolt_lp (b : Nat) (x : Bolt) : (s.setBolt b x).lp = s.lp := rfl
@[simp] theorem State.setBolt_flash (b : Nat) (x : Bolt) : (s.setBolt b x).flash = s.flash := rfl
@[simp] theorem State.setBolt_rings (b : Nat) (x : Bolt) : (s.setBolt b x).rings = s.rings := rfl
@[simp] theorem State.setBolt_chk (b : Nat) (x : Bolt) : (s.setBolt b x).chk = s.chk := rfl
@[simp] theorem State.setBolt_media (b : Nat) (x : Bolt) : (s.setBolt b x).media = s.media := rfl
@[simp] theorem State.setBolt_opt (b : Nat) (x : Bolt) : (s.setBolt b x).opt = s.opt := rfl
@[simp] theorem State.setBolt_rst (b : Nat) (x : Bolt) : (s.setBolt b x).rst = s.rst := rfl
@[simp] theorem State.setBolt_clk (b : Nat) (x : Bolt) : (s.setBolt b x).clk = s.clk := rfl
@[simp] theorem State.setBolt_pwr (b : Nat) (x : Bolt) : (s.setBolt b x).pwr = s.pwr := rfl
@[simp] theorem State.setBolt_mgmt (b : Nat) (x : Bolt) : (s.setBolt b x).mgmt = s.mgmt := by rfl
@[simp] theorem State.setBolt_out (b : Nat) (x : Bolt) : (s.setBolt b x).out = s.out := rfl
@[simp] theorem State.setBolt_fresh (b : Nat) (x : Bolt) : (s.setBolt b x).fresh = s.fresh := rfl
@[simp] theorem State.setBolt_pending (b : Nat) (x : Bolt) : (s.setBolt b x).pending = s.pending := rfl

@[simp] theorem State.emit_regs (o : Out) : (s.emit o).regs = s.regs := rfl
@[simp] theorem State.emit_latches (o : Out) : (s.emit o).latches = s.latches := rfl
@[simp] theorem State.emit_tick (o : Out) : (s.emit o).tick = s.tick := rfl
@[simp] theorem State.emit_ctxs (o : Out) : (s.emit o).ctxs = s.ctxs := rfl
@[simp] theorem State.emit_units (o : Out) : (s.emit o).units = s.units := rfl
@[simp] theorem State.emit_links (o : Out) : (s.emit o).links = s.links := rfl
@[simp] theorem State.emit_fabric (o : Out) : (s.emit o).fabric = s.fabric := rfl
@[simp] theorem State.emit_stores (o : Out) : (s.emit o).stores = s.stores := rfl
@[simp] theorem State.emit_poison (o : Out) : (s.emit o).poison = s.poison := rfl
@[simp] theorem State.emit_bolts (o : Out) : (s.emit o).bolts = s.bolts := rfl
@[simp] theorem State.emit_stack (o : Out) : (s.emit o).stack = s.stack := rfl
@[simp] theorem State.emit_lp (o : Out) : (s.emit o).lp = s.lp := rfl
@[simp] theorem State.emit_flash (o : Out) : (s.emit o).flash = s.flash := rfl
@[simp] theorem State.emit_rings (o : Out) : (s.emit o).rings = s.rings := rfl
@[simp] theorem State.emit_chk (o : Out) : (s.emit o).chk = s.chk := rfl
@[simp] theorem State.emit_media (o : Out) : (s.emit o).media = s.media := rfl
@[simp] theorem State.emit_opt (o : Out) : (s.emit o).opt = s.opt := rfl
@[simp] theorem State.emit_rst (o : Out) : (s.emit o).rst = s.rst := rfl
@[simp] theorem State.emit_clk (o : Out) : (s.emit o).clk = s.clk := rfl
@[simp] theorem State.emit_pwr (o : Out) : (s.emit o).pwr = s.pwr := rfl
@[simp] theorem State.emit_mgmt (o : Out) : (s.emit o).mgmt = s.mgmt := by rfl
@[simp] theorem State.emit_fresh (o : Out) : (s.emit o).fresh = s.fresh := rfl
@[simp] theorem State.emit_pending (o : Out) : (s.emit o).pending = s.pending := rfl

@[simp] theorem State.modTick_regs (f : Tick → Tick) : (s.modTick f).regs = s.regs := rfl
@[simp] theorem State.modTick_latches (f : Tick → Tick) : (s.modTick f).latches = s.latches := rfl
@[simp] theorem State.modTick_ctxs (f : Tick → Tick) : (s.modTick f).ctxs = s.ctxs := rfl
@[simp] theorem State.modTick_units (f : Tick → Tick) : (s.modTick f).units = s.units := rfl
@[simp] theorem State.modTick_links (f : Tick → Tick) : (s.modTick f).links = s.links := rfl
@[simp] theorem State.modTick_fabric (f : Tick → Tick) : (s.modTick f).fabric = s.fabric := rfl
@[simp] theorem State.modTick_stores (f : Tick → Tick) : (s.modTick f).stores = s.stores := rfl
@[simp] theorem State.modTick_poison (f : Tick → Tick) : (s.modTick f).poison = s.poison := rfl
@[simp] theorem State.modTick_bolts (f : Tick → Tick) : (s.modTick f).bolts = s.bolts := rfl
@[simp] theorem State.modTick_stack (f : Tick → Tick) : (s.modTick f).stack = s.stack := rfl
@[simp] theorem State.modTick_lp (f : Tick → Tick) : (s.modTick f).lp = s.lp := rfl
@[simp] theorem State.modTick_flash (f : Tick → Tick) : (s.modTick f).flash = s.flash := rfl
@[simp] theorem State.modTick_rings (f : Tick → Tick) : (s.modTick f).rings = s.rings := rfl
@[simp] theorem State.modTick_chk (f : Tick → Tick) : (s.modTick f).chk = s.chk := rfl
@[simp] theorem State.modTick_media (f : Tick → Tick) : (s.modTick f).media = s.media := rfl
@[simp] theorem State.modTick_opt (f : Tick → Tick) : (s.modTick f).opt = s.opt := rfl
@[simp] theorem State.modTick_rst (f : Tick → Tick) : (s.modTick f).rst = s.rst := rfl
@[simp] theorem State.modTick_clk (f : Tick → Tick) : (s.modTick f).clk = s.clk := rfl
@[simp] theorem State.modTick_pwr (f : Tick → Tick) : (s.modTick f).pwr = s.pwr := rfl
@[simp] theorem State.modTick_mgmt (f : Tick → Tick) : (s.modTick f).mgmt = s.mgmt := by rfl
@[simp] theorem State.modTick_out (f : Tick → Tick) : (s.modTick f).out = s.out := rfl
@[simp] theorem State.modTick_fresh (f : Tick → Tick) : (s.modTick f).fresh = s.fresh := rfl
@[simp] theorem State.modTick_pending (f : Tick → Tick) : (s.modTick f).pending = s.pending := rfl

@[simp] theorem State.modMedia_regs (f : Media → Media) : (s.modMedia f).regs = s.regs := rfl
@[simp] theorem State.modMedia_latches (f : Media → Media) : (s.modMedia f).latches = s.latches := rfl
@[simp] theorem State.modMedia_tick (f : Media → Media) : (s.modMedia f).tick = s.tick := rfl
@[simp] theorem State.modMedia_ctxs (f : Media → Media) : (s.modMedia f).ctxs = s.ctxs := rfl
@[simp] theorem State.modMedia_units (f : Media → Media) : (s.modMedia f).units = s.units := rfl
@[simp] theorem State.modMedia_links (f : Media → Media) : (s.modMedia f).links = s.links := rfl
@[simp] theorem State.modMedia_fabric (f : Media → Media) : (s.modMedia f).fabric = s.fabric := rfl
@[simp] theorem State.modMedia_stores (f : Media → Media) : (s.modMedia f).stores = s.stores := rfl
@[simp] theorem State.modMedia_poison (f : Media → Media) : (s.modMedia f).poison = s.poison := rfl
@[simp] theorem State.modMedia_bolts (f : Media → Media) : (s.modMedia f).bolts = s.bolts := rfl
@[simp] theorem State.modMedia_stack (f : Media → Media) : (s.modMedia f).stack = s.stack := rfl
@[simp] theorem State.modMedia_lp (f : Media → Media) : (s.modMedia f).lp = s.lp := rfl
@[simp] theorem State.modMedia_flash (f : Media → Media) : (s.modMedia f).flash = s.flash := rfl
@[simp] theorem State.modMedia_rings (f : Media → Media) : (s.modMedia f).rings = s.rings := rfl
@[simp] theorem State.modMedia_chk (f : Media → Media) : (s.modMedia f).chk = s.chk := rfl
@[simp] theorem State.modMedia_opt (f : Media → Media) : (s.modMedia f).opt = s.opt := rfl
@[simp] theorem State.modMedia_rst (f : Media → Media) : (s.modMedia f).rst = s.rst := rfl
@[simp] theorem State.modMedia_clk (f : Media → Media) : (s.modMedia f).clk = s.clk := rfl
@[simp] theorem State.modMedia_pwr (f : Media → Media) : (s.modMedia f).pwr = s.pwr := rfl
@[simp] theorem State.modMedia_mgmt (f : Media → Media) : (s.modMedia f).mgmt = s.mgmt := by rfl
@[simp] theorem State.modMedia_out (f : Media → Media) : (s.modMedia f).out = s.out := rfl
@[simp] theorem State.modMedia_fresh (f : Media → Media) : (s.modMedia f).fresh = s.fresh := rfl
@[simp] theorem State.modMedia_pending (f : Media → Media) : (s.modMedia f).pending = s.pending := rfl

@[simp] theorem State.modEngine_regs (e : Nat) (f : Engine → Engine) : (s.modEngine e f).regs = s.regs := rfl
@[simp] theorem State.modEngine_latches (e : Nat) (f : Engine → Engine) : (s.modEngine e f).latches = s.latches := rfl
@[simp] theorem State.modEngine_tick (e : Nat) (f : Engine → Engine) : (s.modEngine e f).tick = s.tick := rfl
@[simp] theorem State.modEngine_ctxs (e : Nat) (f : Engine → Engine) : (s.modEngine e f).ctxs = s.ctxs := rfl
@[simp] theorem State.modEngine_units (e : Nat) (f : Engine → Engine) : (s.modEngine e f).units = s.units := rfl
@[simp] theorem State.modEngine_links (e : Nat) (f : Engine → Engine) : (s.modEngine e f).links = s.links := rfl
@[simp] theorem State.modEngine_fabric (e : Nat) (f : Engine → Engine) : (s.modEngine e f).fabric = s.fabric := rfl
@[simp] theorem State.modEngine_stores (e : Nat) (f : Engine → Engine) : (s.modEngine e f).stores = s.stores := rfl
@[simp] theorem State.modEngine_poison (e : Nat) (f : Engine → Engine) : (s.modEngine e f).poison = s.poison := rfl
@[simp] theorem State.modEngine_bolts (e : Nat) (f : Engine → Engine) : (s.modEngine e f).bolts = s.bolts := rfl
@[simp] theorem State.modEngine_stack (e : Nat) (f : Engine → Engine) : (s.modEngine e f).stack = s.stack := rfl
@[simp] theorem State.modEngine_lp (e : Nat) (f : Engine → Engine) : (s.modEngine e f).lp = s.lp := rfl
@[simp] theorem State.modEngine_flash (e : Nat) (f : Engine → Engine) : (s.modEngine e f).flash = s.flash := rfl
@[simp] theorem State.modEngine_rings (e : Nat) (f : Engine → Engine) : (s.modEngine e f).rings = s.rings := rfl
@[simp] theorem State.modEngine_chk (e : Nat) (f : Engine → Engine) : (s.modEngine e f).chk = s.chk := rfl
@[simp] theorem State.modEngine_opt (e : Nat) (f : Engine → Engine) : (s.modEngine e f).opt = s.opt := rfl
@[simp] theorem State.modEngine_rst (e : Nat) (f : Engine → Engine) : (s.modEngine e f).rst = s.rst := rfl
@[simp] theorem State.modEngine_clk (e : Nat) (f : Engine → Engine) : (s.modEngine e f).clk = s.clk := rfl
@[simp] theorem State.modEngine_pwr (e : Nat) (f : Engine → Engine) : (s.modEngine e f).pwr = s.pwr := rfl
@[simp] theorem State.modEngine_mgmt (e : Nat) (f : Engine → Engine) : (s.modEngine e f).mgmt = s.mgmt := by rfl
@[simp] theorem State.modEngine_out (e : Nat) (f : Engine → Engine) : (s.modEngine e f).out = s.out := rfl
@[simp] theorem State.modEngine_fresh (e : Nat) (f : Engine → Engine) : (s.modEngine e f).fresh = s.fresh := rfl
@[simp] theorem State.modEngine_pending (e : Nat) (f : Engine → Engine) : (s.modEngine e f).pending = s.pending := rfl

@[simp] theorem State.modPwr_regs (f : Power → Power) : (s.modPwr f).regs = s.regs := rfl
@[simp] theorem State.modPwr_latches (f : Power → Power) : (s.modPwr f).latches = s.latches := rfl
@[simp] theorem State.modPwr_tick (f : Power → Power) : (s.modPwr f).tick = s.tick := rfl
@[simp] theorem State.modPwr_ctxs (f : Power → Power) : (s.modPwr f).ctxs = s.ctxs := rfl
@[simp] theorem State.modPwr_units (f : Power → Power) : (s.modPwr f).units = s.units := rfl
@[simp] theorem State.modPwr_links (f : Power → Power) : (s.modPwr f).links = s.links := rfl
@[simp] theorem State.modPwr_fabric (f : Power → Power) : (s.modPwr f).fabric = s.fabric := rfl
@[simp] theorem State.modPwr_stores (f : Power → Power) : (s.modPwr f).stores = s.stores := rfl
@[simp] theorem State.modPwr_poison (f : Power → Power) : (s.modPwr f).poison = s.poison := rfl
@[simp] theorem State.modPwr_bolts (f : Power → Power) : (s.modPwr f).bolts = s.bolts := rfl
@[simp] theorem State.modPwr_stack (f : Power → Power) : (s.modPwr f).stack = s.stack := rfl
@[simp] theorem State.modPwr_lp (f : Power → Power) : (s.modPwr f).lp = s.lp := rfl
@[simp] theorem State.modPwr_flash (f : Power → Power) : (s.modPwr f).flash = s.flash := rfl
@[simp] theorem State.modPwr_rings (f : Power → Power) : (s.modPwr f).rings = s.rings := rfl
@[simp] theorem State.modPwr_chk (f : Power → Power) : (s.modPwr f).chk = s.chk := rfl
@[simp] theorem State.modPwr_media (f : Power → Power) : (s.modPwr f).media = s.media := rfl
@[simp] theorem State.modPwr_opt (f : Power → Power) : (s.modPwr f).opt = s.opt := rfl
@[simp] theorem State.modPwr_rst (f : Power → Power) : (s.modPwr f).rst = s.rst := rfl
@[simp] theorem State.modPwr_clk (f : Power → Power) : (s.modPwr f).clk = s.clk := rfl
@[simp] theorem State.modPwr_mgmt (f : Power → Power) : (s.modPwr f).mgmt = s.mgmt := by rfl
@[simp] theorem State.modPwr_out (f : Power → Power) : (s.modPwr f).out = s.out := rfl
@[simp] theorem State.modPwr_fresh (f : Power → Power) : (s.modPwr f).fresh = s.fresh := rfl
@[simp] theorem State.modPwr_pending (f : Power → Power) : (s.modPwr f).pending = s.pending := rfl

@[simp] theorem State.markPoison_regs (c : Nat) (r : Region) : (s.markPoison c r).regs = s.regs := rfl
@[simp] theorem State.markPoison_latches (c : Nat) (r : Region) : (s.markPoison c r).latches = s.latches := rfl
@[simp] theorem State.markPoison_tick (c : Nat) (r : Region) : (s.markPoison c r).tick = s.tick := rfl
@[simp] theorem State.markPoison_ctxs (c : Nat) (r : Region) : (s.markPoison c r).ctxs = s.ctxs := rfl
@[simp] theorem State.markPoison_units (c : Nat) (r : Region) : (s.markPoison c r).units = s.units := rfl
@[simp] theorem State.markPoison_links (c : Nat) (r : Region) : (s.markPoison c r).links = s.links := rfl
@[simp] theorem State.markPoison_fabric (c : Nat) (r : Region) : (s.markPoison c r).fabric = s.fabric := rfl
@[simp] theorem State.markPoison_stores (c : Nat) (r : Region) : (s.markPoison c r).stores = s.stores := rfl
@[simp] theorem State.markPoison_bolts (c : Nat) (r : Region) : (s.markPoison c r).bolts = s.bolts := rfl
@[simp] theorem State.markPoison_stack (c : Nat) (r : Region) : (s.markPoison c r).stack = s.stack := rfl
@[simp] theorem State.markPoison_lp (c : Nat) (r : Region) : (s.markPoison c r).lp = s.lp := rfl
@[simp] theorem State.markPoison_flash (c : Nat) (r : Region) : (s.markPoison c r).flash = s.flash := rfl
@[simp] theorem State.markPoison_rings (c : Nat) (r : Region) : (s.markPoison c r).rings = s.rings := rfl
@[simp] theorem State.markPoison_chk (c : Nat) (r : Region) : (s.markPoison c r).chk = s.chk := rfl
@[simp] theorem State.markPoison_media (c : Nat) (r : Region) : (s.markPoison c r).media = s.media := rfl
@[simp] theorem State.markPoison_opt (c : Nat) (r : Region) : (s.markPoison c r).opt = s.opt := rfl
@[simp] theorem State.markPoison_rst (c : Nat) (r : Region) : (s.markPoison c r).rst = s.rst := rfl
@[simp] theorem State.markPoison_clk (c : Nat) (r : Region) : (s.markPoison c r).clk = s.clk := rfl
@[simp] theorem State.markPoison_pwr (c : Nat) (r : Region) : (s.markPoison c r).pwr = s.pwr := rfl
@[simp] theorem State.markPoison_mgmt (c : Nat) (r : Region) : (s.markPoison c r).mgmt = s.mgmt := by rfl
@[simp] theorem State.markPoison_out (c : Nat) (r : Region) : (s.markPoison c r).out = s.out := rfl
@[simp] theorem State.markPoison_fresh (c : Nat) (r : Region) : (s.markPoison c r).fresh = s.fresh := rfl
@[simp] theorem State.markPoison_pending (c : Nat) (r : Region) : (s.markPoison c r).pending = s.pending := rfl

@[simp] theorem State.eventIf_latches (b : Bool) (off i : Nat) : (s.eventIf b off i).latches = s.latches := by unfold State.eventIf; split <;> rfl
@[simp] theorem State.eventIf_tick (b : Bool) (off i : Nat) : (s.eventIf b off i).tick = s.tick := by unfold State.eventIf; split <;> rfl
@[simp] theorem State.eventIf_ctxs (b : Bool) (off i : Nat) : (s.eventIf b off i).ctxs = s.ctxs := by unfold State.eventIf; split <;> rfl
@[simp] theorem State.eventIf_units (b : Bool) (off i : Nat) : (s.eventIf b off i).units = s.units := by unfold State.eventIf; split <;> rfl
@[simp] theorem State.eventIf_links (b : Bool) (off i : Nat) : (s.eventIf b off i).links = s.links := by unfold State.eventIf; split <;> rfl
@[simp] theorem State.eventIf_fabric (b : Bool) (off i : Nat) : (s.eventIf b off i).fabric = s.fabric := by unfold State.eventIf; split <;> rfl
@[simp] theorem State.eventIf_stores (b : Bool) (off i : Nat) : (s.eventIf b off i).stores = s.stores := by unfold State.eventIf; split <;> rfl
@[simp] theorem State.eventIf_poison (b : Bool) (off i : Nat) : (s.eventIf b off i).poison = s.poison := by unfold State.eventIf; split <;> rfl
@[simp] theorem State.eventIf_bolts (b : Bool) (off i : Nat) : (s.eventIf b off i).bolts = s.bolts := by unfold State.eventIf; split <;> rfl
@[simp] theorem State.eventIf_stack (b : Bool) (off i : Nat) : (s.eventIf b off i).stack = s.stack := by unfold State.eventIf; split <;> rfl
@[simp] theorem State.eventIf_lp (b : Bool) (off i : Nat) : (s.eventIf b off i).lp = s.lp := by unfold State.eventIf; split <;> rfl
@[simp] theorem State.eventIf_flash (b : Bool) (off i : Nat) : (s.eventIf b off i).flash = s.flash := by unfold State.eventIf; split <;> rfl
@[simp] theorem State.eventIf_rings (b : Bool) (off i : Nat) : (s.eventIf b off i).rings = s.rings := by unfold State.eventIf; split <;> rfl
@[simp] theorem State.eventIf_chk (b : Bool) (off i : Nat) : (s.eventIf b off i).chk = s.chk := by unfold State.eventIf; split <;> rfl
@[simp] theorem State.eventIf_media (b : Bool) (off i : Nat) : (s.eventIf b off i).media = s.media := by unfold State.eventIf; split <;> rfl
@[simp] theorem State.eventIf_opt (b : Bool) (off i : Nat) : (s.eventIf b off i).opt = s.opt := by unfold State.eventIf; split <;> rfl
@[simp] theorem State.eventIf_rst (b : Bool) (off i : Nat) : (s.eventIf b off i).rst = s.rst := by unfold State.eventIf; split <;> rfl
@[simp] theorem State.eventIf_clk (b : Bool) (off i : Nat) : (s.eventIf b off i).clk = s.clk := by unfold State.eventIf; split <;> rfl
@[simp] theorem State.eventIf_pwr (b : Bool) (off i : Nat) : (s.eventIf b off i).pwr = s.pwr := by unfold State.eventIf; split <;> rfl
@[simp] theorem State.eventIf_mgmt (b : Bool) (off i : Nat) : (s.eventIf b off i).mgmt = s.mgmt := by unfold State.eventIf; split <;> rfl
@[simp] theorem State.eventIf_out (b : Bool) (off i : Nat) : (s.eventIf b off i).out = s.out := by unfold State.eventIf; split <;> rfl
@[simp] theorem State.eventIf_fresh (b : Bool) (off i : Nat) : (s.eventIf b off i).fresh = s.fresh := by unfold State.eventIf; split <;> rfl
@[simp] theorem State.eventIf_pending (b : Bool) (off i : Nat) : (s.eventIf b off i).pending = s.pending := by unfold State.eventIf; split <;> rfl

@[simp] theorem State.draw_regs : s.draw.2.regs = s.regs := rfl
@[simp] theorem State.draw_latches : s.draw.2.latches = s.latches := rfl
@[simp] theorem State.draw_tick : s.draw.2.tick = s.tick := rfl
@[simp] theorem State.draw_ctxs : s.draw.2.ctxs = s.ctxs := rfl
@[simp] theorem State.draw_units : s.draw.2.units = s.units := rfl
@[simp] theorem State.draw_links : s.draw.2.links = s.links := rfl
@[simp] theorem State.draw_fabric : s.draw.2.fabric = s.fabric := rfl
@[simp] theorem State.draw_stores : s.draw.2.stores = s.stores := rfl
@[simp] theorem State.draw_poison : s.draw.2.poison = s.poison := rfl
@[simp] theorem State.draw_bolts : s.draw.2.bolts = s.bolts := rfl
@[simp] theorem State.draw_stack : s.draw.2.stack = s.stack := rfl
@[simp] theorem State.draw_lp : s.draw.2.lp = s.lp := rfl
@[simp] theorem State.draw_flash : s.draw.2.flash = s.flash := rfl
@[simp] theorem State.draw_rings : s.draw.2.rings = s.rings := rfl
@[simp] theorem State.draw_chk : s.draw.2.chk = s.chk := rfl
@[simp] theorem State.draw_media : s.draw.2.media = s.media := rfl
@[simp] theorem State.draw_opt : s.draw.2.opt = s.opt := rfl
@[simp] theorem State.draw_rst : s.draw.2.rst = s.rst := rfl
@[simp] theorem State.draw_clk : s.draw.2.clk = s.clk := rfl
@[simp] theorem State.draw_pwr : s.draw.2.pwr = s.pwr := rfl
@[simp] theorem State.draw_mgmt : s.draw.2.mgmt = s.mgmt := by rfl
@[simp] theorem State.draw_out : s.draw.2.out = s.out := rfl
@[simp] theorem State.draw_pending : s.draw.2.pending = s.pending := rfl
@[simp] theorem State.draw_fresh : s.draw.2.fresh = s.fresh + 1 := rfl
@[simp] theorem State.draw_fst : s.draw.1 = s.fresh := rfl

/-! The updated field itself. -/

@[simp] theorem State.emit_out (o : Out) : (s.emit o).out = s.out ++ [o] := rfl
@[simp] theorem State.modTick_tick (f : Tick → Tick) : (s.modTick f).tick = f s.tick := rfl
@[simp] theorem State.modMedia_media (f : Media → Media) : (s.modMedia f).media = f s.media := rfl
@[simp] theorem State.modPwr_pwr (f : Power → Power) : (s.modPwr f).pwr = f s.pwr := rfl
@[simp] theorem State.eventIf_true (off i : Nat) : s.eventIf true off i = s.event off i := rfl
@[simp] theorem State.eventIf_false (off i : Nat) : s.eventIf false off i = s := rfl

/-- A register that was just written. -/
@[simp] theorem State.reg_setReg_self (off : Nat) (v : W32) : (s.setReg off v).reg off = v := tget_tput_self _ _ _

/-- Every other register keeps its value. -/
theorem State.reg_setReg_ne {off off2 : Nat} (v : W32) (h : off2 ≠ off) : (s.setReg off v).reg off2 = s.reg off2 := tget_tput_ne _ _ h

theorem State.reg_setReg (off off2 : Nat) (v : W32) : (s.setReg off v).reg off2 = if off2 = off then v else s.reg off2 := tget_tput _ _ _ _

/-- An event bit is set, and the bits beside it stand. -/
theorem State.reg_event (off i off2 : Nat) : (s.event off i).reg off2 = if off2 = off then s.reg off ||| (1#32 <<< i) else s.reg off2 := State.reg_setReg _ _ _ _

theorem State.reg_count (off off2 : Nat) : (s.count off).reg off2 = if off2 = off then satInc (s.reg off) else s.reg off2 := State.reg_setReg _ _ _ _

@[simp] theorem State.reg_setCtx (c : Nat) (x : Ctx) (off2 : Nat) : (s.setCtx c x).reg off2 = s.reg off2 := rfl
@[simp] theorem State.reg_modCtx (c : Nat) (f : Ctx → Ctx) (off2 : Nat) : (s.modCtx c f).reg off2 = s.reg off2 := rfl
@[simp] theorem State.reg_modHasp (c : Nat) (f : Hasp → Hasp) (off2 : Nat) : (s.modHasp c f).reg off2 = s.reg off2 := rfl
@[simp] theorem State.reg_modKv (c : Nat) (f : Kv → Kv) (off2 : Nat) : (s.modKv c f).reg off2 = s.reg off2 := rfl
@[simp] theorem State.reg_modIng (c : Nat) (f : Ingest → Ingest) (off2 : Nat) : (s.modIng c f).reg off2 = s.reg off2 := rfl
@[simp] theorem State.reg_modAdp (c : Nat) (f : Adapters → Adapters) (off2 : Nat) : (s.modAdp c f).reg off2 = s.reg off2 := rfl
@[simp] theorem State.reg_account (c n v : Nat) (off2 : Nat) : (s.account c n v).reg off2 = s.reg off2 := rfl
@[simp] theorem State.reg_modUnit (u : Nat) (f : UnitSt → UnitSt) (off2 : Nat) : (s.modUnit u f).reg off2 = s.reg off2 := rfl
@[simp] theorem State.reg_modLink (n : Nat) (f : Link → Link) (off2 : Nat) : (s.modLink n f).reg off2 = s.reg off2 := rfl
@[simp] theorem State.reg_modRing (fn : Nat) (f : Ring → Ring) (off2 : Nat) : (s.modRing fn f).reg off2 = s.reg off2 := rfl
@[simp] theorem State.reg_setBolt (b : Nat) (x : Bolt) (off2 : Nat) : (s.setBolt b x).reg off2 = s.reg off2 := rfl
@[simp] theorem State.reg_emit (o : Out) (off2 : Nat) : (s.emit o).reg off2 = s.reg off2 := rfl
@[simp] theorem State.reg_modTick (f : Tick → Tick) (off2 : Nat) : (s.modTick f).reg off2 = s.reg off2 := rfl
@[simp] theorem State.reg_modMedia (f : Media → Media) (off2 : Nat) : (s.modMedia f).reg off2 = s.reg off2 := rfl
@[simp] theorem State.reg_modEngine (e : Nat) (f : Engine → Engine) (off2 : Nat) : (s.modEngine e f).reg off2 = s.reg off2 := rfl
@[simp] theorem State.reg_modPwr (f : Power → Power) (off2 : Nat) : (s.modPwr f).reg off2 = s.reg off2 := rfl
@[simp] theorem State.reg_markPoison (c : Nat) (r : Region) (off2 : Nat) : (s.markPoison c r).reg off2 = s.reg off2 := rfl
@[simp] theorem State.reg_draw (off2 : Nat) : s.draw.2.reg off2 = s.reg off2 := rfl

@[simp] theorem State.ctx_setCtx_self (c : Nat) (x : Ctx) : (s.setCtx c x).ctx c = x := tget_tput_self _ _ _
theorem State.ctx_setCtx_ne (c : Nat) (x : Ctx) {c2 : Nat} (h : c2 ≠ c) : (s.setCtx c x).ctx c2 = s.ctx c2 := tget_tput_ne _ _ h
@[simp] theorem State.ctx_modCtx_self (c : Nat) (f : Ctx → Ctx) : (s.modCtx c f).ctx c = f (s.ctx c) := tget_tput_self _ _ _
theorem State.ctx_modCtx_ne (c : Nat) (f : Ctx → Ctx) {c2 : Nat} (h : c2 ≠ c) : (s.modCtx c f).ctx c2 = s.ctx c2 := tget_tput_ne _ _ h
@[simp] theorem State.hasp_modHasp_self (c : Nat) (f : Hasp → Hasp) : (s.modHasp c f).hasp c = f (s.hasp c) := by simp [State.modHasp, State.hasp]
theorem State.hasp_modHasp_ne (c : Nat) (f : Hasp → Hasp) {c2 : Nat} (h : c2 ≠ c) : (s.modHasp c f).hasp c2 = s.hasp c2 := by
  simp only [State.modHasp, State.hasp, State.ctx_modCtx_ne _ _ _ h]
@[simp] theorem State.unit_modUnit_self (u : Nat) (f : UnitSt → UnitSt) : (s.modUnit u f).unit u = f (s.unit u) := tget_tput_self _ _ _
theorem State.unit_modUnit_ne (u : Nat) (f : UnitSt → UnitSt) {v : Nat} (h : v ≠ u) : (s.modUnit u f).unit v = s.unit v := tget_tput_ne _ _ h
@[simp] theorem State.link_modLink_self (n : Nat) (f : Link → Link) : (s.modLink n f).link n = f (s.link n) := tget_tput_self _ _ _
theorem State.link_modLink_ne (n : Nat) (f : Link → Link) {m : Nat} (h : m ≠ n) : (s.modLink n f).link m = s.link m := tget_tput_ne _ _ h
@[simp] theorem State.ring_modRing_self (n : Nat) (f : Ring → Ring) : (s.modRing n f).ring n = f (s.ring n) := tget_tput_self _ _ _
theorem State.ring_modRing_ne (n : Nat) (f : Ring → Ring) {m : Nat} (h : m ≠ n) : (s.modRing n f).ring m = s.ring m := tget_tput_ne _ _ h
@[simp] theorem State.bolt_setBolt_self (b : Nat) (x : Bolt) : (s.setBolt b x).bolt b = x := tget_tput_self _ _ _
theorem State.bolt_setBolt_ne (b : Nat) (x : Bolt) {d : Nat} (h : d ≠ b) : (s.setBolt b x).bolt d = s.bolt d := tget_tput_ne _ _ h

end Sys2Proof.Machine
end

