-- ==== Sys2Proof/Laws/Mgmt.lean ====
section
/-! SUPPORT. What an operation leaves alone of the management controller: one lemma for every operation and every command that does not write its state. -/

set_option linter.all false

namespace Sys2Proof.Machine

theorem over_mgmt {α : Type} (s : State) (l : List α) (f : State → α → State) (h : ∀ s x, (f s x).mgmt = s.mgmt) : (s.over l f).mgmt = s.mgmt := by
  unfold State.over
  induction l generalizing s with
  | nil => rfl
  | cons a l ih => simp only [List.foldl_cons, ih, h]
theorem foldl_mgmt {α : Type} (l : List α) (f : State → α → State) (h : ∀ s x, (f s x).mgmt = s.mgmt) (s : State) : (l.foldl f s).mgmt = s.mgmt := over_mgmt s l f h
theorem ite_mgmt {c : Prop} [Decidable c] {a b : State} {m : Mgmt} (ha : a.mgmt = m) (hb : b.mgmt = m) : (if c then a else b).mgmt = m := by split <;> assumption
theorem via_mgmt (s : State) (o : Host.Outcome State Fault Refusal) (h : ∀ t, o = .next t → t.mgmt = s.mgmt) : (s.via o).mgmt = s.mgmt := by
  unfold State.via
  split
  · exact h _ rfl
  · rfl
theorem pair_mgmt {α : Type} {p : State × α} {u : State} {x : α} {s : State} (h : p.1.mgmt = s.mgmt) (e : p = (u, x)) : u.mgmt = s.mgmt := by subst e; exact h
theorem State.releaseRecord_mgmt (s : State) (fn : Nat) (opcode : Nat) (id : W64) : (State.releaseRecord s fn opcode id).mgmt = s.mgmt := by
  unfold State.releaseRecord; simp only [↓State.modRing_mgmt, ↓apply_ite State.mgmt, ite_self]
theorem State.loseEvent_mgmt (s : State) (fn : Nat) : (State.loseEvent s fn).mgmt = s.mgmt := by
  unfold State.loseEvent; simp only [↓State.count_mgmt, ↓State.event_mgmt, ↓apply_ite State.mgmt, ite_self]
theorem State.holdEntry_mgmt (s : State) (fn : Nat) (e : RingEntry) : (State.holdEntry s fn e).mgmt = s.mgmt := by
  unfold State.holdEntry; (try dsimp only); (repeat' split) <;> first | with_reducible rfl | (simp only [↓State.loseEvent_mgmt, ↓State.modRing_mgmt, ↓apply_ite State.mgmt, ite_self]; done) | (simp [↓State.loseEvent_mgmt, ↓State.modRing_mgmt, ↓apply_ite State.mgmt, ite_self]; done)
theorem State.countHost_mgmt (s : State) (fn : Nat) (n : Nat) : (State.countHost s fn n).mgmt = s.mgmt := by
  unfold State.countHost; (try dsimp only); (repeat' split) <;> first | with_reducible rfl | (simp only [↓State.account_mgmt, ↓apply_ite State.mgmt, ite_self]; done) | (simp [↓State.account_mgmt, ↓apply_ite State.mgmt, ite_self]; done)
theorem State.signal_mgmt (s : State) (fn : Nat) (v : Nat) : (State.signal s fn v).mgmt = s.mgmt := by
  unfold State.signal; simp only [↓State.emit_mgmt, ↓State.event_mgmt, ↓apply_ite State.mgmt, ite_self]
theorem State.irqEntry_mgmt (s : State) (fn : Nat) (v : Nat) : (State.irqEntry s fn v).mgmt = s.mgmt := by
  unfold State.irqEntry; simp only [↓State.modRing_mgmt, ↓State.signal_mgmt, ↓apply_ite State.mgmt, ite_self]
theorem State.writeEntry_mgmt (s : State) (fn : Nat) (e : RingEntry) : (State.writeEntry s fn e).mgmt = s.mgmt := by
  unfold State.writeEntry; simp only [↓State.countHost_mgmt, ↓State.emit_mgmt, ↓State.irqEntry_mgmt, ↓State.modRing_mgmt, ↓apply_ite State.mgmt, ite_self]
theorem State.ringPush_mgmt (s : State) (fn : Nat) (imm : Bool) (e : RingEntry) : (State.ringPush s fn imm e).mgmt = s.mgmt := by
  unfold State.ringPush; simp only [↓State.holdEntry_mgmt, ↓State.loseEvent_mgmt, ↓State.modRing_mgmt, ↓State.writeEntry_mgmt, ↓apply_ite State.mgmt, ite_self]
theorem State.finish_mgmt (s : State) (fn : Nat) (opcode : Nat) (id : W64) (quiet : Bool) (status : Nat) (result : Nat) (deferred : Bool) : (State.finish s fn opcode id quiet status result deferred).mgmt = s.mgmt := by
  unfold State.finish; simp only [↓State.modRing_mgmt, ↓State.releaseRecord_mgmt, ↓State.ringPush_mgmt, ↓apply_ite State.mgmt, ite_self]
theorem State.complete_mgmt (s : State) (fn : Nat) (opcode : Nat) (cmd : HostCmd) (status : Nat) : (State.complete s fn opcode cmd status).mgmt = s.mgmt := by
  unfold State.complete; simp only [↓State.finish_mgmt, ↓apply_ite State.mgmt, ite_self]
theorem State.dropPic_mgmt (s : State) (p : LivePic) : (State.dropPic s p).mgmt = s.mgmt := by
  unfold State.dropPic; simp only [↓State.complete_mgmt, ↓State.count_mgmt, ↓apply_ite State.mgmt, ite_self]
theorem State.modLive_mgmt (s : State) (st : Nat) (f : LiveStream → LiveStream) : (State.modLive s st f).mgmt = s.mgmt := by
  unfold State.modLive; simp only [↓State.modMedia_mgmt, ↓apply_ite State.mgmt, ite_self]
theorem State.skipToRap_mgmt (s : State) (st : Nat) : (State.skipToRap s st).mgmt = s.mgmt := by
  unfold State.skipToRap; (try dsimp only); (repeat' split) <;> first | with_reducible rfl | (simp only [↓State.dropPic_mgmt, ↓State.modLive_mgmt, ↓over_mgmt, ↓foldl_mgmt, ↓apply_ite State.mgmt, ite_self]; done) | (simp [↓State.dropPic_mgmt, ↓State.modLive_mgmt, ↓over_mgmt, ↓foldl_mgmt, ↓apply_ite State.mgmt, ite_self]; done)
theorem State.abandonPic_mgmt (s : State) (e : Nat) : (State.abandonPic s e).mgmt = s.mgmt := by
  unfold State.abandonPic; (try dsimp only); (repeat' split) <;> first | with_reducible rfl | (simp only [↓State.dropPic_mgmt, ↓State.event_mgmt, ↓State.modEngine_mgmt, ↓State.skipToRap_mgmt, ↓apply_ite State.mgmt, ite_self]; done) | (simp [↓State.dropPic_mgmt, ↓State.event_mgmt, ↓State.modEngine_mgmt, ↓State.skipToRap_mgmt, ↓apply_ite State.mgmt, ite_self]; done)
theorem State.landed_mgmt (s : State) (l : Nat) (p : Packet) : (State.landed s l p).mgmt = s.mgmt := by
  unfold State.landed; simp only [↓State.modLink_mgmt, ↓apply_ite State.mgmt, ite_self]
theorem State.accept_mgmt (s : State) (l : Nat) (b : Bytes) : (State.accept s l b).1.mgmt = s.mgmt := by
  unfold State.accept; (try dsimp only); (repeat' split) <;> first | with_reducible rfl | (simp only [↓State.count_mgmt, ↓State.landed_mgmt, ↓apply_ite State.mgmt, ite_self]; done) | (simp [↓State.count_mgmt, ↓State.landed_mgmt, ↓apply_ite State.mgmt, ite_self]; done)
theorem State.nextFlush_mgmt (s : State) : (State.nextFlush s).mgmt = s.mgmt := by
  unfold State.nextFlush; (try dsimp only); (repeat' split) <;> first | with_reducible rfl | (simp only [↓apply_ite State.mgmt, ite_self]; done) | (simp [↓apply_ite State.mgmt, ite_self]; done)
theorem State.acceptBlock_mgmt (s : State) (b : Nat) (data : Bytes) : (State.acceptBlock s b data).mgmt = s.mgmt := by
  unfold State.acceptBlock; simp only [↓State.nextFlush_mgmt, ↓apply_ite State.mgmt, ite_self]
theorem State.arrive_mgmt (s : State) : (State.arrive s).2.mgmt = s.mgmt := by
  unfold State.arrive; simp only [↓State.modMedia_mgmt, ↓apply_ite State.mgmt, ite_self]
theorem feedGo_mgmt (e : Nat) (a : Nat) (a2 : State) : (feedGo e a a2).mgmt = a2.mgmt := by
  induction a generalizing a2 with
  | zero => rfl
  | succ f ih =>
    unfold feedGo
    dsimp only
    repeat' split
    all_goals first | with_reducible rfl | exact (ih _).trans ((State.skipToRap_mgmt ..).trans ((State.dropPic_mgmt ..).trans (State.modLive_mgmt ..))) | simp only [↓State.modLive_mgmt, ↓State.modEngine_mgmt]
theorem State.feedEngines_mgmt (s : State) : (State.feedEngines s).mgmt = s.mgmt := by
  unfold State.feedEngines; (try dsimp only); (repeat' split) <;> first | with_reducible rfl | (simp only [↓feedGo_mgmt, ↓over_mgmt, ↓foldl_mgmt, ↓apply_ite State.mgmt, ite_self]; done) | (simp [↓feedGo_mgmt, ↓over_mgmt, ↓foldl_mgmt, ↓apply_ite State.mgmt, ite_self]; done)
theorem State.setPool_mgmt (s : State) (k : Nat) (l : List FrameBuf) : (State.setPool s k l).mgmt = s.mgmt := by
  unfold State.setPool; simp only [↓State.modMedia_mgmt, ↓apply_ite State.mgmt, ite_self]
theorem State.settleCap_mgmt (s : State) (c : Nat) : (State.settleCap s c).mgmt = s.mgmt := by
  unfold State.settleCap; simp only [↓State.modIng_mgmt, ↓apply_ite State.mgmt, ite_self]
theorem State.acceptRec_mgmt (s : State) (c : Nat) (r : IngRecord) (m : RecordMap) (scans : List HeaderScan) : (State.acceptRec s c r m scans).mgmt = s.mgmt := by
  unfold State.acceptRec; simp only [↓State.arrive_mgmt, ↓State.eventIf_mgmt, ↓State.feedEngines_mgmt, ↓State.modIng_mgmt, ↓State.setPool_mgmt, ↓State.settleCap_mgmt, ↓over_mgmt, ↓foldl_mgmt, ↓apply_ite State.mgmt, ite_self]
theorem State.begin_mgmt (s : State) (l : Nat) (p : Packet) : (State.begin s l p).mgmt = s.mgmt := by
  unfold State.begin; simp only [↓State.account_mgmt, ↓State.emit_mgmt, ↓State.modLink_mgmt, ↓apply_ite State.mgmt, ite_self]
theorem State.transmit_mgmt (s : State) (port : Nat) (l : Nat) (p : Packet) : (State.transmit s port l p).mgmt = s.mgmt := by
  unfold State.transmit; simp only [↓State.begin_mgmt, ↓apply_ite State.mgmt, ite_self]
theorem State.trySend_mgmt (s : State) (p : Packet) : (State.trySend s p).1.mgmt = s.mgmt := by
  unfold State.trySend; (try dsimp only); (repeat' split) <;> first | with_reducible rfl | (simp only [↓State.count_mgmt, ↓State.emit_mgmt, ↓State.transmit_mgmt, ↓apply_ite State.mgmt, ite_self]; done) | (simp [↓State.count_mgmt, ↓State.emit_mgmt, ↓State.transmit_mgmt, ↓apply_ite State.mgmt, ite_self]; done)
theorem State.sendRouted_mgmt (s : State) (p : Packet) : (State.sendRouted s p).mgmt = s.mgmt := by
  unfold State.sendRouted; simp only [↓State.trySend_mgmt, ↓apply_ite State.mgmt, ite_self]
theorem State.sendMirrorAck_mgmt (s : State) (c : Nat) (l : Nat) (pair : Nat) (gen : BitVec 16) (n : Nat) : (State.sendMirrorAck s c l pair gen n).mgmt = s.mgmt := by
  unfold State.sendMirrorAck; (try dsimp only); (repeat' split) <;> first | with_reducible rfl | (simp only [↓State.sendRouted_mgmt, ↓State.transmit_mgmt, ↓apply_ite State.mgmt, ite_self]; done) | (simp [↓State.sendRouted_mgmt, ↓State.transmit_mgmt, ↓apply_ite State.mgmt, ite_self]; done)
theorem State.ackMirror_mgmt (s : State) (c : Nat) (l : Nat) (pair : Nat) : (State.ackMirror s c l pair).mgmt = s.mgmt := by
  unfold State.ackMirror; simp only [↓State.modCtx_mgmt, ↓State.sendMirrorAck_mgmt, ↓apply_ite State.mgmt, ite_self]
theorem State.ackDetours_mgmt (s : State) : (State.ackDetours s).mgmt = s.mgmt := by
  unfold State.ackDetours; (try dsimp only); (repeat' split) <;> first | with_reducible rfl | (simp only [↓State.ackMirror_mgmt, ↓over_mgmt, ↓foldl_mgmt, ↓apply_ite State.mgmt, ite_self]; done) | (simp [↓State.ackMirror_mgmt, ↓over_mgmt, ↓foldl_mgmt, ↓apply_ite State.mgmt, ite_self]; done)
theorem State.addExpect_mgmt (s : State) (x : Expect) : (State.addExpect s x).mgmt = s.mgmt := by
  unfold State.addExpect; (try dsimp only); (repeat' split) <;> first | with_reducible rfl | (simp only [↓apply_ite State.mgmt, ite_self]; done) | (simp [↓apply_ite State.mgmt, ite_self]; done)
theorem State.countTier_mgmt (s : State) (c : Nat) (space : Nat) (n : Nat) : (State.countTier s c space n).mgmt = s.mgmt := by
  unfold State.countTier; simp only [↓State.account_mgmt, ↓apply_ite State.mgmt, ite_self]
theorem State.escapeBytes_mgmt (s : State) (es : List MemErr) : (State.escapeBytes s es).mgmt = s.mgmt := by
  unfold State.escapeBytes; (try dsimp only); (repeat' split) <;> first | with_reducible rfl | (simp only [↓over_mgmt, ↓foldl_mgmt, ↓apply_ite State.mgmt, ite_self]; done) | (simp [↓over_mgmt, ↓foldl_mgmt, ↓apply_ite State.mgmt, ite_self]; done)
theorem State.putRecord_mgmt (s : State) (r : HistRec) : (State.putRecord s r).mgmt = s.mgmt := by
  unfold State.putRecord; (try dsimp only); (repeat' split) <;> first | with_reducible rfl | (simp only [↓State.count_mgmt, ↓State.event_mgmt, ↓apply_ite State.mgmt, ite_self]; done) | (simp [↓State.count_mgmt, ↓State.event_mgmt, ↓apply_ite State.mgmt, ite_self]; done)
theorem State.platformEvent_mgmt (s : State) (n : Nat) (data : Nat) : (State.platformEvent s n data).mgmt = s.mgmt := by
  unfold State.platformEvent; (try dsimp only); (repeat' split) <;> first | with_reducible rfl | (simp only [↓State.emit_mgmt, ↓apply_ite State.mgmt, ite_self]; done) | (simp [↓State.emit_mgmt, ↓apply_ite State.mgmt, ite_self]; done)
theorem State.degradeWard_mgmt (s : State) (w : Nat) (kind : Nat) (unit : Nat) : (State.degradeWard s w kind unit).mgmt = s.mgmt := by
  unfold State.degradeWard; simp only [↓State.event_mgmt, ↓State.platformEvent_mgmt, ↓State.putRecord_mgmt, ↓apply_ite State.mgmt, ite_self]
theorem State.admitStream_mgmt (s : State) (st : Nat) (other : Nat) : (State.admitStream s st other).1.mgmt = s.mgmt := by
  unfold State.admitStream; (try dsimp only); (repeat' split) <;> first | with_reducible rfl | (simp only [↓State.modEngine_mgmt, ↓State.modLive_mgmt, ↓apply_ite State.mgmt, ite_self]; done) | (simp [↓State.modEngine_mgmt, ↓State.modLive_mgmt, ↓apply_ite State.mgmt, ite_self]; done)
theorem State.dropWaiting_mgmt (s : State) (st : Nat) : (State.dropWaiting s st).mgmt = s.mgmt := by
  unfold State.dropWaiting; (try dsimp only); (repeat' split) <;> first | with_reducible rfl | (simp only [↓State.dropPic_mgmt, ↓State.modLive_mgmt, ↓over_mgmt, ↓foldl_mgmt, ↓apply_ite State.mgmt, ite_self]; done) | (simp [↓State.dropPic_mgmt, ↓State.modLive_mgmt, ↓over_mgmt, ↓foldl_mgmt, ↓apply_ite State.mgmt, ite_self]; done)
theorem State.releaseStream_mgmt (s : State) (st : Nat) : (State.releaseStream s st).mgmt = s.mgmt := by
  unfold State.releaseStream; simp only [↓State.modEngine_mgmt, ↓apply_ite State.mgmt, ite_self]
theorem State.readmit_mgmt (s : State) (st : Nat) : (State.readmit s st).mgmt = s.mgmt := by
  unfold State.readmit
  have hm := State.admitStream_mgmt (s.releaseStream st) st 3
  rw [State.releaseStream_mgmt] at hm
  split
  · rename_i u hu; rw [hu] at hm; exact hm
  · rename_i u hu; rw [hu] at hm
    simp only [↓State.dropWaiting_mgmt, ↓State.event_mgmt]; exact hm
theorem State.engineOut_mgmt (s : State) (e : Nat) : (State.engineOut s e).mgmt = s.mgmt := by
  unfold State.engineOut; (try dsimp only); (repeat' split) <;> first | with_reducible rfl | (simp only [↓State.abandonPic_mgmt, ↓State.event_mgmt, ↓State.modEngine_mgmt, ↓State.readmit_mgmt, ↓over_mgmt, ↓foldl_mgmt, ↓apply_ite State.mgmt, ite_self]; done) | (simp [↓State.abandonPic_mgmt, ↓State.event_mgmt, ↓State.modEngine_mgmt, ↓State.readmit_mgmt, ↓over_mgmt, ↓foldl_mgmt, ↓apply_ite State.mgmt, ite_self]; done)
theorem State.classAction_mgmt (s : State) (kind : Nat) (unit : Nat) (cls : Nat) : (State.classAction s kind unit cls).mgmt = s.mgmt := by
  unfold State.classAction; simp only [↓State.degradeWard_mgmt, ↓State.engineOut_mgmt, ↓apply_ite State.mgmt, ite_self]
theorem State.reclass_mgmt (s : State) (kind : Nat) (unit : Nat) : (State.reclass s kind unit).mgmt = s.mgmt := by
  unfold State.reclass; simp only [↓State.classAction_mgmt, ↓apply_ite State.mgmt, ite_self]
theorem State.unitEvent_mgmt (s : State) (kind : Nat) (unit : Nat) (code : Nat) (reproduced : Bool) (tag : Option (Nat × Nat)) : (State.unitEvent s kind unit code reproduced tag).mgmt = s.mgmt := by
  unfold State.unitEvent; simp only [↓State.putRecord_mgmt, ↓State.reclass_mgmt, ↓apply_ite State.mgmt, ite_self]
theorem State.laneCount_mgmt (s : State) (vault : Nat) (sym : Nat) (row : Nat) : (State.laneCount s vault sym row).mgmt = s.mgmt := by
  unfold State.laneCount; simp only [↓State.event_mgmt, ↓State.unitEvent_mgmt, ↓apply_ite State.mgmt, ite_self]
theorem State.beatLanes_mgmt (s : State) (e : MemErr) : (State.beatLanes s e).mgmt = s.mgmt := by
  unfold State.beatLanes; (try dsimp only); (repeat' split) <;> first | with_reducible rfl | (simp only [↓State.laneCount_mgmt, ↓over_mgmt, ↓foldl_mgmt, ↓apply_ite State.mgmt, ite_self]; done) | (simp [↓State.laneCount_mgmt, ↓over_mgmt, ↓foldl_mgmt, ↓apply_ite State.mgmt, ite_self]; done)
theorem State.correction_mgmt (s : State) (kind : Nat) (unit : Nat) : (State.correction s kind unit).mgmt = s.mgmt := by rfl
theorem State.setErrLoc_mgmt (s : State) (a : Nat) (ue : Bool) : (State.setErrLoc s a ue).mgmt = s.mgmt := by
  unfold State.setErrLoc; simp only [↓State.setRegN_mgmt, ↓apply_ite State.mgmt, ite_self]
theorem State.dramCe_mgmt (s : State) (e : MemErr) : (State.dramCe s e).mgmt = s.mgmt := by
  unfold State.dramCe; simp only [↓State.correction_mgmt, ↓State.count_mgmt, ↓State.event_mgmt, ↓State.setErrLoc_mgmt, ↓apply_ite State.mgmt, ite_self]
theorem State.remapRecord_mgmt (s : State) (row : Nat) (spare : Nat) (code : Nat) : (State.remapRecord s row spare code).mgmt = s.mgmt := by
  unfold State.remapRecord; simp only [↓State.putRecord_mgmt, ↓apply_ite State.mgmt, ite_self]
theorem State.pendRow_mgmt (s : State) (row : Nat) : (State.pendRow s row).mgmt = s.mgmt := by
  unfold State.pendRow; simp only [↓State.remapRecord_mgmt, ↓apply_ite State.mgmt, ite_self]
theorem State.dramUe_mgmt (s : State) (a : Nat) : (State.dramUe s a).mgmt = s.mgmt := by
  unfold State.dramUe; simp only [↓State.count_mgmt, ↓State.event_mgmt, ↓State.pendRow_mgmt, ↓State.setErrLoc_mgmt, ↓State.unitEvent_mgmt, ↓apply_ite State.mgmt, ite_self]
theorem State.noteBeat_mgmt (s : State) (e : MemErr) (b : Beat) : (State.noteBeat s e b).mgmt = s.mgmt := by
  unfold State.noteBeat; (try dsimp only); (repeat' split) <;> first | with_reducible rfl | (simp only [↓State.beatLanes_mgmt, ↓State.correction_mgmt, ↓State.dramCe_mgmt, ↓State.dramUe_mgmt, ↓over_mgmt, ↓foldl_mgmt, ↓apply_ite State.mgmt, ite_self]; done) | (simp [↓State.beatLanes_mgmt, ↓State.correction_mgmt, ↓State.dramCe_mgmt, ↓State.dramUe_mgmt, ↓over_mgmt, ↓foldl_mgmt, ↓apply_ite State.mgmt, ite_self]; done)
theorem State.dramErrs_mgmt (s : State) (es : List MemErr) : (State.dramErrs s es).mgmt = s.mgmt := by
  unfold State.dramErrs; (try dsimp only); (repeat' split) <;> first | with_reducible rfl | (simp only [↓State.draw_mgmt, ↓State.noteBeat_mgmt, ↓over_mgmt, ↓foldl_mgmt, ↓apply_ite State.mgmt, ite_self]; done) | (simp [↓State.draw_mgmt, ↓State.noteBeat_mgmt, ↓over_mgmt, ↓foldl_mgmt, ↓apply_ite State.mgmt, ite_self]; done)
theorem State.lpUe_mgmt (s : State) (channel : Nat) : (State.lpUe s channel).mgmt = s.mgmt := by
  unfold State.lpUe; simp only [↓State.count_mgmt, ↓State.event_mgmt, ↓State.unitEvent_mgmt, ↓apply_ite State.mgmt, ite_self]
theorem State.lpErrs_mgmt (s : State) (es : List LpErr) : (State.lpErrs s es).mgmt = s.mgmt := by
  unfold State.lpErrs; (try dsimp only); (repeat' split) <;> first | with_reducible rfl | (simp only [↓State.correction_mgmt, ↓State.count_mgmt, ↓State.lpUe_mgmt, ↓over_mgmt, ↓foldl_mgmt, ↓apply_ite State.mgmt, ite_self]; done) | (simp [↓State.correction_mgmt, ↓State.count_mgmt, ↓State.lpUe_mgmt, ↓over_mgmt, ↓foldl_mgmt, ↓apply_ite State.mgmt, ite_self]; done)
theorem State.sramErrs_mgmt (s : State) (es : List SramErr) (tag : Option (Nat × Nat)) : (State.sramErrs s es tag).mgmt = s.mgmt := by
  unfold State.sramErrs; (try dsimp only); (repeat' split) <;> first | with_reducible rfl | (simp only [↓State.correction_mgmt, ↓State.unitEvent_mgmt, ↓over_mgmt, ↓foldl_mgmt, ↓apply_ite State.mgmt, ite_self]; done) | (simp [↓State.correction_mgmt, ↓State.unitEvent_mgmt, ↓over_mgmt, ↓foldl_mgmt, ↓apply_ite State.mgmt, ite_self]; done)
theorem State.noteErrs_mgmt (s : State) (es : ReadErrs) : (State.noteErrs s es).mgmt = s.mgmt := by
  unfold State.noteErrs; simp only [↓State.dramErrs_mgmt, ↓State.lpErrs_mgmt, ↓State.sramErrs_mgmt, ↓apply_ite State.mgmt, ite_self]
theorem State.pushStream_mgmt (s : State) (errs : ReadErrs) (x : Stream) : (State.pushStream s errs x).1.mgmt = s.mgmt := by
  unfold State.pushStream; (try dsimp only); (repeat' split) <;> first | with_reducible rfl | (simp only [↓State.countTier_mgmt, ↓State.escapeBytes_mgmt, ↓State.noteErrs_mgmt, ↓State.trySend_mgmt, ↓apply_ite State.mgmt, ite_self]; done) | (simp [↓State.countTier_mgmt, ↓State.escapeBytes_mgmt, ↓State.noteErrs_mgmt, ↓State.trySend_mgmt, ↓apply_ite State.mgmt, ite_self]; done)
theorem State.addStream_mgmt (s : State) (x : Stream) : (State.addStream s x).mgmt = s.mgmt := by
  unfold State.addStream; simp only [↓State.pushStream_mgmt, ↓apply_ite State.mgmt, ite_self]
theorem State.adjustDurable_mgmt (s : State) (c : Nat) : (State.adjustDurable s c).mgmt = s.mgmt := by
  unfold State.adjustDurable; simp only [↓State.event_mgmt, ↓State.setRegN_mgmt, ↓apply_ite State.mgmt, ite_self]
theorem State.takeCmd_mgmt (s : State) (fn : Nat) (opcode : Nat) (cmd : HostCmd) (t : State) (h : State.takeCmd s fn opcode cmd = some t) : t.mgmt = s.mgmt := by
  unfold State.takeCmd at h; (try dsimp only at h); (repeat' split at h) <;> (first  | contradiction | (obtain rfl := Option.some.inj h; first | with_reducible rfl | (simp only [↓State.modRing_mgmt, ↓apply_ite State.mgmt, ite_self]; done) | (simp [↓State.modRing_mgmt, ↓apply_ite State.mgmt, ite_self]; done) | (rename_i heq; have hk := congrArg (fun q => q.1.mgmt) heq; simp only [↓State.modRing_mgmt] at hk; simp only [↓State.modRing_mgmt, ↓apply_ite State.mgmt, ite_self]; exact hk.symm)))
theorem State.adminCmd_mgmt (s : State) (fn : Nat) (opcode : Nat) (cmd : HostCmd) (f : State → State) (h4 : ∀ (x0 : State), State.mgmt (f x0) = State.mgmt x0) (t : State) (h : State.adminCmd s fn opcode cmd f = .next t) : t.mgmt = s.mgmt := by
  unfold State.adminCmd at h
  split at h
  · injection h with h; subst h; rfl
  · rename_i u hu
    have hm := State.takeCmd_mgmt s fn opcode cmd u hu
    split at h <;> injection h with h <;> subst h
    · rw [h4, hm]
    · rw [State.complete_mgmt, hm]
theorem State.answers_mgmt (s : State) (f : State → State) (h1 : ∀ (x0 : State), State.mgmt (f x0) = State.mgmt x0) (t : State) (h : State.answers s f = .next t) : t.mgmt = s.mgmt := by
  unfold State.answers at h; (try dsimp only at h); (repeat' split at h) <;> (first  | contradiction | (obtain rfl := Host.Outcome.next.inj h; first | with_reducible rfl | (simp only [↓h1, ↓apply_ite State.mgmt, ite_self]; done) | (simp [↓h1, ↓apply_ite State.mgmt, ite_self]; done) | (rename_i heq; have hk := congrArg (fun q => q.1.mgmt) heq; simp only [↓h1] at hk; simp only [↓h1, ↓apply_ite State.mgmt, ite_self]; exact hk.symm)))
theorem State.afterNegotiation_mgmt (s : State) (f : State → State) (h1 : ∀ (x0 : State), State.mgmt (f x0) = State.mgmt x0) (t : State) (h : State.afterNegotiation s f = .next t) : t.mgmt = s.mgmt := by
  unfold State.afterNegotiation at h; (try dsimp only at h); refine State.answers_mgmt (t := t) (h := h) (h1 := ?_) .. <;> (intros; first | (with_reducible rfl) | (simp only [↓State.emit_mgmt, ↓apply_ite State.mgmt, ite_self, ↓h1]; done) | (simp [↓State.emit_mgmt, ↓apply_ite State.mgmt, ite_self, ↓h1]; done) | ((try dsimp only); (repeat' split) <;> (first | (with_reducible rfl) | (simp only [↓State.emit_mgmt, ↓apply_ite State.mgmt, ite_self, ↓h1]; done) | (simp [↓State.emit_mgmt, ↓apply_ite State.mgmt, ite_self, ↓h1]; done))))
theorem State.markAll_mgmt (s : State) (c : Nat) (rs : List Region) : (State.markAll s c rs).mgmt = s.mgmt := by
  unfold State.markAll; (try dsimp only); (repeat' split) <;> first | with_reducible rfl | (simp only [↓State.markPoison_mgmt, ↓over_mgmt, ↓foldl_mgmt, ↓apply_ite State.mgmt, ite_self]; done) | (simp [↓State.markPoison_mgmt, ↓over_mgmt, ↓foldl_mgmt, ↓apply_ite State.mgmt, ite_self]; done)
theorem State.postEvent_mgmt (s : State) (c : Nat) (ty : Nat) (status : Nat) (epoch : Nat) (detailA : Nat) (detailB : Nat) : (State.postEvent s c ty status epoch detailA detailB).mgmt = s.mgmt := by
  unfold State.postEvent; simp only [↓State.ringPush_mgmt, ↓apply_ite State.mgmt, ite_self]
theorem State.opFault_mgmt (s : State) (c : Nat) (u : Nat) (id : Nat) (code : Nat) : (State.opFault s c u id code).mgmt = s.mgmt := by
  unfold State.opFault; simp only [↓State.count_mgmt, ↓State.postEvent_mgmt, ↓State.setRegN_mgmt, ↓apply_ite State.mgmt, ite_self]
theorem State.memErrorEvent_mgmt (s : State) (c : Nat) : (State.memErrorEvent s c).mgmt = s.mgmt := by
  unfold State.memErrorEvent; simp only [↓State.postEvent_mgmt, ↓apply_ite State.mgmt, ite_self]
theorem State.readFaults_mgmt (s : State) (c : Nat) (es : ReadErrs) (reads : List Region) (outs : List Region) : (State.readFaults s c es reads outs).mgmt = s.mgmt := by
  unfold State.readFaults; simp only [↓State.dramErrs_mgmt, ↓State.eventIf_mgmt, ↓State.lpErrs_mgmt, ↓State.markAll_mgmt, ↓State.memErrorEvent_mgmt, ↓apply_ite State.mgmt, ite_self]
theorem State.unclean_mgmt (s : State) (c : Nat) : (State.unclean s c).mgmt = s.mgmt := by
  unfold State.unclean; simp only [↓State.modHasp_mgmt, ↓apply_ite State.mgmt, ite_self]
theorem State.sramFaults_mgmt (s : State) (c : Nat) (u : Nat) (id : Nat) (es : List SramErr) (outs : List Region) : (State.sramFaults s c u id es outs).mgmt = s.mgmt := by
  unfold State.sramFaults; simp only [↓State.markAll_mgmt, ↓State.opFault_mgmt, ↓State.sramErrs_mgmt, ↓State.unclean_mgmt, ↓apply_ite State.mgmt, ite_self]
theorem State.sendMsg_mgmt (s : State) (dst : Nat) (c : Option Nat) (payload : Bytes) : (State.sendMsg s dst c payload).mgmt = s.mgmt := by
  unfold State.sendMsg; simp only [↓State.sendRouted_mgmt, ↓apply_ite State.mgmt, ite_self]
theorem State.permanence_mgmt (s : State) (kind : Nat) (unit : Nat) (ward : Nat) : (State.permanence s kind unit ward).mgmt = s.mgmt := by
  unfold State.permanence; simp only [↓State.sendMsg_mgmt, ↓apply_ite State.mgmt, ite_self]
theorem State.makePermanent_mgmt (s : State) (kind : Nat) (unit : Nat) : (State.makePermanent s kind unit).mgmt = s.mgmt := by
  unfold State.makePermanent; simp only [↓State.classAction_mgmt, ↓State.permanence_mgmt, ↓apply_ite State.mgmt, ite_self]
theorem State.noteMismatch_mgmt (s : State) (c : Nat) (kind : Nat) (id : Nat) (punit : Nat) : (State.noteMismatch s c kind id punit).mgmt = s.mgmt := by rfl
theorem State.setLast_mgmt (s : State) (u : Nat) (id : Nat) : (State.setLast s u id).mgmt = s.mgmt := by
  unfold State.setLast; simp only [↓State.setRegN_mgmt, ↓apply_ite State.mgmt, ite_self]
theorem State.sumMismatch_mgmt (s : State) (c : Nat) (u : Nat) (id : Nat) (lane : Bool) (outs : List Region) : (State.sumMismatch s c u id lane outs).mgmt = s.mgmt := by
  unfold State.sumMismatch; simp only [↓State.count_mgmt, ↓State.event_mgmt, ↓State.makePermanent_mgmt, ↓State.markAll_mgmt, ↓State.noteMismatch_mgmt, ↓State.opFault_mgmt, ↓State.setLast_mgmt, ↓State.unclean_mgmt, ↓State.unitEvent_mgmt, ↓apply_ite State.mgmt, ite_self]
theorem State.setStore_mgmt (s : State) (space : Nat) (unit : Nat) (m : Mem) : (State.setStore s space unit m).mgmt = s.mgmt := by
  unfold State.setStore; (try dsimp only); (repeat' split) <;> first | with_reducible rfl | (simp only [↓apply_ite State.mgmt, ite_self]; done) | (simp [↓apply_ite State.mgmt, ite_self]; done)
theorem State.wrRaw_mgmt (s : State) (c : Nat) (space : Nat) (unit : Nat) (a : Nat) (b : Bytes) : (State.wrRaw s c space unit a b).mgmt = s.mgmt := by
  unfold State.wrRaw; simp only [↓State.setStore_mgmt, ↓over_mgmt, ↓foldl_mgmt, ↓apply_ite State.mgmt, ite_self]
theorem State.wr_mgmt (s : State) (c : Nat) (space : Nat) (unit : Nat) (a : Nat) (b : Bytes) : (State.wr s c space unit a b).mgmt = s.mgmt := by
  unfold State.wr; simp only [↓State.event_mgmt, ↓State.markPoison_mgmt, ↓State.wrRaw_mgmt, ↓apply_ite State.mgmt, ite_self]
theorem State.afterRun_mgmt (s : State) (c : Nat) (u : Nat) (r : Bytes) (env : RunEnv) (reads : List Region) (outs : List Region) (o : RunOut) : (State.afterRun s c u r env reads outs o).mgmt = s.mgmt := by
  unfold State.afterRun; (try dsimp only); (repeat' split) <;> first | with_reducible rfl | (simp only [↓State.account_mgmt, ↓State.count_mgmt, ↓State.event_mgmt, ↓State.markAll_mgmt, ↓State.modUnit_mgmt, ↓State.opFault_mgmt, ↓State.postEvent_mgmt, ↓State.readFaults_mgmt, ↓State.sramFaults_mgmt, ↓State.sumMismatch_mgmt, ↓State.wr_mgmt, ↓over_mgmt, ↓foldl_mgmt, ↓apply_ite State.mgmt, ite_self]; done) | (simp [↓State.account_mgmt, ↓State.count_mgmt, ↓State.event_mgmt, ↓State.markAll_mgmt, ↓State.modUnit_mgmt, ↓State.opFault_mgmt, ↓State.postEvent_mgmt, ↓State.readFaults_mgmt, ↓State.sramFaults_mgmt, ↓State.sumMismatch_mgmt, ↓State.wr_mgmt, ↓over_mgmt, ↓foldl_mgmt, ↓apply_ite State.mgmt, ite_self]; done)
theorem State.afterVerdict_mgmt (s : State) (q : UpCtx) (r : Bytes) (outs : List Region) : (State.afterVerdict s q r outs).mgmt = s.mgmt := by
  unfold State.afterVerdict; simp only [↓State.eventIf_mgmt, ↓State.markAll_mgmt, ↓State.modHasp_mgmt, ↓apply_ite State.mgmt, ite_self]
theorem State.afterWrites_mgmt (s : State) (c : Nat) (ws : List Wr) : (State.afterWrites s c ws).mgmt = s.mgmt := by
  unfold State.afterWrites; (try dsimp only); (repeat' split) <;> first | with_reducible rfl | (simp only [↓State.wrRaw_mgmt, ↓over_mgmt, ↓foldl_mgmt, ↓apply_ite State.mgmt, ite_self]; done) | (simp [↓State.wrRaw_mgmt, ↓over_mgmt, ↓foldl_mgmt, ↓apply_ite State.mgmt, ite_self]; done)
theorem State.mapRecord_mgmt (s : State) (w : Nat) (kind : Nat) (unit : Nat) : (State.mapRecord s w kind unit).mgmt = s.mgmt := by
  unfold State.mapRecord; simp only [↓State.putRecord_mgmt, ↓apply_ite State.mgmt, ite_self]
theorem State.compareMaps_mgmt (s : State) : (State.compareMaps s).mgmt = s.mgmt := by
  unfold State.compareMaps; dsimp only; (repeat' (first | (refine over_mgmt _ _ _ (fun s x => ?_)) | (refine (over_mgmt _ _ _ (fun s x => ?_)).trans ?_) | split)) <;> (first | (with_reducible rfl) | (simp only [↓State.mapRecord_mgmt, ↓State.platformEvent_mgmt, ↓over_mgmt, ↓foldl_mgmt]; done) | (simp [↓State.mapRecord_mgmt, ↓State.platformEvent_mgmt, ↓over_mgmt, ↓foldl_mgmt]; done) | (dsimp only; split <;> first | (with_reducible rfl) | simp [↓State.mapRecord_mgmt, ↓State.platformEvent_mgmt, ↓over_mgmt, ↓foldl_mgmt]))
theorem State.setMap_mgmt (s : State) (w : Nat) (m : TileMap) : (State.setMap s w m).mgmt = s.mgmt := by rfl
theorem State.fenceTile_mgmt (s : State) (w : Nat) (p : Nat) : (State.fenceTile s w p).mgmt = s.mgmt := by
  unfold State.fenceTile; (try dsimp only); (repeat' split) <;> first | with_reducible rfl | (simp only [↓State.classAction_mgmt, ↓State.event_mgmt, ↓State.mapRecord_mgmt, ↓State.putRecord_mgmt, ↓State.setMap_mgmt, ↓over_mgmt, ↓foldl_mgmt, ↓apply_ite State.mgmt, ite_self]; done) | (simp [↓State.classAction_mgmt, ↓State.event_mgmt, ↓State.mapRecord_mgmt, ↓State.putRecord_mgmt, ↓State.setMap_mgmt, ↓over_mgmt, ↓foldl_mgmt, ↓apply_ite State.mgmt, ite_self]; done)
theorem State.clearClass_mgmt (s : State) (kind : Nat) (unit : Nat) : (State.clearClass s kind unit).mgmt = s.mgmt := by
  unfold State.clearClass; simp only [↓State.mapRecord_mgmt, ↓apply_ite State.mgmt, ite_self]
theorem State.dropAction_mgmt (s : State) (k : Nat) : (State.dropAction s k).mgmt = s.mgmt := by rfl
theorem State.restoreTile_mgmt (s : State) (w : Nat) (p : Nat) : (State.restoreTile s w p).mgmt = s.mgmt := by
  unfold State.restoreTile; simp only [↓State.mapRecord_mgmt, ↓State.setMap_mgmt, ↓apply_ite State.mgmt, ite_self]
theorem actionsGo_mgmt (a : List (Nat × Nat)) (a1 : List Nat) (a2 : State) : (actionsGo a a1 a2).mgmt = a2.mgmt := by
  induction a generalizing a1 a2 with
  | nil => rfl
  | cons p t ih =>
    obtain ⟨k, x⟩ := p
    unfold actionsGo
    dsimp only
    repeat' split
    all_goals first
      | exact (ih ..).trans ((State.fenceTile_mgmt ..).trans (State.dropAction_mgmt ..))
      | exact (ih ..).trans ((State.restoreTile_mgmt ..).trans (State.dropAction_mgmt ..))
      | exact (ih ..).trans ((State.clearClass_mgmt ..).trans (State.dropAction_mgmt ..))
      | exact (ih ..).trans (State.dropAction_mgmt ..)
      | exact ih ..
theorem State.fenceBoundary_mgmt (s : State) : (State.fenceBoundary s).mgmt = s.mgmt := by
  unfold State.fenceBoundary; (try dsimp only); (repeat' split) <;> first | with_reducible rfl | (simp only [↓State.compareMaps_mgmt, ↓State.fenceTile_mgmt, ↓actionsGo_mgmt, ↓over_mgmt, ↓foldl_mgmt, ↓apply_ite State.mgmt, ite_self]; done) | (simp [↓State.compareMaps_mgmt, ↓State.fenceTile_mgmt, ↓actionsGo_mgmt, ↓over_mgmt, ↓foldl_mgmt, ↓apply_ite State.mgmt, ite_self]; done)
theorem State.allowedBoundary_mgmt (s : State) (com : Bool) : (State.allowedBoundary s com).mgmt = s.mgmt := by
  unfold State.allowedBoundary; simp only [↓State.fenceBoundary_mgmt, ↓apply_ite State.mgmt, ite_self]
theorem State.answer_mgmt (s : State) (q : Packet) (opcode : Nat) (payload : Bytes) : (State.answer s q opcode payload).mgmt = s.mgmt := by
  unfold State.answer; simp only [↓State.sendRouted_mgmt, ↓apply_ite State.mgmt, ite_self]
theorem State.answerError_mgmt (s : State) (q : Packet) (code : Nat) : (State.answerError s q code).mgmt = s.mgmt := by
  unfold State.answerError; simp only [↓State.answer_mgmt, ↓apply_ite State.mgmt, ite_self]
theorem State.answerGone_mgmt (s : State) : (State.answerGone s).mgmt = s.mgmt := by
  unfold State.answerGone
  dsimp only
  refine (over_mgmt _ _ _ (fun s x => ?_)).trans ((over_mgmt _ _ _ (fun s x => ?_)).trans (over_mgmt _ _ _ (fun s x => ?_)))
  · split
    · exact (State.complete_mgmt ..).trans (State.modMedia_mgmt ..)
    · rfl
  · exact ite_mgmt (over_mgmt _ _ _ (fun s x => State.complete_mgmt ..)) ((State.modLive_mgmt ..).trans (over_mgmt _ _ _ (fun s x => State.complete_mgmt ..)))
  · exact (State.modIng_mgmt ..).trans (over_mgmt _ _ _ (fun s x => State.complete_mgmt ..))
theorem State.dirty_mgmt (s : State) (c : Nat) (space : Nat) (unit : Nat) (a : Nat) (n : Nat) : (State.dirty s c space unit a n).mgmt = s.mgmt := by
  unfold State.dirty; simp only [↓State.modCtx_mgmt, ↓apply_ite State.mgmt, ite_self]
theorem State.writeLate_mgmt (s : State) (c : Nat) : (State.writeLate s c).mgmt = s.mgmt := by
  unfold State.writeLate; (try dsimp only); (repeat' split) <;> first | with_reducible rfl | (simp only [↓State.dirty_mgmt, ↓State.markPoison_mgmt, ↓State.wrRaw_mgmt, ↓apply_ite State.mgmt, ite_self]; done) | (simp [↓State.dirty_mgmt, ↓State.markPoison_mgmt, ↓State.wrRaw_mgmt, ↓apply_ite State.mgmt, ite_self]; done)
theorem State.appendLate_mgmt (s : State) (c : Nat) (e : LateEntry) : (State.appendLate s c e).mgmt = s.mgmt := by
  unfold State.appendLate; simp only [↓State.modCtx_mgmt, ↓State.writeLate_mgmt, ↓apply_ite State.mgmt, ite_self]
theorem State.dirtyLog_mgmt (s : State) (c : Nat) (a : Nat) (n : Nat) : (State.dirtyLog s c a n).mgmt = s.mgmt := by
  unfold State.dirtyLog; simp only [↓State.modCtx_mgmt, ↓apply_ite State.mgmt, ite_self]
theorem State.lpWrite_mgmt (s : State) (a : Nat) (b : Bytes) : (State.lpWrite s a b).mgmt = s.mgmt := by rfl
theorem State.appendLog_mgmt (s : State) (c : Nat) (e : LogEntry) : (State.appendLog s c e).mgmt = s.mgmt := by
  unfold State.appendLog
  exact ite_mgmt (((State.dirtyLog_mgmt ..).trans (State.modCtx_mgmt ..)).trans (State.lpWrite_mgmt ..)) ((State.event_mgmt ..).trans (State.modHasp_mgmt ..))
theorem State.applyBand_mgmt (s : State) : (State.applyBand s).mgmt = s.mgmt := by
  unfold State.applyBand; simp only [↓State.eventIf_mgmt, ↓State.modPwr_mgmt, ↓apply_ite State.mgmt, ite_self]
theorem State.commitAdapters_mgmt (s : State) (c : Nat) (x : Nat) : (State.commitAdapters s c x).mgmt = s.mgmt := by
  unfold State.commitAdapters; simp only [↓State.modAdp_mgmt, ↓apply_ite State.mgmt, ite_self]
theorem State.commitBounds_mgmt (s : State) (c : Nat) (x : Nat) : (State.commitBounds s c x).mgmt = s.mgmt := by
  unfold State.commitBounds; simp only [↓State.modCtx_mgmt, ↓apply_ite State.mgmt, ite_self]
theorem State.freeBatches_mgmt (s : State) (c : Nat) (e : Nat) : (State.freeBatches s c e).mgmt = s.mgmt := by
  unfold State.freeBatches; simp only [↓State.modIng_mgmt, ↓apply_ite State.mgmt, ite_self]
theorem State.countVersion_mgmt (s : State) (c : Nat) : (State.countVersion s c).mgmt = s.mgmt := by
  unfold State.countVersion; (try dsimp only); (repeat' split) <;> first | with_reducible rfl | (simp only [↓State.countTier_mgmt, ↓over_mgmt, ↓foldl_mgmt, ↓apply_ite State.mgmt, ite_self]; done) | (simp [↓State.countTier_mgmt, ↓over_mgmt, ↓foldl_mgmt, ↓apply_ite State.mgmt, ite_self]; done)
theorem State.makeCandidate_mgmt (s : State) (c : Nat) : (State.makeCandidate s c).mgmt = s.mgmt := by
  unfold State.makeCandidate; simp only [↓State.account_mgmt, ↓State.countVersion_mgmt, ↓State.event_mgmt, ↓State.lpWrite_mgmt, ↓State.modAdp_mgmt, ↓State.modHasp_mgmt, ↓State.modKv_mgmt, ↓over_mgmt, ↓foldl_mgmt, ↓apply_ite State.mgmt, ite_self]
theorem State.clearSlots_mgmt (s : State) (c : Nat) : (State.clearSlots s c).mgmt = s.mgmt := by
  unfold State.clearSlots; simp only [↓State.modAdp_mgmt, ↓over_mgmt, ↓foldl_mgmt, ↓apply_ite State.mgmt, ite_self]
theorem State.freeLog_mgmt (s : State) (c : Nat) (e : Nat) : (State.freeLog s c e).mgmt = s.mgmt := by
  unfold State.freeLog; simp only [↓State.dirtyLog_mgmt, ↓State.freeBatches_mgmt, ↓State.lpWrite_mgmt, ↓State.modCtx_mgmt, ↓apply_ite State.mgmt, ite_self]
theorem State.putGuard_mgmt (s : State) (c : Nat) (g : Guard) : (State.putGuard s c g).mgmt = s.mgmt := by
  unfold State.putGuard
  exact ite_mgmt (State.lpWrite_mgmt ..) (State.modCtx_mgmt ..)
theorem State.modGuard_mgmt (s : State) (c : Nat) (f : Guard → Guard) : (State.modGuard s c f).mgmt = s.mgmt := by
  unfold State.modGuard; simp only [↓State.putGuard_mgmt, ↓apply_ite State.mgmt, ite_self]
theorem State.deferredWrite_mgmt (s : State) (b : Nat) (data : Bytes) : (State.deferredWrite s b data).1.mgmt = s.mgmt := by
  unfold State.deferredWrite; (try dsimp only); (repeat' split) <;> first | with_reducible rfl | (simp only [↓State.acceptBlock_mgmt, ↓State.eventIf_mgmt, ↓apply_ite State.mgmt, ite_self]; done) | (simp [↓State.acceptBlock_mgmt, ↓State.eventIf_mgmt, ↓apply_ite State.mgmt, ite_self]; done)
theorem pumpGo_mgmt (c : Nat) (a : List (Nat × Bytes)) (a2 : State) : (pumpGo c a a2).mgmt = a2.mgmt := by
  induction a generalizing a2 with
  | nil => exact State.modHasp_mgmt ..
  | cons e t ih =>
    unfold pumpGo
    dsimp only
    split
    · exact (ih _).trans (State.deferredWrite_mgmt ..)
    · exact (State.modHasp_mgmt ..).trans (State.deferredWrite_mgmt ..)
theorem State.pumpDurable_mgmt (s : State) (c : Nat) : (State.pumpDurable s c).mgmt = s.mgmt := by
  unfold State.pumpDurable; simp only [↓pumpGo_mgmt, ↓apply_ite State.mgmt, ite_self]
theorem State.eraseDurable_mgmt (s : State) (c : Nat) (i : Nat) : (State.eraseDurable s c i).mgmt = s.mgmt := by rfl
theorem State.settleDurable_mgmt (s : State) (c : Nat) : (State.settleDurable s c).mgmt = s.mgmt := by
  unfold State.settleDurable; (try dsimp only); (repeat' split) <;> first | with_reducible rfl | (simp only [↓State.eraseDurable_mgmt, ↓State.modHasp_mgmt, ↓over_mgmt, ↓foldl_mgmt, ↓apply_ite State.mgmt, ite_self]; done) | (simp [↓State.eraseDurable_mgmt, ↓State.modHasp_mgmt, ↓over_mgmt, ↓foldl_mgmt, ↓apply_ite State.mgmt, ite_self]; done)
theorem State.startDurable_mgmt (s : State) (c : Nat) (e : Nat) (b : Bytes) : (State.startDurable s c e b).mgmt = s.mgmt := by
  unfold State.startDurable; simp only [↓State.account_mgmt, ↓State.event_mgmt, ↓State.modHasp_mgmt, ↓State.pumpDurable_mgmt, ↓State.settleDurable_mgmt, ↓apply_ite State.mgmt, ite_self]
theorem State.makeClear_mgmt (s : State) (c : Nat) (e : Nat) : (State.makeClear s c e).mgmt = s.mgmt := by
  unfold State.makeClear
  refine ite_mgmt ((State.event_mgmt ..).trans (State.modHasp_mgmt ..)) ?_
  have hf : ∀ u : State, u.mgmt = s.mgmt → (u.freeLog c e).mgmt = s.mgmt := fun u hu => (State.freeLog_mgmt ..).trans hu
  have hd : ∀ u : State, u.mgmt = s.mgmt → ∀ b, (if u.durableDue c e then u.startDurable c e b else u).mgmt = s.mgmt :=
    fun u hu b => ite_mgmt ((State.startDurable_mgmt ..).trans hu) hu
  have hk : ∀ u : State, u.mgmt = s.mgmt → ((u.clearSlots c).modKv c (fun k => { k with cleared := k.candidate })).mgmt = s.mgmt :=
    fun u hu => ((State.modKv_mgmt ..).trans (State.clearSlots_mgmt ..)).trans hu
  have h0 : ∀ (a : Nat) (b : Bytes) (x : Nat) (f : Hasp → Hasp), ((((s.lpWrite a b).account c 5 x).modHasp c f)).mgmt = s.mgmt :=
    fun a b x f => ((State.modHasp_mgmt ..).trans (State.account_mgmt ..)).trans (State.lpWrite_mgmt ..)
  exact hd _ (hf _ (ite_mgmt (hk _ (h0 ..)) ((State.modGuard_mgmt ..).trans ((State.lpWrite_mgmt ..).trans (hk _ (h0 ..)))))) _
theorem State.commitCopies_mgmt (s : State) (c : Nat) (x : Nat) : (State.commitCopies s c x).mgmt = s.mgmt := by
  unfold State.commitCopies; simp only [↓State.freeBatches_mgmt, ↓State.makeCandidate_mgmt, ↓State.makeClear_mgmt, ↓State.modHasp_mgmt, ↓State.startDurable_mgmt, ↓apply_ite State.mgmt, ite_self]
theorem State.commitPool_mgmt (s : State) (c : Nat) : (State.commitPool s c).mgmt = s.mgmt := by
  unfold State.commitPool; simp only [↓State.modKv_mgmt, ↓apply_ite State.mgmt, ite_self]
theorem State.countLate_mgmt (s : State) (c : Nat) (l : List LateEntry) : (State.countLate s c l).mgmt = s.mgmt := by
  unfold State.countLate; simp only [↓State.countBy_mgmt, ↓apply_ite State.mgmt, ite_self]
theorem State.queueEffect_mgmt (s : State) (c : Nat) (x : Nat) (d : Deferred) : (State.queueEffect s c x d).mgmt = s.mgmt := by
  unfold State.queueEffect; simp only [↓State.setCtx_mgmt, ↓apply_ite State.mgmt, ite_self]
theorem State.deferFor_mgmt (s : State) (c : Nat) (x : Nat) (d : Deferred) : (State.deferFor s c x d).mgmt = s.mgmt := by
  unfold State.deferFor; simp only [↓State.event_mgmt, ↓State.queueEffect_mgmt, ↓apply_ite State.mgmt, ite_self]
theorem State.deferEvent_mgmt (s : State) (c : Nat) (ty : Nat) (x : Nat) (b : Nat) : (State.deferEvent s c ty x b).mgmt = s.mgmt := by
  unfold State.deferEvent; simp only [↓State.deferFor_mgmt, ↓apply_ite State.mgmt, ite_self]
theorem acceptGo_mgmt (a : List (Nat × Bytes)) (a1 : State) : (acceptGo a a1).1.mgmt = a1.mgmt := by
  induction a generalizing a1 with
  | nil => rfl
  | cons e t ih =>
    unfold acceptGo
    split
    · rfl
    · exact (ih _).trans (State.acceptBlock_mgmt ..)
theorem State.archiveBlocks_mgmt (s : State) (c : Nat) (l : List (Nat × Bytes)) : (State.archiveBlocks s c l).1.mgmt = s.mgmt := by
  unfold State.archiveBlocks; simp only [↓State.account_mgmt, ↓State.event_mgmt, ↓acceptGo_mgmt, ↓apply_ite State.mgmt, ite_self]
theorem State.closeShard_mgmt (s : State) (c : Nat) (wrap : Bool) : (State.closeShard s c wrap).mgmt = s.mgmt := by
  unfold State.closeShard; simp only [↓State.archiveBlocks_mgmt, ↓State.eventIf_mgmt, ↓State.modMedia_mgmt, ↓apply_ite State.mgmt, ite_self]
theorem State.archiveRecord_mgmt (s : State) (c : Nat) (f : Bytes) : (State.archiveRecord s c f).1.mgmt = s.mgmt := by
  unfold State.archiveRecord; (try dsimp only); (repeat' split) <;> first | with_reducible rfl | (simp only [↓State.archiveBlocks_mgmt, ↓State.closeShard_mgmt, ↓State.eventIf_mgmt, ↓State.modMedia_mgmt, ↓apply_ite State.mgmt, ite_self]; done) | (simp [↓State.archiveBlocks_mgmt, ↓State.closeShard_mgmt, ↓State.eventIf_mgmt, ↓State.modMedia_mgmt, ↓apply_ite State.mgmt, ite_self]; done)
theorem State.checkpoint_mgmt (s : State) (c : Nat) : (State.checkpoint s c).mgmt = s.mgmt := by
  unfold State.checkpoint; simp only [↓State.putRecord_mgmt, ↓apply_ite State.mgmt, ite_self]
theorem State.release_mgmt (s : State) (c : Nat) (d : Deferred) : (State.release s c d).1.mgmt = s.mgmt := by
  unfold State.release; (try dsimp only); (repeat' split) <;> first | with_reducible rfl | (simp only [↓State.account_mgmt, ↓State.archiveRecord_mgmt, ↓State.checkpoint_mgmt, ↓State.deferredWrite_mgmt, ↓State.finish_mgmt, ↓State.ringPush_mgmt, ↓apply_ite State.mgmt, ite_self]; done) | (simp [↓State.account_mgmt, ↓State.archiveRecord_mgmt, ↓State.checkpoint_mgmt, ↓State.deferredWrite_mgmt, ↓State.finish_mgmt, ↓State.ringPush_mgmt, ↓apply_ite State.mgmt, ite_self]; done)
theorem State.releaseOne_mgmt (s : State) (p : Nat × Nat) : (State.releaseOne s p).mgmt = s.mgmt := by
  unfold State.releaseOne; (try dsimp only); (repeat' split) <;> first | with_reducible rfl | (simp only [↓State.modCtx_mgmt, ↓State.release_mgmt, ↓apply_ite State.mgmt, ite_self]; done) | (simp [↓State.modCtx_mgmt, ↓State.release_mgmt, ↓apply_ite State.mgmt, ite_self]; done)
theorem State.releaseEffects_mgmt (s : State) (c : Nat) : (State.releaseEffects s c).mgmt = s.mgmt := by
  unfold State.releaseEffects; (try dsimp only); (repeat' split) <;> first | with_reducible rfl | (simp only [↓State.releaseOne_mgmt, ↓over_mgmt, ↓foldl_mgmt, ↓apply_ite State.mgmt, ite_self]; done) | (simp [↓State.releaseOne_mgmt, ↓over_mgmt, ↓foldl_mgmt, ↓apply_ite State.mgmt, ite_self]; done)
theorem State.settleWaits_mgmt (s : State) (c : Nat) : (State.settleWaits s c).mgmt = s.mgmt := by
  unfold State.settleWaits; (try dsimp only); (repeat' split) <;> first | with_reducible rfl | (simp only [↓State.complete_mgmt, ↓State.modCtx_mgmt, ↓over_mgmt, ↓foldl_mgmt, ↓apply_ite State.mgmt, ite_self]; done) | (simp [↓State.complete_mgmt, ↓State.modCtx_mgmt, ↓over_mgmt, ↓foldl_mgmt, ↓apply_ite State.mgmt, ite_self]; done)
theorem State.showLs_mgmt (s : State) (c : Nat) : (State.showLs s c).mgmt = s.mgmt := by
  unfold State.showLs; (try dsimp only); (repeat' split) <;> first | with_reducible rfl | (simp only [↓State.setRegN_mgmt, ↓apply_ite State.mgmt, ite_self]; done) | (simp [↓State.setRegN_mgmt, ↓apply_ite State.mgmt, ite_self]; done)
theorem State.snapshot_mgmt (s : State) (c : Nat) : (State.snapshot s c).mgmt = s.mgmt := by
  unfold State.snapshot; simp only [↓State.modCtx_mgmt, ↓apply_ite State.mgmt, ite_self]
theorem State.commitCore_mgmt (s : State) (c : Nat) (x : Nat) : (State.commitCore s c x).mgmt = s.mgmt := by
  unfold State.commitCore; simp only [↓State.appendLog_mgmt, ↓State.commitAdapters_mgmt, ↓State.commitBounds_mgmt, ↓State.commitCopies_mgmt, ↓State.commitPool_mgmt, ↓State.countLate_mgmt, ↓State.deferEvent_mgmt, ↓State.deferFor_mgmt, ↓State.event_mgmt, ↓State.modCtx_mgmt, ↓State.modGuard_mgmt, ↓State.modHasp_mgmt, ↓State.releaseEffects_mgmt, ↓State.settleWaits_mgmt, ↓State.showLs_mgmt, ↓State.snapshot_mgmt, ↓State.writeLate_mgmt, ↓apply_ite State.mgmt, ite_self]
theorem State.dropStale_mgmt (s : State) : (State.dropStale s).mgmt = s.mgmt := by
  unfold State.dropStale; simp only [↓State.countBy_mgmt, ↓apply_ite State.mgmt, ite_self]
theorem State.dropRequest_mgmt (s : State) (q : Nat) : (State.dropRequest s q).mgmt = s.mgmt := by rfl
theorem State.modStream_mgmt (s : State) (q : Nat) (f : Stream → Stream) : (State.modStream s q f).mgmt = s.mgmt := by rfl
theorem State.failRequest_mgmt (s : State) (r : Request) (code : Nat) : (State.failRequest s r code).mgmt = s.mgmt := by
  unfold State.failRequest; (try dsimp only); (repeat' split) <;> first | with_reducible rfl | (simp only [↓State.complete_mgmt, ↓State.dropRequest_mgmt, ↓State.modStream_mgmt, ↓apply_ite State.mgmt, ite_self]; done) | (simp [↓State.complete_mgmt, ↓State.dropRequest_mgmt, ↓State.modStream_mgmt, ↓apply_ite State.mgmt, ite_self]; done)
theorem State.dropStreams_mgmt (s : State) (c : Nat) : (State.dropStreams s c).mgmt = s.mgmt := by
  unfold State.dropStreams; (try dsimp only); (repeat' split) <;> first | with_reducible rfl | (simp only [↓State.failRequest_mgmt, ↓over_mgmt, ↓foldl_mgmt, ↓apply_ite State.mgmt, ite_self]; done) | (simp [↓State.failRequest_mgmt, ↓over_mgmt, ↓foldl_mgmt, ↓apply_ite State.mgmt, ite_self]; done)
theorem State.dropWork_mgmt (s : State) (c : Nat) : (State.dropWork s c).mgmt = s.mgmt := by
  unfold State.dropWork; (try dsimp only); (repeat' split) <;> first | with_reducible rfl | (simp only [↓State.modLink_mgmt, ↓over_mgmt, ↓foldl_mgmt, ↓apply_ite State.mgmt, ite_self]; done) | (simp [↓State.modLink_mgmt, ↓over_mgmt, ↓foldl_mgmt, ↓apply_ite State.mgmt, ite_self]; done)
theorem State.discardWork_mgmt (s : State) (c : Nat) : (State.discardWork s c).mgmt = s.mgmt := by
  unfold State.discardWork; simp only [↓State.dropStale_mgmt, ↓State.dropStreams_mgmt, ↓State.dropWork_mgmt, ↓State.modCtx_mgmt, ↓apply_ite State.mgmt, ite_self]
theorem State.endStreams_mgmt (s : State) (c : Nat) : (State.endStreams s c).mgmt = s.mgmt := by rfl
theorem State.failWaits_mgmt (s : State) (c : Nat) (code : Nat) : (State.failWaits s c code).mgmt = s.mgmt := by
  unfold State.failWaits; (try dsimp only); (repeat' split) <;> first | with_reducible rfl | (simp only [↓State.complete_mgmt, ↓State.modCtx_mgmt, ↓over_mgmt, ↓foldl_mgmt, ↓apply_ite State.mgmt, ite_self]; done) | (simp [↓State.complete_mgmt, ↓State.modCtx_mgmt, ↓over_mgmt, ↓foldl_mgmt, ↓apply_ite State.mgmt, ite_self]; done)
theorem State.ignoreCmd_mgmt (s : State) (c : Nat) : (State.ignoreCmd s c).mgmt = s.mgmt := by
  unfold State.ignoreCmd; simp only [↓State.event_mgmt, ↓apply_ite State.mgmt, ite_self]
theorem State.haltCore_mgmt (s : State) (c : Nat) : (State.haltCore s c).mgmt = s.mgmt := by
  unfold State.haltCore; simp only [↓State.discardWork_mgmt, ↓State.endStreams_mgmt, ↓State.failWaits_mgmt, ↓State.ignoreCmd_mgmt, ↓State.modHasp_mgmt, ↓apply_ite State.mgmt, ite_self]
theorem State.emptyFrames_mgmt (s : State) (c : Nat) : (State.emptyFrames s c).mgmt = s.mgmt := by
  unfold State.emptyFrames; simp only [↓State.modAdp_mgmt, ↓apply_ite State.mgmt, ite_self]
theorem State.beginRestore_mgmt (s : State) (c : Nat) (e : Nat) : (State.beginRestore s c e).mgmt = s.mgmt := by
  unfold State.beginRestore; simp only [↓State.emptyFrames_mgmt, ↓State.event_mgmt, ↓State.eventIf_mgmt, ↓State.modAdp_mgmt, ↓State.modHasp_mgmt, ↓apply_ite State.mgmt, ite_self]
theorem State.clearBolts_mgmt (s : State) (c : Nat) : (State.clearBolts s c).mgmt = s.mgmt := by rfl
theorem State.writeTable_mgmt (s : State) (c : Nat) : (State.writeTable s c).mgmt = s.mgmt := by
  unfold State.writeTable; simp only [↓State.wrRaw_mgmt, ↓apply_ite State.mgmt, ite_self]
theorem State.resetPool_mgmt (s : State) (c : Nat) : (State.resetPool s c).mgmt = s.mgmt := by
  unfold State.resetPool; simp only [↓State.event_mgmt, ↓State.modKv_mgmt, ↓State.writeTable_mgmt, ↓apply_ite State.mgmt, ite_self]
theorem State.restartStreams_mgmt (s : State) (c : Nat) : (State.restartStreams s c).mgmt = s.mgmt := by
  unfold State.restartStreams; (try dsimp only); (repeat' split) <;> first | with_reducible rfl | (simp only [↓State.addStream_mgmt, ↓over_mgmt, ↓foldl_mgmt, ↓apply_ite State.mgmt, ite_self]; done) | (simp [↓State.addStream_mgmt, ↓over_mgmt, ↓foldl_mgmt, ↓apply_ite State.mgmt, ite_self]; done)
theorem State.rollbackPermute_mgmt (s : State) (c : Nat) : (State.rollbackPermute s c).mgmt = s.mgmt := by
  unfold State.rollbackPermute; simp only [↓State.event_mgmt, ↓State.eventIf_mgmt, ↓State.modCtx_mgmt, ↓apply_ite State.mgmt, ite_self]
theorem State.applyRollback_mgmt (s : State) (c : Nat) (cmd : Nat) (arg : Nat) (older : Bool) (phase : Phase) (held : Phase) : (State.applyRollback s c cmd arg older phase held).mgmt = s.mgmt := by
  unfold State.applyRollback; simp only [↓State.beginRestore_mgmt, ↓State.clearBolts_mgmt, ↓State.count_mgmt, ↓State.discardWork_mgmt, ↓State.event_mgmt, ↓State.modHasp_mgmt, ↓State.postEvent_mgmt, ↓State.resetPool_mgmt, ↓State.restartStreams_mgmt, ↓State.rollbackPermute_mgmt, ↓apply_ite State.mgmt, ite_self]
theorem State.rollbackCore_mgmt (s : State) (c : Nat) (cmd : Nat) (arg : Nat) (held : Bool) : (State.rollbackCore s c cmd arg held).mgmt = s.mgmt := by
  unfold State.rollbackCore; simp only [↓State.applyRollback_mgmt, ↓State.ignoreCmd_mgmt, ↓apply_ite State.mgmt, ite_self]
theorem State.applyCmd_mgmt (s : State) (c : Nat) (cmd : Cmd) (arg : Nat) (phase : Phase) : (State.applyCmd s c cmd arg phase).mgmt = s.mgmt := by
  unfold State.applyCmd; (try dsimp only); (repeat' split) <;> first | with_reducible rfl | (simp only [↓State.commitCore_mgmt, ↓State.haltCore_mgmt, ↓State.ignoreCmd_mgmt, ↓State.rollbackCore_mgmt, ↓apply_ite State.mgmt, ite_self]; done) | (simp [↓State.commitCore_mgmt, ↓State.haltCore_mgmt, ↓State.ignoreCmd_mgmt, ↓State.rollbackCore_mgmt, ↓apply_ite State.mgmt, ite_self]; done)
theorem State.optReg_mgmt (s : State) (off : Nat) (lo : Nat) (hi : Nat) (v : Nat) : (State.optReg s off lo hi v).mgmt = s.mgmt := by
  unfold State.optReg; simp only [↓State.eventIf_mgmt, ↓State.setRegN_mgmt, ↓apply_ite State.mgmt, ite_self]
theorem State.applyOptions_mgmt (s : State) (b : Bytes) : (State.applyOptions s b).mgmt = s.mgmt := by
  unfold State.applyOptions; simp only [↓State.eventIf_mgmt, ↓State.optReg_mgmt, ↓State.setRegN_mgmt, ↓apply_ite State.mgmt, ite_self]
theorem State.archiveSkip_mgmt (s : State) (c : Nat) (st : Nat) : (State.archiveSkip s c st).mgmt = s.mgmt := by
  unfold State.archiveSkip; simp only [↓State.count_mgmt, ↓State.event_mgmt, ↓State.modMedia_mgmt, ↓apply_ite State.mgmt, ite_self]
theorem State.archivePic_mgmt (s : State) (c : Nat) (p : Nat × Nat × Nat) : (State.archivePic s c p).mgmt = s.mgmt := by
  unfold State.archivePic; simp only [↓State.archiveSkip_mgmt, ↓State.modLive_mgmt, ↓State.modMedia_mgmt, ↓apply_ite State.mgmt, ite_self]
theorem State.latchForecast_mgmt (s : State) : (State.latchForecast s).mgmt = s.mgmt := by
  unfold State.latchForecast; simp only [↓State.modPwr_mgmt, ↓apply_ite State.mgmt, ite_self]
theorem State.latchHigh_mgmt (s : State) (off : Nat) : (State.latchHigh s off).mgmt = s.mgmt := by
  unfold State.latchHigh; (try dsimp only); (repeat' split) <;> first | with_reducible rfl | (simp only [↓apply_ite State.mgmt, ite_self]; done) | (simp [↓apply_ite State.mgmt, ite_self]; done)
theorem State.latchSnap_mgmt (s : State) (c : Nat) : (State.latchSnap s c).mgmt = s.mgmt := by
  unfold State.latchSnap; simp only [↓State.modCtx_mgmt, ↓apply_ite State.mgmt, ite_self]
theorem State.readEffect_mgmt (s : State) (off : Nat) : (State.readEffect s off).mgmt = s.mgmt := by
  unfold State.readEffect; (try dsimp only); (repeat' split) <;> first | with_reducible rfl | (simp only [↓State.latchForecast_mgmt, ↓State.latchHigh_mgmt, ↓State.latchSnap_mgmt, ↓apply_ite State.mgmt, ite_self]; done) | (simp [↓State.latchForecast_mgmt, ↓State.latchHigh_mgmt, ↓State.latchSnap_mgmt, ↓apply_ite State.mgmt, ite_self]; done)
theorem State.readReg_mgmt (s : State) (off : Nat) : (State.readReg s off).2.mgmt = s.mgmt := by
  unfold State.readReg; (try dsimp only); (repeat' split) <;> first | with_reducible rfl | (simp only [↓State.draw_mgmt, ↓State.readEffect_mgmt, ↓apply_ite State.mgmt, ite_self]; done) | (simp [↓State.draw_mgmt, ↓State.readEffect_mgmt, ↓apply_ite State.mgmt, ite_self]; done)
theorem State.barRead_mgmt (s : State) (fn : Nat) (off : Nat) (size : Nat) : (State.barRead s fn off size).2.mgmt = s.mgmt := by
  unfold State.barRead; (try dsimp only); (repeat' split) <;> first | with_reducible rfl | (simp only [↓State.count_mgmt, ↓State.readReg_mgmt, ↓apply_ite State.mgmt, ite_self]; done) | (simp [↓State.count_mgmt, ↓State.readReg_mgmt, ↓apply_ite State.mgmt, ite_self]; done)
theorem State.batchVariants_mgmt (s : State) (c : Nat) (vs : List Nat) : (State.batchVariants s c vs).mgmt = s.mgmt := by
  unfold State.batchVariants; simp only [↓State.eventIf_mgmt, ↓State.modAdp_mgmt, ↓apply_ite State.mgmt, ite_self]
theorem State.setMoves_mgmt (s : State) (c : Nat) (l : List PermMove) : (State.setMoves s c l).mgmt = s.mgmt := by
  unfold State.setMoves; simp only [↓State.modCtx_mgmt, ↓apply_ite State.mgmt, ite_self]
theorem State.setJob_mgmt (s : State) (c : Nat) (j : CycleJob) : (State.setJob s c j).mgmt = s.mgmt := by
  unfold State.setJob; simp only [↓State.setMoves_mgmt, ↓apply_ite State.mgmt, ite_self]
theorem State.spotWrite_mgmt (s : State) (c : Nat) (p : Spot) (off : Nat) (b : Bytes) : (State.spotWrite s c p off b).mgmt = s.mgmt := by
  unfold State.spotWrite; simp only [↓State.dirty_mgmt, ↓State.lpWrite_mgmt, ↓State.wr_mgmt, ↓apply_ite State.mgmt, ite_self]
theorem State.beginRound_mgmt (s : State) (c : Nat) (j : CycleJob) : (State.beginRound s c j).mgmt = s.mgmt := by
  unfold State.beginRound; simp only [↓State.addStream_mgmt, ↓State.countTier_mgmt, ↓State.setJob_mgmt, ↓State.spotWrite_mgmt, ↓apply_ite State.mgmt, ite_self]
theorem State.closeStep_mgmt (s : State) (c : Nat) : (State.closeStep s c).mgmt = s.mgmt := by
  unfold State.closeStep; simp only [↓State.modCtx_mgmt, ↓apply_ite State.mgmt, ite_self]
theorem State.flag_mgmt (s : State) (i : Nat) : (State.flag s i).mgmt = s.mgmt := by
  unfold State.flag; simp only [↓State.modTick_mgmt, ↓apply_ite State.mgmt, ite_self]
theorem State.defer_mgmt (s : State) (c : Nat) (d : Deferred) : (State.defer s c d).1.mgmt = s.mgmt := by
  unfold State.defer; (try dsimp only); (repeat' split) <;> first | with_reducible rfl | (simp only [↓State.event_mgmt, ↓State.queueEffect_mgmt, ↓apply_ite State.mgmt, ite_self]; done) | (simp [↓State.event_mgmt, ↓State.queueEffect_mgmt, ↓apply_ite State.mgmt, ite_self]; done)
theorem State.consumeBatch_mgmt (s : State) (c : Nat) (m : Manifest) : (State.consumeBatch s c m).mgmt = s.mgmt := by
  unfold State.consumeBatch; (try dsimp only); (repeat' split) <;> first | with_reducible rfl | (simp only [↓State.complete_mgmt, ↓State.defer_mgmt, ↓State.modCtx_mgmt, ↓over_mgmt, ↓foldl_mgmt, ↓apply_ite State.mgmt, ite_self]; done) | (simp [↓State.complete_mgmt, ↓State.defer_mgmt, ↓State.modCtx_mgmt, ↓over_mgmt, ↓foldl_mgmt, ↓apply_ite State.mgmt, ite_self]; done)
theorem State.consume_mgmt (s : State) (c : Nat) (m : Manifest) : (State.consume s c m).mgmt = s.mgmt := by
  unfold State.consume; (try dsimp only); (repeat' split) <;> first | with_reducible rfl | (simp only [↓State.archivePic_mgmt, ↓State.consumeBatch_mgmt, ↓over_mgmt, ↓foldl_mgmt, ↓apply_ite State.mgmt, ite_self]; done) | (simp [↓State.archivePic_mgmt, ↓State.consumeBatch_mgmt, ↓over_mgmt, ↓foldl_mgmt, ↓apply_ite State.mgmt, ite_self]; done)
theorem State.boltAdd_mgmt (s : State) (c : Nat) (b : Nat) (v : W32) : (State.boltAdd s c b v).mgmt = s.mgmt := by
  unfold State.boltAdd; simp only [↓State.eventIf_mgmt, ↓State.setBolt_mgmt, ↓apply_ite State.mgmt, ite_self]
theorem State.writeRow_mgmt (s : State) (c : Nat) (base : Nat) (slots : List (Nat × SlotPlan)) (r : Option BatchRow) : (State.writeRow s c base slots r).mgmt = s.mgmt := by
  unfold State.writeRow; (try dsimp only); (repeat' split) <;> first | with_reducible rfl | (simp only [↓State.account_mgmt, ↓State.wrRaw_mgmt, ↓over_mgmt, ↓foldl_mgmt, ↓apply_ite State.mgmt, ite_self]; done) | (simp [↓State.account_mgmt, ↓State.wrRaw_mgmt, ↓over_mgmt, ↓foldl_mgmt, ↓apply_ite State.mgmt, ite_self]; done)
theorem State.deliver_mgmt (s : State) (c : Nat) (m : Manifest) : (State.deliver s c m).mgmt = s.mgmt := by
  unfold State.deliver; (try dsimp only); (repeat' split) <;> first | with_reducible rfl | (simp only [↓State.account_mgmt, ↓State.batchVariants_mgmt, ↓State.boltAdd_mgmt, ↓State.wrRaw_mgmt, ↓State.writeRow_mgmt, ↓over_mgmt, ↓foldl_mgmt, ↓apply_ite State.mgmt, ite_self]; done) | (simp [↓State.account_mgmt, ↓State.batchVariants_mgmt, ↓State.boltAdd_mgmt, ↓State.wrRaw_mgmt, ↓State.writeRow_mgmt, ↓over_mgmt, ↓foldl_mgmt, ↓apply_ite State.mgmt, ite_self]; done)
theorem State.runVariants_mgmt (s : State) (c : Nat) (vs : List Nat) : (State.runVariants s c vs).mgmt = s.mgmt := by
  unfold State.runVariants; simp only [↓State.modAdp_mgmt, ↓apply_ite State.mgmt, ite_self]
theorem State.completeBatch_mgmt (s : State) (c : Nat) (x : Nat) (filled : Option Nat) : (State.completeBatch s c x filled).mgmt = s.mgmt := by
  unfold State.completeBatch; simp only [↓State.consume_mgmt, ↓State.countBy_mgmt, ↓State.deliver_mgmt, ↓State.eventIf_mgmt, ↓State.modIng_mgmt, ↓State.runVariants_mgmt, ↓State.settleCap_mgmt, ↓apply_ite State.mgmt, ite_self]
theorem fillGo_mgmt (c : Nat) (a : Nat) (a2 : State) : (fillGo c a a2).mgmt = a2.mgmt := by
  induction a generalizing a2 with
  | zero => rfl
  | succ f ih =>
    unfold fillGo
    repeat' split
    · rfl
    · exact (ih _).trans (State.completeBatch_mgmt ..)
    · rfl
theorem State.startBatches_mgmt (s : State) (c : Nat) (again : Bool) : (State.startBatches s c again).mgmt = s.mgmt := by
  unfold State.startBatches; (try dsimp only); (repeat' split) <;> first | with_reducible rfl | (simp only [↓State.consume_mgmt, ↓State.deliver_mgmt, ↓State.runVariants_mgmt, ↓fillGo_mgmt, ↓apply_ite State.mgmt, ite_self]; done) | (simp [↓State.consume_mgmt, ↓State.deliver_mgmt, ↓State.runVariants_mgmt, ↓fillGo_mgmt, ↓apply_ite State.mgmt, ite_self]; done)
theorem State.beginStep_mgmt (s : State) (c : Nat) (v : Nat) (told : Bool) : (State.beginStep s c v told).mgmt = s.mgmt := by
  unfold State.beginStep; simp only [↓State.closeStep_mgmt, ↓State.event_mgmt, ↓State.flag_mgmt, ↓State.modCtx_mgmt, ↓State.modHasp_mgmt, ↓State.startBatches_mgmt, ↓State.writeLate_mgmt, ↓apply_ite State.mgmt, ite_self]
theorem State.chooseRung_mgmt (s : State) (ran : Bool) : (State.chooseRung s ran).mgmt = s.mgmt := by
  unfold State.chooseRung; simp only [↓State.modPwr_mgmt, ↓apply_ite State.mgmt, ite_self]
theorem State.countSilence_mgmt (s : State) : (State.countSilence s).mgmt = s.mgmt := by
  unfold State.countSilence; simp only [↓State.modTick_mgmt, ↓apply_ite State.mgmt, ite_self]
theorem State.declareDead_mgmt (s : State) (a : Nat) : (State.declareDead s a).mgmt = s.mgmt := by
  unfold State.declareDead; (try dsimp only); (repeat' split) <;> first | with_reducible rfl | (simp only [↓State.count_mgmt, ↓State.event_mgmt, ↓State.modTick_mgmt, ↓State.setRegN_mgmt, ↓over_mgmt, ↓foldl_mgmt, ↓apply_ite State.mgmt, ite_self]; done) | (simp [↓State.count_mgmt, ↓State.event_mgmt, ↓State.modTick_mgmt, ↓State.setRegN_mgmt, ↓over_mgmt, ↓foldl_mgmt, ↓apply_ite State.mgmt, ite_self]; done)
theorem State.beginWardResets_mgmt (s : State) : (State.beginWardResets s).mgmt = s.mgmt := by
  unfold State.beginWardResets; (try dsimp only); (repeat' split) <;> first | with_reducible rfl | (simp only [↓State.setRegN_mgmt, ↓over_mgmt, ↓foldl_mgmt, ↓apply_ite State.mgmt, ite_self]; done) | (simp [↓State.setRegN_mgmt, ↓over_mgmt, ↓foldl_mgmt, ↓apply_ite State.mgmt, ite_self]; done)
theorem State.chooseMirrorPaths_mgmt (s : State) : (State.chooseMirrorPaths s).mgmt = s.mgmt := by
  unfold State.chooseMirrorPaths; (try dsimp only); (repeat' split) <;> first | with_reducible rfl | (simp only [↓State.eventIf_mgmt, ↓State.modCtx_mgmt, ↓over_mgmt, ↓foldl_mgmt, ↓apply_ite State.mgmt, ite_self]; done) | (simp [↓State.eventIf_mgmt, ↓State.modCtx_mgmt, ↓over_mgmt, ↓foldl_mgmt, ↓apply_ite State.mgmt, ite_self]; done)
theorem State.resolveLinks_mgmt (s : State) : (State.resolveLinks s).mgmt = s.mgmt := by
  unfold State.resolveLinks; (try dsimp only); (repeat' split) <;> first | with_reducible rfl | (simp only [↓State.setRegN_mgmt, ↓over_mgmt, ↓foldl_mgmt, ↓apply_ite State.mgmt, ite_self]; done) | (simp [↓State.setRegN_mgmt, ↓over_mgmt, ↓foldl_mgmt, ↓apply_ite State.mgmt, ite_self]; done)
theorem State.takeSpare_mgmt (s : State) (row : Nat) : (State.takeSpare s row).2.mgmt = s.mgmt := by
  unfold State.takeSpare; simp only [↓State.eventIf_mgmt, ↓apply_ite State.mgmt, ite_self]
theorem State.switchRows_mgmt (s : State) : (State.switchRows s).mgmt = s.mgmt := by
  unfold State.switchRows; (try dsimp only); (repeat' split) <;> first | with_reducible rfl | (simp only [↓State.count_mgmt, ↓State.event_mgmt, ↓State.remapRecord_mgmt, ↓State.takeSpare_mgmt, ↓over_mgmt, ↓foldl_mgmt, ↓apply_ite State.mgmt, ite_self]; done) | (simp [↓State.count_mgmt, ↓State.event_mgmt, ↓State.remapRecord_mgmt, ↓State.takeSpare_mgmt, ↓over_mgmt, ↓foldl_mgmt, ↓apply_ite State.mgmt, ite_self]; done)
theorem State.everyBoundary_mgmt (s : State) : (State.everyBoundary s).mgmt = s.mgmt := by
  unfold State.everyBoundary; simp only [↓State.applyBand_mgmt, ↓State.beginWardResets_mgmt, ↓State.chooseMirrorPaths_mgmt, ↓State.resolveLinks_mgmt, ↓State.switchRows_mgmt, ↓apply_ite State.mgmt, ite_self]
theorem State.sendControl_mgmt (s : State) (l : Nat) (opcode : Nat) (arg : Nat) (payload : Bytes) : (State.sendControl s l opcode arg payload).mgmt = s.mgmt := by
  unfold State.sendControl; simp only [↓State.emit_mgmt, ↓apply_ite State.mgmt, ite_self]
theorem State.sendMasterState_mgmt (s : State) : (State.sendMasterState s).mgmt = s.mgmt := by
  unfold State.sendMasterState; (try dsimp only); (repeat' split) <;> first | with_reducible rfl | (simp only [↓State.sendControl_mgmt, ↓over_mgmt, ↓foldl_mgmt, ↓apply_ite State.mgmt, ite_self]; done) | (simp [↓State.sendControl_mgmt, ↓over_mgmt, ↓foldl_mgmt, ↓apply_ite State.mgmt, ite_self]; done)
theorem State.sendTick_mgmt (s : State) (n : Nat) (b : Bytes) : (State.sendTick s n b).mgmt = s.mgmt := by
  unfold State.sendTick; (try dsimp only); (repeat' split) <;> first | with_reducible rfl | (simp only [↓State.modTick_mgmt, ↓State.sendControl_mgmt, ↓over_mgmt, ↓foldl_mgmt, ↓apply_ite State.mgmt, ite_self]; done) | (simp [↓State.modTick_mgmt, ↓State.sendControl_mgmt, ↓over_mgmt, ↓foldl_mgmt, ↓apply_ite State.mgmt, ite_self]; done)
theorem State.compose_mgmt (s : State) (n : Nat) (plain : Bool) (takeover : Bool) : (State.compose s n plain takeover).mgmt = s.mgmt := by
  unfold State.compose; simp only [↓State.modTick_mgmt, ↓State.sendMasterState_mgmt, ↓State.sendTick_mgmt, ↓over_mgmt, ↓foldl_mgmt, ↓apply_ite State.mgmt, ite_self]
theorem State.masterSend_mgmt (s : State) : (State.masterSend s).mgmt = s.mgmt := by
  unfold State.masterSend; simp only [↓State.compose_mgmt, ↓apply_ite State.mgmt, ite_self]
theorem State.notePhase_mgmt (s : State) (c : Nat) (old : Phase) : (State.notePhase s c old).mgmt = s.mgmt := by
  unfold State.notePhase; simp only [↓State.postEvent_mgmt, ↓apply_ite State.mgmt, ite_self]
theorem State.setVolts_mgmt (s : State) (mv : Nat) : (State.setVolts s mv).mgmt = s.mgmt := by
  unfold State.setVolts; simp only [↓State.emit_mgmt, ↓State.modPwr_mgmt, ↓apply_ite State.mgmt, ite_self]
theorem State.chooseVolts_mgmt (s : State) : (State.chooseVolts s).mgmt = s.mgmt := by
  unfold State.chooseVolts; simp only [↓State.setVolts_mgmt, ↓apply_ite State.mgmt, ite_self]
theorem State.raiseVolts_mgmt (s : State) (f : Nat) : (State.raiseVolts s f).mgmt = s.mgmt := by
  unfold State.raiseVolts; simp only [↓State.setVolts_mgmt, ↓apply_ite State.mgmt, ite_self]
theorem State.relaxCap_mgmt (s : State) : (State.relaxCap s).mgmt = s.mgmt := by
  unfold State.relaxCap; simp only [↓State.modPwr_mgmt, ↓apply_ite State.mgmt, ite_self]
theorem State.setClocks_mgmt (s : State) (window : Bool) : (State.setClocks s window).mgmt = s.mgmt := by
  unfold State.setClocks; (try dsimp only); (repeat' split) <;> first | with_reducible rfl | (simp only [↓State.setRegN_mgmt, ↓over_mgmt, ↓foldl_mgmt, ↓apply_ite State.mgmt, ite_self]; done) | (simp [↓State.setRegN_mgmt, ↓over_mgmt, ↓foldl_mgmt, ↓apply_ite State.mgmt, ite_self]; done)
theorem State.powerWindow_mgmt (s : State) : (State.powerWindow s).mgmt = s.mgmt := by
  unfold State.powerWindow; simp only [↓State.chooseVolts_mgmt, ↓State.modPwr_mgmt, ↓State.raiseVolts_mgmt, ↓State.relaxCap_mgmt, ↓State.setClocks_mgmt, ↓over_mgmt, ↓foldl_mgmt, ↓apply_ite State.mgmt, ite_self]
theorem State.publishForecast_mgmt (s : State) : (State.publishForecast s).mgmt = s.mgmt := by
  unfold State.publishForecast; simp only [↓State.modPwr_mgmt, ↓over_mgmt, ↓foldl_mgmt, ↓apply_ite State.mgmt, ite_self]
theorem drainGo_mgmt (fn : Nat) (a : List RingEntry) (a2 : State) (a3 : Bool) (a4 : Bool) : (drainGo fn a a2 a3 a4).1.mgmt = a2.mgmt := by
  induction a generalizing a2 a3 a4 with
  | nil => rfl
  | cons e t ih =>
    unfold drainGo
    dsimp only
    repeat' split
    all_goals first | exact (ih _ _ _).trans (State.writeEntry_mgmt ..) | exact ih _ _ _
theorem State.ringDrain_mgmt (s : State) (fn : Nat) : (State.ringDrain s fn).mgmt = s.mgmt := by
  unfold State.ringDrain; simp only [↓State.modRing_mgmt, ↓State.writeEntry_mgmt, ↓drainGo_mgmt, ↓apply_ite State.mgmt, ite_self]
theorem State.sendCredit_mgmt (s : State) (l : Nat) : (State.sendCredit s l).mgmt = s.mgmt := by
  unfold State.sendCredit; simp only [↓State.modLink_mgmt, ↓State.sendControl_mgmt, ↓apply_ite State.mgmt, ite_self]
theorem State.sendCredits_mgmt (s : State) : (State.sendCredits s).mgmt = s.mgmt := by
  unfold State.sendCredits; (try dsimp only); (repeat' split) <;> first | with_reducible rfl | (simp only [↓State.sendCredit_mgmt, ↓over_mgmt, ↓foldl_mgmt, ↓apply_ite State.mgmt, ite_self]; done) | (simp [↓State.sendCredit_mgmt, ↓over_mgmt, ↓foldl_mgmt, ↓apply_ite State.mgmt, ite_self]; done)
theorem State.sendHellos_mgmt (s : State) : (State.sendHellos s).mgmt = s.mgmt := by
  unfold State.sendHellos; (try dsimp only); (repeat' split) <;> first | with_reducible rfl | (simp only [↓State.emit_mgmt, ↓over_mgmt, ↓foldl_mgmt, ↓apply_ite State.mgmt, ite_self]; done) | (simp [↓State.emit_mgmt, ↓over_mgmt, ↓foldl_mgmt, ↓apply_ite State.mgmt, ite_self]; done)
theorem State.showCap_mgmt (s : State) : (State.showCap s).mgmt = s.mgmt := by
  unfold State.showCap; simp only [↓State.eventIf_mgmt, ↓State.modPwr_mgmt, ↓State.setRegN_mgmt, ↓apply_ite State.mgmt, ite_self]
theorem State.stopTick_mgmt (s : State) : (State.stopTick s).mgmt = s.mgmt := by
  unfold State.stopTick; (try dsimp only); (repeat' split) <;> first | with_reducible rfl | (simp only [↓State.modHasp_mgmt, ↓State.modTick_mgmt, ↓over_mgmt, ↓foldl_mgmt, ↓apply_ite State.mgmt, ite_self]; done) | (simp [↓State.modHasp_mgmt, ↓State.modTick_mgmt, ↓over_mgmt, ↓foldl_mgmt, ↓apply_ite State.mgmt, ite_self]; done)
theorem State.decideRuns_mgmt (s : State) : (State.decideRuns s).mgmt = s.mgmt := by
  unfold State.decideRuns; (try dsimp only); (repeat' split) <;> first | with_reducible rfl | (simp only [↓State.event_mgmt, ↓State.failWaits_mgmt, ↓State.modHasp_mgmt, ↓State.modPwr_mgmt, ↓over_mgmt, ↓foldl_mgmt, ↓apply_ite State.mgmt, ite_self]; done) | (simp [↓State.event_mgmt, ↓State.failWaits_mgmt, ↓State.modHasp_mgmt, ↓State.modPwr_mgmt, ↓over_mgmt, ↓foldl_mgmt, ↓apply_ite State.mgmt, ite_self]; done)
theorem State.markAdrift_mgmt (s : State) : (State.markAdrift s).mgmt = s.mgmt := by
  unfold State.markAdrift; simp only [↓State.event_mgmt, ↓State.flag_mgmt, ↓State.modTick_mgmt, ↓apply_ite State.mgmt, ite_self]
theorem State.moveClear_mgmt (s : State) (c : Nat) (seat : Nat) (old : Nat) (new : Nat) (atOnce : Bool) : (State.moveClear s c seat old new atOnce).mgmt = s.mgmt := by
  unfold State.moveClear; simp only [↓State.addExpect_mgmt, ↓State.addStream_mgmt, ↓State.modCtx_mgmt, ↓apply_ite State.mgmt, ite_self]
theorem State.takeSeed_mgmt (s : State) (c : Nat) : (State.takeSeed s c).mgmt = s.mgmt := by
  unfold State.takeSeed; simp only [↓State.draw_mgmt, ↓State.modHasp_mgmt, ↓apply_ite State.mgmt, ite_self]
theorem State.permCommit_mgmt (s : State) (c : Nat) (old : Bank) : (State.permCommit s c old).mgmt = s.mgmt := by
  unfold State.permCommit; (try dsimp only); (repeat' split) <;> first | with_reducible rfl | (simp only [↓State.event_mgmt, ↓State.modCtx_mgmt, ↓State.moveClear_mgmt, ↓State.resetPool_mgmt, ↓State.setReg_mgmt, ↓State.takeSeed_mgmt, ↓apply_ite State.mgmt, ite_self]; done) | (simp [↓State.event_mgmt, ↓State.modCtx_mgmt, ↓State.moveClear_mgmt, ↓State.resetPool_mgmt, ↓State.setReg_mgmt, ↓State.takeSeed_mgmt, ↓apply_ite State.mgmt, ite_self]; done)
theorem State.packetCmd_mgmt (s : State) (b : Bytes) (bank : Bank) : (State.packetCmd s b bank).mgmt = s.mgmt := by
  unfold State.packetCmd; simp only [↓State.applyCmd_mgmt, ↓State.ignoreCmd_mgmt, ↓State.permCommit_mgmt, ↓apply_ite State.mgmt, ite_self]
theorem State.dirtyAll_mgmt (s : State) (c : Nat) : (State.dirtyAll s c).mgmt = s.mgmt := by
  unfold State.dirtyAll; simp only [↓State.modCtx_mgmt, ↓apply_ite State.mgmt, ite_self]
theorem State.initLs_mgmt (s : State) (c : Nat) : (State.initLs s c).mgmt = s.mgmt := by
  unfold State.initLs; (try dsimp only); (repeat' split) <;> first | with_reducible rfl | (simp only [↓State.dirty_mgmt, ↓State.modCtx_mgmt, ↓State.showLs_mgmt, ↓State.wrRaw_mgmt, ↓apply_ite State.mgmt, ite_self]; done) | (simp [↓State.dirty_mgmt, ↓State.modCtx_mgmt, ↓State.showLs_mgmt, ↓State.wrRaw_mgmt, ↓apply_ite State.mgmt, ite_self]; done)
theorem State.initPool_mgmt (s : State) (c : Nat) : (State.initPool s c).mgmt = s.mgmt := by
  unfold State.initPool; simp only [↓State.draw_mgmt, ↓State.modKv_mgmt, ↓over_mgmt, ↓foldl_mgmt, ↓apply_ite State.mgmt, ite_self]
theorem State.latchHome_mgmt (s : State) (c : Nat) : (State.latchHome s c).mgmt = s.mgmt := by
  unfold State.latchHome; simp only [↓State.modCtx_mgmt, ↓apply_ite State.mgmt, ite_self]
theorem State.layGuardFor_mgmt (s : State) (c : Nat) (seat : Option Nat) : (State.layGuardFor s c seat).mgmt = s.mgmt := by
  unfold State.layGuardFor; (try dsimp only); (repeat' split) <;> first | with_reducible rfl | (simp only [↓State.event_mgmt, ↓State.modGuard_mgmt, ↓State.putGuard_mgmt, ↓over_mgmt, ↓foldl_mgmt, ↓apply_ite State.mgmt, ite_self]; done) | (simp [↓State.event_mgmt, ↓State.modGuard_mgmt, ↓State.putGuard_mgmt, ↓over_mgmt, ↓foldl_mgmt, ↓apply_ite State.mgmt, ite_self]; done)
theorem State.layGuard_mgmt (s : State) (c : Nat) : (State.layGuard s c).mgmt = s.mgmt := by
  unfold State.layGuard; simp only [↓State.layGuardFor_mgmt, ↓apply_ite State.mgmt, ite_self]
theorem State.noteSeed_mgmt (s : State) (c : Nat) : (State.noteSeed s c).mgmt = s.mgmt := by
  unfold State.noteSeed; (try dsimp only); (repeat' split) <;> first | with_reducible rfl | (simp only [↓State.draw_mgmt, ↓State.modGuard_mgmt, ↓apply_ite State.mgmt, ite_self]; done) | (simp [↓State.draw_mgmt, ↓State.modGuard_mgmt, ↓apply_ite State.mgmt, ite_self]; done)
theorem State.leaveStopped_mgmt (s : State) (c : Nat) : (State.leaveStopped s c).mgmt = s.mgmt := by
  unfold State.leaveStopped; (try dsimp only); (repeat' split) <;> first | with_reducible rfl | (simp only [↓State.adjustDurable_mgmt, ↓State.complete_mgmt, ↓State.dirtyAll_mgmt, ↓State.initLs_mgmt, ↓State.initPool_mgmt, ↓State.latchHome_mgmt, ↓State.layGuard_mgmt, ↓State.modHasp_mgmt, ↓State.noteSeed_mgmt, ↓apply_ite State.mgmt, ite_self]; done) | (simp [↓State.adjustDurable_mgmt, ↓State.complete_mgmt, ↓State.dirtyAll_mgmt, ↓State.initLs_mgmt, ↓State.initPool_mgmt, ↓State.latchHome_mgmt, ↓State.layGuard_mgmt, ↓State.modHasp_mgmt, ↓State.noteSeed_mgmt, ↓apply_ite State.mgmt, ite_self]; done)
theorem State.refuseStart_mgmt (s : State) (c : Nat) : (State.refuseStart s c).mgmt = s.mgmt := by
  unfold State.refuseStart; (try dsimp only); (repeat' split) <;> first | with_reducible rfl | (simp only [↓State.complete_mgmt, ↓State.modHasp_mgmt, ↓apply_ite State.mgmt, ite_self]; done) | (simp [↓State.complete_mgmt, ↓State.modHasp_mgmt, ↓apply_ite State.mgmt, ite_self]; done)
theorem State.startLater_mgmt (s : State) (c : Nat) : (State.startLater s c).mgmt = s.mgmt := by
  unfold State.startLater; (try dsimp only); (repeat' split) <;> first | with_reducible rfl | (simp only [↓State.addStream_mgmt, ↓over_mgmt, ↓foldl_mgmt, ↓apply_ite State.mgmt, ite_self]; done) | (simp [↓State.addStream_mgmt, ↓over_mgmt, ↓foldl_mgmt, ↓apply_ite State.mgmt, ite_self]; done)
theorem State.startPhase_mgmt (s : State) (c : Nat) : (State.startPhase s c).1.mgmt = s.mgmt := by
  unfold State.startPhase; (try dsimp only); (repeat' split) <;> first | with_reducible rfl | (simp only [↓State.leaveStopped_mgmt, ↓State.modHasp_mgmt, ↓State.refuseStart_mgmt, ↓State.startLater_mgmt, ↓apply_ite State.mgmt, ite_self]; done) | (simp [↓State.leaveStopped_mgmt, ↓State.modHasp_mgmt, ↓State.refuseStart_mgmt, ↓State.startLater_mgmt, ↓apply_ite State.mgmt, ite_self]; done)
theorem State.stepStart_mgmt (s : State) (c : Nat) (v : Nat) (told : Bool) : (State.stepStart s c v told).mgmt = s.mgmt := by
  unfold State.stepStart; simp only [↓State.beginStep_mgmt, ↓State.startPhase_mgmt, ↓apply_ite State.mgmt, ite_self]
theorem State.packetStarts_mgmt (s : State) (pkt : Option Bytes) : (State.packetStarts s pkt).mgmt = s.mgmt := by
  unfold State.packetStarts; (try dsimp only); (repeat' split) <;> first | with_reducible rfl | (simp only [↓State.stepStart_mgmt, ↓over_mgmt, ↓foldl_mgmt, ↓apply_ite State.mgmt, ite_self]; done) | (simp [↓State.stepStart_mgmt, ↓over_mgmt, ↓foldl_mgmt, ↓apply_ite State.mgmt, ite_self]; done)
theorem State.rerunStarts_mgmt (s : State) (old : State) (pkt : Option Bytes) : (State.rerunStarts s old pkt).mgmt = s.mgmt := by
  unfold State.rerunStarts
  split
  · rfl
  · dsimp only
    exact ite_mgmt (State.stepStart_mgmt ..) rfl
theorem State.openReservations_mgmt (s : State) (c : Nat) : (State.openReservations s c).mgmt = s.mgmt := by
  unfold State.openReservations; (try dsimp only); (repeat' split) <;> first | with_reducible rfl | (simp only [↓State.modLink_mgmt, ↓over_mgmt, ↓foldl_mgmt, ↓apply_ite State.mgmt, ite_self]; done) | (simp [↓State.modLink_mgmt, ↓over_mgmt, ↓foldl_mgmt, ↓apply_ite State.mgmt, ite_self]; done)
theorem State.copyArena_mgmt (s : State) (c : Nat) (x : Nat) : (State.copyArena s c x).mgmt = s.mgmt := by
  unfold State.copyArena; (try dsimp only); (repeat' split) <;> first | with_reducible rfl | (simp only [↓State.dirty_mgmt, ↓State.wrRaw_mgmt, ↓State.writeLate_mgmt, ↓over_mgmt, ↓foldl_mgmt, ↓apply_ite State.mgmt, ite_self]; done) | (simp [↓State.dirty_mgmt, ↓State.wrRaw_mgmt, ↓State.writeLate_mgmt, ↓over_mgmt, ↓foldl_mgmt, ↓apply_ite State.mgmt, ite_self]; done)
theorem State.expectGuard_mgmt (s : State) (c : Nat) : (State.expectGuard s c).mgmt = s.mgmt := by
  unfold State.expectGuard; (try dsimp only); (repeat' split) <;> first | with_reducible rfl | (simp only [↓State.addExpect_mgmt, ↓State.layGuardFor_mgmt, ↓State.noteSeed_mgmt, ↓apply_ite State.mgmt, ite_self]; done) | (simp [↓State.addExpect_mgmt, ↓State.layGuardFor_mgmt, ↓State.noteSeed_mgmt, ↓apply_ite State.mgmt, ite_self]; done)
theorem State.expectPiece_mgmt (s : State) (c : Nat) (x : Nat) (e : PermEntry) (u : Nat) : (State.expectPiece s c x e u).mgmt = s.mgmt := by
  unfold State.expectPiece; simp only [↓State.addExpect_mgmt, ↓apply_ite State.mgmt, ite_self]
theorem State.expectRound_mgmt (s : State) (c : Nat) (j : CycleJob) (r : Nat) : (State.expectRound s c j r).mgmt = s.mgmt := by
  unfold State.expectRound; simp only [↓State.addExpect_mgmt, ↓apply_ite State.mgmt, ite_self]
theorem State.installRound_mgmt (s : State) (c : Nat) (j : CycleJob) (r : Nat) : (State.installRound s c j r).mgmt = s.mgmt := by
  unfold State.installRound; simp only [↓State.countTier_mgmt, ↓State.expectRound_mgmt, ↓State.modCtx_mgmt, ↓State.setJob_mgmt, ↓State.spotWrite_mgmt, ↓apply_ite State.mgmt, ite_self]
theorem State.cycleStep_mgmt (s : State) (c : Nat) (j : CycleJob) (rest : List PermMove) : (State.cycleStep s c j rest).mgmt = s.mgmt := by
  unfold State.cycleStep; (try dsimp only); (repeat' split) <;> first | with_reducible rfl | (simp only [↓State.beginRound_mgmt, ↓State.installRound_mgmt, ↓State.setMoves_mgmt, ↓apply_ite State.mgmt, ite_self]; done) | (simp [↓State.beginRound_mgmt, ↓State.installRound_mgmt, ↓State.setMoves_mgmt, ↓apply_ite State.mgmt, ite_self]; done)
theorem State.moveStep_mgmt (s : State) (c : Nat) : (State.moveStep s c).mgmt = s.mgmt := by
  unfold State.moveStep; (try dsimp only); (repeat' split) <;> first | with_reducible rfl | (simp only [↓State.addStream_mgmt, ↓State.countTier_mgmt, ↓State.cycleStep_mgmt, ↓State.expectRound_mgmt, ↓State.setMoves_mgmt, ↓State.spotWrite_mgmt, ↓over_mgmt, ↓foldl_mgmt, ↓apply_ite State.mgmt, ite_self]; done) | (simp [↓State.addStream_mgmt, ↓State.countTier_mgmt, ↓State.cycleStep_mgmt, ↓State.expectRound_mgmt, ↓State.setMoves_mgmt, ↓State.spotWrite_mgmt, ↓over_mgmt, ↓foldl_mgmt, ↓apply_ite State.mgmt, ite_self]; done)
theorem State.moves_mgmt (s : State) (c : Nat) : (State.moves s c).mgmt = s.mgmt := by
  unfold State.moves; (try dsimp only); (repeat' split) <;> first | with_reducible rfl | (simp only [↓State.moveStep_mgmt, ↓over_mgmt, ↓foldl_mgmt, ↓apply_ite State.mgmt, ite_self]; done) | (simp [↓State.moveStep_mgmt, ↓over_mgmt, ↓foldl_mgmt, ↓apply_ite State.mgmt, ite_self]; done)
theorem State.permBegin_mgmt (s : State) (c : Nat) : (State.permBegin s c).mgmt = s.mgmt := by
  unfold State.permBegin; (try dsimp only); (repeat' split) <;> first | with_reducible rfl | (simp only [↓State.copyArena_mgmt, ↓State.expectGuard_mgmt, ↓State.expectPiece_mgmt, ↓State.modCtx_mgmt, ↓State.moves_mgmt, ↓State.setMoves_mgmt, ↓over_mgmt, ↓foldl_mgmt, ↓apply_ite State.mgmt, ite_self]; done) | (simp [↓State.copyArena_mgmt, ↓State.expectGuard_mgmt, ↓State.expectPiece_mgmt, ↓State.modCtx_mgmt, ↓State.moves_mgmt, ↓State.setMoves_mgmt, ↓over_mgmt, ↓foldl_mgmt, ↓apply_ite State.mgmt, ite_self]; done)
theorem State.permCheck_mgmt (s : State) (c : Nat) : (State.permCheck s c).mgmt = s.mgmt := by
  unfold State.permCheck; simp only [↓State.event_mgmt, ↓State.modCtx_mgmt, ↓apply_ite State.mgmt, ite_self]
theorem State.promote_mgmt (s : State) (c : Nat) : (State.promote s c).mgmt = s.mgmt := by
  unfold State.promote; simp only [↓State.modKv_mgmt, ↓apply_ite State.mgmt, ite_self]
theorem State.preempt_mgmt (s : State) (c : Nat) (i : Nat) : (State.preempt s c i).mgmt = s.mgmt := by
  unfold State.preempt; simp only [↓State.count_mgmt, ↓State.event_mgmt, ↓State.modKv_mgmt, ↓apply_ite State.mgmt, ite_self]
theorem demandGo_mgmt (c : Nat) (i : Nat) (layers : Nat) (owed : Nat) (a : Nat) (a5 : State) : (demandGo c i layers owed a a5).mgmt = a5.mgmt := by
  induction a generalizing a5 with
  | zero => rfl
  | succ f ih =>
    unfold demandGo
    split
    · rfl
    dsimp only
    split
    · exact State.modKv_mgmt ..
    split
    · exact (ih _).trans ((State.preempt_mgmt ..).trans (State.modKv_mgmt ..))
    · exact State.modKv_mgmt ..
theorem serveGo_mgmt (c : Nat) (layers : Nat) (a : List Nat) (a3 : Nat) (a4 : State) : (serveGo c layers a a3 a4).mgmt = a4.mgmt := by
  induction a generalizing a3 a4 with
  | nil => rfl
  | cons e t ih =>
    unfold serveGo
    dsimp only
    exact (ih _ _).trans (demandGo_mgmt ..)
theorem State.serveLive_mgmt (s : State) (c : Nat) : (State.serveLive s c).mgmt = s.mgmt := by
  unfold State.serveLive; (try dsimp only); (repeat' split) <;> first | with_reducible rfl | (simp only [↓State.event_mgmt, ↓State.modKv_mgmt, ↓serveGo_mgmt, ↓over_mgmt, ↓foldl_mgmt, ↓apply_ite State.mgmt, ite_self]; done) | (simp [↓State.event_mgmt, ↓State.modKv_mgmt, ↓serveGo_mgmt, ↓over_mgmt, ↓foldl_mgmt, ↓apply_ite State.mgmt, ite_self]; done)
theorem State.serveRest_mgmt (s : State) (c : Nat) : (State.serveRest s c).mgmt = s.mgmt := by
  unfold State.serveRest; dsimp only; (repeat' (first | (refine over_mgmt _ _ _ (fun s x => ?_)) | (refine (over_mgmt _ _ _ (fun s x => ?_)).trans ?_) | split)) <;> (first | rfl | (simp only [↓State.modKv_mgmt, ↓over_mgmt, ↓apply_ite State.mgmt, ite_self]; done) | (simp [↓State.modKv_mgmt, ↓over_mgmt, ↓apply_ite State.mgmt, ite_self]; done) | (dsimp only; split <;> first | rfl | simp [↓State.modKv_mgmt, ↓over_mgmt, ↓apply_ite State.mgmt, ite_self]))
theorem State.takeTokens_mgmt (s : State) (c : Nat) : (State.takeTokens s c).mgmt = s.mgmt := by
  unfold State.takeTokens; (try dsimp only); (repeat' split) <;> first | with_reducible rfl | (simp only [↓State.modKv_mgmt, ↓over_mgmt, ↓foldl_mgmt, ↓apply_ite State.mgmt, ite_self]; done) | (simp [↓State.modKv_mgmt, ↓over_mgmt, ↓foldl_mgmt, ↓apply_ite State.mgmt, ite_self]; done)
theorem State.publish_mgmt (s : State) (c : Nat) : (State.publish s c).mgmt = s.mgmt := by
  unfold State.publish; (try dsimp only); (repeat' split) <;> first | with_reducible rfl | (simp only [↓State.modKv_mgmt, ↓State.promote_mgmt, ↓State.serveLive_mgmt, ↓State.serveRest_mgmt, ↓State.takeTokens_mgmt, ↓State.writeTable_mgmt, ↓over_mgmt, ↓foldl_mgmt, ↓apply_ite State.mgmt, ite_self]; done) | (simp [↓State.modKv_mgmt, ↓State.promote_mgmt, ↓State.serveLive_mgmt, ↓State.serveRest_mgmt, ↓State.takeTokens_mgmt, ↓State.writeTable_mgmt, ↓over_mgmt, ↓foldl_mgmt, ↓apply_ite State.mgmt, ite_self]; done)
theorem State.settleGuard_mgmt (s : State) (c : Nat) : (State.settleGuard s c).mgmt = s.mgmt := by
  unfold State.settleGuard; simp only [↓State.modCtx_mgmt, ↓State.modGuard_mgmt, ↓apply_ite State.mgmt, ite_self]
theorem State.settleFailover_mgmt (s : State) (c : Nat) : (State.settleFailover s c).mgmt = s.mgmt := by
  unfold State.settleFailover; simp only [↓State.modCtx_mgmt, ↓State.settleGuard_mgmt, ↓apply_ite State.mgmt, ite_self]
theorem State.moveSeat_mgmt (s : State) (c : Nat) (seat : Nat) (old : Nat) (bank : Bank) : (State.moveSeat s c seat old bank).mgmt = s.mgmt := by
  unfold State.moveSeat; (try dsimp only); (repeat' split) <;> first | with_reducible rfl | (simp only [↓State.addExpect_mgmt, ↓State.addStream_mgmt, ↓State.layGuardFor_mgmt, ↓State.modCtx_mgmt, ↓State.noteSeed_mgmt, ↓State.takeSeed_mgmt, ↓over_mgmt, ↓foldl_mgmt, ↓apply_ite State.mgmt, ite_self]; done) | (simp [↓State.addExpect_mgmt, ↓State.addStream_mgmt, ↓State.layGuardFor_mgmt, ↓State.modCtx_mgmt, ↓State.noteSeed_mgmt, ↓State.takeSeed_mgmt, ↓over_mgmt, ↓foldl_mgmt, ↓apply_ite State.mgmt, ite_self]; done)
theorem State.takeSeats_mgmt (s : State) (bank : Bank) : (State.takeSeats s bank).mgmt = s.mgmt := by
  unfold State.takeSeats; (try dsimp only); (repeat' split) <;> first | with_reducible rfl | (simp only [↓State.moveSeat_mgmt, ↓over_mgmt, ↓foldl_mgmt, ↓apply_ite State.mgmt, ite_self]; done) | (simp [↓State.moveSeat_mgmt, ↓over_mgmt, ↓foldl_mgmt, ↓apply_ite State.mgmt, ite_self]; done)
theorem State.runBegin_mgmt (s : State) (old : State) : (State.runBegin s old).mgmt = s.mgmt := by
  unfold State.runBegin
  dsimp only
  refine (over_mgmt _ _ _ (fun s x => State.publish_mgmt ..)).trans ((over_mgmt _ _ _ (fun s x => State.openReservations_mgmt ..)).trans
    ((over_mgmt _ _ _ (fun s x => ?_)).trans (ite_mgmt rfl (State.takeSeats_mgmt ..))))
  exact (State.settleFailover_mgmt ..).trans ((State.permBegin_mgmt ..).trans (State.permCheck_mgmt ..))
theorem State.enforceStandby_mgmt (s : State) : (State.enforceStandby s).mgmt = s.mgmt := by
  unfold State.enforceStandby; simp only [↓State.modTick_mgmt, ↓apply_ite State.mgmt, ite_self]
theorem State.startPlacement_mgmt (s : State) : (State.startPlacement s).mgmt = s.mgmt := by
  unfold State.startPlacement; simp only [↓State.enforceStandby_mgmt, ↓apply_ite State.mgmt, ite_self]
theorem State.stepTimebase_mgmt (s : State) : (State.stepTimebase s).1.mgmt = s.mgmt := by
  unfold State.stepTimebase; (try dsimp only); (repeat' split) <;> first | with_reducible rfl | (simp only [↓State.event_mgmt, ↓State.modTick_mgmt, ↓apply_ite State.mgmt, ite_self]; done) | (simp [↓State.event_mgmt, ↓State.modTick_mgmt, ↓apply_ite State.mgmt, ite_self]; done)
theorem State.switchPlacement_mgmt (s : State) (v : Nat) : (State.switchPlacement s v).mgmt = s.mgmt := by
  unfold State.switchPlacement; simp only [↓State.enforceStandby_mgmt, ↓State.event_mgmt, ↓apply_ite State.mgmt, ite_self]
theorem State.withholdAll_mgmt (s : State) : (State.withholdAll s).mgmt = s.mgmt := by
  unfold State.withholdAll; (try dsimp only); (repeat' split) <;> first | with_reducible rfl | (simp only [↓State.modHasp_mgmt, ↓over_mgmt, ↓foldl_mgmt, ↓apply_ite State.mgmt, ite_self]; done) | (simp [↓State.modHasp_mgmt, ↓over_mgmt, ↓foldl_mgmt, ↓apply_ite State.mgmt, ite_self]; done)
theorem State.takeEffect_mgmt (s : State) : (State.takeEffect s).mgmt = s.mgmt := by
  unfold State.takeEffect; (try dsimp only); (repeat' split) <;> first | with_reducible rfl | (simp only [↓State.allowedBoundary_mgmt, ↓State.decideRuns_mgmt, ↓State.event_mgmt, ↓State.markAdrift_mgmt, ↓State.modTick_mgmt, ↓State.packetCmd_mgmt, ↓State.packetStarts_mgmt, ↓State.rerunStarts_mgmt, ↓State.runBegin_mgmt, ↓State.startPlacement_mgmt, ↓State.stepTimebase_mgmt, ↓State.stopTick_mgmt, ↓State.switchPlacement_mgmt, ↓State.withholdAll_mgmt, ↓apply_ite State.mgmt, ite_self]; done) | (simp [↓State.allowedBoundary_mgmt, ↓State.decideRuns_mgmt, ↓State.event_mgmt, ↓State.markAdrift_mgmt, ↓State.modTick_mgmt, ↓State.packetCmd_mgmt, ↓State.packetStarts_mgmt, ↓State.rerunStarts_mgmt, ↓State.runBegin_mgmt, ↓State.startPlacement_mgmt, ↓State.stepTimebase_mgmt, ↓State.stopTick_mgmt, ↓State.switchPlacement_mgmt, ↓State.withholdAll_mgmt, ↓apply_ite State.mgmt, ite_self]; done)
theorem State.sendPresence_mgmt (s : State) : (State.sendPresence s).mgmt = s.mgmt := by
  unfold State.sendPresence; simp only [↓State.sendMsg_mgmt, ↓apply_ite State.mgmt, ite_self]
theorem State.sendReply_mgmt (s : State) : (State.sendReply s).mgmt = s.mgmt := by
  unfold State.sendReply; simp only [↓State.modTick_mgmt, ↓State.sendControl_mgmt, ↓State.sendMasterState_mgmt, ↓State.sendPresence_mgmt, ↓apply_ite State.mgmt, ite_self]
theorem State.tryReply_mgmt (s : State) (final : Bool) : (State.tryReply s final).mgmt = s.mgmt := by
  unfold State.tryReply; simp only [↓State.sendReply_mgmt, ↓apply_ite State.mgmt, ite_self]
theorem State.beginTick_mgmt (s : State) : (State.beginTick s).mgmt = s.mgmt := by
  unfold State.beginTick; (try dsimp only); (repeat' split) <;> first | with_reducible rfl | (simp only [↓State.chooseRung_mgmt, ↓State.countSilence_mgmt, ↓State.declareDead_mgmt, ↓State.everyBoundary_mgmt, ↓State.masterSend_mgmt, ↓State.modCtx_mgmt, ↓State.modTick_mgmt, ↓State.notePhase_mgmt, ↓State.powerWindow_mgmt, ↓State.publishForecast_mgmt, ↓State.ringDrain_mgmt, ↓State.sendCredits_mgmt, ↓State.sendHellos_mgmt, ↓State.showCap_mgmt, ↓State.stopTick_mgmt, ↓State.takeEffect_mgmt, ↓State.tryReply_mgmt, ↓over_mgmt, ↓foldl_mgmt, ↓apply_ite State.mgmt, ite_self]; done) | (simp [↓State.chooseRung_mgmt, ↓State.countSilence_mgmt, ↓State.declareDead_mgmt, ↓State.everyBoundary_mgmt, ↓State.masterSend_mgmt, ↓State.modCtx_mgmt, ↓State.modTick_mgmt, ↓State.notePhase_mgmt, ↓State.powerWindow_mgmt, ↓State.publishForecast_mgmt, ↓State.ringDrain_mgmt, ↓State.sendCredits_mgmt, ↓State.sendHellos_mgmt, ↓State.showCap_mgmt, ↓State.stopTick_mgmt, ↓State.takeEffect_mgmt, ↓State.tryReply_mgmt, ↓over_mgmt, ↓foldl_mgmt, ↓apply_ite State.mgmt, ite_self]; done)
theorem State.begun_mgmt (s : State) (c : Nat) (u : Nat) (r : Bytes) (isWait : Bool) : (State.begun s c u r isWait).mgmt = s.mgmt := by
  unfold State.begun; simp only [↓State.modUnit_mgmt, ↓apply_ite State.mgmt, ite_self]
theorem State.boltSet_mgmt (s : State) (b : Nat) (v : W32) : (State.boltSet s b v).mgmt = s.mgmt := by
  unfold State.boltSet; simp only [↓State.setBolt_mgmt, ↓apply_ite State.mgmt, ite_self]
theorem State.boltWait_mgmt (s : State) (b : Nat) (w : Wait) : (State.boltWait s b w).mgmt = s.mgmt := by
  unfold State.boltWait; simp only [↓State.setBolt_mgmt, ↓apply_ite State.mgmt, ite_self]
theorem State.bringupFails_mgmt (s : State) : (State.bringupFails s).mgmt = s.mgmt := by rfl
theorem State.cancelOwed_mgmt (s : State) (c : Nat) : (State.cancelOwed s c).mgmt = s.mgmt := by
  unfold State.cancelOwed; dsimp only; (repeat' (first | (refine over_mgmt _ _ _ (fun s x => ?_)) | (refine (over_mgmt _ _ _ (fun s x => ?_)).trans ?_) | split)) <;> (first | rfl | (simp only [↓State.complete_mgmt, ↓State.finish_mgmt, ↓over_mgmt]; done) | (simp [↓State.complete_mgmt, ↓State.finish_mgmt, ↓over_mgmt]; done) | (dsimp only; split <;> first | rfl | simp [↓State.complete_mgmt, ↓State.finish_mgmt, ↓over_mgmt]))
theorem State.chargePool_mgmt (s : State) (counters : List Nat) (mj : Nat) : (State.chargePool s counters mj).1.mgmt = s.mgmt := by
  unfold State.chargePool; (try dsimp only); (repeat' split) <;> first | with_reducible rfl | (simp only [↓State.account_mgmt, ↓over_mgmt, ↓foldl_mgmt, ↓apply_ite State.mgmt, ite_self]; done) | (simp [↓State.account_mgmt, ↓over_mgmt, ↓foldl_mgmt, ↓apply_ite State.mgmt, ite_self]; done)
theorem State.chargeWards_mgmt (s : State) (mj : List Nat) : (State.chargeWards s mj).1.mgmt = s.mgmt := by
  unfold State.chargeWards
  have key : ∀ (l : List Nat) (p : State × Nat), (l.foldl (fun (p : State × Nat) w =>
    match (List.range 16).find? (fun c => (s.hasp c).run && (s.wardSet c).contains w) with
    | some c => (p.1.account c 12 (mj.getD w 0), p.2)
    | none => (p.1, p.2 + mj.getD w 0)) p).1.mgmt = p.1.mgmt := by
    intro l
    induction l with
    | nil => intro p; rfl
    | cons a l ih =>
      intro p
      rw [List.foldl_cons, ih]
      split <;> rfl
  exact key _ _
theorem State.chargeEnergy_mgmt (s : State) (env : BoundaryEnv) : (State.chargeEnergy s env).mgmt = s.mgmt := by
  unfold State.chargeEnergy
  dsimp only
  have key : ∀ (l : List (List Nat × Nat)) (p : State × Nat),
      (l.foldl (fun (p : State × Nat) q => ((p.1.chargePool q.1 (env.poolMj.getD q.2 0)).1, p.2 + (p.1.chargePool q.1 (env.poolMj.getD q.2 0)).2)) p).1.mgmt = p.1.mgmt := by
    intro l
    induction l with
    | nil => intro p; rfl
    | cons a l ih => intro p; rw [List.foldl_cons, ih]; exact State.chargePool_mgmt ..
  exact (State.setRegN_mgmt ..).trans ((State.modPwr_mgmt ..).trans ((key _ _).trans (State.chargeWards_mgmt ..)))
theorem State.checkGuard_mgmt (s : State) (b : Bytes) : (State.checkGuard s b).mgmt = s.mgmt := by
  unfold State.checkGuard; (try dsimp only); (repeat' split) <;> first | with_reducible rfl | (simp only [↓State.event_mgmt, ↓State.modGuard_mgmt, ↓State.sendMsg_mgmt, ↓apply_ite State.mgmt, ite_self]; done) | (simp [↓State.event_mgmt, ↓State.modGuard_mgmt, ↓State.sendMsg_mgmt, ↓apply_ite State.mgmt, ite_self]; done)
theorem State.clearBits_mgmt (s : State) (r : RegRow) (off : Nat) (v : W32) : (State.clearBits s r off v).mgmt = s.mgmt := by
  unfold State.clearBits; (try dsimp only); (repeat' split) <;> first | with_reducible rfl | (simp only [↓State.modCtx_mgmt, ↓State.setReg_mgmt, ↓apply_ite State.mgmt, ite_self]; done) | (simp [↓State.modCtx_mgmt, ↓State.setReg_mgmt, ↓apply_ite State.mgmt, ite_self]; done)
theorem State.clearDigest_mgmt (s : State) (u : Nat) (slot : Nat) : (State.clearDigest s u slot).mgmt = s.mgmt := by
  unfold State.clearDigest; simp only [↓State.modUnit_mgmt, ↓apply_ite State.mgmt, ite_self]
theorem State.clearRingRegs_mgmt (s : State) (fn : Nat) : (State.clearRingRegs s fn).mgmt = s.mgmt := by
  unfold State.clearRingRegs; simp only [↓State.modRing_mgmt, ↓apply_ite State.mgmt, ite_self]
theorem State.closeReservations_mgmt (s : State) : (State.closeReservations s).mgmt = s.mgmt := by
  unfold State.closeReservations; (try dsimp only); (repeat' split) <;> first | with_reducible rfl | (simp only [↓State.modLink_mgmt, ↓over_mgmt, ↓foldl_mgmt, ↓apply_ite State.mgmt, ite_self]; done) | (simp [↓State.modLink_mgmt, ↓over_mgmt, ↓foldl_mgmt, ↓apply_ite State.mgmt, ite_self]; done)
theorem State.clearTick_mgmt (s : State) : (State.clearTick s).mgmt = s.mgmt := by
  unfold State.clearTick; simp only [↓State.closeReservations_mgmt, ↓apply_ite State.mgmt, ite_self]
theorem State.closeChain_mgmt (s : State) (fn : Nat) (k : Nat × W64) : (State.closeChain s fn k).mgmt = s.mgmt := by
  unfold State.closeChain; simp only [↓State.modRing_mgmt, ↓apply_ite State.mgmt, ite_self]
theorem State.closeGroup_mgmt (s : State) (c : Nat) (st : Nat) : (State.closeGroup s c st).mgmt = s.mgmt := by
  unfold State.closeGroup; simp only [↓State.defer_mgmt, ↓State.modLive_mgmt, ↓apply_ite State.mgmt, ite_self]
theorem State.completeR_mgmt (s : State) (fn : Nat) (opcode : Nat) (cmd : HostCmd) (status : Nat) (result : Nat) : (State.completeR s fn opcode cmd status result).mgmt = s.mgmt := by
  unfold State.completeR; simp only [↓State.finish_mgmt, ↓apply_ite State.mgmt, ite_self]
theorem State.coolDown_mgmt (s : State) : (State.coolDown s).mgmt = s.mgmt := by
  unfold State.coolDown; simp only [↓State.emit_mgmt, ↓apply_ite State.mgmt, ite_self]
theorem State.copyFirstFrames_mgmt (s : State) (c : Nat) (v : Nat) (x : Nat) : (State.copyFirstFrames s c v x).mgmt = s.mgmt := by
  unfold State.copyFirstFrames; (try dsimp only); (repeat' split) <;> first | with_reducible rfl | (simp only [↓State.countTier_mgmt, ↓State.wrRaw_mgmt, ↓over_mgmt, ↓foldl_mgmt, ↓apply_ite State.mgmt, ite_self]; done) | (simp [↓State.countTier_mgmt, ↓State.wrRaw_mgmt, ↓over_mgmt, ↓foldl_mgmt, ↓apply_ite State.mgmt, ite_self]; done)
theorem State.copySlot_mgmt (s : State) (c : Nat) (v : Nat) (f : Nat) (fill : Bool) : (State.copySlot s c v f fill).mgmt = s.mgmt := by
  unfold State.copySlot; simp only [↓State.account_mgmt, ↓State.dirty_mgmt, ↓State.wrRaw_mgmt, ↓apply_ite State.mgmt, ite_self]
theorem State.countAssertion_mgmt (s : State) (now : Nat) : (State.countAssertion s now).mgmt = s.mgmt := by
  unfold State.countAssertion; simp only [↓State.count_mgmt, ↓State.eventIf_mgmt, ↓apply_ite State.mgmt, ite_self]
theorem State.countCorrected_mgmt (s : State) (env : BoundaryEnv) : (State.countCorrected s env).mgmt = s.mgmt := by
  unfold State.countCorrected; (try dsimp only); (repeat' split) <;> first | with_reducible rfl | (simp only [↓State.countBy_mgmt, ↓over_mgmt, ↓foldl_mgmt, ↓apply_ite State.mgmt, ite_self]; done) | (simp [↓State.countBy_mgmt, ↓over_mgmt, ↓foldl_mgmt, ↓apply_ite State.mgmt, ite_self]; done)
theorem State.countMirror_mgmt (s : State) (n : Nat) : (State.countMirror s n).mgmt = s.mgmt := by
  unfold State.countMirror; simp only [↓State.setRegN_mgmt, ↓apply_ite State.mgmt, ite_self]
theorem State.countReads_mgmt (s : State) (bs : List Nat) : (State.countReads s bs).mgmt = s.mgmt := by
  unfold State.countReads; (try dsimp only); (repeat' split) <;> first | with_reducible rfl | (simp only [↓over_mgmt, ↓foldl_mgmt, ↓apply_ite State.mgmt, ite_self]; done) | (simp [↓over_mgmt, ↓foldl_mgmt, ↓apply_ite State.mgmt, ite_self]; done)
theorem State.countSpot_mgmt (s : State) (c : Nat) (p : Spot) (n : Nat) : (State.countSpot s c p n).mgmt = s.mgmt := by
  unfold State.countSpot; simp only [↓State.countTier_mgmt, ↓apply_ite State.mgmt, ite_self]
theorem State.countTick_mgmt (s : State) : (State.countTick s).mgmt = s.mgmt := by
  unfold State.countTick; (try dsimp only); (repeat' split) <;> first | with_reducible rfl | (simp only [↓State.modHasp_mgmt, ↓over_mgmt, ↓foldl_mgmt, ↓apply_ite State.mgmt, ite_self]; done) | (simp [↓State.modHasp_mgmt, ↓over_mgmt, ↓foldl_mgmt, ↓apply_ite State.mgmt, ite_self]; done)
theorem State.poisonCtx_mgmt (s : State) (c : Nat) : (State.poisonCtx s c).mgmt = s.mgmt := by
  unfold State.poisonCtx; simp only [↓State.markPoison_mgmt, ↓apply_ite State.mgmt, ite_self]
theorem State.refuseRecord_mgmt (s : State) (c : Nat) (u : Nat) (r : Bytes) (code : Nat) : (State.refuseRecord s c u r code).mgmt = s.mgmt := by
  unfold State.refuseRecord; simp only [↓State.modUnit_mgmt, ↓State.opFault_mgmt, ↓apply_ite State.mgmt, ite_self]
theorem State.ctxClash_mgmt (s : State) (c : Nat) (u : Nat) (r : Bytes) : (State.ctxClash s c u r).mgmt = s.mgmt := by
  unfold State.ctxClash; simp only [↓State.poisonCtx_mgmt, ↓State.refuseRecord_mgmt, ↓apply_ite State.mgmt, ite_self]
theorem State.cutLive_mgmt (s : State) (fn : Nat) (x : Chain) : (State.cutLive s fn x).mgmt = s.mgmt := by
  unfold State.cutLive; simp only [↓State.closeChain_mgmt, ↓State.complete_mgmt, ↓State.count_mgmt, ↓apply_ite State.mgmt, ite_self]
theorem State.flashReadOnly_mgmt (s : State) : (State.flashReadOnly s).mgmt = s.mgmt := by
  unfold State.flashReadOnly; simp only [↓State.event_mgmt, ↓apply_ite State.mgmt, ite_self]
theorem State.dieFails_mgmt (s : State) (d : Nat) : (State.dieFails s d).mgmt = s.mgmt := by
  unfold State.dieFails; simp only [↓State.event_mgmt, ↓State.flashReadOnly_mgmt, ↓State.unitEvent_mgmt, ↓apply_ite State.mgmt, ite_self]
theorem State.digestMismatch_mgmt (s : State) (c : Nat) (u : Nat) (id : Nat) : (State.digestMismatch s c u id).mgmt = s.mgmt := by
  unfold State.digestMismatch; (try dsimp only); (repeat' split) <;> first | with_reducible rfl | (simp only [↓State.count_mgmt, ↓State.event_mgmt, ↓State.noteMismatch_mgmt, ↓State.opFault_mgmt, ↓State.poisonCtx_mgmt, ↓State.setLast_mgmt, ↓State.unclean_mgmt, ↓State.unitEvent_mgmt, ↓over_mgmt, ↓foldl_mgmt, ↓apply_ite State.mgmt, ite_self]; done) | (simp [↓State.count_mgmt, ↓State.event_mgmt, ↓State.noteMismatch_mgmt, ↓State.opFault_mgmt, ↓State.poisonCtx_mgmt, ↓State.setLast_mgmt, ↓State.unclean_mgmt, ↓State.unitEvent_mgmt, ↓over_mgmt, ↓foldl_mgmt, ↓apply_ite State.mgmt, ite_self]; done)
theorem State.disableRing_mgmt (s : State) (fn : Nat) : (State.disableRing s fn).mgmt = s.mgmt := by
  unfold State.disableRing; (try dsimp only); (repeat' split) <;> first | with_reducible rfl | (simp only [↓State.holdEntry_mgmt, ↓State.modRing_mgmt, ↓over_mgmt, ↓foldl_mgmt, ↓apply_ite State.mgmt, ite_self]; done) | (simp [↓State.holdEntry_mgmt, ↓State.modRing_mgmt, ↓over_mgmt, ↓foldl_mgmt, ↓apply_ite State.mgmt, ite_self]; done)
theorem drainLinkGo_mgmt (l : Nat) (a : List Waiting) (a2 : State) (a3 : List Packet) : (drainLinkGo l a a2 a3).1.mgmt = a2.mgmt := by
  induction a generalizing a2 a3 with
  | nil => rfl
  | cons e t ih =>
    unfold drainLinkGo
    dsimp only
    repeat' split
    all_goals first | exact (ih _ _).trans (State.begin_mgmt ..) | exact ih _ _
theorem State.drainLink_mgmt (s : State) (l : Nat) : (State.drainLink s l).mgmt = s.mgmt := by
  unfold State.drainLink; simp only [↓drainLinkGo_mgmt, ↓apply_ite State.mgmt, ite_self]
theorem State.drawBytes_mgmt (s : State) (n : Nat) : (State.drawBytes s n).2.mgmt = s.mgmt := by
  unfold State.drawBytes; simp only [↓State.draw_mgmt, ↓apply_ite State.mgmt, ite_self]
theorem State.dropOpenMedia_mgmt (s : State) (fn : Nat) : (State.dropOpenMedia s fn).mgmt = s.mgmt := by
  unfold State.dropOpenMedia; dsimp only; (repeat' (first | (refine over_mgmt _ _ _ (fun s x => ?_)) | (refine (over_mgmt _ _ _ (fun s x => ?_)).trans ?_) | split)) <;> (first | (with_reducible rfl) | (simp only [↓State.count_mgmt, ↓over_mgmt, ↓apply_ite State.mgmt, ite_self]; done) | (simp [↓State.count_mgmt, ↓over_mgmt, ↓apply_ite State.mgmt, ite_self]; done) | (dsimp only; split <;> first | (with_reducible rfl) | simp [↓State.count_mgmt, ↓over_mgmt, ↓apply_ite State.mgmt, ite_self]))
theorem State.emptyCopy_mgmt (s : State) (k : LpCopy) : (State.emptyCopy s k).mgmt = s.mgmt := by
  unfold State.emptyCopy; (try dsimp only); (repeat' split) <;> first | with_reducible rfl | (simp only [↓State.count_mgmt, ↓State.event_mgmt, ↓apply_ite State.mgmt, ite_self]; done) | (simp [↓State.count_mgmt, ↓State.event_mgmt, ↓apply_ite State.mgmt, ite_self]; done)
theorem State.forceRelease_mgmt (s : State) (b : Nat) : (State.forceRelease s b).mgmt = s.mgmt := by
  unfold State.forceRelease; (try dsimp only); (repeat' split) <;> first | with_reducible rfl | (simp only [↓State.event_mgmt, ↓State.markAll_mgmt, ↓State.opFault_mgmt, ↓State.setBolt_mgmt, ↓over_mgmt, ↓foldl_mgmt, ↓apply_ite State.mgmt, ite_self]; done) | (simp [↓State.event_mgmt, ↓State.markAll_mgmt, ↓State.opFault_mgmt, ↓State.setBolt_mgmt, ↓over_mgmt, ↓foldl_mgmt, ↓apply_ite State.mgmt, ite_self]; done)
theorem State.endBolts_mgmt (s : State) : (State.endBolts s).mgmt = s.mgmt := by
  unfold State.endBolts; (try dsimp only); (repeat' split) <;> first | with_reducible rfl | (simp only [↓State.forceRelease_mgmt, ↓over_mgmt, ↓foldl_mgmt, ↓apply_ite State.mgmt, ite_self]; done) | (simp [↓State.forceRelease_mgmt, ↓over_mgmt, ↓foldl_mgmt, ↓apply_ite State.mgmt, ite_self]; done)
theorem State.writeCarry_mgmt (s : State) (c : Nat) (l : Ledger) (b : Bytes) : (State.writeCarry s c l b).mgmt = s.mgmt := by
  unfold State.writeCarry; simp only [↓State.markPoison_mgmt, ↓State.wrRaw_mgmt, ↓apply_ite State.mgmt, ite_self]
theorem State.endCarry_mgmt (s : State) (c : Nat) (l : Nat) (idx : Nat) (pair : Nat) (sent : Bool) : (State.endCarry s c l idx pair sent).mgmt = s.mgmt := by
  unfold State.endCarry; (try dsimp only); (repeat' split) <;> first | with_reducible rfl | (simp only [↓State.appendLate_mgmt, ↓State.event_mgmt, ↓State.writeCarry_mgmt, ↓apply_ite State.mgmt, ite_self]; done) | (simp [↓State.appendLate_mgmt, ↓State.event_mgmt, ↓State.writeCarry_mgmt, ↓apply_ite State.mgmt, ite_self]; done)
theorem State.rejectRec_mgmt (s : State) (c : Nat) (reason : Nat) (shard : Nat) (off : Nat) (cmd : Option (Nat × HostCmd)) : (State.rejectRec s c reason shard off cmd).mgmt = s.mgmt := by
  unfold State.rejectRec; (try dsimp only); (repeat' split) <;> first | with_reducible rfl | (simp only [↓State.complete_mgmt, ↓State.count_mgmt, ↓State.event_mgmt, ↓State.postEvent_mgmt, ↓State.setRegN_mgmt, ↓apply_ite State.mgmt, ite_self]; done) | (simp [↓State.complete_mgmt, ↓State.count_mgmt, ↓State.event_mgmt, ↓State.postEvent_mgmt, ↓State.setRegN_mgmt, ↓apply_ite State.mgmt, ite_self]; done)
theorem placeGo_mgmt (c : Nat) (a : List IngRecord) (a2 : State) : (placeGo c a a2).mgmt = a2.mgmt := by
  induction a generalizing a2 with
  | nil => exact State.modIng_mgmt ..
  | cons e t ih =>
    unfold placeGo
    repeat' split
    all_goals first | exact State.modIng_mgmt .. | exact (ih _).trans (State.rejectRec_mgmt ..) | exact (ih _).trans (State.modIng_mgmt ..)
theorem State.settleIngest_mgmt (s : State) (c : Nat) : (State.settleIngest s c).mgmt = s.mgmt := by
  unfold State.settleIngest; simp only [↓State.settleCap_mgmt, ↓fillGo_mgmt, ↓placeGo_mgmt, ↓apply_ite State.mgmt, ite_self]
theorem State.joinIngest_mgmt (s : State) (c : Nat) (slot : Nat) (n : Nat) (chunks : List Bytes) (r : IngRecord) : (State.joinIngest s c slot n chunks r).mgmt = s.mgmt := by
  unfold State.joinIngest; simp only [↓State.arrive_mgmt, ↓State.modIng_mgmt, ↓State.settleIngest_mgmt, ↓apply_ite State.mgmt, ite_self]
theorem State.endFrame_mgmt (s : State) (st : Nat) : (State.endFrame s st).mgmt = s.mgmt := by
  unfold State.endFrame; (try dsimp only); (repeat' split) <;> first | with_reducible rfl | (simp only [↓State.complete_mgmt, ↓State.count_mgmt, ↓State.joinIngest_mgmt, ↓State.modMedia_mgmt, ↓apply_ite State.mgmt, ite_self]; done) | (simp [↓State.complete_mgmt, ↓State.count_mgmt, ↓State.joinIngest_mgmt, ↓State.modMedia_mgmt, ↓apply_ite State.mgmt, ite_self]; done)
theorem State.holdSteps_mgmt (s : State) : (State.holdSteps s).mgmt = s.mgmt := by
  unfold State.holdSteps; (try dsimp only); (repeat' split) <;> first | with_reducible rfl | (simp only [↓State.modHasp_mgmt, ↓State.modPwr_mgmt, ↓over_mgmt, ↓foldl_mgmt, ↓apply_ite State.mgmt, ite_self]; done) | (simp [↓State.modHasp_mgmt, ↓State.modPwr_mgmt, ↓over_mgmt, ↓foldl_mgmt, ↓apply_ite State.mgmt, ite_self]; done)
theorem State.overrunUnit_mgmt (s : State) (c : Nat) (u : Nat) : (State.overrunUnit s c u).mgmt = s.mgmt := by
  unfold State.overrunUnit; (try dsimp only); (repeat' split) <;> first | with_reducible rfl | (simp only [↓State.count_mgmt, ↓State.event_mgmt, ↓State.flag_mgmt, ↓State.markAll_mgmt, ↓State.opFault_mgmt, ↓State.postEvent_mgmt, ↓apply_ite State.mgmt, ite_self]; done) | (simp [↓State.count_mgmt, ↓State.event_mgmt, ↓State.flag_mgmt, ↓State.markAll_mgmt, ↓State.opFault_mgmt, ↓State.postEvent_mgmt, ↓apply_ite State.mgmt, ite_self]; done)
theorem State.overruns_mgmt (s : State) : (State.overruns s).mgmt = s.mgmt := by
  unfold State.overruns; (try dsimp only); (repeat' split) <;> first | with_reducible rfl | (simp only [↓State.overrunUnit_mgmt, ↓over_mgmt, ↓foldl_mgmt, ↓apply_ite State.mgmt, ite_self]; done) | (simp [↓State.overrunUnit_mgmt, ↓over_mgmt, ↓foldl_mgmt, ↓apply_ite State.mgmt, ite_self]; done)
theorem State.ownReply_mgmt (s : State) : (State.ownReply s).mgmt = s.mgmt := by
  unfold State.ownReply; (try dsimp only); (repeat' split) <;> first | with_reducible rfl | (simp only [↓State.modHasp_mgmt, ↓State.modTick_mgmt, ↓over_mgmt, ↓foldl_mgmt, ↓apply_ite State.mgmt, ite_self]; done) | (simp [↓State.modHasp_mgmt, ↓State.modTick_mgmt, ↓over_mgmt, ↓foldl_mgmt, ↓apply_ite State.mgmt, ite_self]; done)
theorem State.takeVote_mgmt (s : State) (c : Nat) : (State.takeVote s c).mgmt = s.mgmt := by
  unfold State.takeVote; simp only [↓State.modHasp_mgmt, ↓State.sendMsg_mgmt, ↓State.setRegN_mgmt, ↓apply_ite State.mgmt, ite_self]
theorem State.endTick_mgmt (s : State) (env : BoundaryEnv) : (State.endTick s env).mgmt = s.mgmt := by
  unfold State.endTick; (try dsimp only); (repeat' split) <;> first | with_reducible rfl | (simp only [↓State.account_mgmt, ↓State.ackDetours_mgmt, ↓State.chargeEnergy_mgmt, ↓State.clearTick_mgmt, ↓State.countCorrected_mgmt, ↓State.countTick_mgmt, ↓State.endBolts_mgmt, ↓State.holdSteps_mgmt, ↓State.noteErrs_mgmt, ↓State.overruns_mgmt, ↓State.ownReply_mgmt, ↓State.sendReply_mgmt, ↓State.takeVote_mgmt, ↓over_mgmt, ↓foldl_mgmt, ↓apply_ite State.mgmt, ite_self]; done) | (simp [↓State.account_mgmt, ↓State.ackDetours_mgmt, ↓State.chargeEnergy_mgmt, ↓State.clearTick_mgmt, ↓State.countCorrected_mgmt, ↓State.countTick_mgmt, ↓State.endBolts_mgmt, ↓State.holdSteps_mgmt, ↓State.noteErrs_mgmt, ↓State.overruns_mgmt, ↓State.ownReply_mgmt, ↓State.sendReply_mgmt, ↓State.takeVote_mgmt, ↓over_mgmt, ↓foldl_mgmt, ↓apply_ite State.mgmt, ite_self]; done)
theorem State.enterAction_mgmt (s : State) (kind : Nat) (unit : Nat) (action : Nat) : (State.enterAction s kind unit action).mgmt = s.mgmt := by rfl
theorem State.enterStage_mgmt (s : State) (g : Nat) : (State.enterStage s g).mgmt = s.mgmt := by
  unfold State.enterStage; simp only [↓State.eventIf_mgmt, ↓State.modPwr_mgmt, ↓State.showCap_mgmt, ↓apply_ite State.mgmt, ite_self]
theorem State.expireCredits_mgmt (s : State) (env : BoundaryEnv) : (State.expireCredits s env).mgmt = s.mgmt := by
  unfold State.expireCredits; (try dsimp only); (repeat' split) <;> first | with_reducible rfl | (simp only [↓State.modLink_mgmt, ↓over_mgmt, ↓foldl_mgmt, ↓apply_ite State.mgmt, ite_self]; done) | (simp [↓State.modLink_mgmt, ↓over_mgmt, ↓foldl_mgmt, ↓apply_ite State.mgmt, ite_self]; done)
theorem State.failChain_mgmt (s : State) (fn : Nat) (x : Chain) (code : Nat) : (State.failChain s fn x code).mgmt = s.mgmt := by
  unfold State.failChain; simp only [↓State.closeChain_mgmt, ↓State.complete_mgmt, ↓State.modRing_mgmt, ↓apply_ite State.mgmt, ite_self]
theorem State.readyCmd_mgmt (s : State) (fn : Nat) (op : Nat) (cmd : HostCmd) : (State.readyCmd s fn op cmd).mgmt = s.mgmt := by
  unfold State.readyCmd; simp only [↓State.modRing_mgmt, ↓apply_ite State.mgmt, ite_self]
theorem State.extendChain_mgmt (s : State) (fn : Nat) (p : RingPacket) (x : Chain) (last : Bool) : (State.extendChain s fn p x last).mgmt = s.mgmt := by
  unfold State.extendChain; simp only [↓State.closeChain_mgmt, ↓State.complete_mgmt, ↓State.failChain_mgmt, ↓State.modRing_mgmt, ↓State.readyCmd_mgmt, ↓apply_ite State.mgmt, ite_self]
theorem State.modReading_mgmt (s : State) (c : Nat) (uid : Nat) (f : IngRecord → IngRecord) : (State.modReading s c uid f).mgmt = s.mgmt := by
  unfold State.modReading; simp only [↓State.modIng_mgmt, ↓apply_ite State.mgmt, ite_self]
theorem State.freeDecode_mgmt (s : State) (uid : Nat) : (State.freeDecode s uid).mgmt = s.mgmt := by
  unfold State.freeDecode; (try dsimp only); (repeat' split) <;> first | with_reducible rfl | (simp only [↓State.modEngine_mgmt, ↓State.setPool_mgmt, ↓over_mgmt, ↓foldl_mgmt, ↓apply_ite State.mgmt, ite_self]; done) | (simp [↓State.modEngine_mgmt, ↓State.setPool_mgmt, ↓over_mgmt, ↓foldl_mgmt, ↓apply_ite State.mgmt, ite_self]; done)
theorem State.rejectDecode_mgmt (s : State) (c : Nat) (r : IngRecord) (reason : Nat) : (State.rejectDecode s c r reason).mgmt = s.mgmt := by
  unfold State.rejectDecode; simp only [↓State.freeDecode_mgmt, ↓State.modIng_mgmt, ↓State.rejectRec_mgmt, ↓State.settleIngest_mgmt, ↓apply_ite State.mgmt, ite_self]
theorem State.faultRecord_mgmt (s : State) (e : Nat) (c : Nat) (uid : Nat) : (State.faultRecord s e c uid).mgmt = s.mgmt := by
  unfold State.faultRecord; (try dsimp only); (repeat' split) <;> first | with_reducible rfl | (simp only [↓State.modEngine_mgmt, ↓State.modReading_mgmt, ↓State.rejectDecode_mgmt, ↓State.setPool_mgmt, ↓apply_ite State.mgmt, ite_self]; done) | (simp [↓State.modEngine_mgmt, ↓State.modReading_mgmt, ↓State.rejectDecode_mgmt, ↓State.setPool_mgmt, ↓apply_ite State.mgmt, ite_self]; done)
theorem State.flagIf_mgmt (s : State) (b : Bool) (i : Nat) : (State.flagIf s b i).mgmt = s.mgmt := by
  unfold State.flagIf; simp only [↓State.flag_mgmt, ↓apply_ite State.mgmt, ite_self]
theorem State.flashCmd_mgmt (s : State) (fn : Nat) (opcode : Nat) (cmd : HostCmd) (bad : Bool) (f : State → State) (h5 : ∀ (x0 : State), State.mgmt (f x0) = State.mgmt x0) : (State.flashCmd s fn opcode cmd bad f).mgmt = s.mgmt := by
  unfold State.flashCmd; simp only [↓State.complete_mgmt, ↓h5, ↓apply_ite State.mgmt, ite_self]
theorem State.flashFlushNow_mgmt (s : State) (fn : Nat) (cmd : HostCmd) : (State.flashFlushNow s fn cmd).mgmt = s.mgmt := by
  unfold State.flashFlushNow; simp only [↓State.complete_mgmt, ↓apply_ite State.mgmt, ite_self]
theorem State.flashFormatNow_mgmt (s : State) (fn : Nat) (cmd : HostCmd) : (State.flashFormatNow s fn cmd).mgmt = s.mgmt := by
  unfold State.flashFormatNow; (try dsimp only); (repeat' split) <;> first | with_reducible rfl | (simp only [↓State.complete_mgmt, ↓over_mgmt, ↓foldl_mgmt, ↓apply_ite State.mgmt, ite_self]; done) | (simp [↓State.complete_mgmt, ↓over_mgmt, ↓foldl_mgmt, ↓apply_ite State.mgmt, ite_self]; done)
theorem State.flashUnrecoverable_mgmt (s : State) (b : Nat) : (State.flashUnrecoverable s b).mgmt = s.mgmt := by
  unfold State.flashUnrecoverable; simp only [↓State.unitEvent_mgmt, ↓apply_ite State.mgmt, ite_self]
theorem State.replyData_mgmt (s : State) (fn : Nat) (id : W64) (b : Bytes) : (State.replyData s fn id b).mgmt = s.mgmt := by
  unfold State.replyData; (try dsimp only); (repeat' split) <;> first | with_reducible rfl | (simp only [↓State.ringPush_mgmt, ↓over_mgmt, ↓foldl_mgmt, ↓apply_ite State.mgmt, ite_self]; done) | (simp [↓State.ringPush_mgmt, ↓over_mgmt, ↓foldl_mgmt, ↓apply_ite State.mgmt, ite_self]; done)
theorem State.flashReadNow_mgmt (s : State) (fn : Nat) (cmd : HostCmd) (bad : Bool) : (State.flashReadNow s fn cmd bad).mgmt = s.mgmt := by
  unfold State.flashReadNow; simp only [↓State.complete_mgmt, ↓State.completeR_mgmt, ↓State.countReads_mgmt, ↓State.flashUnrecoverable_mgmt, ↓State.replyData_mgmt, ↓apply_ite State.mgmt, ite_self]
theorem State.settleFlushes_mgmt (s : State) (all : Bool) (b : Nat) : (State.settleFlushes s all b).mgmt = s.mgmt := by
  unfold State.settleFlushes; (try dsimp only); (repeat' split) <;> first | with_reducible rfl | (simp only [↓State.complete_mgmt, ↓over_mgmt, ↓foldl_mgmt, ↓apply_ite State.mgmt, ite_self]; done) | (simp [↓State.complete_mgmt, ↓over_mgmt, ↓foldl_mgmt, ↓apply_ite State.mgmt, ite_self]; done)
theorem State.flashTrimNow_mgmt (s : State) (fn : Nat) (cmd : HostCmd) : (State.flashTrimNow s fn cmd).mgmt = s.mgmt := by
  unfold State.flashTrimNow; (try dsimp only); (repeat' split) <;> first | with_reducible rfl | (simp only [↓State.complete_mgmt, ↓State.nextFlush_mgmt, ↓State.settleFlushes_mgmt, ↓over_mgmt, ↓foldl_mgmt, ↓apply_ite State.mgmt, ite_self]; done) | (simp [↓State.complete_mgmt, ↓State.nextFlush_mgmt, ↓State.settleFlushes_mgmt, ↓over_mgmt, ↓foldl_mgmt, ↓apply_ite State.mgmt, ite_self]; done)
theorem State.flashWriteNow_mgmt (s : State) (fn : Nat) (cmd : HostCmd) : (State.flashWriteNow s fn cmd).mgmt = s.mgmt := by
  unfold State.flashWriteNow; simp only [↓State.complete_mgmt, ↓State.event_mgmt, ↓State.eventIf_mgmt, ↓acceptGo_mgmt, ↓apply_ite State.mgmt, ite_self]
theorem State.flashNow_mgmt (s : State) (fn : Nat) (opcode : Nat) (cmd : HostCmd) (bad : Bool) : (State.flashNow s fn opcode cmd bad).mgmt = s.mgmt := by
  unfold State.flashNow; (try dsimp only); (repeat' split) <;> first | with_reducible rfl | (simp only [↓State.flashFlushNow_mgmt, ↓State.flashFormatNow_mgmt, ↓State.flashReadNow_mgmt, ↓State.flashTrimNow_mgmt, ↓State.flashWriteNow_mgmt, ↓apply_ite State.mgmt, ite_self]; done) | (simp [↓State.flashFlushNow_mgmt, ↓State.flashFormatNow_mgmt, ↓State.flashReadNow_mgmt, ↓State.flashTrimNow_mgmt, ↓State.flashWriteNow_mgmt, ↓apply_ite State.mgmt, ite_self]; done)
theorem State.fmAnswered_mgmt (s : State) (r : Request) (body : Bytes) : (State.fmAnswered s r body).mgmt = s.mgmt := by
  unfold State.fmAnswered; (try dsimp only); (repeat' split) <;> first | with_reducible rfl | (simp only [↓State.complete_mgmt, ↓State.count_mgmt, ↓State.dropRequest_mgmt, ↓State.replyData_mgmt, ↓apply_ite State.mgmt, ite_self]; done) | (simp [↓State.complete_mgmt, ↓State.count_mgmt, ↓State.dropRequest_mgmt, ↓State.replyData_mgmt, ↓apply_ite State.mgmt, ite_self]; done)
theorem State.fmAssign_mgmt (s : State) (m : FmMsg) : (State.fmAssign s m).1.mgmt = s.mgmt := by
  unfold State.fmAssign; (try dsimp only); (repeat' split) <;> first | with_reducible rfl | (simp only [↓State.event_mgmt, ↓State.setRegN_mgmt, ↓apply_ite State.mgmt, ite_self]; done) | (simp [↓State.event_mgmt, ↓State.setRegN_mgmt, ↓apply_ite State.mgmt, ite_self]; done)
theorem State.fmNeighbours_mgmt (s : State) (m : FmMsg) : (State.fmNeighbours s m).1.mgmt = s.mgmt := by
  unfold State.fmNeighbours; (try dsimp only); (repeat' split) <;> first | with_reducible rfl | (simp only [↓apply_ite State.mgmt, ite_self]; done) | (simp [↓apply_ite State.mgmt, ite_self]; done)
theorem State.fmNote_mgmt (s : State) (m : FmMsg) : (State.fmNote s m).mgmt = s.mgmt := by
  unfold State.fmNote; simp only [↓State.setRegN_mgmt, ↓apply_ite State.mgmt, ite_self]
theorem State.fmRefuse_mgmt (s : State) (m : FmMsg) : (State.fmRefuse s m).mgmt = s.mgmt := by
  unfold State.fmRefuse; (try dsimp only); (repeat' split) <;> first | with_reducible rfl | (simp only [↓State.event_mgmt, ↓State.failRequest_mgmt, ↓State.sendRouted_mgmt, ↓apply_ite State.mgmt, ite_self]; done) | (simp [↓State.event_mgmt, ↓State.failRequest_mgmt, ↓State.sendRouted_mgmt, ↓apply_ite State.mgmt, ite_self]; done)
theorem State.remoteRead_mgmt (s : State) (off : Nat) : (State.remoteRead s off).1.mgmt = s.mgmt := by
  unfold State.remoteRead; (try dsimp only); (repeat' split) <;> first | with_reducible rfl | (simp only [↓State.barRead_mgmt, ↓apply_ite State.mgmt, ite_self]; done) | (simp [↓State.barRead_mgmt, ↓apply_ite State.mgmt, ite_self]; done)
theorem State.fmRegRead_mgmt (s : State) (m : FmMsg) : (State.fmRegRead s m).1.mgmt = s.mgmt := by
  unfold State.fmRegRead; (try dsimp only); (repeat' split) <;> first | with_reducible rfl | (simp only [↓State.remoteRead_mgmt, ↓apply_ite State.mgmt, ite_self]; done) | (simp [↓State.remoteRead_mgmt, ↓apply_ite State.mgmt, ite_self]; done)
theorem State.sendProbe_mgmt (s : State) (port : Nat) (p : Packet) : (State.sendProbe s port p).mgmt = s.mgmt := by
  unfold State.sendProbe; simp only [↓State.count_mgmt, ↓State.transmit_mgmt, ↓apply_ite State.mgmt, ite_self]
theorem State.fmReply_mgmt (s : State) (m : FmMsg) (code : Nat) (data : Bytes) : (State.fmReply s m code data).mgmt = s.mgmt := by
  unfold State.fmReply; (try dsimp only); (repeat' split) <;> first | with_reducible rfl | (simp only [↓State.fmAnswered_mgmt, ↓State.sendProbe_mgmt, ↓State.sendRouted_mgmt, ↓apply_ite State.mgmt, ite_self]; done) | (simp [↓State.fmAnswered_mgmt, ↓State.sendProbe_mgmt, ↓State.sendRouted_mgmt, ↓apply_ite State.mgmt, ite_self]; done)
theorem State.fmResume_mgmt (s : State) (m : FmMsg) : (State.fmResume s m).1.mgmt = s.mgmt := by
  unfold State.fmResume; (try dsimp only); (repeat' split) <;> first | with_reducible rfl | (simp only [↓State.modTick_mgmt, ↓apply_ite State.mgmt, ite_self]; done) | (simp [↓State.modTick_mgmt, ↓apply_ite State.mgmt, ite_self]; done)
theorem State.fmTableSeal_mgmt (s : State) (m : FmMsg) : (State.fmTableSeal s m).1.mgmt = s.mgmt := by
  unfold State.fmTableSeal; (try dsimp only); (repeat' split) <;> first | with_reducible rfl | (simp only [↓State.event_mgmt, ↓apply_ite State.mgmt, ite_self]; done) | (simp [↓State.event_mgmt, ↓apply_ite State.mgmt, ite_self]; done)
theorem State.fmTableWrite_mgmt (s : State) (m : FmMsg) : (State.fmTableWrite s m).1.mgmt = s.mgmt := by
  unfold State.fmTableWrite; (try dsimp only); (repeat' split) <;> first | with_reducible rfl | (simp only [↓apply_ite State.mgmt, ite_self]; done) | (simp [↓apply_ite State.mgmt, ite_self]; done)
theorem State.fmTickStart_mgmt (s : State) (m : FmMsg) : (State.fmTickStart s m).1.mgmt = s.mgmt := by
  unfold State.fmTickStart; (try dsimp only); (repeat' split) <;> first | with_reducible rfl | (simp only [↓State.modTick_mgmt, ↓State.stopTick_mgmt, ↓apply_ite State.mgmt, ite_self]; done) | (simp [↓State.modTick_mgmt, ↓State.stopTick_mgmt, ↓apply_ite State.mgmt, ite_self]; done)
theorem State.forward_mgmt (s : State) (port : Nat) (p : Packet) : (State.forward s port p).mgmt = s.mgmt := by
  unfold State.forward; (try dsimp only); (repeat' split) <;> first | with_reducible rfl | (simp only [↓State.answerError_mgmt, ↓State.count_mgmt, ↓State.transmit_mgmt, ↓apply_ite State.mgmt, ite_self]; done) | (simp [↓State.answerError_mgmt, ↓State.count_mgmt, ↓State.transmit_mgmt, ↓apply_ite State.mgmt, ite_self]; done)
theorem State.forwardTick_mgmt (s : State) (b : Bytes) : (State.forwardTick s b).mgmt = s.mgmt := by
  unfold State.forwardTick; (try dsimp only); (repeat' split) <;> first | with_reducible rfl | (simp only [↓State.sendControl_mgmt, ↓over_mgmt, ↓foldl_mgmt, ↓apply_ite State.mgmt, ite_self]; done) | (simp [↓State.sendControl_mgmt, ↓over_mgmt, ↓foldl_mgmt, ↓apply_ite State.mgmt, ite_self]; done)
theorem State.gotPacket_mgmt (s : State) (l : Nat) (x : RxRes) (i : Nat) : (State.gotPacket s l x i).mgmt = s.mgmt := by
  unfold State.gotPacket; simp only [↓State.modLink_mgmt, ↓apply_ite State.mgmt, ite_self]
theorem State.hostResetPool_mgmt (s : State) (c : Nat) : (State.hostResetPool s c).mgmt = s.mgmt := by
  unfold State.hostResetPool; simp only [↓State.modKv_mgmt, ↓apply_ite State.mgmt, ite_self]
theorem State.resetRing_mgmt (s : State) (fn : Nat) : (State.resetRing s fn).mgmt = s.mgmt := by
  unfold State.resetRing; simp only [↓State.clearRingRegs_mgmt, ↓State.disableRing_mgmt, ↓State.dropOpenMedia_mgmt, ↓apply_ite State.mgmt, ite_self]
theorem State.resetHost_mgmt (s : State) : (State.resetHost s).mgmt = s.mgmt := by
  unfold State.resetHost; (try dsimp only); (repeat' split) <;> first | with_reducible rfl | (simp only [↓State.hostResetPool_mgmt, ↓State.resetRing_mgmt, ↓over_mgmt, ↓foldl_mgmt, ↓apply_ite State.mgmt, ite_self]; done) | (simp [↓State.hostResetPool_mgmt, ↓State.resetRing_mgmt, ↓over_mgmt, ↓foldl_mgmt, ↓apply_ite State.mgmt, ite_self]; done)
theorem State.returnLater_mgmt (s : State) (u : Nat) : (State.returnLater s u).mgmt = s.mgmt := by rfl
theorem State.hostScope_mgmt (s : State) : (State.hostScope s).mgmt = s.mgmt := by
  have k : ∀ u : State, u.mgmt = s.mgmt → ∀ r, ({ u with rst := r } : State).mgmt = s.mgmt := fun u hu _ => hu
  unfold State.hostScope
  exact k _ ((State.returnLater_mgmt ..).trans ((State.setRegN_mgmt ..).trans (State.resetHost_mgmt s))) _
theorem State.idleTick_mgmt (s : State) : (State.idleTick s).mgmt = s.mgmt := by
  unfold State.idleTick; simp only [↓State.allowedBoundary_mgmt, ↓State.chooseRung_mgmt, ↓State.everyBoundary_mgmt, ↓State.powerWindow_mgmt, ↓State.publishForecast_mgmt, ↓State.showCap_mgmt, ↓State.stepTimebase_mgmt, ↓apply_ite State.mgmt, ite_self]
theorem State.ingRead_mgmt (s : State) (c : Nat) (a : Nat) (n : Nat) (bad : Bool) : (State.ingRead s c a n bad).mgmt = s.mgmt := by
  unfold State.ingRead; simp only [↓State.account_mgmt, ↓State.countReads_mgmt, ↓State.flashUnrecoverable_mgmt, ↓apply_ite State.mgmt, ite_self]
theorem State.initSlots_mgmt (s : State) (c : Nat) : (State.initSlots s c).mgmt = s.mgmt := by
  unfold State.initSlots; (try dsimp only); (repeat' split) <;> first | with_reducible rfl | (simp only [↓State.emptyFrames_mgmt, ↓State.modAdp_mgmt, ↓State.wrRaw_mgmt, ↓over_mgmt, ↓foldl_mgmt, ↓apply_ite State.mgmt, ite_self]; done) | (simp [↓State.emptyFrames_mgmt, ↓State.modAdp_mgmt, ↓State.wrRaw_mgmt, ↓over_mgmt, ↓foldl_mgmt, ↓apply_ite State.mgmt, ite_self]; done)
theorem State.loadGuard_mgmt (s : State) (c : Nat) : (State.loadGuard s c).mgmt = s.mgmt := by
  unfold State.loadGuard; (try dsimp only); (repeat' split) <;> first | with_reducible rfl | (simp only [↓State.layGuard_mgmt, ↓State.modCtx_mgmt, ↓State.putGuard_mgmt, ↓apply_ite State.mgmt, ite_self]; done) | (simp [↓State.layGuard_mgmt, ↓State.modCtx_mgmt, ↓State.putGuard_mgmt, ↓apply_ite State.mgmt, ite_self]; done)
theorem State.installPlan_mgmt (s : State) (fn : Nat) (c : Nat) (cmd : HostCmd) : (State.installPlan s fn c cmd).mgmt = s.mgmt := by
  unfold State.installPlan; simp only [↓State.initSlots_mgmt, ↓State.latchHome_mgmt, ↓State.loadGuard_mgmt, ↓State.modCtx_mgmt, ↓State.setRegN_mgmt, ↓State.wrRaw_mgmt, ↓apply_ite State.mgmt, ite_self]
theorem State.takeRecord_mgmt (s : State) (u : Nat) (r : Bytes) : (State.takeRecord s u r).mgmt = s.mgmt := by
  unfold State.takeRecord; simp only [↓State.modUnit_mgmt, ↓apply_ite State.mgmt, ite_self]
theorem State.issued_mgmt (s : State) (u : Nat) (r : Bytes) (late : Bool) : (State.issued s u r late).mgmt = s.mgmt := by
  unfold State.issued; simp only [↓State.eventIf_mgmt, ↓State.takeRecord_mgmt, ↓apply_ite State.mgmt, ite_self]
theorem State.leaveHoldover_mgmt (s : State) (source : Nat) : (State.leaveHoldover s source).mgmt = s.mgmt := by
  unfold State.leaveHoldover; simp only [↓State.draw_mgmt, ↓State.event_mgmt, ↓State.platformEvent_mgmt, ↓State.setReg_mgmt, ↓apply_ite State.mgmt, ite_self]
theorem State.leaveRung_mgmt (s : State) (t : Nat) : (State.leaveRung s t).mgmt = s.mgmt := by
  unfold State.leaveRung; simp only [↓State.emit_mgmt, ↓State.modPwr_mgmt, ↓State.setRegN_mgmt, ↓apply_ite State.mgmt, ite_self]
theorem State.toPhase_mgmt (s : State) (n : Nat) : (State.toPhase s n).mgmt = s.mgmt := by rfl
theorem State.linksTrained_mgmt (s : State) : (State.linksTrained s).mgmt = s.mgmt := by
  unfold State.linksTrained; (try dsimp only); (repeat' split) <;> first | with_reducible rfl | (simp only [↓State.modLink_mgmt, ↓State.modPwr_mgmt, ↓State.toPhase_mgmt, ↓over_mgmt, ↓foldl_mgmt, ↓apply_ite State.mgmt, ite_self]; done) | (simp [↓State.modLink_mgmt, ↓State.modPwr_mgmt, ↓State.toPhase_mgmt, ↓over_mgmt, ↓foldl_mgmt, ↓apply_ite State.mgmt, ite_self]; done)
theorem State.liveOutput_mgmt (s : State) (p : LivePic) (pic : RawPic) : (State.liveOutput s p pic).mgmt = s.mgmt := by
  unfold State.liveOutput; simp only [↓State.joinIngest_mgmt, ↓apply_ite State.mgmt, ite_self]
theorem State.loadMaps_mgmt (s : State) : (State.loadMaps s).mgmt = s.mgmt := by
  unfold State.loadMaps; (try dsimp only); (repeat' (first | (refine over_mgmt _ _ _ (fun s x => ?_)) | (refine (over_mgmt _ _ _ (fun s x => ?_)).trans ?_) | split)) <;> (first | with_reducible rfl | (simp only [↓over_mgmt, ↓foldl_mgmt, ↓apply_ite State.mgmt, ite_self]; done) | (simp [↓over_mgmt, ↓foldl_mgmt, ↓apply_ite State.mgmt, ite_self]; done) | ((try dsimp only); (repeat' split) <;> first | with_reducible rfl | (simp only [↓over_mgmt, ↓foldl_mgmt, ↓apply_ite State.mgmt, ite_self]; done) | (simp [↓over_mgmt, ↓foldl_mgmt, ↓apply_ite State.mgmt, ite_self]; done)))
theorem State.loadPlan_mgmt (s : State) (fn : Nat) (c : Nat) (cmd : HostCmd) : (State.loadPlan s fn c cmd).mgmt = s.mgmt := by
  unfold State.loadPlan; (try dsimp only); (repeat' split) <;> first | with_reducible rfl | (simp only [↓State.complete_mgmt, ↓State.completeR_mgmt, ↓State.installPlan_mgmt, ↓apply_ite State.mgmt, ite_self]; done) | (simp [↓State.complete_mgmt, ↓State.completeR_mgmt, ↓State.installPlan_mgmt, ↓apply_ite State.mgmt, ite_self]; done)
theorem State.loadRemaps_mgmt (s : State) : (State.loadRemaps s).mgmt = s.mgmt := by rfl
theorem State.lpPhase_mgmt (s : State) (bad : List LpCopy) : (State.lpPhase s bad).mgmt = s.mgmt := by
  unfold State.lpPhase; (try dsimp only); (repeat' split) <;> first | with_reducible rfl | (simp only [↓State.emptyCopy_mgmt, ↓State.eventIf_mgmt, ↓State.setReg_mgmt, ↓State.setRegN_mgmt, ↓over_mgmt, ↓foldl_mgmt, ↓apply_ite State.mgmt, ite_self]; done) | (simp [↓State.emptyCopy_mgmt, ↓State.eventIf_mgmt, ↓State.setReg_mgmt, ↓State.setRegN_mgmt, ↓over_mgmt, ↓foldl_mgmt, ↓apply_ite State.mgmt, ite_self]; done)
theorem State.markGeometry_mgmt (s : State) (ignored : Bool) (clamped : Bool) : (State.markGeometry s ignored clamped).mgmt = s.mgmt := by
  unfold State.markGeometry; simp only [↓State.setRegN_mgmt, ↓apply_ite State.mgmt, ite_self]
theorem State.markSuspect_mgmt (s : State) (u : Nat) (mark : Nat) : (State.markSuspect s u mark).mgmt = s.mgmt := by rfl
theorem State.measureOffset_mgmt (s : State) (t1 : Int) (t2 : Int) (t3 : Int) (t4 : Int) : (State.measureOffset s t1 t2 t3 t4).mgmt = s.mgmt := by
  unfold State.measureOffset; simp only [↓State.modTick_mgmt, ↓apply_ite State.mgmt, ite_self]
theorem State.mgmtReply_mgmt (s : State) (code : Nat) (status : Nat) (data : Bytes) : (State.mgmtReply s code status data).mgmt = s.mgmt := by
  unfold State.mgmtReply; simp only [↓State.emit_mgmt, ↓apply_ite State.mgmt, ite_self]
theorem State.mirrorPart_mgmt (s : State) (c : Nat) (pair : Nat) (i : Nat) (p : Packet) : (State.mirrorPart s c pair i p).mgmt = s.mgmt := by
  unfold State.mirrorPart; simp only [↓State.count_mgmt, ↓State.lpWrite_mgmt, ↓State.modCtx_mgmt, ↓State.modGuard_mgmt, ↓apply_ite State.mgmt, ite_self]
theorem State.mountDone_mgmt (s : State) (ok : Bool) : (State.mountDone s ok).mgmt = s.mgmt := by
  unfold State.mountDone; (try dsimp only); (repeat' split) <;> first | with_reducible rfl | (simp only [↓State.flashCmd_mgmt, ↓State.flashNow_mgmt, ↓State.nextFlush_mgmt, ↓over_mgmt, ↓foldl_mgmt, ↓apply_ite State.mgmt, ite_self]; done) | (simp [↓State.flashCmd_mgmt, ↓State.flashNow_mgmt, ↓State.nextFlush_mgmt, ↓over_mgmt, ↓foldl_mgmt, ↓apply_ite State.mgmt, ite_self]; done)
theorem State.nextShard_mgmt (s : State) (c : Nat) : (State.nextShard s c).mgmt = s.mgmt := by
  unfold State.nextShard; simp only [↓State.modIng_mgmt, ↓apply_ite State.mgmt, ite_self]
theorem State.normAdd_mgmt (s : State) (q : UpCtx) (r : Bytes) : (State.normAdd s q r).mgmt = s.mgmt := by
  unfold State.normAdd; simp only [↓State.modCtx_mgmt, ↓apply_ite State.mgmt, ite_self]
theorem State.noteArrival_mgmt (s : State) (c : Nat) (p : Spot) (n : Nat) : (State.noteArrival s c p n).mgmt = s.mgmt := by rfl
theorem State.noteVote_mgmt (s : State) (c : Nat) (e : Nat) (w : W64) : (State.noteVote s c e w).mgmt = s.mgmt := by
  unfold State.noteVote; simp only [↓State.modTick_mgmt, ↓apply_ite State.mgmt, ite_self]
theorem State.onBinding_mgmt (s : State) (vdm : Bool) (f : State → State) (h2 : ∀ (x0 : State), State.mgmt (f x0) = State.mgmt x0) (t : State) (h : State.onBinding s vdm f = .next t) : t.mgmt = s.mgmt := by
  unfold State.onBinding at h
  split at h
  · injection h with h; subst h; rfl
  · exact State.answers_mgmt (h := h) (h1 := h2) ..
theorem State.onSession_mgmt (s : State) (sess : Nat) (established : Bool) (f : State → State) (h3 : ∀ (x0 : State), State.mgmt (f x0) = State.mgmt x0) (t : State) (h : State.onSession s sess established f = .next t) : t.mgmt = s.mgmt := by
  unfold State.onSession at h; (try dsimp only at h); refine State.answers_mgmt (t := t) (h := h) (h1 := ?_) .. <;> (intros; first | (with_reducible rfl) | (simp only [↓State.emit_mgmt, ↓apply_ite State.mgmt, ite_self, ↓h3]; done) | (simp [↓State.emit_mgmt, ↓apply_ite State.mgmt, ite_self, ↓h3]; done) | ((try dsimp only); (repeat' split) <;> (first | (with_reducible rfl) | (simp only [↓State.emit_mgmt, ↓apply_ite State.mgmt, ite_self, ↓h3]; done) | (simp [↓State.emit_mgmt, ↓apply_ite State.mgmt, ite_self, ↓h3]; done))))
theorem State.openChain_mgmt (s : State) (fn : Nat) (p : RingPacket) (k : Nat × W64) (fence : Nat) (last : Bool) : (State.openChain s fn p k fence last).mgmt = s.mgmt := by
  unfold State.openChain; simp only [↓State.complete_mgmt, ↓State.modRing_mgmt, ↓State.readyCmd_mgmt, ↓apply_ite State.mgmt, ite_self]
theorem State.optionLoad_mgmt (s : State) : (State.optionLoad s).mgmt = s.mgmt := by
  unfold State.optionLoad; (try dsimp only); (repeat' split) <;> first | with_reducible rfl | (simp only [↓State.applyOptions_mgmt, ↓State.toPhase_mgmt, ↓apply_ite State.mgmt, ite_self]; done) | (simp [↓State.applyOptions_mgmt, ↓State.toPhase_mgmt, ↓apply_ite State.mgmt, ite_self]; done)
theorem State.orphan_mgmt (s : State) (fn : Nat) (k : Nat × W64) : (State.orphan s fn k).mgmt = s.mgmt := by
  unfold State.orphan; simp only [↓State.count_mgmt, ↓State.event_mgmt, ↓State.modRing_mgmt, ↓apply_ite State.mgmt, ite_self]
theorem State.phaseFails_mgmt (s : State) (n : Nat) : (State.phaseFails s n).mgmt = s.mgmt := by
  unfold State.phaseFails; simp only [↓State.bringupFails_mgmt, ↓State.mountDone_mgmt, ↓State.setRegN_mgmt, ↓apply_ite State.mgmt, ite_self]
theorem State.zeroRow_mgmt (s : State) (row : Nat) : (State.zeroRow s row).mgmt = s.mgmt := by rfl
theorem State.placeRow_mgmt (s : State) (row : Nat) : (State.placeRow s row).mgmt = s.mgmt := by
  unfold State.placeRow; simp only [↓State.event_mgmt, ↓State.remapRecord_mgmt, ↓State.takeSpare_mgmt, ↓State.zeroRow_mgmt, ↓apply_ite State.mgmt, ite_self]
theorem State.pllLock_mgmt (s : State) : (State.pllLock s).mgmt = s.mgmt := by
  unfold State.pllLock; simp only [↓State.toPhase_mgmt, ↓apply_ite State.mgmt, ite_self]
theorem State.putGranulePart_mgmt (s : State) (c : Nat) (g : Nat) (p : Nat) (b : Bytes) : (State.putGranulePart s c g p b).mgmt = s.mgmt := by
  unfold State.putGranulePart; (try dsimp only); (repeat' split) <;> first | with_reducible rfl | (simp only [↓State.lpWrite_mgmt, ↓State.wrRaw_mgmt, ↓apply_ite State.mgmt, ite_self]; done) | (simp [↓State.lpWrite_mgmt, ↓State.wrRaw_mgmt, ↓apply_ite State.mgmt, ite_self]; done)
theorem State.readBar_mgmt (s : State) (fn : Nat) (off : Nat) (size : Nat) : (State.readBar s fn off size).mgmt = s.mgmt := by
  unfold State.readBar; simp only [↓State.barRead_mgmt, ↓State.emit_mgmt, ↓apply_ite State.mgmt, ite_self]
theorem State.readFrame_mgmt (s : State) (c : Nat) (a : Nat) (stop : Nat) (scans : List HeaderScan) (bad : Bool) : (State.readFrame s c a stop scans bad).mgmt = s.mgmt := by
  unfold State.readFrame; (try dsimp only); (repeat' split) <;> first | with_reducible rfl | (simp only [↓State.acceptRec_mgmt, ↓State.ingRead_mgmt, ↓State.modIng_mgmt, ↓State.nextShard_mgmt, ↓State.rejectRec_mgmt, ↓apply_ite State.mgmt, ite_self]; done) | (simp [↓State.acceptRec_mgmt, ↓State.ingRead_mgmt, ↓State.modIng_mgmt, ↓State.nextShard_mgmt, ↓State.rejectRec_mgmt, ↓apply_ite State.mgmt, ite_self]; done)
theorem State.recordPicDone_mgmt (s : State) (c : Nat) (uid : Nat) : (State.recordPicDone s c uid).mgmt = s.mgmt := by
  unfold State.recordPicDone; (try dsimp only); (repeat' split) <;> first | with_reducible rfl | (simp only [↓State.modReading_mgmt, ↓State.rejectDecode_mgmt, ↓apply_ite State.mgmt, ite_self]; done) | (simp [↓State.modReading_mgmt, ↓State.rejectDecode_mgmt, ↓apply_ite State.mgmt, ite_self]; done)
theorem State.refuse_mgmt (s : State) (q : Packet) (code : Nat) : (State.refuse s q code).mgmt = s.mgmt := by
  unfold State.refuse; simp only [↓State.answerError_mgmt, ↓apply_ite State.mgmt, ite_self]
theorem State.repair_mgmt (s : State) (b : Bytes) : (State.repair s b).mgmt = s.mgmt := by
  unfold State.repair; simp only [↓State.applyRollback_mgmt, ↓State.commitCore_mgmt, ↓State.event_mgmt, ↓State.modHasp_mgmt, ↓State.rollbackCore_mgmt, ↓apply_ite State.mgmt, ite_self]
theorem State.reserve_mgmt (s : State) (fn : Nat) : (State.reserve s fn).mgmt = s.mgmt := by
  unfold State.reserve; simp only [↓State.modRing_mgmt, ↓apply_ite State.mgmt, ite_self]
theorem State.restoreSlots_mgmt (s : State) (c : Nat) : (State.restoreSlots s c).mgmt = s.mgmt := by
  unfold State.restoreSlots; (try dsimp only); (repeat' split) <;> first | with_reducible rfl | (simp only [↓State.dirty_mgmt, ↓State.wrRaw_mgmt, ↓over_mgmt, ↓foldl_mgmt, ↓apply_ite State.mgmt, ite_self]; done) | (simp [↓State.dirty_mgmt, ↓State.wrRaw_mgmt, ↓over_mgmt, ↓foldl_mgmt, ↓apply_ite State.mgmt, ite_self]; done)
theorem State.retire_mgmt (s : State) (u : Nat) (o : OpenRec) (tc : Nat) : (State.retire s u o tc).mgmt = s.mgmt := by
  unfold State.retire; (try dsimp only); (repeat' split) <;> first | with_reducible rfl | (simp only [↓State.account_mgmt, ↓State.dirty_mgmt, ↓State.modLink_mgmt, ↓State.modUnit_mgmt, ↓State.takeVote_mgmt, ↓over_mgmt, ↓foldl_mgmt, ↓apply_ite State.mgmt, ite_self]; done) | (simp [↓State.account_mgmt, ↓State.dirty_mgmt, ↓State.modLink_mgmt, ↓State.modUnit_mgmt, ↓State.takeVote_mgmt, ↓over_mgmt, ↓foldl_mgmt, ↓apply_ite State.mgmt, ite_self]; done)
theorem State.retryHeld_mgmt (s : State) : (State.retryHeld s).mgmt = s.mgmt := by
  unfold State.retryHeld; (try dsimp only); (repeat' split) <;> first | with_reducible rfl | (simp only [↓State.nextFlush_mgmt, ↓State.pumpDurable_mgmt, ↓State.releaseOne_mgmt, ↓over_mgmt, ↓foldl_mgmt, ↓apply_ite State.mgmt, ite_self]; done) | (simp [↓State.nextFlush_mgmt, ↓State.pumpDurable_mgmt, ↓State.releaseOne_mgmt, ↓over_mgmt, ↓foldl_mgmt, ↓apply_ite State.mgmt, ite_self]; done)
theorem State.ringError_mgmt (s : State) (fn : Nat) (reason : Nat) : (State.ringError s fn reason).mgmt = s.mgmt := by
  unfold State.ringError; simp only [↓State.event_mgmt, ↓State.modRing_mgmt, ↓apply_ite State.mgmt, ite_self]
theorem State.ringUp_mgmt (s : State) (fn : Nat) : (State.ringUp s fn).mgmt = s.mgmt := by
  unfold State.ringUp; (try dsimp only); (repeat' split) <;> first | with_reducible rfl | (simp only [↓State.event_mgmt, ↓State.modRing_mgmt, ↓State.ringPush_mgmt, ↓State.writeEntry_mgmt, ↓over_mgmt, ↓foldl_mgmt, ↓apply_ite State.mgmt, ite_self]; done) | (simp [↓State.event_mgmt, ↓State.modRing_mgmt, ↓State.ringPush_mgmt, ↓State.writeEntry_mgmt, ↓over_mgmt, ↓foldl_mgmt, ↓apply_ite State.mgmt, ite_self]; done)
theorem State.runReceive_mgmt (s : State) (c : Nat) (u : Nat) (r : Bytes) (env : RunEnv) : (State.runReceive s c u r env).mgmt = s.mgmt := by
  unfold State.runReceive; (try dsimp only); (repeat' split) <;> first | with_reducible rfl | (simp only [↓State.afterRun_mgmt, ↓State.appendLate_mgmt, ↓State.escapeBytes_mgmt, ↓State.eventIf_mgmt, ↓State.markPoison_mgmt, ↓State.opFault_mgmt, ↓apply_ite State.mgmt, ite_self]; done) | (simp [↓State.afterRun_mgmt, ↓State.appendLate_mgmt, ↓State.escapeBytes_mgmt, ↓State.eventIf_mgmt, ↓State.markPoison_mgmt, ↓State.opFault_mgmt, ↓apply_ite State.mgmt, ite_self]; done)
theorem State.sampleChain_mgmt (s : State) : (State.sampleChain s).mgmt = s.mgmt := by
  unfold State.sampleChain; simp only [↓State.draw_mgmt, ↓State.emit_mgmt, ↓apply_ite State.mgmt, ite_self]
theorem State.secured_mgmt (s : State) (sess : Option Nat) (code : Nat) (f : State → State) (h3 : ∀ (x0 : State), State.mgmt (f x0) = State.mgmt x0) (t : State) (h : State.secured s sess code f = .next t) : t.mgmt = s.mgmt := by
  unfold State.secured at h; (try dsimp only at h); refine State.answers_mgmt (t := t) (h := h) (h1 := ?_) .. <;> (intros; first | (with_reducible rfl) | (simp only [↓State.mgmtReply_mgmt, ↓apply_ite State.mgmt, ite_self, ↓h3]; done) | (simp [↓State.mgmtReply_mgmt, ↓apply_ite State.mgmt, ite_self, ↓h3]; done) | ((try dsimp only); (repeat' split) <;> (first | (with_reducible rfl) | (simp only [↓State.mgmtReply_mgmt, ↓apply_ite State.mgmt, ite_self, ↓h3]; done) | (simp [↓State.mgmtReply_mgmt, ↓apply_ite State.mgmt, ite_self, ↓h3]; done))))
theorem State.selfRefreshed_mgmt (s : State) : (State.selfRefreshed s).mgmt = s.mgmt := by rfl
theorem State.sendMirrorPart_mgmt (s : State) (c : Nat) (l : Nat) (pair : Nat) (g : Nat) (p : Nat) (b : Bytes) : (State.sendMirrorPart s c l pair g p b).mgmt = s.mgmt := by
  unfold State.sendMirrorPart; (try dsimp only); (repeat' split) <;> first | with_reducible rfl | (simp only [↓State.begin_mgmt, ↓State.sendRouted_mgmt, ↓State.transmit_mgmt, ↓apply_ite State.mgmt, ite_self]; done) | (simp [↓State.begin_mgmt, ↓State.sendRouted_mgmt, ↓State.transmit_mgmt, ↓apply_ite State.mgmt, ite_self]; done)
theorem State.sendMirror_mgmt (s : State) (c : Nat) (l : Nat) (r : Resv) : (State.sendMirror s c l r).mgmt = s.mgmt := by
  unfold State.sendMirror; (try dsimp only); (repeat' split) <;> first | with_reducible rfl | (simp only [↓State.countMirror_mgmt, ↓State.modCtx_mgmt, ↓State.sendMirrorPart_mgmt, ↓over_mgmt, ↓foldl_mgmt, ↓apply_ite State.mgmt, ite_self]; done) | (simp [↓State.countMirror_mgmt, ↓State.modCtx_mgmt, ↓State.sendMirrorPart_mgmt, ↓over_mgmt, ↓foldl_mgmt, ↓apply_ite State.mgmt, ite_self]; done)
theorem State.sendSched_mgmt (s : State) (c : Nat) (l : Nat) (pair : Nat) (idx : Nat) (b : Bytes) : (State.sendSched s c l pair idx b).mgmt = s.mgmt := by
  unfold State.sendSched; simp only [↓State.begin_mgmt, ↓State.sendRouted_mgmt, ↓apply_ite State.mgmt, ite_self]
theorem State.sendPayload_mgmt (s : State) (c : Nat) (l : Nat) (pair : Nat) (b : Bound) : (State.sendPayload s c l pair b).mgmt = s.mgmt := by
  unfold State.sendPayload; (try dsimp only); (repeat' split) <;> first | with_reducible rfl | (simp only [↓State.sendSched_mgmt, ↓over_mgmt, ↓foldl_mgmt, ↓apply_ite State.mgmt, ite_self]; done) | (simp [↓State.sendSched_mgmt, ↓over_mgmt, ↓foldl_mgmt, ↓apply_ite State.mgmt, ite_self]; done)
theorem State.sendSync_mgmt (s : State) (l : Nat) (t1 : Int) (t2 : Int) (t3 : Int) (t4 : Int) : (State.sendSync s l t1 t2 t3 t4).mgmt = s.mgmt := by
  unfold State.sendSync; simp only [↓State.sendControl_mgmt, ↓apply_ite State.mgmt, ite_self]
theorem State.settleMirror_mgmt (s : State) (c : Nat) (pair : Nat) (clean : Bool) : (State.settleMirror s c pair clean).mgmt = s.mgmt := by
  unfold State.settleMirror; simp only [↓State.modCtx_mgmt, ↓apply_ite State.mgmt, ite_self]
theorem State.settleSuspects_mgmt (s : State) : (State.settleSuspects s).mgmt = s.mgmt := by
  unfold State.settleSuspects; (try dsimp only); (repeat' split) <;> first | with_reducible rfl | (simp only [↓State.makePermanent_mgmt, ↓over_mgmt, ↓foldl_mgmt, ↓apply_ite State.mgmt, ite_self]; done) | (simp [↓State.makePermanent_mgmt, ↓over_mgmt, ↓foldl_mgmt, ↓apply_ite State.mgmt, ite_self]; done)
theorem State.showHead_mgmt (s : State) (fn : Nat) : (State.showHead s fn).mgmt = s.mgmt := by
  unfold State.showHead; simp only [↓State.emit_mgmt, ↓State.modRing_mgmt, ↓apply_ite State.mgmt, ite_self]
theorem State.showLayers_mgmt (s : State) : (State.showLayers s).mgmt = s.mgmt := by
  unfold State.showLayers; (try dsimp only); (repeat' split) <;> first | with_reducible rfl | (simp only [↓State.setRegN_mgmt, ↓over_mgmt, ↓foldl_mgmt, ↓apply_ite State.mgmt, ite_self]; done) | (simp [↓State.setRegN_mgmt, ↓over_mgmt, ↓foldl_mgmt, ↓apply_ite State.mgmt, ite_self]; done)
theorem State.showTemp_mgmt (s : State) : (State.showTemp s).mgmt = s.mgmt := by
  unfold State.showTemp; simp only [↓State.setRegN_mgmt, ↓apply_ite State.mgmt, ite_self]
theorem State.sramLost_mgmt (s : State) : (State.sramLost s).mgmt = s.mgmt := by rfl
theorem State.stackPhase_mgmt (s : State) : (State.stackPhase s).mgmt = s.mgmt := by
  unfold State.stackPhase; (try dsimp only); (repeat' split) <;> first | with_reducible rfl | (simp only [↓State.eventIf_mgmt, ↓State.loadRemaps_mgmt, ↓State.placeRow_mgmt, ↓State.setRegN_mgmt, ↓over_mgmt, ↓foldl_mgmt, ↓apply_ite State.mgmt, ite_self]; done) | (simp [↓State.eventIf_mgmt, ↓State.loadRemaps_mgmt, ↓State.placeRow_mgmt, ↓State.setRegN_mgmt, ↓over_mgmt, ↓foldl_mgmt, ↓apply_ite State.mgmt, ite_self]; done)
theorem State.startPlan_mgmt (s : State) (fn : Nat) (c : Nat) (cmd : HostCmd) : (State.startPlan s fn c cmd).mgmt = s.mgmt := by
  unfold State.startPlan; (try dsimp only); (repeat' split) <;> first | with_reducible rfl | (simp only [↓State.complete_mgmt, ↓State.event_mgmt, ↓State.modHasp_mgmt, ↓State.setRegN_mgmt, ↓apply_ite State.mgmt, ite_self]; done) | (simp [↓State.complete_mgmt, ↓State.event_mgmt, ↓State.modHasp_mgmt, ↓State.setRegN_mgmt, ↓apply_ite State.mgmt, ite_self]; done)
theorem State.storeReg_mgmt (s : State) (off : Nat) (v : Nat) (w : Nat) (ev : Nat) (i : Nat) : (State.storeReg s off v w ev i).mgmt = s.mgmt := by
  unfold State.storeReg; simp only [↓State.eventIf_mgmt, ↓State.setRegN_mgmt, ↓apply_ite State.mgmt, ite_self]
theorem State.streamAcked_mgmt (s : State) (errs : ReadErrs) (q : Nat) (n : Nat) : (State.streamAcked s errs q n).mgmt = s.mgmt := by
  unfold State.streamAcked; (try dsimp only); (repeat' split) <;> first | with_reducible rfl | (simp only [↓State.moves_mgmt, ↓State.pushStream_mgmt, ↓State.setMoves_mgmt, ↓apply_ite State.mgmt, ite_self]; done) | (simp [↓State.moves_mgmt, ↓State.pushStream_mgmt, ↓State.setMoves_mgmt, ↓apply_ite State.mgmt, ite_self]; done)
theorem State.takePacket_mgmt (s : State) (l : Nat) (b : Bytes) (opcode : Nat) (f : Packet → State → State) (h4 : ∀ (x0 : Packet) (x1 : State), State.mgmt (f x0 x1) = State.mgmt x1) : (State.takePacket s l b opcode f).mgmt = s.mgmt := by
  unfold State.takePacket
  have hm := State.accept_mgmt s l b
  split
  · rename_i u hu; rw [hu] at hm; exact hm
  · rename_i u p hu; rw [hu] at hm
    split
    · exact hm
    · split
      · exact (State.count_mgmt ..).trans hm
      · exact (h4 p u).trans hm
theorem State.takeAck_mgmt (s : State) (link : Fin 24) (b : Bytes) (errs : ReadErrs) : (State.takeAck s link b errs).mgmt = s.mgmt := by
  unfold State.takeAck
  refine State.takePacket_mgmt s _ _ _ _ (fun p u => ?_)
  split
  · rfl
  · exact (State.streamAcked_mgmt ..).trans (State.dropRequest_mgmt ..)
theorem State.takeFmReply_mgmt (s : State) (link : Fin 24) (b : Bytes) : (State.takeFmReply s link b).mgmt = s.mgmt := by
  unfold State.takeFmReply
  refine State.takePacket_mgmt s _ _ _ _ (fun p u => ?_)
  split
  · exact State.fmAnswered_mgmt ..
  · rfl
theorem State.takeMirrorAck_mgmt (s : State) (b : Bytes) : (State.takeMirrorAck s b).mgmt = s.mgmt := by
  unfold State.takeMirrorAck; (try dsimp only); (repeat' split) <;> first | with_reducible rfl | (simp only [↓State.count_mgmt, ↓State.dirtyAll_mgmt, ↓State.settleMirror_mgmt, ↓apply_ite State.mgmt, ite_self]; done) | (simp [↓State.count_mgmt, ↓State.dirtyAll_mgmt, ↓State.settleMirror_mgmt, ↓apply_ite State.mgmt, ite_self]; done)
theorem State.takeMsg_mgmt (s : State) (l : Nat) (b : Bytes) (type : Nat) (f : Bytes → State → State) (h4 : ∀ (x0 : Bytes) (x1 : State), State.mgmt (f x0 x1) = State.mgmt x1) : (State.takeMsg s l b type f).mgmt = s.mgmt := by
  unfold State.takeMsg; (try dsimp only); (repeat' split) <;> first | with_reducible rfl | (simp only [↓State.count_mgmt, ↓State.takePacket_mgmt, ↓h4, ↓apply_ite State.mgmt, ite_self]; done) | (simp [↓State.count_mgmt, ↓State.takePacket_mgmt, ↓h4, ↓apply_ite State.mgmt, ite_self]; done)
theorem State.takeRingPacket_mgmt (s : State) (fn : Nat) (p : RingPacket) : (State.takeRingPacket s fn p).mgmt = s.mgmt := by
  unfold State.takeRingPacket; (try dsimp only); (repeat' split) <;> first | with_reducible rfl | (simp only [↓State.closeChain_mgmt, ↓State.complete_mgmt, ↓State.cutLive_mgmt, ↓State.extendChain_mgmt, ↓State.failChain_mgmt, ↓State.openChain_mgmt, ↓State.orphan_mgmt, ↓State.reserve_mgmt, ↓apply_ite State.mgmt, ite_self]; done) | (simp [↓State.closeChain_mgmt, ↓State.complete_mgmt, ↓State.cutLive_mgmt, ↓State.extendChain_mgmt, ↓State.failChain_mgmt, ↓State.openChain_mgmt, ↓State.orphan_mgmt, ↓State.reserve_mgmt, ↓apply_ite State.mgmt, ite_self]; done)
theorem State.takeTeacher_mgmt (s : State) (c : Nat) : (State.takeTeacher s c).mgmt = s.mgmt := by
  unfold State.takeTeacher; (try dsimp only); (repeat' split) <;> first | with_reducible rfl | (simp only [↓State.arrive_mgmt, ↓State.modIng_mgmt, ↓State.modKv_mgmt, ↓over_mgmt, ↓foldl_mgmt, ↓apply_ite State.mgmt, ite_self]; done) | (simp [↓State.arrive_mgmt, ↓State.modIng_mgmt, ↓State.modKv_mgmt, ↓over_mgmt, ↓foldl_mgmt, ↓apply_ite State.mgmt, ite_self]; done)
theorem State.usePacket_mgmt (s : State) (b : Bytes) : (State.usePacket s b).mgmt = s.mgmt := by
  unfold State.usePacket; simp only [↓State.checkGuard_mgmt, ↓State.eventIf_mgmt, ↓State.modTick_mgmt, ↓State.repair_mgmt, ↓apply_ite State.mgmt, ite_self]
theorem State.takeTick_mgmt (s : State) (l : Option Nat) (b : Bytes) : (State.takeTick s l b).mgmt = s.mgmt := by
  unfold State.takeTick; (try dsimp only); (repeat' split) <;> first | with_reducible rfl | (simp only [↓State.event_mgmt, ↓State.forwardTick_mgmt, ↓State.modTick_mgmt, ↓State.tryReply_mgmt, ↓State.usePacket_mgmt, ↓apply_ite State.mgmt, ite_self]; done) | (simp [↓State.event_mgmt, ↓State.forwardTick_mgmt, ↓State.modTick_mgmt, ↓State.tryReply_mgmt, ↓State.usePacket_mgmt, ↓apply_ite State.mgmt, ite_self]; done)
theorem State.takeVoteNotice_mgmt (s : State) (b : Bytes) : (State.takeVoteNotice s b).mgmt = s.mgmt := by
  unfold State.takeVoteNotice; simp only [↓State.noteVote_mgmt, ↓apply_ite State.mgmt, ite_self]
theorem State.trainLinks_mgmt (s : State) : (State.trainLinks s).mgmt = s.mgmt := by
  unfold State.trainLinks; (try dsimp only); (repeat' split) <;> first | with_reducible rfl | (simp only [↓State.modLink_mgmt, ↓over_mgmt, ↓foldl_mgmt, ↓apply_ite State.mgmt, ite_self]; done) | (simp [↓State.modLink_mgmt, ↓over_mgmt, ↓foldl_mgmt, ↓apply_ite State.mgmt, ite_self]; done)
theorem State.unloadPlan_mgmt (s : State) (c : Nat) : (State.unloadPlan s c).mgmt = s.mgmt := by
  unfold State.unloadPlan; simp only [↓State.cancelOwed_mgmt, ↓State.clearBolts_mgmt, ↓State.discardWork_mgmt, ↓State.endStreams_mgmt, ↓State.modCtx_mgmt, ↓State.modGuard_mgmt, ↓State.setRegN_mgmt, ↓apply_ite State.mgmt, ite_self]
theorem State.vfCmd_mgmt (s : State) (fn : Nat) (opcode : Nat) (cmd : HostCmd) (f : Nat → State → State) (h4 : ∀ (x0 : Nat) (x1 : State), State.mgmt (f x0 x1) = State.mgmt x1) (t : State) (h : State.vfCmd s fn opcode cmd f = .next t) : t.mgmt = s.mgmt := by
  unfold State.vfCmd at h
  split at h
  · injection h with h; subst h; rfl
  · rename_i u hu
    have hm := State.takeCmd_mgmt s fn opcode cmd u hu
    split at h <;> injection h with h <;> subst h
    · rw [h4, hm]
    · rw [State.complete_mgmt, hm]
theorem State.waitTimeout_mgmt (s : State) (u : Nat) (o : OpenRec) : (State.waitTimeout s u o).mgmt = s.mgmt := by
  unfold State.waitTimeout; simp only [↓State.markAll_mgmt, ↓State.modUnit_mgmt, ↓State.opFault_mgmt, ↓State.setBolt_mgmt, ↓apply_ite State.mgmt, ite_self]
theorem State.wardScope_mgmt (s : State) (w : Nat) : (State.wardScope s w).mgmt = s.mgmt := by rfl
theorem State.writeAdapter_mgmt (s : State) (c : Nat) (off : Nat) (o : Nat) (v : Nat) : (State.writeAdapter s c off o v).mgmt = s.mgmt := by
  unfold State.writeAdapter; simp only [↓State.event_mgmt, ↓State.storeReg_mgmt, ↓apply_ite State.mgmt, ite_self]
theorem execFabPermAtWrite_mgmt (c : Fin 16) (v : W32) (s : State) (t : State) (h : execFabPermAtWrite c v s = .next t) : t.mgmt = s.mgmt := by
  unfold execFabPermAtWrite at h; (try dsimp only at h); (repeat' split at h) <;> (first  | contradiction | (obtain rfl := Host.Outcome.next.inj h; first | with_reducible rfl | (simp only [↓State.event_mgmt, ↓State.modCtx_mgmt, ↓State.setReg_mgmt, ↓apply_ite State.mgmt, ite_self]; done) | (simp [↓State.event_mgmt, ↓State.modCtx_mgmt, ↓State.setReg_mgmt, ↓apply_ite State.mgmt, ite_self]; done) | (rename_i heq; have hk := congrArg (fun q => q.1.mgmt) heq; simp only [↓State.event_mgmt, ↓State.modCtx_mgmt, ↓State.setReg_mgmt] at hk; simp only [↓State.event_mgmt, ↓State.modCtx_mgmt, ↓State.setReg_mgmt, ↓apply_ite State.mgmt, ite_self]; exact hk.symm)))
theorem State.writeCollective_mgmt (s : State) (c : Fin 16) (off : Nat) (o : Nat) (v : Nat) : (State.writeCollective s c off o v).mgmt = s.mgmt := by
  unfold State.writeCollective
  split
  · exact State.setRegN_mgmt ..
  split
  · exact via_mgmt _ _ (fun t h => execFabPermAtWrite_mgmt (h := h) ..)
  split
  · exact State.event_mgmt ..
  · exact State.storeReg_mgmt ..
theorem execKey_mgmt (c : Fin 16) (s : State) (t : State) (h : execKey c s = .next t) : t.mgmt = s.mgmt := by
  unfold execKey at h; (try dsimp only at h); (repeat' split at h) <;> (first  | contradiction | (obtain rfl := Host.Outcome.next.inj h; first | with_reducible rfl | (simp only [↓State.event_mgmt, ↓State.modCtx_mgmt, ↓apply_ite State.mgmt, ite_self]; done) | (simp [↓State.event_mgmt, ↓State.modCtx_mgmt, ↓apply_ite State.mgmt, ite_self]; done) | (rename_i heq; have hk := congrArg (fun q => q.1.mgmt) heq; simp only [↓State.event_mgmt, ↓State.modCtx_mgmt] at hk; simp only [↓State.event_mgmt, ↓State.modCtx_mgmt, ↓apply_ite State.mgmt, ite_self]; exact hk.symm)))
theorem execRelease_mgmt (c : Fin 16) (s : State) (t : State) (h : execRelease c s = .next t) : t.mgmt = s.mgmt := by
  unfold execRelease at h; (try dsimp only at h); (repeat' split at h) <;> (first  | contradiction | (obtain rfl := Host.Outcome.next.inj h; first | with_reducible rfl | (simp only [↓State.event_mgmt, ↓State.modCtx_mgmt, ↓State.ringError_mgmt, ↓apply_ite State.mgmt, ite_self]; done) | (simp [↓State.event_mgmt, ↓State.modCtx_mgmt, ↓State.ringError_mgmt, ↓apply_ite State.mgmt, ite_self]; done) | (rename_i heq; have hk := congrArg (fun q => q.1.mgmt) heq; simp only [↓State.event_mgmt, ↓State.modCtx_mgmt, ↓State.ringError_mgmt] at hk; simp only [↓State.event_mgmt, ↓State.modCtx_mgmt, ↓State.ringError_mgmt, ↓apply_ite State.mgmt, ite_self]; exact hk.symm)))
theorem State.writeKeyring_mgmt (s : State) (c : Fin 16) (off : Nat) (o : Nat) (v : Nat) : (State.writeKeyring s c off o v).mgmt = s.mgmt := by
  unfold State.writeKeyring; (repeat' split) <;> (first | (exact via_mgmt _ _ (fun t h => execKey_mgmt (h := h) ..)) | (exact via_mgmt _ _ (fun t h => execRelease_mgmt (h := h) ..)) | (first | with_reducible rfl | (simp only [↓State.event_mgmt, ↓State.setRegN_mgmt, ↓apply_ite State.mgmt, ite_self]; done) | (simp [↓State.event_mgmt, ↓State.setRegN_mgmt, ↓apply_ite State.mgmt, ite_self]; done)))
theorem execCtxBoltAddWrite_mgmt (v : W32) (s : State) (t : State) (h : execCtxBoltAddWrite v s = .next t) : t.mgmt = s.mgmt := by
  unfold execCtxBoltAddWrite at h; (try dsimp only at h); (repeat' split at h) <;> (first  | contradiction | (obtain rfl := Host.Outcome.next.inj h; first | with_reducible rfl | (simp only [↓State.boltSet_mgmt, ↓apply_ite State.mgmt, ite_self]; done) | (simp [↓State.boltSet_mgmt, ↓apply_ite State.mgmt, ite_self]; done) | (rename_i heq; have hk := congrArg (fun q => q.1.mgmt) heq; simp only [↓State.boltSet_mgmt] at hk; simp only [↓State.boltSet_mgmt, ↓apply_ite State.mgmt, ite_self]; exact hk.symm)))
theorem execCtxBoltValWrite_mgmt (v : W32) (s : State) (t : State) (h : execCtxBoltValWrite v s = .next t) : t.mgmt = s.mgmt := by
  unfold execCtxBoltValWrite at h; (try dsimp only at h); (repeat' split at h) <;> (first  | contradiction | (obtain rfl := Host.Outcome.next.inj h; first | with_reducible rfl | (simp only [↓State.boltSet_mgmt, ↓apply_ite State.mgmt, ite_self]; done) | (simp [↓State.boltSet_mgmt, ↓apply_ite State.mgmt, ite_self]; done) | (rename_i heq; have hk := congrArg (fun q => q.1.mgmt) heq; simp only [↓State.boltSet_mgmt] at hk; simp only [↓State.boltSet_mgmt, ↓apply_ite State.mgmt, ite_self]; exact hk.symm)))
theorem execCtxSelectHiWrite_mgmt (v : W32) (s : State) (t : State) (h : execCtxSelectHiWrite v s = .next t) : t.mgmt = s.mgmt := by
  unfold execCtxSelectHiWrite at h; (try dsimp only at h); (repeat' split at h) <;> (first  | contradiction | (obtain rfl := Host.Outcome.next.inj h; first | with_reducible rfl | (simp only [↓State.modTick_mgmt, ↓State.setReg_mgmt, ↓apply_ite State.mgmt, ite_self]; done) | (simp [↓State.modTick_mgmt, ↓State.setReg_mgmt, ↓apply_ite State.mgmt, ite_self]; done) | (rename_i heq; have hk := congrArg (fun q => q.1.mgmt) heq; simp only [↓State.modTick_mgmt, ↓State.setReg_mgmt] at hk; simp only [↓State.modTick_mgmt, ↓State.setReg_mgmt, ↓apply_ite State.mgmt, ite_self]; exact hk.symm)))
theorem State.writeContext_mgmt (s : State) (off : Nat) (v : Nat) : (State.writeContext s off v).mgmt = s.mgmt := by
  unfold State.writeContext; (repeat' split) <;> (first | (exact via_mgmt _ _ (fun t h => execCtxBoltAddWrite_mgmt (h := h) ..)) | (exact via_mgmt _ _ (fun t h => execCtxBoltValWrite_mgmt (h := h) ..)) | (exact via_mgmt _ _ (fun t h => execCtxSelectHiWrite_mgmt (h := h) ..)) | (first | with_reducible rfl | (simp only [↓State.setRegN_mgmt, ↓State.writeKeyring_mgmt, ↓apply_ite State.mgmt, ite_self]; done) | (simp [↓State.setRegN_mgmt, ↓State.writeKeyring_mgmt, ↓apply_ite State.mgmt, ite_self]; done)))
theorem State.writeEngine_mgmt (s : State) (off : Nat) (v : Nat) : (State.writeEngine s off v).mgmt = s.mgmt := by
  unfold State.writeEngine; (try dsimp only); (repeat' split) <;> first | with_reducible rfl | (simp only [↓State.event_mgmt, ↓State.storeReg_mgmt, ↓apply_ite State.mgmt, ite_self]; done) | (simp [↓State.event_mgmt, ↓State.storeReg_mgmt, ↓apply_ite State.mgmt, ite_self]; done)
theorem State.writeFabric_mgmt (s : State) (off : Nat) (v : Nat) : (State.writeFabric s off v).mgmt = s.mgmt := by
  unfold State.writeFabric
  split
  · exact ite_mgmt (State.event_mgmt ..) (State.storeReg_mgmt ..)
  · split
    · exact State.writeCollective_mgmt ..
    · exact State.setRegN_mgmt ..
theorem State.writeGeometry_mgmt (s : State) (off : Nat) (v : Nat) : (State.writeGeometry s off v).mgmt = s.mgmt := by
  unfold State.writeGeometry; simp only [↓State.markGeometry_mgmt, ↓State.setRegN_mgmt, ↓apply_ite State.mgmt, ite_self]
theorem execEnrol_mgmt (s : State) (t : State) (h : execEnrol s = .next t) : t.mgmt = s.mgmt := by
  unfold execEnrol at h; (try dsimp only at h); (repeat' split at h) <;> (first  | contradiction | (obtain rfl := Host.Outcome.next.inj h; first | with_reducible rfl | (simp only [↓State.event_mgmt, ↓State.setReg_mgmt, ↓apply_ite State.mgmt, ite_self]; done) | (simp [↓State.event_mgmt, ↓State.setReg_mgmt, ↓apply_ite State.mgmt, ite_self]; done) | (rename_i heq; have hk := congrArg (fun q => q.1.mgmt) heq; simp only [↓State.event_mgmt, ↓State.setReg_mgmt] at hk; simp only [↓State.event_mgmt, ↓State.setReg_mgmt, ↓apply_ite State.mgmt, ite_self]; exact hk.symm)))
theorem execHspEvictWrite_mgmt (v : W32) (s : State) (t : State) (h : execHspEvictWrite v s = .next t) : t.mgmt = s.mgmt := by
  unfold execHspEvictWrite at h; (try dsimp only at h); (repeat' split at h) <;> (first  | contradiction | (obtain rfl := Host.Outcome.next.inj h; first | with_reducible rfl | (simp only [↓State.event_mgmt, ↓State.modTick_mgmt, ↓apply_ite State.mgmt, ite_self]; done) | (simp [↓State.event_mgmt, ↓State.modTick_mgmt, ↓apply_ite State.mgmt, ite_self]; done) | (rename_i heq; have hk := congrArg (fun q => q.1.mgmt) heq; simp only [↓State.event_mgmt, ↓State.modTick_mgmt] at hk; simp only [↓State.event_mgmt, ↓State.modTick_mgmt, ↓apply_ite State.mgmt, ite_self]; exact hk.symm)))
theorem execHspFoVersionWrite_mgmt (v : W32) (s : State) (t : State) (h : execHspFoVersionWrite v s = .next t) : t.mgmt = s.mgmt := by
  unfold execHspFoVersionWrite at h; (try dsimp only at h); (repeat' split at h) <;> (first  | contradiction | (obtain rfl := Host.Outcome.next.inj h; first | with_reducible rfl | (simp only [↓State.modTick_mgmt, ↓State.setRegN_mgmt, ↓apply_ite State.mgmt, ite_self]; done) | (simp [↓State.modTick_mgmt, ↓State.setRegN_mgmt, ↓apply_ite State.mgmt, ite_self]; done) | (rename_i heq; have hk := congrArg (fun q => q.1.mgmt) heq; simp only [↓State.modTick_mgmt, ↓State.setRegN_mgmt] at hk; simp only [↓State.modTick_mgmt, ↓State.setRegN_mgmt, ↓apply_ite State.mgmt, ite_self]; exact hk.symm)))
theorem State.writeHasp_mgmt (s : State) (off : Nat) (v : Nat) : (State.writeHasp s off v).mgmt = s.mgmt := by
  unfold State.writeHasp; (repeat' split) <;> (first | (exact via_mgmt _ _ (fun t h => execEnrol_mgmt (h := h) ..)) | (exact via_mgmt _ _ (fun t h => execHspEvictWrite_mgmt (h := h) ..)) | (exact via_mgmt _ _ (fun t h => execHspFoVersionWrite_mgmt (h := h) ..)) | (first | with_reducible rfl | (simp only [↓State.adjustDurable_mgmt, ↓State.setRegN_mgmt, ↓State.storeReg_mgmt, ↓apply_ite State.mgmt, ite_self]; done) | (simp [↓State.adjustDurable_mgmt, ↓State.setRegN_mgmt, ↓State.storeReg_mgmt, ↓apply_ite State.mgmt, ite_self]; done)))
theorem State.writeIngest_mgmt (s : State) (c : Nat) (off : Nat) (o : Nat) (v : Nat) : (State.writeIngest s c off o v).mgmt = s.mgmt := by
  unfold State.writeIngest; simp only [↓State.event_mgmt, ↓State.storeReg_mgmt, ↓apply_ite State.mgmt, ite_self]
theorem execLiveStreamEnable_mgmt (st : Fin 64) (v : W32) (s : State) (t : State) (h : execLiveStreamEnable st v s = .next t) : t.mgmt = s.mgmt := by
  unfold execLiveStreamEnable at h; (try dsimp only at h); (repeat' split at h) <;> (first  | contradiction | (obtain rfl := Host.Outcome.next.inj h; first | with_reducible rfl | (simp only [↓State.admitStream_mgmt, ↓State.dropWaiting_mgmt, ↓State.event_mgmt, ↓State.eventIf_mgmt, ↓State.feedEngines_mgmt, ↓State.modLive_mgmt, ↓State.releaseStream_mgmt, ↓State.setPool_mgmt, ↓State.setRegN_mgmt, ↓apply_ite State.mgmt, ite_self]; done) | (simp [↓State.admitStream_mgmt, ↓State.dropWaiting_mgmt, ↓State.event_mgmt, ↓State.eventIf_mgmt, ↓State.feedEngines_mgmt, ↓State.modLive_mgmt, ↓State.releaseStream_mgmt, ↓State.setPool_mgmt, ↓State.setRegN_mgmt, ↓apply_ite State.mgmt, ite_self]; done) | (rename_i heq; have hk := congrArg (fun q => q.1.mgmt) heq; simp only [↓State.admitStream_mgmt, ↓State.dropWaiting_mgmt, ↓State.event_mgmt, ↓State.eventIf_mgmt, ↓State.feedEngines_mgmt, ↓State.modLive_mgmt, ↓State.releaseStream_mgmt, ↓State.setPool_mgmt, ↓State.setRegN_mgmt] at hk; simp only [↓State.admitStream_mgmt, ↓State.dropWaiting_mgmt, ↓State.event_mgmt, ↓State.eventIf_mgmt, ↓State.feedEngines_mgmt, ↓State.modLive_mgmt, ↓State.releaseStream_mgmt, ↓State.setPool_mgmt, ↓State.setRegN_mgmt, ↓apply_ite State.mgmt, ite_self]; exact hk.symm)))
theorem State.writeLive_mgmt (s : State) (st : Fin 64) (off : Nat) (o : Nat) (v : Nat) : (State.writeLive s st off o v).mgmt = s.mgmt := by
  unfold State.writeLive
  split
  · exact via_mgmt _ _ (fun t h => execLiveStreamEnable_mgmt (h := h) ..)
  split
  · exact State.event_mgmt ..
  · exact State.storeReg_mgmt ..
theorem State.writeSensor_mgmt (s : State) (st : Nat) (off : Nat) (o : Nat) (v : Nat) : (State.writeSensor s st off o v).mgmt = s.mgmt := by
  unfold State.writeSensor; simp only [↓State.event_mgmt, ↓State.storeReg_mgmt, ↓apply_ite State.mgmt, ite_self]
theorem State.writeMedia_mgmt (s : State) (off : Nat) (v : Nat) : (State.writeMedia s off v).mgmt = s.mgmt := by
  unfold State.writeMedia
  split
  · exact State.writeIngest_mgmt ..
  · exact State.writeSensor_mgmt ..
  · exact State.writeLive_mgmt ..
  · exact (State.feedEngines_mgmt ..).trans (State.writeEngine_mgmt ..)
theorem State.writePool_mgmt (s : State) (c : Nat) (off : Nat) (o : Nat) (v : Nat) : (State.writePool s c off o v).mgmt = s.mgmt := by
  unfold State.writePool; simp only [↓State.event_mgmt, ↓State.setRegN_mgmt, ↓State.storeReg_mgmt, ↓apply_ite State.mgmt, ite_self]
theorem State.writeStackCtrl_mgmt (s : State) (v : Nat) : (State.writeStackCtrl s v).mgmt = s.mgmt := by
  unfold State.writeStackCtrl; simp only [↓State.eventIf_mgmt, ↓State.setRegN_mgmt, ↓apply_ite State.mgmt, ite_self]
theorem State.writeMemory_mgmt (s : State) (off : Nat) (v : Nat) : (State.writeMemory s off v).mgmt = s.mgmt := by
  unfold State.writeMemory; (try dsimp only); (repeat' split) <;> first | with_reducible rfl | (simp only [↓State.event_mgmt, ↓State.setRegN_mgmt, ↓State.storeReg_mgmt, ↓State.writeAdapter_mgmt, ↓State.writePool_mgmt, ↓State.writeStackCtrl_mgmt, ↓apply_ite State.mgmt, ite_self]; done) | (simp [↓State.event_mgmt, ↓State.setRegN_mgmt, ↓State.storeReg_mgmt, ↓State.writeAdapter_mgmt, ↓State.writePool_mgmt, ↓State.writeStackCtrl_mgmt, ↓apply_ite State.mgmt, ite_self]; done)
theorem State.writeMsix_mgmt (s : State) (fn : Nat) (off : Nat) (o : Nat) (v : Nat) : (State.writeMsix s fn off o v).mgmt = s.mgmt := by
  unfold State.writeMsix; simp only [↓State.emit_mgmt, ↓State.setReg_mgmt, ↓State.setRegN_mgmt, ↓apply_ite State.mgmt, ite_self]
theorem State.writeOption_mgmt (s : State) (image : Bytes) : (State.writeOption s image).mgmt = s.mgmt := by rfl
theorem execRingDisable_mgmt (fn : Fin 17) (s : State) (t : State) (h : execRingDisable fn s = .next t) : t.mgmt = s.mgmt := by
  unfold execRingDisable at h; (try dsimp only at h); (repeat' split at h) <;> (first  | contradiction | (obtain rfl := Host.Outcome.next.inj h; first | with_reducible rfl | (simp only [↓State.disableRing_mgmt, ↓State.setRegN_mgmt, ↓apply_ite State.mgmt, ite_self]; done) | (simp [↓State.disableRing_mgmt, ↓State.setRegN_mgmt, ↓apply_ite State.mgmt, ite_self]; done) | (rename_i heq; have hk := congrArg (fun q => q.1.mgmt) heq; simp only [↓State.disableRing_mgmt, ↓State.setRegN_mgmt] at hk; simp only [↓State.disableRing_mgmt, ↓State.setRegN_mgmt, ↓apply_ite State.mgmt, ite_self]; exact hk.symm)))
theorem execRingEnable_mgmt (fn : Fin 17) (s : State) (t : State) (h : execRingEnable fn s = .next t) : t.mgmt = s.mgmt := by
  unfold execRingEnable at h; (try dsimp only at h); (repeat' split at h) <;> (first  | contradiction | (obtain rfl := Host.Outcome.next.inj h; first | with_reducible rfl | (simp only [↓State.modRing_mgmt, ↓State.ringError_mgmt, ↓State.setRegN_mgmt, ↓apply_ite State.mgmt, ite_self]; done) | (simp [↓State.modRing_mgmt, ↓State.ringError_mgmt, ↓State.setRegN_mgmt, ↓apply_ite State.mgmt, ite_self]; done) | (rename_i heq; have hk := congrArg (fun q => q.1.mgmt) heq; simp only [↓State.modRing_mgmt, ↓State.ringError_mgmt, ↓State.setRegN_mgmt] at hk; simp only [↓State.modRing_mgmt, ↓State.ringError_mgmt, ↓State.setRegN_mgmt, ↓apply_ite State.mgmt, ite_self]; exact hk.symm)))
theorem State.writeRing_mgmt (s : State) (fn : Fin 17) (off : Nat) (o : Nat) (v : Nat) : (State.writeRing s fn off o v).mgmt = s.mgmt := by
  unfold State.writeRing; (repeat' split) <;> (first | (exact via_mgmt _ _ (fun t h => execRingDisable_mgmt (h := h) ..)) | (exact via_mgmt _ _ (fun t h => execRingEnable_mgmt (h := h) ..)) | (first | with_reducible rfl | (simp only [↓State.event_mgmt, ↓State.storeReg_mgmt, ↓State.writeMsix_mgmt, ↓apply_ite State.mgmt, ite_self]; done) | (simp [↓State.event_mgmt, ↓State.storeReg_mgmt, ↓State.writeMsix_mgmt, ↓apply_ite State.mgmt, ite_self]; done)))
theorem State.writeTick_mgmt (s : State) (off : Nat) (v : Nat) : (State.writeTick s off v).mgmt = s.mgmt := by
  unfold State.writeTick; simp only [↓State.modTick_mgmt, ↓State.setRegN_mgmt, ↓State.writeGeometry_mgmt, ↓apply_ite State.mgmt, ite_self]
theorem State.writeUpdate_mgmt (s : State) (c : Nat) (off : Nat) (o : Nat) (v : Nat) : (State.writeUpdate s c off o v).mgmt = s.mgmt := by
  unfold State.writeUpdate; simp only [↓State.event_mgmt, ↓State.modCtx_mgmt, ↓State.setRegN_mgmt, ↓State.showLs_mgmt, ↓State.storeReg_mgmt, ↓apply_ite State.mgmt, ite_self]
theorem State.zeroExtent_mgmt (s : State) (space : Nat) (unit : Nat) (a : Nat) (n : Nat) : (State.zeroExtent s space unit a n).mgmt = s.mgmt := by
  unfold State.zeroExtent; simp only [↓State.setStore_mgmt, ↓apply_ite State.mgmt, ite_self]
theorem State.zeroPartitions_mgmt (s : State) (c : Nat) : (State.zeroPartitions s c).mgmt = s.mgmt := by rfl
theorem dueGo_mgmt (c : Nat) (a : Nat) (a2 : State) : (dueGo c a a2).mgmt = a2.mgmt := by
  induction a generalizing a2 with
  | zero => rfl
  | succ f ih =>
    unfold dueGo
    split
    · rfl
    · exact (ih _).trans ((State.completeBatch_mgmt ..).trans (State.takeTeacher_mgmt ..))
theorem execAccSnapEpochRead_mgmt (c : Fin 16) (s : State) (t : State) (h : execAccSnapEpochRead c s = .next t) : t.mgmt = s.mgmt := by
  unfold execAccSnapEpochRead at h; (try dsimp only at h); (repeat' split at h) <;> (first  | contradiction | (obtain rfl := Host.Outcome.next.inj h; first | with_reducible rfl | (simp only [↓State.readBar_mgmt, ↓apply_ite State.mgmt, ite_self]; done) | (simp [↓State.readBar_mgmt, ↓apply_ite State.mgmt, ite_self]; done) | (rename_i heq; have hk := congrArg (fun q => q.1.mgmt) heq; simp only [↓State.readBar_mgmt] at hk; simp only [↓State.readBar_mgmt, ↓apply_ite State.mgmt, ite_self]; exact hk.symm)))
theorem execAck_mgmt (link : Fin 24) (b : Bytes) (errs : ReadErrs) (s : State) (t : State) (h : execAck link b errs s = .next t) : t.mgmt = s.mgmt := by
  unfold execAck at h; (try dsimp only at h); (repeat' split at h) <;> (first  | contradiction | (obtain rfl := Host.Outcome.next.inj h; first | with_reducible rfl | (simp only [↓State.takeAck_mgmt, ↓State.takeFmReply_mgmt, ↓apply_ite State.mgmt, ite_self]; done) | (simp [↓State.takeAck_mgmt, ↓State.takeFmReply_mgmt, ↓apply_ite State.mgmt, ite_self]; done) | (rename_i heq; have hk := congrArg (fun q => q.1.mgmt) heq; simp only [↓State.takeAck_mgmt, ↓State.takeFmReply_mgmt] at hk; simp only [↓State.takeAck_mgmt, ↓State.takeFmReply_mgmt, ↓apply_ite State.mgmt, ite_self]; exact hk.symm)))
theorem execAdapterTransferDone_mgmt (c : Fin 16) (v : Nat) (fill : Bool) (s : State) (t : State) (h : execAdapterTransferDone c v fill s = .next t) : t.mgmt = s.mgmt := by
  unfold execAdapterTransferDone at h; (try dsimp only at h); (repeat' split at h) <;> (first  | contradiction | (obtain rfl := Host.Outcome.next.inj h; first | with_reducible rfl | (simp only [↓State.copySlot_mgmt, ↓State.modAdp_mgmt, ↓apply_ite State.mgmt, ite_self]; done) | (simp [↓State.copySlot_mgmt, ↓State.modAdp_mgmt, ↓apply_ite State.mgmt, ite_self]; done) | (rename_i heq; have hk := congrArg (fun q => q.1.mgmt) heq; simp only [↓State.copySlot_mgmt, ↓State.modAdp_mgmt] at hk; simp only [↓State.copySlot_mgmt, ↓State.modAdp_mgmt, ↓apply_ite State.mgmt, ite_self]; exact hk.symm)))
theorem execAdriftLimit_mgmt (s : State) (t : State) (h : execAdriftLimit s = .next t) : t.mgmt = s.mgmt := by
  unfold execAdriftLimit at h; (try dsimp only at h); (repeat' split at h) <;> (first  | contradiction | (obtain rfl := Host.Outcome.next.inj h; first | with_reducible rfl | (simp only [↓State.modTick_mgmt, ↓apply_ite State.mgmt, ite_self]; done) | (simp [↓State.modTick_mgmt, ↓apply_ite State.mgmt, ite_self]; done) | (rename_i heq; have hk := congrArg (fun q => q.1.mgmt) heq; simp only [↓State.modTick_mgmt] at hk; simp only [↓State.modTick_mgmt, ↓apply_ite State.mgmt, ite_self]; exact hk.symm)))
theorem marksGo_mgmt (a : List (Nat × Nat × Nat)) (a1 : State) : (marksGo a a1).mgmt = a1.mgmt := by
  induction a generalizing a1 with
  | nil => exact State.modMedia_mgmt ..
  | cons e t ih =>
    unfold marksGo
    split
    · exact State.modMedia_mgmt ..
    · exact (ih _).trans (State.closeGroup_mgmt ..)
theorem execArchiveEncodeDone_mgmt (unit : Bytes) (s : State) (t : State) (h : execArchiveEncodeDone unit s = .next t) : t.mgmt = s.mgmt := by
  unfold execArchiveEncodeDone at h; (try dsimp only at h); (repeat' split at h) <;> (first  | contradiction | (obtain rfl := Host.Outcome.next.inj h; first | with_reducible rfl | (simp only [↓State.account_mgmt, ↓State.closeGroup_mgmt, ↓State.modLive_mgmt, ↓State.modMedia_mgmt, ↓marksGo_mgmt, ↓apply_ite State.mgmt, ite_self]; done) | (simp [↓State.account_mgmt, ↓State.closeGroup_mgmt, ↓State.modLive_mgmt, ↓State.modMedia_mgmt, ↓marksGo_mgmt, ↓apply_ite State.mgmt, ite_self]; done) | (rename_i heq; have hk := congrArg (fun q => q.1.mgmt) heq; simp only [↓State.account_mgmt, ↓State.closeGroup_mgmt, ↓State.modLive_mgmt, ↓State.modMedia_mgmt, ↓marksGo_mgmt] at hk; simp only [↓State.account_mgmt, ↓State.closeGroup_mgmt, ↓State.modLive_mgmt, ↓State.modMedia_mgmt, ↓marksGo_mgmt, ↓apply_ite State.mgmt, ite_self]; exact hk.symm)))
theorem issueG_mgmt (u : Nat) (r : Bytes) (late : Bool) (legal : Bool) (reach : Bool) (regions : List Region) (go : Nat → State → State) (s : State) (h6 : ∀ (x0 : Nat) (x1 : State), State.mgmt (go x0 x1) = State.mgmt x1) (t : State) (h : issueG u r late legal reach regions go s = .next t) : t.mgmt = s.mgmt := by
  unfold issueG at h; (try dsimp only at h); (repeat' split at h) <;> (first  | contradiction | (obtain rfl := Host.Outcome.next.inj h; first | with_reducible rfl | (simp only [↓State.ctxClash_mgmt, ↓State.issued_mgmt, ↓State.refuseRecord_mgmt, ↓State.takeRecord_mgmt, ↓h6, ↓apply_ite State.mgmt, ite_self]; done) | (simp [↓State.ctxClash_mgmt, ↓State.issued_mgmt, ↓State.refuseRecord_mgmt, ↓State.takeRecord_mgmt, ↓h6, ↓apply_ite State.mgmt, ite_self]; done) | (rename_i heq; have hk := congrArg (fun q => q.1.mgmt) heq; simp only [↓State.ctxClash_mgmt, ↓State.issued_mgmt, ↓State.refuseRecord_mgmt, ↓State.takeRecord_mgmt, ↓h6] at hk; simp only [↓State.ctxClash_mgmt, ↓State.issued_mgmt, ↓State.refuseRecord_mgmt, ↓State.takeRecord_mgmt, ↓h6, ↓apply_ite State.mgmt, ite_self]; exact hk.symm)))
theorem issue_mgmt (u : Nat) (r : Bytes) (env : RunEnv) (legal : Bool) (reads : List Region) (writes : List Region) (out : State → RunCtx → RunOut) (s : State) (t : State) (h : issue u r env legal reads writes out s = .next t) : t.mgmt = s.mgmt := by
  unfold issue at h; (try dsimp only at h); refine issueG_mgmt (t := t) (h := h) (h6 := ?_) .. <;> (intros; first | with_reducible rfl | (simp only [↓State.afterRun_mgmt, ↓State.escapeBytes_mgmt, ↓apply_ite State.mgmt, ite_self]; done) | (simp [↓State.afterRun_mgmt, ↓State.escapeBytes_mgmt, ↓apply_ite State.mgmt, ite_self]; done) | ((try dsimp only); (repeat' split) <;> (first | with_reducible rfl | (simp only [↓State.afterRun_mgmt, ↓State.escapeBytes_mgmt, ↓apply_ite State.mgmt, ite_self]; done) | (simp [↓State.afterRun_mgmt, ↓State.escapeBytes_mgmt, ↓apply_ite State.mgmt, ite_self]; done) | (rename_i heq; have hk := congrArg (fun q => q.1.mgmt) heq; simp only [↓State.afterRun_mgmt, ↓State.escapeBytes_mgmt] at hk; simp only [↓State.afterRun_mgmt, ↓State.escapeBytes_mgmt, ↓apply_ite State.mgmt, ite_self]; exact hk.symm))))
theorem issueAttention_mgmt (mode : Nat) (u : Nat) (r : Bytes) (env : RunEnv) (out : Bytes → State → RunCtx → RunOut) (s : State) (t : State) (h : issueAttention mode u r env out s = .next t) : t.mgmt = s.mgmt := by
  unfold issueAttention at h; (try dsimp only at h); (repeat' split at h) <;> (first | (exact issue_mgmt (h := h) ..) | contradiction | (obtain rfl := Host.Outcome.next.inj h; first | with_reducible rfl | (simp only [↓apply_ite State.mgmt, ite_self]; done) | (simp [↓apply_ite State.mgmt, ite_self]; done) | (rename_i heq; have hk := congrArg (fun q => q.1.mgmt) heq; simp only [id] at hk; simp only [↓apply_ite State.mgmt, ite_self]; exact hk.symm)))
theorem execAttentionAppend_mgmt (u : Fin 256) (r : Bytes) (env : RunEnv) (s : State) (t : State) (h : execAttentionAppend u r env s = .next t) : t.mgmt = s.mgmt := by
  unfold execAttentionAppend at h; (try dsimp only at h); (repeat' split at h) <;> (first | (exact issueAttention_mgmt (h := h) ..) | contradiction | (obtain rfl := Host.Outcome.next.inj h; first | with_reducible rfl | (simp only [↓apply_ite State.mgmt, ite_self]; done) | (simp [↓apply_ite State.mgmt, ite_self]; done) | (rename_i heq; have hk := congrArg (fun q => q.1.mgmt) heq; simp only [id] at hk; simp only [↓apply_ite State.mgmt, ite_self]; exact hk.symm)))
theorem execAttentionBwd_mgmt (u : Fin 256) (r : Bytes) (env : RunEnv) (s : State) (t : State) (h : execAttentionBwd u r env s = .next t) : t.mgmt = s.mgmt := by
  unfold execAttentionBwd at h; (try dsimp only at h); (repeat' split at h) <;> (first | (exact issueAttention_mgmt (h := h) ..) | contradiction | (obtain rfl := Host.Outcome.next.inj h; first | with_reducible rfl | (simp only [↓apply_ite State.mgmt, ite_self]; done) | (simp [↓apply_ite State.mgmt, ite_self]; done) | (rename_i heq; have hk := congrArg (fun q => q.1.mgmt) heq; simp only [id] at hk; simp only [↓apply_ite State.mgmt, ite_self]; exact hk.symm)))
theorem execAttentionFwd_mgmt (u : Fin 256) (r : Bytes) (env : RunEnv) (s : State) (t : State) (h : execAttentionFwd u r env s = .next t) : t.mgmt = s.mgmt := by
  unfold execAttentionFwd at h; (try dsimp only at h); (repeat' split at h) <;> (first | (exact issueAttention_mgmt (h := h) ..) | contradiction | (obtain rfl := Host.Outcome.next.inj h; first | with_reducible rfl | (simp only [↓apply_ite State.mgmt, ite_self]; done) | (simp [↓apply_ite State.mgmt, ite_self]; done) | (rename_i heq; have hk := congrArg (fun q => q.1.mgmt) heq; simp only [id] at hk; simp only [↓apply_ite State.mgmt, ite_self]; exact hk.symm)))
theorem execAttentionMerge_mgmt (u : Fin 256) (r : Bytes) (env : RunEnv) (s : State) (t : State) (h : execAttentionMerge u r env s = .next t) : t.mgmt = s.mgmt := by
  unfold execAttentionMerge at h; (try dsimp only at h); (repeat' split at h) <;> (first | (exact issue_mgmt (h := h) ..) | contradiction | (obtain rfl := Host.Outcome.next.inj h; first | with_reducible rfl | (simp only [↓apply_ite State.mgmt, ite_self]; done) | (simp [↓apply_ite State.mgmt, ite_self]; done) | (rename_i heq; have hk := congrArg (fun q => q.1.mgmt) heq; simp only [id] at hk; simp only [↓apply_ite State.mgmt, ite_self]; exact hk.symm)))
theorem issueWindow_mgmt (op : Nat) (u : Nat) (r : Bytes) (env : RunEnv) (s : State) (t : State) (h : issueWindow op u r env s = .next t) : t.mgmt = s.mgmt := by
  unfold issueWindow at h; (try dsimp only at h); (repeat' split at h) <;> (first | (exact issue_mgmt (h := h) ..) | contradiction | (obtain rfl := Host.Outcome.next.inj h; first | with_reducible rfl | (simp only [↓apply_ite State.mgmt, ite_self]; done) | (simp [↓apply_ite State.mgmt, ite_self]; done) | (rename_i heq; have hk := congrArg (fun q => q.1.mgmt) heq; simp only [id] at hk; simp only [↓apply_ite State.mgmt, ite_self]; exact hk.symm)))
theorem execAveragePool_mgmt (u : Fin 256) (r : Bytes) (env : RunEnv) (s : State) (t : State) (h : execAveragePool u r env s = .next t) : t.mgmt = s.mgmt := by
  unfold execAveragePool at h; (try dsimp only at h); (repeat' split at h) <;> (first | (exact issueWindow_mgmt (h := h) ..) | contradiction | (obtain rfl := Host.Outcome.next.inj h; first | with_reducible rfl | (simp only [↓apply_ite State.mgmt, ite_self]; done) | (simp [↓apply_ite State.mgmt, ite_self]; done) | (rename_i heq; have hk := congrArg (fun q => q.1.mgmt) heq; simp only [id] at hk; simp only [↓apply_ite State.mgmt, ite_self]; exact hk.symm)))
theorem execBatchDeadline_mgmt (c : Fin 16) (s : State) (t : State) (h : execBatchDeadline c s = .next t) : t.mgmt = s.mgmt := by
  unfold execBatchDeadline at h; (try dsimp only at h); (repeat' split at h) <;> (first  | contradiction | (obtain rfl := Host.Outcome.next.inj h; first | with_reducible rfl | (simp only [↓dueGo_mgmt, ↓apply_ite State.mgmt, ite_self]; done) | (simp [↓dueGo_mgmt, ↓apply_ite State.mgmt, ite_self]; done) | (rename_i heq; have hk := congrArg (fun q => q.1.mgmt) heq; simp only [↓dueGo_mgmt] at hk; simp only [↓dueGo_mgmt, ↓apply_ite State.mgmt, ite_self]; exact hk.symm)))
theorem execBilinearResize_mgmt (u : Fin 256) (r : Bytes) (env : RunEnv) (s : State) (t : State) (h : execBilinearResize u r env s = .next t) : t.mgmt = s.mgmt := by
  unfold execBilinearResize at h; (try dsimp only at h); (repeat' split at h) <;> (first | (exact issueWindow_mgmt (h := h) ..) | contradiction | (obtain rfl := Host.Outcome.next.inj h; first | with_reducible rfl | (simp only [↓apply_ite State.mgmt, ite_self]; done) | (simp [↓apply_ite State.mgmt, ite_self]; done) | (rename_i heq; have hk := congrArg (fun q => q.1.mgmt) heq; simp only [id] at hk; simp only [↓apply_ite State.mgmt, ite_self]; exact hk.symm)))
theorem issueBolt_mgmt (op : Nat) (u : Nat) (r : Bytes) (late : Bool) (go : Nat → State → State) (s : State) (h4 : ∀ (x0 : Nat) (x1 : State), State.mgmt (go x0 x1) = State.mgmt x1) (t : State) (h : issueBolt op u r late go s = .next t) : t.mgmt = s.mgmt := by
  unfold issueBolt at h; (try dsimp only at h); refine issueG_mgmt (t := t) (h := h) (h6 := ?_) .. <;> (intros; first | with_reducible rfl | (simp only [↓State.begun_mgmt, ↓h4, ↓apply_ite State.mgmt, ite_self]; done) | (simp [↓State.begun_mgmt, ↓h4, ↓apply_ite State.mgmt, ite_self]; done) | ((try dsimp only); (repeat' split) <;> (first | with_reducible rfl | (simp only [↓State.begun_mgmt, ↓h4, ↓apply_ite State.mgmt, ite_self]; done) | (simp [↓State.begun_mgmt, ↓h4, ↓apply_ite State.mgmt, ite_self]; done) | (rename_i heq; have hk := congrArg (fun q => q.1.mgmt) heq; simp only [↓State.begun_mgmt, ↓h4] at hk; simp only [↓State.begun_mgmt, ↓h4, ↓apply_ite State.mgmt, ite_self]; exact hk.symm))))
theorem execBoltAdd_mgmt (u : Fin 288) (r : Bytes) (late : Bool) (s : State) (t : State) (h : execBoltAdd u r late s = .next t) : t.mgmt = s.mgmt := by
  unfold execBoltAdd at h; (try dsimp only at h); refine issueBolt_mgmt (t := t) (h := h) (h4 := ?_) .. <;> (intros; first | with_reducible rfl | (simp only [↓State.boltAdd_mgmt, ↓apply_ite State.mgmt, ite_self]; done) | (simp [↓State.boltAdd_mgmt, ↓apply_ite State.mgmt, ite_self]; done) | ((try dsimp only); (repeat' split) <;> (first | with_reducible rfl | (simp only [↓State.boltAdd_mgmt, ↓apply_ite State.mgmt, ite_self]; done) | (simp [↓State.boltAdd_mgmt, ↓apply_ite State.mgmt, ite_self]; done) | (rename_i heq; have hk := congrArg (fun q => q.1.mgmt) heq; simp only [↓State.boltAdd_mgmt] at hk; simp only [↓State.boltAdd_mgmt, ↓apply_ite State.mgmt, ite_self]; exact hk.symm))))
theorem execBoltSet_mgmt (u : Fin 288) (r : Bytes) (late : Bool) (s : State) (t : State) (h : execBoltSet u r late s = .next t) : t.mgmt = s.mgmt := by
  unfold execBoltSet at h; (try dsimp only at h); refine issueBolt_mgmt (t := t) (h := h) (h4 := ?_) .. <;> (intros; first | with_reducible rfl | (simp only [↓State.boltSet_mgmt, ↓apply_ite State.mgmt, ite_self]; done) | (simp [↓State.boltSet_mgmt, ↓apply_ite State.mgmt, ite_self]; done) | ((try dsimp only); (repeat' split) <;> (first | with_reducible rfl | (simp only [↓State.boltSet_mgmt, ↓apply_ite State.mgmt, ite_self]; done) | (simp [↓State.boltSet_mgmt, ↓apply_ite State.mgmt, ite_self]; done) | (rename_i heq; have hk := congrArg (fun q => q.1.mgmt) heq; simp only [↓State.boltSet_mgmt] at hk; simp only [↓State.boltSet_mgmt, ↓apply_ite State.mgmt, ite_self]; exact hk.symm))))
theorem execBoltWait_mgmt (u : Fin 288) (r : Bytes) (late : Bool) (s : State) (t : State) (h : execBoltWait u r late s = .next t) : t.mgmt = s.mgmt := by
  unfold execBoltWait at h; (try dsimp only at h); refine issueBolt_mgmt (t := t) (h := h) (h4 := ?_) .. <;> (intros; first | with_reducible rfl | (simp only [↓State.boltWait_mgmt, ↓apply_ite State.mgmt, ite_self]; done) | (simp [↓State.boltWait_mgmt, ↓apply_ite State.mgmt, ite_self]; done) | ((try dsimp only); (repeat' split) <;> (first | with_reducible rfl | (simp only [↓State.boltWait_mgmt, ↓apply_ite State.mgmt, ite_self]; done) | (simp [↓State.boltWait_mgmt, ↓apply_ite State.mgmt, ite_self]; done) | (rename_i heq; have hk := congrArg (fun q => q.1.mgmt) heq; simp only [↓State.boltWait_mgmt] at hk; simp only [↓State.boltWait_mgmt, ↓apply_ite State.mgmt, ite_self]; exact hk.symm))))
theorem execBoltWaitTimeout_mgmt (u : Fin 288) (s : State) (t : State) (h : execBoltWaitTimeout u s = .next t) : t.mgmt = s.mgmt := by
  unfold execBoltWaitTimeout at h; (try dsimp only at h); (repeat' split at h) <;> (first  | contradiction | (obtain rfl := Host.Outcome.next.inj h; first | with_reducible rfl | (simp only [↓State.waitTimeout_mgmt, ↓apply_ite State.mgmt, ite_self]; done) | (simp [↓State.waitTimeout_mgmt, ↓apply_ite State.mgmt, ite_self]; done) | (rename_i heq; have hk := congrArg (fun q => q.1.mgmt) heq; simp only [↓State.waitTimeout_mgmt] at hk; simp only [↓State.waitTimeout_mgmt, ↓apply_ite State.mgmt, ite_self]; exact hk.symm)))
theorem execBringupPhaseComplete_mgmt (ok : Bool) (bad : List LpCopy) (s : State) (t : State) (h : execBringupPhaseComplete ok bad s = .next t) : t.mgmt = s.mgmt := by
  unfold execBringupPhaseComplete at h; (try dsimp only at h); (repeat' split at h) <;> (first  | contradiction | (obtain rfl := Host.Outcome.next.inj h; first | with_reducible rfl | (simp only [↓State.linksTrained_mgmt, ↓State.loadMaps_mgmt, ↓State.lpPhase_mgmt, ↓State.mountDone_mgmt, ↓State.optionLoad_mgmt, ↓State.phaseFails_mgmt, ↓State.pllLock_mgmt, ↓State.stackPhase_mgmt, ↓State.toPhase_mgmt, ↓State.trainLinks_mgmt, ↓apply_ite State.mgmt, ite_self]; done) | (simp [↓State.linksTrained_mgmt, ↓State.loadMaps_mgmt, ↓State.lpPhase_mgmt, ↓State.mountDone_mgmt, ↓State.optionLoad_mgmt, ↓State.phaseFails_mgmt, ↓State.pllLock_mgmt, ↓State.stackPhase_mgmt, ↓State.toPhase_mgmt, ↓State.trainLinks_mgmt, ↓apply_ite State.mgmt, ite_self]; done) | (rename_i heq; have hk := congrArg (fun q => q.1.mgmt) heq; simp only [↓State.linksTrained_mgmt, ↓State.loadMaps_mgmt, ↓State.lpPhase_mgmt, ↓State.mountDone_mgmt, ↓State.optionLoad_mgmt, ↓State.phaseFails_mgmt, ↓State.pllLock_mgmt, ↓State.stackPhase_mgmt, ↓State.toPhase_mgmt, ↓State.trainLinks_mgmt] at hk; simp only [↓State.linksTrained_mgmt, ↓State.loadMaps_mgmt, ↓State.lpPhase_mgmt, ↓State.mountDone_mgmt, ↓State.optionLoad_mgmt, ↓State.phaseFails_mgmt, ↓State.pllLock_mgmt, ↓State.stackPhase_mgmt, ↓State.toPhase_mgmt, ↓State.trainLinks_mgmt, ↓apply_ite State.mgmt, ite_self]; exact hk.symm)))
theorem issueUpdate_mgmt (cls : Nat) (w : Nat) (r : Bytes) (env : RunEnv) (reads : UpCtx → State → List Region) (outs : UpCtx → State → List Region) (run : UpCtx → State → RunOut) (post : UpCtx → State → State) (s : State) (h7 : ∀ (x0 : UpCtx) (x1 : State), State.mgmt (post x0 x1) = State.mgmt x1) (t : State) (h : issueUpdate cls w r env reads outs run post s = .next t) : t.mgmt = s.mgmt := by
  unfold issueUpdate at h; (try dsimp only at h); refine issueG_mgmt (t := t) (h := h) (h6 := ?_) .. <;> (intros; first | with_reducible rfl | (simp only [↓State.afterRun_mgmt, ↓State.afterVerdict_mgmt, ↓State.escapeBytes_mgmt, ↓h7, ↓apply_ite State.mgmt, ite_self]; done) | (simp [↓State.afterRun_mgmt, ↓State.afterVerdict_mgmt, ↓State.escapeBytes_mgmt, ↓h7, ↓apply_ite State.mgmt, ite_self]; done) | ((try dsimp only); (repeat' split) <;> (first | with_reducible rfl | (simp only [↓State.afterRun_mgmt, ↓State.afterVerdict_mgmt, ↓State.escapeBytes_mgmt, ↓h7, ↓apply_ite State.mgmt, ite_self]; done) | (simp [↓State.afterRun_mgmt, ↓State.afterVerdict_mgmt, ↓State.escapeBytes_mgmt, ↓h7, ↓apply_ite State.mgmt, ite_self]; done) | (rename_i heq; have hk := congrArg (fun q => q.1.mgmt) heq; simp only [↓State.afterRun_mgmt, ↓State.afterVerdict_mgmt, ↓State.escapeBytes_mgmt, ↓h7] at hk; simp only [↓State.afterRun_mgmt, ↓State.afterVerdict_mgmt, ↓State.escapeBytes_mgmt, ↓h7, ↓apply_ite State.mgmt, ite_self]; exact hk.symm))))
theorem execCarry_mgmt (w : Fin 16) (r : Bytes) (env : RunEnv) (s : State) (t : State) (h : execCarry w r env s = .next t) : t.mgmt = s.mgmt := by
  unfold execCarry at h; (try dsimp only at h); refine issueUpdate_mgmt (t := t) (h := h) (h7 := ?_) .. <;> (intros; first | with_reducible rfl | (simp only [↓apply_ite State.mgmt, ite_self]; done) | (simp [↓apply_ite State.mgmt, ite_self]; done) | ((try dsimp only); (repeat' split) <;> (first | with_reducible rfl | (simp only [↓apply_ite State.mgmt, ite_self]; done) | (simp [↓apply_ite State.mgmt, ite_self]; done) | (rename_i heq; have hk := congrArg (fun q => q.1.mgmt) heq; simp only [id] at hk; simp only [↓apply_ite State.mgmt, ite_self]; exact hk.symm))))
theorem execChallenge_mgmt (slot : Nat) (nonce : Bytes) (s : State) (t : State) (h : execChallenge slot nonce s = .next t) : t.mgmt = s.mgmt := by
  unfold execChallenge at h; dsimp only at h; refine State.afterNegotiation_mgmt (t := t) (h := h) (h1 := ?_) .. <;> (intros; first | (with_reducible rfl) | (simp only [↓State.drawBytes_mgmt, ↓State.emit_mgmt, ↓apply_ite State.mgmt, ite_self]; done) | (simp [↓State.drawBytes_mgmt, ↓State.emit_mgmt, ↓apply_ite State.mgmt, ite_self]; done) | (dsimp only; (repeat' split) <;> (first | (with_reducible rfl) | (simp only [↓State.drawBytes_mgmt, ↓State.emit_mgmt, ↓apply_ite State.mgmt, ite_self]; done) | (simp [↓State.drawBytes_mgmt, ↓State.emit_mgmt, ↓apply_ite State.mgmt, ite_self]; done))))
theorem execCheckerCompare_mgmt (u : Fin 256) (r : Bytes) (env : RunEnv) (s : State) (t : State) (h : execCheckerCompare u r env s = .next t) : t.mgmt = s.mgmt := by
  unfold execCheckerCompare at h; (try dsimp only at h); refine issueG_mgmt (t := t) (h := h) (h6 := ?_) .. <;> (intros; first | with_reducible rfl | (simp only [↓State.afterRun_mgmt, ↓State.clearDigest_mgmt, ↓State.digestMismatch_mgmt, ↓apply_ite State.mgmt, ite_self]; done) | (simp [↓State.afterRun_mgmt, ↓State.clearDigest_mgmt, ↓State.digestMismatch_mgmt, ↓apply_ite State.mgmt, ite_self]; done) | ((try dsimp only); (repeat' split) <;> (first | with_reducible rfl | (simp only [↓State.afterRun_mgmt, ↓State.clearDigest_mgmt, ↓State.digestMismatch_mgmt, ↓apply_ite State.mgmt, ite_self]; done) | (simp [↓State.afterRun_mgmt, ↓State.clearDigest_mgmt, ↓State.digestMismatch_mgmt, ↓apply_ite State.mgmt, ite_self]; done) | (rename_i heq; have hk := congrArg (fun q => q.1.mgmt) heq; simp only [↓State.afterRun_mgmt, ↓State.clearDigest_mgmt, ↓State.digestMismatch_mgmt] at hk; simp only [↓State.afterRun_mgmt, ↓State.clearDigest_mgmt, ↓State.digestMismatch_mgmt, ↓apply_ite State.mgmt, ite_self]; exact hk.symm))))
theorem execCheckerExport_mgmt (u : Fin 256) (r : Bytes) (env : RunEnv) (s : State) (t : State) (h : execCheckerExport u r env s = .next t) : t.mgmt = s.mgmt := by
  unfold execCheckerExport at h; (try dsimp only at h); refine issueG_mgmt (t := t) (h := h) (h6 := ?_) .. <;> (intros; first | with_reducible rfl | (simp only [↓State.afterRun_mgmt, ↓State.clearDigest_mgmt, ↓apply_ite State.mgmt, ite_self]; done) | (simp [↓State.afterRun_mgmt, ↓State.clearDigest_mgmt, ↓apply_ite State.mgmt, ite_self]; done) | ((try dsimp only); (repeat' split) <;> (first | with_reducible rfl | (simp only [↓State.afterRun_mgmt, ↓State.clearDigest_mgmt, ↓apply_ite State.mgmt, ite_self]; done) | (simp [↓State.afterRun_mgmt, ↓State.clearDigest_mgmt, ↓apply_ite State.mgmt, ite_self]; done) | (rename_i heq; have hk := congrArg (fun q => q.1.mgmt) heq; simp only [↓State.afterRun_mgmt, ↓State.clearDigest_mgmt] at hk; simp only [↓State.afterRun_mgmt, ↓State.clearDigest_mgmt, ↓apply_ite State.mgmt, ite_self]; exact hk.symm))))
theorem execChildReplyTimeout_mgmt (link : Fin 24) (s : State) (t : State) (h : execChildReplyTimeout link s = .next t) : t.mgmt = s.mgmt := by
  unfold execChildReplyTimeout at h; (try dsimp only at h); (repeat' split at h) <;> (first  | contradiction | (obtain rfl := Host.Outcome.next.inj h; first | with_reducible rfl | (simp only [↓State.event_mgmt, ↓State.modTick_mgmt, ↓State.sendRouted_mgmt, ↓State.tryReply_mgmt, ↓apply_ite State.mgmt, ite_self]; done) | (simp [↓State.event_mgmt, ↓State.modTick_mgmt, ↓State.sendRouted_mgmt, ↓State.tryReply_mgmt, ↓apply_ite State.mgmt, ite_self]; done) | (rename_i heq; have hk := congrArg (fun q => q.1.mgmt) heq; simp only [↓State.event_mgmt, ↓State.modTick_mgmt, ↓State.sendRouted_mgmt, ↓State.tryReply_mgmt] at hk; simp only [↓State.event_mgmt, ↓State.modTick_mgmt, ↓State.sendRouted_mgmt, ↓State.tryReply_mgmt, ↓apply_ite State.mgmt, ite_self]; exact hk.symm)))
theorem execClkSelect_mgmt (v : W32) (s : State) (t : State) (h : execClkSelect v s = .next t) : t.mgmt = s.mgmt := by
  unfold execClkSelect at h; (try dsimp only at h); (repeat' split at h) <;> (first  | contradiction | (obtain rfl := Host.Outcome.next.inj h; first | with_reducible rfl | (simp only [↓State.event_mgmt, ↓State.setRegN_mgmt, ↓apply_ite State.mgmt, ite_self]; done) | (simp [↓State.event_mgmt, ↓State.setRegN_mgmt, ↓apply_ite State.mgmt, ite_self]; done) | (rename_i heq; have hk := congrArg (fun q => q.1.mgmt) heq; simp only [↓State.event_mgmt, ↓State.setRegN_mgmt] at hk; simp only [↓State.event_mgmt, ↓State.setRegN_mgmt, ↓apply_ite State.mgmt, ite_self]; exact hk.symm)))
theorem execCodewordUncorrectable_mgmt (link : Fin 24) (s : State) (t : State) (h : execCodewordUncorrectable link s = .next t) : t.mgmt = s.mgmt := by
  unfold execCodewordUncorrectable at h; (try dsimp only at h); (repeat' split at h) <;> (first  | contradiction | (obtain rfl := Host.Outcome.next.inj h; first | with_reducible rfl | (simp only [↓State.count_mgmt, ↓apply_ite State.mgmt, ite_self]; done) | (simp [↓State.count_mgmt, ↓apply_ite State.mgmt, ite_self]; done) | (rename_i heq; have hk := congrArg (fun q => q.1.mgmt) heq; simp only [↓State.count_mgmt] at hk; simp only [↓State.count_mgmt, ↓apply_ite State.mgmt, ite_self]; exact hk.symm)))
theorem execCommitDeadline_mgmt (c : Fin 16) (s : State) (t : State) (h : execCommitDeadline c s = .next t) : t.mgmt = s.mgmt := by
  unfold execCommitDeadline at h; (try dsimp only at h); (repeat' split at h) <;> (first  | contradiction | (obtain rfl := Host.Outcome.next.inj h; first | with_reducible rfl | (simp only [↓State.modTick_mgmt, ↓apply_ite State.mgmt, ite_self]; done) | (simp [↓State.modTick_mgmt, ↓apply_ite State.mgmt, ite_self]; done) | (rename_i heq; have hk := congrArg (fun q => q.1.mgmt) heq; simp only [↓State.modTick_mgmt] at hk; simp only [↓State.modTick_mgmt, ↓apply_ite State.mgmt, ite_self]; exact hk.symm)))
theorem execConvolution_mgmt (u : Fin 256) (r : Bytes) (env : RunEnv) (s : State) (t : State) (h : execConvolution u r env s = .next t) : t.mgmt = s.mgmt := by
  unfold execConvolution at h; (try dsimp only at h); (repeat' split at h) <;> (first | (exact issueWindow_mgmt (h := h) ..) | contradiction | (obtain rfl := Host.Outcome.next.inj h; first | with_reducible rfl | (simp only [↓apply_ite State.mgmt, ite_self]; done) | (simp [↓apply_ite State.mgmt, ite_self]; done) | (rename_i heq; have hk := congrArg (fun q => q.1.mgmt) heq; simp only [id] at hk; simp only [↓apply_ite State.mgmt, ite_self]; exact hk.symm)))
theorem execCredit_mgmt (link : Fin 24) (b : Bytes) (s : State) (t : State) (h : execCredit link b s = .next t) : t.mgmt = s.mgmt := by
  unfold execCredit at h; (try dsimp only at h); (repeat' split at h) <;> (first  | contradiction | (obtain rfl := Host.Outcome.next.inj h; first | with_reducible rfl | (simp only [↓State.count_mgmt, ↓State.drainLink_mgmt, ↓State.modLink_mgmt, ↓State.takePacket_mgmt, ↓apply_ite State.mgmt, ite_self]; done) | (simp [↓State.count_mgmt, ↓State.drainLink_mgmt, ↓State.modLink_mgmt, ↓State.takePacket_mgmt, ↓apply_ite State.mgmt, ite_self]; done) | (rename_i heq; have hk := congrArg (fun q => q.1.mgmt) heq; simp only [↓State.count_mgmt, ↓State.drainLink_mgmt, ↓State.modLink_mgmt, ↓State.takePacket_mgmt] at hk; simp only [↓State.count_mgmt, ↓State.drainLink_mgmt, ↓State.modLink_mgmt, ↓State.takePacket_mgmt, ↓apply_ite State.mgmt, ite_self]; exact hk.symm)))
theorem execD3hotEntry_mgmt (fn : Fin 17) (s : State) (t : State) (h : execD3hotEntry fn s = .next t) : t.mgmt = s.mgmt := by
  unfold execD3hotEntry at h; (try dsimp only at h); (repeat' split at h) <;> (first  | contradiction | (obtain rfl := Host.Outcome.next.inj h; first | with_reducible rfl | (simp only [↓State.resetRing_mgmt, ↓apply_ite State.mgmt, ite_self]; done) | (simp [↓State.resetRing_mgmt, ↓apply_ite State.mgmt, ite_self]; done) | (rename_i heq; have hk := congrArg (fun q => q.1.mgmt) heq; simp only [↓State.resetRing_mgmt] at hk; simp only [↓State.resetRing_mgmt, ↓apply_ite State.mgmt, ite_self]; exact hk.symm)))
theorem execDeathDeclared_mgmt (a : Nat) (s : State) (t : State) (h : execDeathDeclared a s = .next t) : t.mgmt = s.mgmt := by
  unfold execDeathDeclared at h; (try dsimp only at h); (repeat' split at h) <;> (first  | contradiction | (obtain rfl := Host.Outcome.next.inj h; first | with_reducible rfl | (simp only [↓State.declareDead_mgmt, ↓apply_ite State.mgmt, ite_self]; done) | (simp [↓State.declareDead_mgmt, ↓apply_ite State.mgmt, ite_self]; done) | (rename_i heq; have hk := congrArg (fun q => q.1.mgmt) heq; simp only [↓State.declareDead_mgmt] at hk; simp only [↓State.declareDead_mgmt, ↓apply_ite State.mgmt, ite_self]; exact hk.symm)))
theorem execDecodeTimeout_mgmt (e : Fin 4) (ns : Nat) (s : State) (t : State) (h : execDecodeTimeout e ns s = .next t) : t.mgmt = s.mgmt := by
  unfold execDecodeTimeout at h; (try dsimp only at h); (repeat' split at h) <;> (first  | contradiction | (obtain rfl := Host.Outcome.next.inj h; first | with_reducible rfl | (simp only [↓State.abandonPic_mgmt, ↓State.account_mgmt, ↓State.faultRecord_mgmt, ↓State.feedEngines_mgmt, ↓State.unitEvent_mgmt, ↓apply_ite State.mgmt, ite_self]; done) | (simp [↓State.abandonPic_mgmt, ↓State.account_mgmt, ↓State.faultRecord_mgmt, ↓State.feedEngines_mgmt, ↓State.unitEvent_mgmt, ↓apply_ite State.mgmt, ite_self]; done) | (rename_i heq; have hk := congrArg (fun q => q.1.mgmt) heq; simp only [↓State.abandonPic_mgmt, ↓State.account_mgmt, ↓State.faultRecord_mgmt, ↓State.feedEngines_mgmt, ↓State.unitEvent_mgmt] at hk; simp only [↓State.abandonPic_mgmt, ↓State.account_mgmt, ↓State.faultRecord_mgmt, ↓State.feedEngines_mgmt, ↓State.unitEvent_mgmt, ↓apply_ite State.mgmt, ite_self]; exact hk.symm)))
theorem execDeputyTakeover_mgmt (s : State) (t : State) (h : execDeputyTakeover s = .next t) : t.mgmt = s.mgmt := by
  unfold execDeputyTakeover at h; (try dsimp only at h); (repeat' split at h) <;> (first  | contradiction | (obtain rfl := Host.Outcome.next.inj h; first | with_reducible rfl | (simp only [↓State.compose_mgmt, ↓State.modTick_mgmt, ↓apply_ite State.mgmt, ite_self]; done) | (simp [↓State.compose_mgmt, ↓State.modTick_mgmt, ↓apply_ite State.mgmt, ite_self]; done) | (rename_i heq; have hk := congrArg (fun q => q.1.mgmt) heq; simp only [↓State.compose_mgmt, ↓State.modTick_mgmt] at hk; simp only [↓State.compose_mgmt, ↓State.modTick_mgmt, ↓apply_ite State.mgmt, ite_self]; exact hk.symm)))
theorem execDequantise_mgmt (u : Fin 256) (r : Bytes) (env : RunEnv) (s : State) (t : State) (h : execDequantise u r env s = .next t) : t.mgmt = s.mgmt := by
  unfold execDequantise at h; (try dsimp only at h); (repeat' split at h) <;> (first | (exact issue_mgmt (h := h) ..) | contradiction | (obtain rfl := Host.Outcome.next.inj h; first | with_reducible rfl | (simp only [↓apply_ite State.mgmt, ite_self]; done) | (simp [↓apply_ite State.mgmt, ite_self]; done) | (rename_i heq; have hk := congrArg (fun q => q.1.mgmt) heq; simp only [id] at hk; simp only [↓apply_ite State.mgmt, ite_self]; exact hk.symm)))
theorem execDmaMove_mgmt (w : Fin 16) (r : Bytes) (env : RunEnv) (s : State) (t : State) (h : execDmaMove w r env s = .next t) : t.mgmt = s.mgmt := by
  unfold execDmaMove at h; (try dsimp only at h); (repeat' split at h) <;> (first | (exact issue_mgmt (h := h) ..) | contradiction | (obtain rfl := Host.Outcome.next.inj h; first | with_reducible rfl | (simp only [↓apply_ite State.mgmt, ite_self]; done) | (simp [↓apply_ite State.mgmt, ite_self]; done) | (rename_i heq; have hk := congrArg (fun q => q.1.mgmt) heq; simp only [id] at hk; simp only [↓apply_ite State.mgmt, ite_self]; exact hk.symm)))
theorem execElem_mgmt (w : Fin 16) (r : Bytes) (env : RunEnv) (s : State) (t : State) (h : execElem w r env s = .next t) : t.mgmt = s.mgmt := by
  unfold execElem at h; (try dsimp only at h); refine issueUpdate_mgmt (t := t) (h := h) (h7 := ?_) .. <;> (intros; first | with_reducible rfl | (simp only [↓apply_ite State.mgmt, ite_self]; done) | (simp [↓apply_ite State.mgmt, ite_self]; done) | ((try dsimp only); (repeat' split) <;> (first | with_reducible rfl | (simp only [↓apply_ite State.mgmt, ite_self]; done) | (simp [↓apply_ite State.mgmt, ite_self]; done) | (rename_i heq; have hk := congrArg (fun q => q.1.mgmt) heq; simp only [id] at hk; simp only [↓apply_ite State.mgmt, ite_self]; exact hk.symm))))
theorem execElementwiseChain_mgmt (u : Fin 256) (r : Bytes) (env : RunEnv) (s : State) (t : State) (h : execElementwiseChain u r env s = .next t) : t.mgmt = s.mgmt := by
  unfold execElementwiseChain at h; (try dsimp only at h); (repeat' split at h) <;> (first | (exact issue_mgmt (h := h) ..) | contradiction | (obtain rfl := Host.Outcome.next.inj h; first | with_reducible rfl | (simp only [↓apply_ite State.mgmt, ite_self]; done) | (simp [↓apply_ite State.mgmt, ite_self]; done) | (rename_i heq; have hk := congrArg (fun q => q.1.mgmt) heq; simp only [id] at hk; simp only [↓apply_ite State.mgmt, ite_self]; exact hk.symm)))
theorem execError_mgmt (link : Fin 24) (b : Bytes) (s : State) (t : State) (h : execError link b s = .next t) : t.mgmt = s.mgmt := by
  unfold execError at h
  injection h with h; subst h
  refine State.takePacket_mgmt s _ _ _ _ (fun p u => ?_)
  split
  · exact State.count_mgmt ..
  · split
    · exact State.failRequest_mgmt ..
    · rfl
theorem execFailoverStreamComplete_mgmt (c : Fin 16) (s : State) (t : State) (h : execFailoverStreamComplete c s = .next t) : t.mgmt = s.mgmt := by
  unfold execFailoverStreamComplete at h; (try dsimp only at h); (repeat' split at h) <;> (first  | contradiction | (obtain rfl := Host.Outcome.next.inj h; first | with_reducible rfl | (simp only [↓State.settleFailover_mgmt, ↓apply_ite State.mgmt, ite_self]; done) | (simp [↓State.settleFailover_mgmt, ↓apply_ite State.mgmt, ite_self]; done) | (rename_i heq; have hk := congrArg (fun q => q.1.mgmt) heq; simp only [↓State.settleFailover_mgmt] at hk; simp only [↓State.settleFailover_mgmt, ↓apply_ite State.mgmt, ite_self]; exact hk.symm)))
theorem execFirstFrameCopyDone_mgmt (c : Fin 16) (s : State) (t : State) (h : execFirstFrameCopyDone c s = .next t) : t.mgmt = s.mgmt := by
  unfold execFirstFrameCopyDone at h; (try dsimp only at h); (repeat' split at h) <;> (first  | contradiction | (obtain rfl := Host.Outcome.next.inj h; first | with_reducible rfl | (simp only [↓State.complete_mgmt, ↓State.copyFirstFrames_mgmt, ↓State.modHasp_mgmt, ↓apply_ite State.mgmt, ite_self]; done) | (simp [↓State.complete_mgmt, ↓State.copyFirstFrames_mgmt, ↓State.modHasp_mgmt, ↓apply_ite State.mgmt, ite_self]; done) | (rename_i heq; have hk := congrArg (fun q => q.1.mgmt) heq; simp only [↓State.complete_mgmt, ↓State.copyFirstFrames_mgmt, ↓State.modHasp_mgmt] at hk; simp only [↓State.complete_mgmt, ↓State.copyFirstFrames_mgmt, ↓State.modHasp_mgmt, ↓apply_ite State.mgmt, ite_self]; exact hk.symm)))
theorem execFlashFlush_mgmt (fn : Fin 17) (cmd : HostCmd) (s : State) (t : State) (h : execFlashFlush fn cmd s = .next t) : t.mgmt = s.mgmt := by
  unfold execFlashFlush at h; (try dsimp only at h); refine State.adminCmd_mgmt (t := t) (h := h) (h4 := ?_) .. <;> (intros; first | (with_reducible rfl) | (simp only [↓State.flashCmd_mgmt, ↓State.flashFlushNow_mgmt]; done) | (simp [↓State.flashCmd_mgmt, ↓State.flashFlushNow_mgmt]; done) | ((try dsimp only); (repeat' split) <;> (first | (with_reducible rfl) | (simp only [↓State.flashCmd_mgmt, ↓State.flashFlushNow_mgmt]; done) | (simp [↓State.flashCmd_mgmt, ↓State.flashFlushNow_mgmt]; done))))
theorem execFlashFormat_mgmt (fn : Fin 17) (cmd : HostCmd) (s : State) (t : State) (h : execFlashFormat fn cmd s = .next t) : t.mgmt = s.mgmt := by
  unfold execFlashFormat at h; (try dsimp only at h); refine State.adminCmd_mgmt (t := t) (h := h) (h4 := ?_) .. <;> (intros; first | (with_reducible rfl) | (simp only [↓State.flashCmd_mgmt, ↓State.flashFormatNow_mgmt]; done) | (simp [↓State.flashCmd_mgmt, ↓State.flashFormatNow_mgmt]; done) | ((try dsimp only); (repeat' split) <;> (first | (with_reducible rfl) | (simp only [↓State.flashCmd_mgmt, ↓State.flashFormatNow_mgmt]; done) | (simp [↓State.flashCmd_mgmt, ↓State.flashFormatNow_mgmt]; done))))
theorem execFlashRead_mgmt (fn : Fin 17) (cmd : HostCmd) (bad : Bool) (s : State) (t : State) (h : execFlashRead fn cmd bad s = .next t) : t.mgmt = s.mgmt := by
  unfold execFlashRead at h; (try dsimp only at h); refine State.adminCmd_mgmt (t := t) (h := h) (h4 := ?_) .. <;> (intros; first | (with_reducible rfl) | (simp only [↓State.flashCmd_mgmt, ↓State.flashReadNow_mgmt]; done) | (simp [↓State.flashCmd_mgmt, ↓State.flashReadNow_mgmt]; done) | ((try dsimp only); (repeat' split) <;> (first | (with_reducible rfl) | (simp only [↓State.flashCmd_mgmt, ↓State.flashReadNow_mgmt]; done) | (simp [↓State.flashCmd_mgmt, ↓State.flashReadNow_mgmt]; done))))
theorem execFlashTrim_mgmt (fn : Fin 17) (cmd : HostCmd) (s : State) (t : State) (h : execFlashTrim fn cmd s = .next t) : t.mgmt = s.mgmt := by
  unfold execFlashTrim at h; (try dsimp only at h); refine State.adminCmd_mgmt (t := t) (h := h) (h4 := ?_) .. <;> (intros; first | (with_reducible rfl) | (simp only [↓State.flashCmd_mgmt, ↓State.flashTrimNow_mgmt]; done) | (simp [↓State.flashCmd_mgmt, ↓State.flashTrimNow_mgmt]; done) | ((try dsimp only); (repeat' split) <;> (first | (with_reducible rfl) | (simp only [↓State.flashCmd_mgmt, ↓State.flashTrimNow_mgmt]; done) | (simp [↓State.flashCmd_mgmt, ↓State.flashTrimNow_mgmt]; done))))
theorem execFlashWrite_mgmt (fn : Fin 17) (cmd : HostCmd) (s : State) (t : State) (h : execFlashWrite fn cmd s = .next t) : t.mgmt = s.mgmt := by
  unfold execFlashWrite at h; (try dsimp only at h); refine State.adminCmd_mgmt (t := t) (h := h) (h4 := ?_) .. <;> (intros; first | (with_reducible rfl) | (simp only [↓State.flashCmd_mgmt, ↓State.flashWriteNow_mgmt]; done) | (simp [↓State.flashCmd_mgmt, ↓State.flashWriteNow_mgmt]; done) | ((try dsimp only); (repeat' split) <;> (first | (with_reducible rfl) | (simp only [↓State.flashCmd_mgmt, ↓State.flashWriteNow_mgmt]; done) | (simp [↓State.flashCmd_mgmt, ↓State.flashWriteNow_mgmt]; done))))
theorem execFmCmd_mgmt (fn : Fin 17) (cmd : HostCmd) (s : State) (t : State) (h : execFmCmd fn cmd s = .next t) : t.mgmt = s.mgmt := by
  unfold execFmCmd at h; dsimp only at h; refine State.adminCmd_mgmt (t := t) (h := h) (h4 := ?_) .. <;> (intros; first | (with_reducible rfl) | (simp only [↓State.complete_mgmt, ↓State.sendProbe_mgmt, ↓State.sendRouted_mgmt, ↓apply_ite State.mgmt, ite_self]; done) | (simp [↓State.complete_mgmt, ↓State.sendProbe_mgmt, ↓State.sendRouted_mgmt, ↓apply_ite State.mgmt, ite_self]; done) | (dsimp only; (repeat' split) <;> (first | (with_reducible rfl) | (simp only [↓State.complete_mgmt, ↓State.sendProbe_mgmt, ↓State.sendRouted_mgmt, ↓apply_ite State.mgmt, ite_self]; done) | (simp [↓State.complete_mgmt, ↓State.sendProbe_mgmt, ↓State.sendRouted_mgmt, ↓apply_ite State.mgmt, ite_self]; done))))
theorem execFunctionLevelReset_mgmt (fn : Fin 17) (s : State) (t : State) (h : execFunctionLevelReset fn s = .next t) : t.mgmt = s.mgmt := by
  unfold execFunctionLevelReset at h; (try dsimp only at h); (repeat' split at h) <;> (first  | contradiction | (obtain rfl := Host.Outcome.next.inj h; first | with_reducible rfl | (simp only [↓State.clearRingRegs_mgmt, ↓State.disableRing_mgmt, ↓over_mgmt, ↓foldl_mgmt, ↓apply_ite State.mgmt, ite_self]; done) | (simp [↓State.clearRingRegs_mgmt, ↓State.disableRing_mgmt, ↓over_mgmt, ↓foldl_mgmt, ↓apply_ite State.mgmt, ite_self]; done) | (rename_i heq; have hk := congrArg (fun q => q.1.mgmt) heq; simp only [↓State.clearRingRegs_mgmt, ↓State.disableRing_mgmt, ↓over_mgmt, ↓foldl_mgmt] at hk; simp only [↓State.clearRingRegs_mgmt, ↓State.disableRing_mgmt, ↓over_mgmt, ↓foldl_mgmt, ↓apply_ite State.mgmt, ite_self]; exact hk.symm)))
theorem execFuse_mgmt (w : Fin 16) (r : Bytes) (env : RunEnv) (s : State) (t : State) (h : execFuse w r env s = .next t) : t.mgmt = s.mgmt := by
  unfold execFuse at h; (try dsimp only at h); refine issueUpdate_mgmt (t := t) (h := h) (h7 := ?_) .. <;> (intros; first | with_reducible rfl | (simp only [↓apply_ite State.mgmt, ite_self]; done) | (simp [↓apply_ite State.mgmt, ite_self]; done) | ((try dsimp only); (repeat' split) <;> (first | with_reducible rfl | (simp only [↓apply_ite State.mgmt, ite_self]; done) | (simp [↓apply_ite State.mgmt, ite_self]; done) | (rename_i heq; have hk := congrArg (fun q => q.1.mgmt) heq; simp only [id] at hk; simp only [↓apply_ite State.mgmt, ite_self]; exact hk.symm))))
theorem execGather_mgmt (u : Fin 256) (r : Bytes) (env : RunEnv) (s : State) (t : State) (h : execGather u r env s = .next t) : t.mgmt = s.mgmt := by
  unfold execGather at h; (try dsimp only at h); (repeat' split at h) <;> (first | (exact issue_mgmt (h := h) ..) | contradiction | (obtain rfl := Host.Outcome.next.inj h; first | with_reducible rfl | (simp only [↓apply_ite State.mgmt, ite_self]; done) | (simp [↓apply_ite State.mgmt, ite_self]; done) | (rename_i heq; have hk := congrArg (fun q => q.1.mgmt) heq; simp only [id] at hk; simp only [↓apply_ite State.mgmt, ite_self]; exact hk.symm)))
theorem execGetCapabilities_mgmt (s : State) (t : State) (h : execGetCapabilities s = .next t) : t.mgmt = s.mgmt := by
  unfold execGetCapabilities at h; (try dsimp only at h); refine State.answers_mgmt (t := t) (h := h) (h1 := ?_) .. <;> (intros; first | (with_reducible rfl) | (simp only [↓State.emit_mgmt]; done) | (simp [↓State.emit_mgmt]; done) | ((try dsimp only); (repeat' split) <;> (first | (with_reducible rfl) | (simp only [↓State.emit_mgmt]; done) | (simp [↓State.emit_mgmt]; done))))
theorem execGetCertificate_mgmt (slot : Nat) (offset : Nat) (len : Nat) (s : State) (t : State) (h : execGetCertificate slot offset len s = .next t) : t.mgmt = s.mgmt := by
  unfold execGetCertificate at h; dsimp only at h; refine State.afterNegotiation_mgmt (t := t) (h := h) (h1 := ?_) .. <;> (intros; first | (with_reducible rfl) | (simp only [↓State.emit_mgmt, ↓apply_ite State.mgmt, ite_self]; done) | (simp [↓State.emit_mgmt, ↓apply_ite State.mgmt, ite_self]; done) | (dsimp only; (repeat' split) <;> (first | (with_reducible rfl) | (simp only [↓State.emit_mgmt, ↓apply_ite State.mgmt, ite_self]; done) | (simp [↓State.emit_mgmt, ↓apply_ite State.mgmt, ite_self]; done))))
theorem execGetDigests_mgmt (s : State) (t : State) (h : execGetDigests s = .next t) : t.mgmt = s.mgmt := by
  unfold execGetDigests at h; (try dsimp only at h); refine State.afterNegotiation_mgmt (t := t) (h := h) (h1 := ?_) .. <;> (intros; first | (with_reducible rfl) | (simp only [↓State.emit_mgmt]; done) | (simp [↓State.emit_mgmt]; done) | ((try dsimp only); (repeat' split) <;> (first | (with_reducible rfl) | (simp only [↓State.emit_mgmt]; done) | (simp [↓State.emit_mgmt]; done))))
theorem execGetEndpointId_mgmt (vdm : Bool) (s : State) (t : State) (h : execGetEndpointId vdm s = .next t) : t.mgmt = s.mgmt := by
  unfold execGetEndpointId at h; (try dsimp only at h); refine State.onBinding_mgmt (t := t) (h := h) (h2 := ?_) .. <;> (intros; first | (with_reducible rfl) | (simp only [↓State.emit_mgmt]; done) | (simp [↓State.emit_mgmt]; done) | ((try dsimp only); (repeat' split) <;> (first | (with_reducible rfl) | (simp only [↓State.emit_mgmt]; done) | (simp [↓State.emit_mgmt]; done))))
theorem execGetInfo_mgmt (s : State) (t : State) (h : execGetInfo s = .next t) : t.mgmt = s.mgmt := by
  unfold execGetInfo at h; (try dsimp only at h); refine State.answers_mgmt (t := t) (h := h) (h1 := ?_) .. <;> (intros; first | (with_reducible rfl) | (simp only [↓State.mgmtReply_mgmt]; done) | (simp [↓State.mgmtReply_mgmt]; done) | ((try dsimp only); (repeat' split) <;> (first | (with_reducible rfl) | (simp only [↓State.mgmtReply_mgmt]; done) | (simp [↓State.mgmtReply_mgmt]; done))))
theorem execGetMctpVersionSupport_mgmt (vdm : Bool) (msgType : Nat) (s : State) (t : State) (h : execGetMctpVersionSupport vdm msgType s = .next t) : t.mgmt = s.mgmt := by
  unfold execGetMctpVersionSupport at h; dsimp only at h; refine State.onBinding_mgmt (t := t) (h := h) (h2 := ?_) .. <;> (intros; first | (with_reducible rfl) | (simp only [↓State.drawBytes_mgmt, ↓State.emit_mgmt, ↓apply_ite State.mgmt, ite_self]; done) | (simp [↓State.drawBytes_mgmt, ↓State.emit_mgmt, ↓apply_ite State.mgmt, ite_self]; done) | (dsimp only; (repeat' split) <;> (first | (with_reducible rfl) | (simp only [↓State.drawBytes_mgmt, ↓State.emit_mgmt, ↓apply_ite State.mgmt, ite_self]; done) | (simp [↓State.drawBytes_mgmt, ↓State.emit_mgmt, ↓apply_ite State.mgmt, ite_self]; done))))
theorem execGetMeasurements_mgmt (idx : Nat) (s : State) (t : State) (h : execGetMeasurements idx s = .next t) : t.mgmt = s.mgmt := by
  unfold execGetMeasurements at h; dsimp only at h; refine State.afterNegotiation_mgmt (t := t) (h := h) (h1 := ?_) .. <;> (intros; first | (with_reducible rfl) | (simp only [↓State.emit_mgmt, ↓apply_ite State.mgmt, ite_self]; done) | (simp [↓State.emit_mgmt, ↓apply_ite State.mgmt, ite_self]; done) | (dsimp only; (repeat' split) <;> (first | (with_reducible rfl) | (simp only [↓State.emit_mgmt, ↓apply_ite State.mgmt, ite_self]; done) | (simp [↓State.emit_mgmt, ↓apply_ite State.mgmt, ite_self]; done))))
theorem execGetMessageTypeSupport_mgmt (vdm : Bool) (s : State) (t : State) (h : execGetMessageTypeSupport vdm s = .next t) : t.mgmt = s.mgmt := by
  unfold execGetMessageTypeSupport at h; (try dsimp only at h); refine State.onBinding_mgmt (t := t) (h := h) (h2 := ?_) .. <;> (intros; first | (with_reducible rfl) | (simp only [↓State.emit_mgmt]; done) | (simp [↓State.emit_mgmt]; done) | ((try dsimp only); (repeat' split) <;> (first | (with_reducible rfl) | (simp only [↓State.emit_mgmt]; done) | (simp [↓State.emit_mgmt]; done))))
theorem execGetPdr_mgmt (sensor : Nat) (s : State) (t : State) (h : execGetPdr sensor s = .next t) : t.mgmt = s.mgmt := by
  unfold execGetPdr at h; (try dsimp only at h); refine State.answers_mgmt (t := t) (h := h) (h1 := ?_) .. <;> (intros; first | (with_reducible rfl) | (simp only [↓State.emit_mgmt, ↓apply_ite State.mgmt, ite_self]; done) | (simp [↓State.emit_mgmt, ↓apply_ite State.mgmt, ite_self]; done) | ((try dsimp only); (repeat' split) <;> (first | (with_reducible rfl) | (simp only [↓State.emit_mgmt, ↓apply_ite State.mgmt, ite_self]; done) | (simp [↓State.emit_mgmt, ↓apply_ite State.mgmt, ite_self]; done))))
theorem execGetSensorReading_mgmt (sensor : Nat) (s : State) (t : State) (h : execGetSensorReading sensor s = .next t) : t.mgmt = s.mgmt := by
  unfold execGetSensorReading at h; dsimp only at h; refine State.answers_mgmt (t := t) (h := h) (h1 := ?_) .. <;> (intros; first | (with_reducible rfl) | (simp only [↓State.emit_mgmt, ↓State.latchForecast_mgmt, ↓apply_ite State.mgmt, ite_self]; done) | (simp [↓State.emit_mgmt, ↓State.latchForecast_mgmt, ↓apply_ite State.mgmt, ite_self]; done) | (dsimp only; (repeat' split) <;> (first | (with_reducible rfl) | (simp only [↓State.emit_mgmt, ↓State.latchForecast_mgmt, ↓apply_ite State.mgmt, ite_self]; done) | (simp [↓State.emit_mgmt, ↓State.latchForecast_mgmt, ↓apply_ite State.mgmt, ite_self]; done))))
theorem execGetVendorDefinedMessageSupport_mgmt (vdm : Bool) (s : State) (t : State) (h : execGetVendorDefinedMessageSupport vdm s = .next t) : t.mgmt = s.mgmt := by
  unfold execGetVendorDefinedMessageSupport at h; (try dsimp only at h); refine State.onBinding_mgmt (t := t) (h := h) (h2 := ?_) .. <;> (intros; first | (with_reducible rfl) | (simp only [↓State.emit_mgmt]; done) | (simp [↓State.emit_mgmt]; done) | ((try dsimp only); (repeat' split) <;> (first | (with_reducible rfl) | (simp only [↓State.emit_mgmt]; done) | (simp [↓State.emit_mgmt]; done))))
theorem execGovernorTick_mgmt (measuredW : Nat) (fillW : Nat) (s : State) (t : State) (h : execGovernorTick measuredW fillW s = .next t) : t.mgmt = s.mgmt := by
  unfold execGovernorTick at h; (try dsimp only at h); (repeat' split at h) <;> (first  | contradiction | (obtain rfl := Host.Outcome.next.inj h; first | with_reducible rfl | (simp only [↓State.chooseVolts_mgmt, ↓State.eventIf_mgmt, ↓State.modPwr_mgmt, ↓State.restartStreams_mgmt, ↓State.setClocks_mgmt, ↓over_mgmt, ↓foldl_mgmt, ↓apply_ite State.mgmt, ite_self]; done) | (simp [↓State.chooseVolts_mgmt, ↓State.eventIf_mgmt, ↓State.modPwr_mgmt, ↓State.restartStreams_mgmt, ↓State.setClocks_mgmt, ↓over_mgmt, ↓foldl_mgmt, ↓apply_ite State.mgmt, ite_self]; done) | (rename_i heq; have hk := congrArg (fun q => q.1.mgmt) heq; simp only [↓State.chooseVolts_mgmt, ↓State.eventIf_mgmt, ↓State.modPwr_mgmt, ↓State.restartStreams_mgmt, ↓State.setClocks_mgmt, ↓over_mgmt, ↓foldl_mgmt] at hk; simp only [↓State.chooseVolts_mgmt, ↓State.eventIf_mgmt, ↓State.modPwr_mgmt, ↓State.restartStreams_mgmt, ↓State.setClocks_mgmt, ↓over_mgmt, ↓foldl_mgmt, ↓apply_ite State.mgmt, ite_self]; exact hk.symm)))
theorem execHeartbeat_mgmt (sess : Nat) (s : State) (t : State) (h : execHeartbeat sess s = .next t) : t.mgmt = s.mgmt := by
  unfold execHeartbeat at h; (try dsimp only at h); refine State.onSession_mgmt (t := t) (h := h) (h3 := ?_) .. <;> (intros; first | (with_reducible rfl) | (simp only [↓State.emit_mgmt]; done) | (simp [↓State.emit_mgmt]; done) | ((try dsimp only); (repeat' split) <;> (first | (with_reducible rfl) | (simp only [↓State.emit_mgmt]; done) | (simp [↓State.emit_mgmt]; done))))
theorem execHello_mgmt (link : Fin 24) (b : Bytes) (s : State) (t : State) (h : execHello link b s = .next t) : t.mgmt = s.mgmt := by
  unfold execHello at h; (try dsimp only at h); (repeat' split at h) <;> (first  | contradiction | (obtain rfl := Host.Outcome.next.inj h; first | with_reducible rfl | (simp only [↓State.count_mgmt, ↓State.eventIf_mgmt, ↓State.modLink_mgmt, ↓State.takePacket_mgmt, ↓apply_ite State.mgmt, ite_self]; done) | (simp [↓State.count_mgmt, ↓State.eventIf_mgmt, ↓State.modLink_mgmt, ↓State.takePacket_mgmt, ↓apply_ite State.mgmt, ite_self]; done) | (rename_i heq; have hk := congrArg (fun q => q.1.mgmt) heq; simp only [↓State.count_mgmt, ↓State.eventIf_mgmt, ↓State.modLink_mgmt, ↓State.takePacket_mgmt] at hk; simp only [↓State.count_mgmt, ↓State.eventIf_mgmt, ↓State.modLink_mgmt, ↓State.takePacket_mgmt, ↓apply_ite State.mgmt, ite_self]; exact hk.symm)))
theorem execHelloTimer_mgmt (s : State) (t : State) (h : execHelloTimer s = .next t) : t.mgmt = s.mgmt := by
  unfold execHelloTimer at h; (try dsimp only at h); (repeat' split at h) <;> (first  | contradiction | (obtain rfl := Host.Outcome.next.inj h; first | with_reducible rfl | (simp only [↓State.sendHellos_mgmt, ↓apply_ite State.mgmt, ite_self]; done) | (simp [↓State.sendHellos_mgmt, ↓apply_ite State.mgmt, ite_self]; done) | (rename_i heq; have hk := congrArg (fun q => q.1.mgmt) heq; simp only [↓State.sendHellos_mgmt] at hk; simp only [↓State.sendHellos_mgmt, ↓apply_ite State.mgmt, ite_self]; exact hk.symm)))
theorem execHistRead_mgmt (firstSeq : Nat) (count : Nat) (s : State) (t : State) (h : execHistRead firstSeq count s = .next t) : t.mgmt = s.mgmt := by
  unfold execHistRead at h; (try dsimp only at h); refine State.answers_mgmt (t := t) (h := h) (h1 := ?_) .. <;> (intros; first | with_reducible rfl | (simp only [↓State.mgmtReply_mgmt, ↓apply_ite State.mgmt, ite_self]; done) | (simp [↓State.mgmtReply_mgmt, ↓apply_ite State.mgmt, ite_self]; done) | ((try dsimp only); (repeat' split) <;> (first | with_reducible rfl | (simp only [↓State.mgmtReply_mgmt, ↓apply_ite State.mgmt, ite_self]; done) | (simp [↓State.mgmtReply_mgmt, ↓apply_ite State.mgmt, ite_self]; done) | (rename_i heq; have hk := congrArg (fun q => q.1.mgmt) heq; simp only [↓State.mgmtReply_mgmt] at hk; simp only [↓State.mgmtReply_mgmt, ↓apply_ite State.mgmt, ite_self]; exact hk.symm))))
theorem execHistoryCompact_mgmt (s : State) (t : State) (h : execHistoryCompact s = .next t) : t.mgmt = s.mgmt := by
  unfold execHistoryCompact at h; (try dsimp only at h); (repeat' split at h) <;> (first  | contradiction | (obtain rfl := Host.Outcome.next.inj h; first | with_reducible rfl | (simp only [↓apply_ite State.mgmt, ite_self]; done) | (simp [↓apply_ite State.mgmt, ite_self]; done) | (rename_i heq; have hk := congrArg (fun q => q.1.mgmt) heq; simp only [id] at hk; simp only [↓apply_ite State.mgmt, ite_self]; exact hk.symm)))
theorem execHoldoverLimit_mgmt (s : State) (t : State) (h : execHoldoverLimit s = .next t) : t.mgmt = s.mgmt := by
  unfold execHoldoverLimit at h; (try dsimp only at h); (repeat' split at h) <;> (first  | contradiction | (obtain rfl := Host.Outcome.next.inj h; first | with_reducible rfl | (simp only [↓State.event_mgmt, ↓State.stopTick_mgmt, ↓apply_ite State.mgmt, ite_self]; done) | (simp [↓State.event_mgmt, ↓State.stopTick_mgmt, ↓apply_ite State.mgmt, ite_self]; done) | (rename_i heq; have hk := congrArg (fun q => q.1.mgmt) heq; simp only [↓State.event_mgmt, ↓State.stopTick_mgmt] at hk; simp only [↓State.event_mgmt, ↓State.stopTick_mgmt, ↓apply_ite State.mgmt, ite_self]; exact hk.symm)))
theorem execIrqTimer_mgmt (fn : Fin 17) (vec : Fin 2) (s : State) (t : State) (h : execIrqTimer fn vec s = .next t) : t.mgmt = s.mgmt := by
  unfold execIrqTimer at h; (try dsimp only at h); (repeat' split at h) <;> (first  | contradiction | (obtain rfl := Host.Outcome.next.inj h; first | with_reducible rfl | (simp only [↓State.modRing_mgmt, ↓State.signal_mgmt, ↓apply_ite State.mgmt, ite_self]; done) | (simp [↓State.modRing_mgmt, ↓State.signal_mgmt, ↓apply_ite State.mgmt, ite_self]; done) | (rename_i heq; have hk := congrArg (fun q => q.1.mgmt) heq; simp only [↓State.modRing_mgmt, ↓State.signal_mgmt] at hk; simp only [↓State.modRing_mgmt, ↓State.signal_mgmt, ↓apply_ite State.mgmt, ite_self]; exact hk.symm)))
theorem execJtagBypass_mgmt (_instr : Nat) (s : State) (t : State) (h : execJtagBypass _instr s = .next t) : t.mgmt = s.mgmt := by
  unfold execJtagBypass at h; (try dsimp only at h); (repeat' split at h) <;> (first  | contradiction | (obtain rfl := Host.Outcome.next.inj h; first | with_reducible rfl | (simp only [↓State.emit_mgmt, ↓apply_ite State.mgmt, ite_self]; done) | (simp [↓State.emit_mgmt, ↓apply_ite State.mgmt, ite_self]; done) | (rename_i heq; have hk := congrArg (fun q => q.1.mgmt) heq; simp only [↓State.emit_mgmt] at hk; simp only [↓State.emit_mgmt, ↓apply_ite State.mgmt, ite_self]; exact hk.symm)))
theorem execJtagExtest_mgmt (lands : List Bool) (s : State) (t : State) (h : execJtagExtest lands s = .next t) : t.mgmt = s.mgmt := by
  unfold execJtagExtest at h; (try dsimp only at h); (repeat' split at h) <;> (first  | contradiction | (obtain rfl := Host.Outcome.next.inj h; first | with_reducible rfl | (simp only [↓State.emit_mgmt, ↓State.sampleChain_mgmt, ↓apply_ite State.mgmt, ite_self]; done) | (simp [↓State.emit_mgmt, ↓State.sampleChain_mgmt, ↓apply_ite State.mgmt, ite_self]; done) | (rename_i heq; have hk := congrArg (fun q => q.1.mgmt) heq; simp only [↓State.emit_mgmt, ↓State.sampleChain_mgmt] at hk; simp only [↓State.emit_mgmt, ↓State.sampleChain_mgmt, ↓apply_ite State.mgmt, ite_self]; exact hk.symm)))
theorem execJtagIdcode_mgmt (s : State) (t : State) (h : execJtagIdcode s = .next t) : t.mgmt = s.mgmt := by
  unfold execJtagIdcode at h; (try dsimp only at h); (repeat' split at h) <;> (first  | contradiction | (obtain rfl := Host.Outcome.next.inj h; first | with_reducible rfl | (simp only [↓State.emit_mgmt, ↓apply_ite State.mgmt, ite_self]; done) | (simp [↓State.emit_mgmt, ↓apply_ite State.mgmt, ite_self]; done) | (rename_i heq; have hk := congrArg (fun q => q.1.mgmt) heq; simp only [↓State.emit_mgmt] at hk; simp only [↓State.emit_mgmt, ↓apply_ite State.mgmt, ite_self]; exact hk.symm)))
theorem execJtagSamplePreload_mgmt (s : State) (t : State) (h : execJtagSamplePreload s = .next t) : t.mgmt = s.mgmt := by
  unfold execJtagSamplePreload at h; (try dsimp only at h); (repeat' split at h) <;> (first  | contradiction | (obtain rfl := Host.Outcome.next.inj h; first | with_reducible rfl | (simp only [↓State.sampleChain_mgmt, ↓apply_ite State.mgmt, ite_self]; done) | (simp [↓State.sampleChain_mgmt, ↓apply_ite State.mgmt, ite_self]; done) | (rename_i heq; have hk := congrArg (fun q => q.1.mgmt) heq; simp only [↓State.sampleChain_mgmt] at hk; simp only [↓State.sampleChain_mgmt, ↓apply_ite State.mgmt, ite_self]; exact hk.symm)))
theorem execKapply_mgmt (w : Fin 16) (r : Bytes) (env : RunEnv) (s : State) (t : State) (h : execKapply w r env s = .next t) : t.mgmt = s.mgmt := by
  unfold execKapply at h; (try dsimp only at h); refine issueUpdate_mgmt (t := t) (h := h) (h7 := ?_) .. <;> (intros; first | with_reducible rfl | (simp only [↓apply_ite State.mgmt, ite_self]; done) | (simp [↓apply_ite State.mgmt, ite_self]; done) | ((try dsimp only); (repeat' split) <;> (first | with_reducible rfl | (simp only [↓apply_ite State.mgmt, ite_self]; done) | (simp [↓apply_ite State.mgmt, ite_self]; done) | (rename_i heq; have hk := congrArg (fun q => q.1.mgmt) heq; simp only [id] at hk; simp only [↓apply_ite State.mgmt, ite_self]; exact hk.symm))))
theorem execKroot_mgmt (w : Fin 16) (r : Bytes) (env : RunEnv) (s : State) (t : State) (h : execKroot w r env s = .next t) : t.mgmt = s.mgmt := by
  unfold execKroot at h; (try dsimp only at h); refine issueUpdate_mgmt (t := t) (h := h) (h7 := ?_) .. <;> (intros; first | with_reducible rfl | (simp only [↓apply_ite State.mgmt, ite_self]; done) | (simp [↓apply_ite State.mgmt, ite_self]; done) | ((try dsimp only); (repeat' split) <;> (first | with_reducible rfl | (simp only [↓apply_ite State.mgmt, ite_self]; done) | (simp [↓apply_ite State.mgmt, ite_self]; done) | (rename_i heq; have hk := congrArg (fun q => q.1.mgmt) heq; simp only [id] at hk; simp only [↓apply_ite State.mgmt, ite_self]; exact hk.symm))))
theorem execKstat_mgmt (w : Fin 16) (r : Bytes) (env : RunEnv) (s : State) (t : State) (h : execKstat w r env s = .next t) : t.mgmt = s.mgmt := by
  unfold execKstat at h; (try dsimp only at h); refine issueUpdate_mgmt (t := t) (h := h) (h7 := ?_) .. <;> (intros; first | with_reducible rfl | (simp only [↓apply_ite State.mgmt, ite_self]; done) | (simp [↓apply_ite State.mgmt, ite_self]; done) | ((try dsimp only); (repeat' split) <;> (first | with_reducible rfl | (simp only [↓apply_ite State.mgmt, ite_self]; done) | (simp [↓apply_ite State.mgmt, ite_self]; done) | (rename_i heq; have hk := congrArg (fun q => q.1.mgmt) heq; simp only [id] at hk; simp only [↓apply_ite State.mgmt, ite_self]; exact hk.symm))))
theorem execLayerNorm_mgmt (u : Fin 256) (r : Bytes) (env : RunEnv) (s : State) (t : State) (h : execLayerNorm u r env s = .next t) : t.mgmt = s.mgmt := by
  unfold execLayerNorm at h; (try dsimp only at h); (repeat' split at h) <;> (first | (exact issue_mgmt (h := h) ..) | contradiction | (obtain rfl := Host.Outcome.next.inj h; first | with_reducible rfl | (simp only [↓apply_ite State.mgmt, ite_self]; done) | (simp [↓apply_ite State.mgmt, ite_self]; done) | (rename_i heq; have hk := congrArg (fun q => q.1.mgmt) heq; simp only [id] at hk; simp only [↓apply_ite State.mgmt, ite_self]; exact hk.symm)))
theorem execLinkDown_mgmt (link : Fin 24) (s : State) (t : State) (h : execLinkDown link s = .next t) : t.mgmt = s.mgmt := by
  unfold execLinkDown at h; (try dsimp only at h); (repeat' split at h) <;> (first  | contradiction | (obtain rfl := Host.Outcome.next.inj h; first | with_reducible rfl | (simp only [↓State.event_mgmt, ↓State.modLink_mgmt, ↓apply_ite State.mgmt, ite_self]; done) | (simp [↓State.event_mgmt, ↓State.modLink_mgmt, ↓apply_ite State.mgmt, ite_self]; done) | (rename_i heq; have hk := congrArg (fun q => q.1.mgmt) heq; simp only [↓State.event_mgmt, ↓State.modLink_mgmt] at hk; simp only [↓State.event_mgmt, ↓State.modLink_mgmt, ↓apply_ite State.mgmt, ite_self]; exact hk.symm)))
theorem execLinkHoldEnd_mgmt (s : State) (t : State) (h : execLinkHoldEnd s = .next t) : t.mgmt = s.mgmt := by
  unfold execLinkHoldEnd at h; (try dsimp only at h); (repeat' split at h) <;> (first  | contradiction | (obtain rfl := Host.Outcome.next.inj h; first | with_reducible rfl | (simp only [↓State.trainLinks_mgmt, ↓apply_ite State.mgmt, ite_self]; done) | (simp [↓State.trainLinks_mgmt, ↓apply_ite State.mgmt, ite_self]; done) | (rename_i heq; have hk := congrArg (fun q => q.1.mgmt) heq; simp only [↓State.trainLinks_mgmt] at hk; simp only [↓State.trainLinks_mgmt, ↓apply_ite State.mgmt, ite_self]; exact hk.symm)))
theorem execLinkTrainingDone_mgmt (link : Fin 24) (failure : Nat) (delay16 : Nat) (sent : Int) (s : State) (t : State) (h : execLinkTrainingDone link failure delay16 sent s = .next t) : t.mgmt = s.mgmt := by
  unfold execLinkTrainingDone at h; (try dsimp only at h); (repeat' split at h) <;> (first  | contradiction | (obtain rfl := Host.Outcome.next.inj h; first | with_reducible rfl | (simp only [↓State.modLink_mgmt, ↓State.sendSync_mgmt, ↓State.setRegN_mgmt, ↓apply_ite State.mgmt, ite_self]; done) | (simp [↓State.modLink_mgmt, ↓State.sendSync_mgmt, ↓State.setRegN_mgmt, ↓apply_ite State.mgmt, ite_self]; done) | (rename_i heq; have hk := congrArg (fun q => q.1.mgmt) heq; simp only [↓State.modLink_mgmt, ↓State.sendSync_mgmt, ↓State.setRegN_mgmt] at hk; simp only [↓State.modLink_mgmt, ↓State.sendSync_mgmt, ↓State.setRegN_mgmt, ↓apply_ite State.mgmt, ite_self]; exact hk.symm)))
theorem execLive_mgmt (fn : Fin 17) (cmd : HostCmd) (width : Nat) (height : Nat) (supported : Bool) (rap : Bool) (rasl : Bool) (s : State) (t : State) (h : execLive fn cmd width height supported rap rasl s = .next t) : t.mgmt = s.mgmt := by
  unfold execLive at h; (try dsimp only at h); refine State.vfCmd_mgmt (t := t) (h := h) (h4 := ?_) .. <;> (intros; first | with_reducible rfl | (simp only [↓State.arrive_mgmt, ↓State.complete_mgmt, ↓State.dropPic_mgmt, ↓State.event_mgmt, ↓State.feedEngines_mgmt, ↓State.modLive_mgmt, ↓apply_ite State.mgmt, ite_self]; done) | (simp [↓State.arrive_mgmt, ↓State.complete_mgmt, ↓State.dropPic_mgmt, ↓State.event_mgmt, ↓State.feedEngines_mgmt, ↓State.modLive_mgmt, ↓apply_ite State.mgmt, ite_self]; done) | ((try dsimp only); (repeat' split) <;> (first | with_reducible rfl | (simp only [↓State.arrive_mgmt, ↓State.complete_mgmt, ↓State.dropPic_mgmt, ↓State.event_mgmt, ↓State.feedEngines_mgmt, ↓State.modLive_mgmt, ↓apply_ite State.mgmt, ite_self]; done) | (simp [↓State.arrive_mgmt, ↓State.complete_mgmt, ↓State.dropPic_mgmt, ↓State.event_mgmt, ↓State.feedEngines_mgmt, ↓State.modLive_mgmt, ↓apply_ite State.mgmt, ite_self]; done) | (rename_i heq; have hk := congrArg (fun q => q.1.mgmt) heq; simp only [↓State.arrive_mgmt, ↓State.complete_mgmt, ↓State.dropPic_mgmt, ↓State.event_mgmt, ↓State.feedEngines_mgmt, ↓State.modLive_mgmt] at hk; simp only [↓State.arrive_mgmt, ↓State.complete_mgmt, ↓State.dropPic_mgmt, ↓State.event_mgmt, ↓State.feedEngines_mgmt, ↓State.modLive_mgmt, ↓apply_ite State.mgmt, ite_self]; exact hk.symm))))
theorem execLivePictureLate_mgmt (st : Fin 64) (s : State) (t : State) (h : execLivePictureLate st s = .next t) : t.mgmt = s.mgmt := by
  unfold execLivePictureLate at h; (try dsimp only at h); (repeat' split at h) <;> (first  | contradiction | (obtain rfl := Host.Outcome.next.inj h; first | with_reducible rfl | (simp only [↓State.dropPic_mgmt, ↓State.event_mgmt, ↓State.modLive_mgmt, ↓State.skipToRap_mgmt, ↓apply_ite State.mgmt, ite_self]; done) | (simp [↓State.dropPic_mgmt, ↓State.event_mgmt, ↓State.modLive_mgmt, ↓State.skipToRap_mgmt, ↓apply_ite State.mgmt, ite_self]; done) | (rename_i heq; have hk := congrArg (fun q => q.1.mgmt) heq; simp only [↓State.dropPic_mgmt, ↓State.event_mgmt, ↓State.modLive_mgmt, ↓State.skipToRap_mgmt] at hk; simp only [↓State.dropPic_mgmt, ↓State.event_mgmt, ↓State.modLive_mgmt, ↓State.skipToRap_mgmt, ↓apply_ite State.mgmt, ite_self]; exact hk.symm)))
theorem execLoWordRead_mgmt (fn : Fin 17) (off : Nat) (size : Nat) (s : State) (t : State) (h : execLoWordRead fn off size s = .next t) : t.mgmt = s.mgmt := by
  unfold execLoWordRead at h; (try dsimp only at h); (repeat' split at h) <;> (first  | contradiction | (obtain rfl := Host.Outcome.next.inj h; first | with_reducible rfl | (simp only [↓State.readBar_mgmt, ↓apply_ite State.mgmt, ite_self]; done) | (simp [↓State.readBar_mgmt, ↓apply_ite State.mgmt, ite_self]; done) | (rename_i heq; have hk := congrArg (fun q => q.1.mgmt) heq; simp only [↓State.readBar_mgmt] at hk; simp only [↓State.readBar_mgmt, ↓apply_ite State.mgmt, ite_self]; exact hk.symm)))
theorem execLogSoftmax_mgmt (u : Fin 256) (r : Bytes) (env : RunEnv) (s : State) (t : State) (h : execLogSoftmax u r env s = .next t) : t.mgmt = s.mgmt := by
  unfold execLogSoftmax at h; (try dsimp only at h); (repeat' split at h) <;> (first | (exact issue_mgmt (h := h) ..) | contradiction | (obtain rfl := Host.Outcome.next.inj h; first | with_reducible rfl | (simp only [↓apply_ite State.mgmt, ite_self]; done) | (simp [↓apply_ite State.mgmt, ite_self]; done) | (rename_i heq; have hk := congrArg (fun q => q.1.mgmt) heq; simp only [id] at hk; simp only [↓apply_ite State.mgmt, ite_self]; exact hk.symm)))
theorem execMatmul_mgmt (u : Fin 256) (r : Bytes) (env : RunEnv) (s : State) (t : State) (h : execMatmul u r env s = .next t) : t.mgmt = s.mgmt := by
  unfold execMatmul at h; (try dsimp only at h); (repeat' split at h) <;> (first | (exact issue_mgmt (h := h) ..) | contradiction | (obtain rfl := Host.Outcome.next.inj h; first | with_reducible rfl | (simp only [↓apply_ite State.mgmt, ite_self]; done) | (simp [↓apply_ite State.mgmt, ite_self]; done) | (rename_i heq; have hk := congrArg (fun q => q.1.mgmt) heq; simp only [id] at hk; simp only [↓apply_ite State.mgmt, ite_self]; exact hk.symm)))
theorem execMaxPool_mgmt (u : Fin 256) (r : Bytes) (env : RunEnv) (s : State) (t : State) (h : execMaxPool u r env s = .next t) : t.mgmt = s.mgmt := by
  unfold execMaxPool at h; (try dsimp only at h); (repeat' split at h) <;> (first | (exact issueWindow_mgmt (h := h) ..) | contradiction | (obtain rfl := Host.Outcome.next.inj h; first | with_reducible rfl | (simp only [↓apply_ite State.mgmt, ite_self]; done) | (simp [↓apply_ite State.mgmt, ite_self]; done) | (rename_i heq; have hk := congrArg (fun q => q.1.mgmt) heq; simp only [id] at hk; simp only [↓apply_ite State.mgmt, ite_self]; exact hk.symm)))
theorem execMgmtRegRead_mgmt (off : Nat) (s : State) (t : State) (h : execMgmtRegRead off s = .next t) : t.mgmt = s.mgmt := by
  unfold execMgmtRegRead at h; (try dsimp only at h); refine State.answers_mgmt (t := t) (h := h) (h1 := ?_) .. <;> (intros; first | with_reducible rfl | (simp only [↓State.mgmtReply_mgmt, ↓State.remoteRead_mgmt, ↓apply_ite State.mgmt, ite_self]; done) | (simp [↓State.mgmtReply_mgmt, ↓State.remoteRead_mgmt, ↓apply_ite State.mgmt, ite_self]; done) | ((try dsimp only); (repeat' split) <;> (first | with_reducible rfl | (simp only [↓State.mgmtReply_mgmt, ↓State.remoteRead_mgmt, ↓apply_ite State.mgmt, ite_self]; done) | (simp [↓State.mgmtReply_mgmt, ↓State.remoteRead_mgmt, ↓apply_ite State.mgmt, ite_self]; done) | (rename_i heq; have hk := congrArg (fun q => q.1.mgmt) heq; simp only [↓State.mgmtReply_mgmt, ↓State.remoteRead_mgmt] at hk; simp only [↓State.mgmtReply_mgmt, ↓State.remoteRead_mgmt, ↓apply_ite State.mgmt, ite_self]; exact hk.symm))))
theorem execMirrorAck_mgmt (link : Fin 24) (b : Bytes) (s : State) (t : State) (h : execMirrorAck link b s = .next t) : t.mgmt = s.mgmt := by
  unfold execMirrorAck at h; (try dsimp only at h); (repeat' split at h) <;> (first  | contradiction | (obtain rfl := Host.Outcome.next.inj h; first | with_reducible rfl | (simp only [↓State.takeMirrorAck_mgmt, ↓State.takeMsg_mgmt, ↓apply_ite State.mgmt, ite_self]; done) | (simp [↓State.takeMirrorAck_mgmt, ↓State.takeMsg_mgmt, ↓apply_ite State.mgmt, ite_self]; done) | (rename_i heq; have hk := congrArg (fun q => q.1.mgmt) heq; simp only [↓State.takeMirrorAck_mgmt, ↓State.takeMsg_mgmt] at hk; simp only [↓State.takeMirrorAck_mgmt, ↓State.takeMsg_mgmt, ↓apply_ite State.mgmt, ite_self]; exact hk.symm)))
theorem execMirrorAckTimeout_mgmt (c : Fin 16) (pair : Nat) (s : State) (t : State) (h : execMirrorAckTimeout c pair s = .next t) : t.mgmt = s.mgmt := by
  unfold execMirrorAckTimeout at h; (try dsimp only at h); (repeat' split at h) <;> (first  | contradiction | (obtain rfl := Host.Outcome.next.inj h; first | with_reducible rfl | (simp only [↓State.settleMirror_mgmt, ↓apply_ite State.mgmt, ite_self]; done) | (simp [↓State.settleMirror_mgmt, ↓apply_ite State.mgmt, ite_self]; done) | (rename_i heq; have hk := congrArg (fun q => q.1.mgmt) heq; simp only [↓State.settleMirror_mgmt] at hk; simp only [↓State.settleMirror_mgmt, ↓apply_ite State.mgmt, ite_self]; exact hk.symm)))
theorem execNandProgramDone_mgmt (block : Nat) (dieFail : Bool) (s : State) (t : State) (h : execNandProgramDone block dieFail s = .next t) : t.mgmt = s.mgmt := by
  unfold execNandProgramDone at h; (try dsimp only at h); (repeat' split at h) <;> (first  | contradiction | (obtain rfl := Host.Outcome.next.inj h; first | with_reducible rfl | (simp only [↓State.dieFails_mgmt, ↓State.flashReadOnly_mgmt, ↓State.nextFlush_mgmt, ↓State.pumpDurable_mgmt, ↓State.settleDurable_mgmt, ↓State.settleFlushes_mgmt, ↓over_mgmt, ↓foldl_mgmt, ↓apply_ite State.mgmt, ite_self]; done) | (simp [↓State.dieFails_mgmt, ↓State.flashReadOnly_mgmt, ↓State.nextFlush_mgmt, ↓State.pumpDurable_mgmt, ↓State.settleDurable_mgmt, ↓State.settleFlushes_mgmt, ↓over_mgmt, ↓foldl_mgmt, ↓apply_ite State.mgmt, ite_self]; done) | (rename_i heq; have hk := congrArg (fun q => q.1.mgmt) heq; simp only [↓State.dieFails_mgmt, ↓State.flashReadOnly_mgmt, ↓State.nextFlush_mgmt, ↓State.pumpDurable_mgmt, ↓State.settleDurable_mgmt, ↓State.settleFlushes_mgmt, ↓over_mgmt, ↓foldl_mgmt] at hk; simp only [↓State.dieFails_mgmt, ↓State.flashReadOnly_mgmt, ↓State.nextFlush_mgmt, ↓State.pumpDurable_mgmt, ↓State.settleDurable_mgmt, ↓State.settleFlushes_mgmt, ↓over_mgmt, ↓foldl_mgmt, ↓apply_ite State.mgmt, ite_self]; exact hk.symm)))
theorem execNearestResize_mgmt (u : Fin 256) (r : Bytes) (env : RunEnv) (s : State) (t : State) (h : execNearestResize u r env s = .next t) : t.mgmt = s.mgmt := by
  unfold execNearestResize at h; (try dsimp only at h); (repeat' split at h) <;> (first | (exact issueWindow_mgmt (h := h) ..) | contradiction | (obtain rfl := Host.Outcome.next.inj h; first | with_reducible rfl | (simp only [↓apply_ite State.mgmt, ite_self]; done) | (simp [↓apply_ite State.mgmt, ite_self]; done) | (rename_i heq; have hk := congrArg (fun q => q.1.mgmt) heq; simp only [id] at hk; simp only [↓apply_ite State.mgmt, ite_self]; exact hk.symm)))
theorem execNextVariantMove_mgmt (w : Fin 16) (r : Bytes) (env : RunEnv) (s : State) (t : State) (h : execNextVariantMove w r env s = .next t) : t.mgmt = s.mgmt := by
  unfold execNextVariantMove at h; (try dsimp only at h); (repeat' split at h) <;> (first | (exact issue_mgmt (h := h) ..) | contradiction | (obtain rfl := Host.Outcome.next.inj h; first | with_reducible rfl | (simp only [↓apply_ite State.mgmt, ite_self]; done) | (simp [↓apply_ite State.mgmt, ite_self]; done) | (rename_i heq; have hk := congrArg (fun q => q.1.mgmt) heq; simp only [id] at hk; simp only [↓apply_ite State.mgmt, ite_self]; exact hk.symm)))
theorem execNop_mgmt (fn : Fin 17) (cmd : HostCmd) (s : State) (t : State) (h : execNop fn cmd s = .next t) : t.mgmt = s.mgmt := by
  unfold execNop at h
  split at h
  rotate_left
  · injection h with h; subst h; rfl
  · rename_i u hu
    have hm := State.takeCmd_mgmt _ _ _ _ u hu
    injection h with h; subst h
    rw [State.complete_mgmt, hm]
theorem execNorm_mgmt (w : Fin 16) (r : Bytes) (env : RunEnv) (s : State) (t : State) (h : execNorm w r env s = .next t) : t.mgmt = s.mgmt := by
  unfold execNorm at h; (try dsimp only at h); refine issueUpdate_mgmt (t := t) (h := h) (h7 := ?_) .. <;> (intros; first | with_reducible rfl | (simp only [↓State.normAdd_mgmt, ↓apply_ite State.mgmt, ite_self]; done) | (simp [↓State.normAdd_mgmt, ↓apply_ite State.mgmt, ite_self]; done) | ((try dsimp only); (repeat' split) <;> (first | with_reducible rfl | (simp only [↓State.normAdd_mgmt, ↓apply_ite State.mgmt, ite_self]; done) | (simp [↓State.normAdd_mgmt, ↓apply_ite State.mgmt, ite_self]; done) | (rename_i heq; have hk := congrArg (fun q => q.1.mgmt) heq; simp only [↓State.normAdd_mgmt] at hk; simp only [↓State.normAdd_mgmt, ↓apply_ite State.mgmt, ite_self]; exact hk.symm))))
theorem execOffsetMeasure_mgmt (sent : Int) (s : State) (t : State) (h : execOffsetMeasure sent s = .next t) : t.mgmt = s.mgmt := by
  unfold execOffsetMeasure at h; (try dsimp only at h); (repeat' split at h) <;> (first  | contradiction | (obtain rfl := Host.Outcome.next.inj h; first | with_reducible rfl | (simp only [↓State.sendSync_mgmt, ↓apply_ite State.mgmt, ite_self]; done) | (simp [↓State.sendSync_mgmt, ↓apply_ite State.mgmt, ite_self]; done) | (rename_i heq; have hk := congrArg (fun q => q.1.mgmt) heq; simp only [↓State.sendSync_mgmt] at hk; simp only [↓State.sendSync_mgmt, ↓apply_ite State.mgmt, ite_self]; exact hk.symm)))
theorem execOrtho_mgmt (w : Fin 16) (r : Bytes) (env : RunEnv) (s : State) (t : State) (h : execOrtho w r env s = .next t) : t.mgmt = s.mgmt := by
  unfold execOrtho at h; (try dsimp only at h); refine issueUpdate_mgmt (t := t) (h := h) (h7 := ?_) .. <;> (intros; first | with_reducible rfl | (simp only [↓apply_ite State.mgmt, ite_self]; done) | (simp [↓apply_ite State.mgmt, ite_self]; done) | ((try dsimp only); (repeat' split) <;> (first | with_reducible rfl | (simp only [↓apply_ite State.mgmt, ite_self]; done) | (simp [↓apply_ite State.mgmt, ite_self]; done) | (rename_i heq; have hk := congrArg (fun q => q.1.mgmt) heq; simp only [id] at hk; simp only [↓apply_ite State.mgmt, ite_self]; exact hk.symm))))
theorem execPacketAged_mgmt (idx : Nat) (s : State) (t : State) (h : execPacketAged idx s = .next t) : t.mgmt = s.mgmt := by
  unfold execPacketAged at h; (try dsimp only at h); (repeat' split at h) <;> (first  | contradiction | (obtain rfl := Host.Outcome.next.inj h; first | with_reducible rfl | (simp only [↓State.answerError_mgmt, ↓State.count_mgmt, ↓apply_ite State.mgmt, ite_self]; done) | (simp [↓State.answerError_mgmt, ↓State.count_mgmt, ↓apply_ite State.mgmt, ite_self]; done) | (rename_i heq; have hk := congrArg (fun q => q.1.mgmt) heq; simp only [↓State.answerError_mgmt, ↓State.count_mgmt] at hk; simp only [↓State.answerError_mgmt, ↓State.count_mgmt, ↓apply_ite State.mgmt, ite_self]; exact hk.symm)))
theorem execPacketForward_mgmt (link : Fin 24) (b : Bytes) (s : State) (t : State) (h : execPacketForward link b s = .next t) : t.mgmt = s.mgmt := by
  unfold execPacketForward at h
  have hm := State.accept_mgmt s link b
  split at h
  · rename_i u hu; rw [hu] at hm; injection h with h; subst h; exact hm
  · rename_i u p hu; rw [hu] at hm; injection h with h; subst h
    split
    · exact (State.forward_mgmt ..).trans hm
    · exact hm
theorem execPcieRefclkFail_mgmt (s : State) (t : State) (h : execPcieRefclkFail s = .next t) : t.mgmt = s.mgmt := by
  have k : ∀ u : State, u.mgmt = s.mgmt → ∀ c, (({ u with clk := c } : State).event Reg.CLK_EVENT 5).mgmt = s.mgmt := fun u hu c => (State.event_mgmt ..).trans hu
  have hk := k _ (State.resetHost_mgmt s)
  unfold execPcieRefclkFail at h
  generalize s.resetHost = u at h hk
  cases h
  exact hk _
theorem execPermanenceNotice_mgmt (link : Fin 24) (b : Bytes) (s : State) (t : State) (h : execPermanenceNotice link b s = .next t) : t.mgmt = s.mgmt := by
  unfold execPermanenceNotice at h; (try dsimp only at h); (repeat' split at h) <;> (first  | contradiction | (obtain rfl := Host.Outcome.next.inj h; first | with_reducible rfl | (simp only [↓State.count_mgmt, ↓State.modTick_mgmt, ↓State.takeMsg_mgmt, ↓apply_ite State.mgmt, ite_self]; done) | (simp [↓State.count_mgmt, ↓State.modTick_mgmt, ↓State.takeMsg_mgmt, ↓apply_ite State.mgmt, ite_self]; done) | (rename_i heq; have hk := congrArg (fun q => q.1.mgmt) heq; simp only [↓State.count_mgmt, ↓State.modTick_mgmt, ↓State.takeMsg_mgmt] at hk; simp only [↓State.count_mgmt, ↓State.modTick_mgmt, ↓State.takeMsg_mgmt, ↓apply_ite State.mgmt, ite_self]; exact hk.symm)))
theorem execPermuteLimit_mgmt (c : Fin 16) (s : State) (t : State) (h : execPermuteLimit c s = .next t) : t.mgmt = s.mgmt := by
  unfold execPermuteLimit at h; (try dsimp only at h); (repeat' split at h) <;> (first  | contradiction | (obtain rfl := Host.Outcome.next.inj h; first | with_reducible rfl | (simp only [↓State.modTick_mgmt, ↓apply_ite State.mgmt, ite_self]; done) | (simp [↓State.modTick_mgmt, ↓apply_ite State.mgmt, ite_self]; done) | (rename_i heq; have hk := congrArg (fun q => q.1.mgmt) heq; simp only [↓State.modTick_mgmt] at hk; simp only [↓State.modTick_mgmt, ↓apply_ite State.mgmt, ite_self]; exact hk.symm)))
theorem execPerstAssert_mgmt (s : State) (t : State) (h : execPerstAssert s = .next t) : t.mgmt = s.mgmt := by
  have k : ∀ u : State, u.mgmt = s.mgmt → ∀ r, ({ u with rst := r } : State).mgmt = s.mgmt := fun u hu _ => hu
  have hk : ∀ v, (((s.resetHost.event Reg.RST_CAUSE 3).setRegN Reg.RST_HOST_GEN v).returnLater 18).mgmt = s.mgmt := fun v =>
    (State.returnLater_mgmt ..).trans ((State.setRegN_mgmt ..).trans ((State.event_mgmt ..).trans (State.resetHost_mgmt s)))
  unfold execPerstAssert at h
  split at h
  · cases h; rfl
  · dsimp only at h
    exact Host.Outcome.next.inj h ▸ k _ (hk _) _
theorem execPerstRelease_mgmt (s : State) (t : State) (h : execPerstRelease s = .next t) : t.mgmt = s.mgmt := by
  unfold execPerstRelease at h; (try dsimp only at h); (repeat' split at h) <;> (first  | contradiction | (obtain rfl := Host.Outcome.next.inj h; first | with_reducible rfl | (simp only [↓apply_ite State.mgmt, ite_self]; done) | (simp [↓apply_ite State.mgmt, ite_self]; done) | (rename_i heq; have hk := congrArg (fun q => q.1.mgmt) heq; simp only [id] at hk; simp only [↓apply_ite State.mgmt, ite_self]; exact hk.symm)))
theorem execPictureDecoded_mgmt (e : Fin 4) (own : Nat) (refs : List (Nat × Nat)) (out : List (Nat × RawPic)) (ns : Nat) (s : State) (t : State) (h : execPictureDecoded e own refs out ns s = .next t) : t.mgmt = s.mgmt := by
  unfold execPictureDecoded at h; (try dsimp only at h); (repeat' split at h) <;> (first  | contradiction | (obtain rfl := Host.Outcome.next.inj h; first | with_reducible rfl | (simp only [↓State.account_mgmt, ↓State.complete_mgmt, ↓State.count_mgmt, ↓State.feedEngines_mgmt, ↓State.liveOutput_mgmt, ↓State.modEngine_mgmt, ↓State.recordPicDone_mgmt, ↓State.setPool_mgmt, ↓over_mgmt, ↓foldl_mgmt, ↓apply_ite State.mgmt, ite_self]; done) | (simp [↓State.account_mgmt, ↓State.complete_mgmt, ↓State.count_mgmt, ↓State.feedEngines_mgmt, ↓State.liveOutput_mgmt, ↓State.modEngine_mgmt, ↓State.recordPicDone_mgmt, ↓State.setPool_mgmt, ↓over_mgmt, ↓foldl_mgmt, ↓apply_ite State.mgmt, ite_self]; done) | (rename_i heq; have hk := congrArg (fun q => q.1.mgmt) heq; simp only [↓State.account_mgmt, ↓State.complete_mgmt, ↓State.count_mgmt, ↓State.feedEngines_mgmt, ↓State.liveOutput_mgmt, ↓State.modEngine_mgmt, ↓State.recordPicDone_mgmt, ↓State.setPool_mgmt, ↓over_mgmt, ↓foldl_mgmt] at hk; simp only [↓State.account_mgmt, ↓State.complete_mgmt, ↓State.count_mgmt, ↓State.feedEngines_mgmt, ↓State.liveOutput_mgmt, ↓State.modEngine_mgmt, ↓State.recordPicDone_mgmt, ↓State.setPool_mgmt, ↓over_mgmt, ↓foldl_mgmt, ↓apply_ite State.mgmt, ite_self]; exact hk.symm)))
theorem execPlanLoad_mgmt (fn : Fin 17) (cmd : HostCmd) (s : State) (t : State) (h : execPlanLoad fn cmd s = .next t) : t.mgmt = s.mgmt := by
  unfold execPlanLoad at h; (try dsimp only at h); refine State.vfCmd_mgmt (t := t) (h := h) (h4 := ?_) .. <;> (intros; first | with_reducible rfl | (simp only [↓State.loadPlan_mgmt, ↓apply_ite State.mgmt, ite_self]; done) | (simp [↓State.loadPlan_mgmt, ↓apply_ite State.mgmt, ite_self]; done) | ((try dsimp only); (repeat' split) <;> (first | with_reducible rfl | (simp only [↓State.loadPlan_mgmt, ↓apply_ite State.mgmt, ite_self]; done) | (simp [↓State.loadPlan_mgmt, ↓apply_ite State.mgmt, ite_self]; done) | (rename_i heq; have hk := congrArg (fun q => q.1.mgmt) heq; simp only [↓State.loadPlan_mgmt] at hk; simp only [↓State.loadPlan_mgmt, ↓apply_ite State.mgmt, ite_self]; exact hk.symm))))
theorem execPlanStart_mgmt (fn : Fin 17) (cmd : HostCmd) (s : State) (t : State) (h : execPlanStart fn cmd s = .next t) : t.mgmt = s.mgmt := by
  unfold execPlanStart at h; (try dsimp only at h); refine State.vfCmd_mgmt (t := t) (h := h) (h4 := ?_) .. <;> (intros; first | with_reducible rfl | (simp only [↓State.startPlan_mgmt, ↓apply_ite State.mgmt, ite_self]; done) | (simp [↓State.startPlan_mgmt, ↓apply_ite State.mgmt, ite_self]; done) | ((try dsimp only); (repeat' split) <;> (first | with_reducible rfl | (simp only [↓State.startPlan_mgmt, ↓apply_ite State.mgmt, ite_self]; done) | (simp [↓State.startPlan_mgmt, ↓apply_ite State.mgmt, ite_self]; done) | (rename_i heq; have hk := congrArg (fun q => q.1.mgmt) heq; simp only [↓State.startPlan_mgmt] at hk; simp only [↓State.startPlan_mgmt, ↓apply_ite State.mgmt, ite_self]; exact hk.symm))))
theorem execPlanUnload_mgmt (fn : Fin 17) (cmd : HostCmd) (s : State) (t : State) (h : execPlanUnload fn cmd s = .next t) : t.mgmt = s.mgmt := by
  unfold execPlanUnload at h; (try dsimp only at h); refine State.vfCmd_mgmt (t := t) (h := h) (h4 := ?_) .. <;> (intros; first | with_reducible rfl | (simp only [↓State.complete_mgmt, ↓State.unloadPlan_mgmt, ↓apply_ite State.mgmt, ite_self]; done) | (simp [↓State.complete_mgmt, ↓State.unloadPlan_mgmt, ↓apply_ite State.mgmt, ite_self]; done) | ((try dsimp only); (repeat' split) <;> (first | with_reducible rfl | (simp only [↓State.complete_mgmt, ↓State.unloadPlan_mgmt, ↓apply_ite State.mgmt, ite_self]; done) | (simp [↓State.complete_mgmt, ↓State.unloadPlan_mgmt, ↓apply_ite State.mgmt, ite_self]; done) | (rename_i heq; have hk := congrArg (fun q => q.1.mgmt) heq; simp only [↓State.complete_mgmt, ↓State.unloadPlan_mgmt] at hk; simp only [↓State.complete_mgmt, ↓State.unloadPlan_mgmt, ↓apply_ite State.mgmt, ite_self]; exact hk.symm))))
theorem execPresenceNotice_mgmt (link : Fin 24) (b : Bytes) (s : State) (t : State) (h : execPresenceNotice link b s = .next t) : t.mgmt = s.mgmt := by
  unfold execPresenceNotice at h; (try dsimp only at h); (repeat' split at h) <;> (first  | contradiction | (obtain rfl := Host.Outcome.next.inj h; first | with_reducible rfl | (simp only [↓State.count_mgmt, ↓State.modTick_mgmt, ↓State.takeMsg_mgmt, ↓apply_ite State.mgmt, ite_self]; done) | (simp [↓State.count_mgmt, ↓State.modTick_mgmt, ↓State.takeMsg_mgmt, ↓apply_ite State.mgmt, ite_self]; done) | (rename_i heq; have hk := congrArg (fun q => q.1.mgmt) heq; simp only [↓State.count_mgmt, ↓State.modTick_mgmt, ↓State.takeMsg_mgmt] at hk; simp only [↓State.count_mgmt, ↓State.modTick_mgmt, ↓State.takeMsg_mgmt, ↓apply_ite State.mgmt, ite_self]; exact hk.symm)))
theorem execPwrFcastTickLoRead_mgmt (s : State) (t : State) (h : execPwrFcastTickLoRead s = .next t) : t.mgmt = s.mgmt := by
  unfold execPwrFcastTickLoRead at h; (try dsimp only at h); (repeat' split at h) <;> (first  | contradiction | (obtain rfl := Host.Outcome.next.inj h; first | with_reducible rfl | (simp only [↓State.readBar_mgmt, ↓apply_ite State.mgmt, ite_self]; done) | (simp [↓State.readBar_mgmt, ↓apply_ite State.mgmt, ite_self]; done) | (rename_i heq; have hk := congrArg (fun q => q.1.mgmt) heq; simp only [↓State.readBar_mgmt] at hk; simp only [↓State.readBar_mgmt, ↓apply_ite State.mgmt, ite_self]; exact hk.symm)))
theorem execQuantise_mgmt (u : Fin 256) (r : Bytes) (env : RunEnv) (s : State) (t : State) (h : execQuantise u r env s = .next t) : t.mgmt = s.mgmt := by
  unfold execQuantise at h; (try dsimp only at h); (repeat' split at h) <;> (first | (exact issue_mgmt (h := h) ..) | contradiction | (obtain rfl := Host.Outcome.next.inj h; first | with_reducible rfl | (simp only [↓apply_ite State.mgmt, ite_self]; done) | (simp [↓apply_ite State.mgmt, ite_self]; done) | (rename_i heq; have hk := congrArg (fun q => q.1.mgmt) heq; simp only [id] at hk; simp only [↓apply_ite State.mgmt, ite_self]; exact hk.symm)))
theorem execRailTimeout_mgmt (s : State) (t : State) (h : execRailTimeout s = .next t) : t.mgmt = s.mgmt := by
  unfold execRailTimeout at h; (try dsimp only at h); (repeat' split at h) <;> (first  | contradiction | (obtain rfl := Host.Outcome.next.inj h; first | with_reducible rfl | (simp only [↓State.emit_mgmt, ↓State.modPwr_mgmt, ↓apply_ite State.mgmt, ite_self]; done) | (simp [↓State.emit_mgmt, ↓State.modPwr_mgmt, ↓apply_ite State.mgmt, ite_self]; done) | (rename_i heq; have hk := congrArg (fun q => q.1.mgmt) heq; simp only [↓State.emit_mgmt, ↓State.modPwr_mgmt] at hk; simp only [↓State.emit_mgmt, ↓State.modPwr_mgmt, ↓apply_ite State.mgmt, ite_self]; exact hk.symm)))
theorem execRead_mgmt (link : Fin 24) (b : Bytes) (errs : ReadErrs) (s : State) (t : State) (h : execRead link b errs s = .next t) : t.mgmt = s.mgmt := by
  unfold execRead at h; (try dsimp only at h); (repeat' split at h) <;> (first  | contradiction | (obtain rfl := Host.Outcome.next.inj h; first | with_reducible rfl | (simp only [↓State.answer_mgmt, ↓State.countSpot_mgmt, ↓State.escapeBytes_mgmt, ↓State.eventIf_mgmt, ↓State.noteErrs_mgmt, ↓State.refuse_mgmt, ↓State.takePacket_mgmt, ↓apply_ite State.mgmt, ite_self]; done) | (simp [↓State.answer_mgmt, ↓State.countSpot_mgmt, ↓State.escapeBytes_mgmt, ↓State.eventIf_mgmt, ↓State.noteErrs_mgmt, ↓State.refuse_mgmt, ↓State.takePacket_mgmt, ↓apply_ite State.mgmt, ite_self]; done) | (rename_i heq; have hk := congrArg (fun q => q.1.mgmt) heq; simp only [↓State.answer_mgmt, ↓State.countSpot_mgmt, ↓State.escapeBytes_mgmt, ↓State.eventIf_mgmt, ↓State.noteErrs_mgmt, ↓State.refuse_mgmt, ↓State.takePacket_mgmt] at hk; simp only [↓State.answer_mgmt, ↓State.countSpot_mgmt, ↓State.escapeBytes_mgmt, ↓State.eventIf_mgmt, ↓State.noteErrs_mgmt, ↓State.refuse_mgmt, ↓State.takePacket_mgmt, ↓apply_ite State.mgmt, ite_self]; exact hk.symm)))
theorem execReadData_mgmt (link : Fin 24) (b : Bytes) (s : State) (t : State) (h : execReadData link b s = .next t) : t.mgmt = s.mgmt := by
  unfold execReadData at h
  injection h with h; subst h
  refine State.takePacket_mgmt s _ _ _ _ (fun p u => ?_)
  split
  · split
    · exact State.dropRequest_mgmt ..
    · rfl
  · rfl
theorem execReadDisturbRelocate_mgmt (block : Nat) (s : State) (t : State) (h : execReadDisturbRelocate block s = .next t) : t.mgmt = s.mgmt := by
  unfold execReadDisturbRelocate at h; (try dsimp only at h); (repeat' split at h) <;> (first  | contradiction | (obtain rfl := Host.Outcome.next.inj h; first | with_reducible rfl | (simp only [↓State.count_mgmt, ↓apply_ite State.mgmt, ite_self]; done) | (simp [↓State.count_mgmt, ↓apply_ite State.mgmt, ite_self]; done) | (rename_i heq; have hk := congrArg (fun q => q.1.mgmt) heq; simp only [↓State.count_mgmt] at hk; simp only [↓State.count_mgmt, ↓apply_ite State.mgmt, ite_self]; exact hk.symm)))
theorem execRebuildComplete_mgmt (group : Nat) (s : State) (t : State) (h : execRebuildComplete group s = .next t) : t.mgmt = s.mgmt := by
  unfold execRebuildComplete at h; (try dsimp only at h); (repeat' split at h) <;> (first  | contradiction | (obtain rfl := Host.Outcome.next.inj h; first | with_reducible rfl | (simp only [↓apply_ite State.mgmt, ite_self]; done) | (simp [↓apply_ite State.mgmt, ite_self]; done) | (rename_i heq; have hk := congrArg (fun q => q.1.mgmt) heq; simp only [id] at hk; simp only [↓apply_ite State.mgmt, ite_self]; exact hk.symm)))
theorem issueReceive_mgmt (m : Nat) (u : Nat) (r : Bytes) (env : RunEnv) (s : State) (t : State) (h : issueReceive m u r env s = .next t) : t.mgmt = s.mgmt := by
  unfold issueReceive at h; (try dsimp only at h); refine issueG_mgmt (t := t) (h := h) (h6 := ?_) .. <;> (intros; first | with_reducible rfl | (simp only [↓State.runReceive_mgmt, ↓apply_ite State.mgmt, ite_self]; done) | (simp [↓State.runReceive_mgmt, ↓apply_ite State.mgmt, ite_self]; done) | ((try dsimp only); (repeat' split) <;> (first | with_reducible rfl | (simp only [↓State.runReceive_mgmt, ↓apply_ite State.mgmt, ite_self]; done) | (simp [↓State.runReceive_mgmt, ↓apply_ite State.mgmt, ite_self]; done) | (rename_i heq; have hk := congrArg (fun q => q.1.mgmt) heq; simp only [↓State.runReceive_mgmt] at hk; simp only [↓State.runReceive_mgmt, ↓apply_ite State.mgmt, ite_self]; exact hk.symm))))
theorem execReceiveAdd_mgmt (u : Fin 256) (r : Bytes) (env : RunEnv) (s : State) (t : State) (h : execReceiveAdd u r env s = .next t) : t.mgmt = s.mgmt := by
  unfold execReceiveAdd at h; (try dsimp only at h); (repeat' split at h) <;> (first | (exact issueReceive_mgmt (h := h) ..) | contradiction | (obtain rfl := Host.Outcome.next.inj h; first | with_reducible rfl | (simp only [↓apply_ite State.mgmt, ite_self]; done) | (simp [↓apply_ite State.mgmt, ite_self]; done) | (rename_i heq; have hk := congrArg (fun q => q.1.mgmt) heq; simp only [id] at hk; simp only [↓apply_ite State.mgmt, ite_self]; exact hk.symm)))
theorem execReceiveCopy_mgmt (u : Fin 256) (r : Bytes) (env : RunEnv) (s : State) (t : State) (h : execReceiveCopy u r env s = .next t) : t.mgmt = s.mgmt := by
  unfold execReceiveCopy at h; (try dsimp only at h); (repeat' split at h) <;> (first | (exact issueReceive_mgmt (h := h) ..) | contradiction | (obtain rfl := Host.Outcome.next.inj h; first | with_reducible rfl | (simp only [↓apply_ite State.mgmt, ite_self]; done) | (simp [↓apply_ite State.mgmt, ite_self]; done) | (rename_i heq; have hk := congrArg (fun q => q.1.mgmt) heq; simp only [id] at hk; simp only [↓apply_ite State.mgmt, ite_self]; exact hk.symm)))
theorem execReceiveMax_mgmt (u : Fin 256) (r : Bytes) (env : RunEnv) (s : State) (t : State) (h : execReceiveMax u r env s = .next t) : t.mgmt = s.mgmt := by
  unfold execReceiveMax at h; (try dsimp only at h); (repeat' split at h) <;> (first | (exact issueReceive_mgmt (h := h) ..) | contradiction | (obtain rfl := Host.Outcome.next.inj h; first | with_reducible rfl | (simp only [↓apply_ite State.mgmt, ite_self]; done) | (simp [↓apply_ite State.mgmt, ite_self]; done) | (rename_i heq; have hk := congrArg (fun q => q.1.mgmt) heq; simp only [id] at hk; simp only [↓apply_ite State.mgmt, ite_self]; exact hk.symm)))
theorem execRecord_mgmt (fn : Fin 17) (cmd : HostCmd) (scans : List HeaderScan) (s : State) (t : State) (h : execRecord fn cmd scans s = .next t) : t.mgmt = s.mgmt := by
  unfold execRecord at h; (try dsimp only at h); refine State.vfCmd_mgmt (t := t) (h := h) (h4 := ?_) .. <;> (intros; first | with_reducible rfl | (simp only [↓State.acceptRec_mgmt, ↓State.complete_mgmt, ↓State.eventIf_mgmt, ↓State.modIng_mgmt, ↓State.rejectRec_mgmt, ↓apply_ite State.mgmt, ite_self]; done) | (simp [↓State.acceptRec_mgmt, ↓State.complete_mgmt, ↓State.eventIf_mgmt, ↓State.modIng_mgmt, ↓State.rejectRec_mgmt, ↓apply_ite State.mgmt, ite_self]; done) | ((try dsimp only); (repeat' split) <;> (first | with_reducible rfl | (simp only [↓State.acceptRec_mgmt, ↓State.complete_mgmt, ↓State.eventIf_mgmt, ↓State.modIng_mgmt, ↓State.rejectRec_mgmt, ↓apply_ite State.mgmt, ite_self]; done) | (simp [↓State.acceptRec_mgmt, ↓State.complete_mgmt, ↓State.eventIf_mgmt, ↓State.modIng_mgmt, ↓State.rejectRec_mgmt, ↓apply_ite State.mgmt, ite_self]; done) | (rename_i heq; have hk := congrArg (fun q => q.1.mgmt) heq; simp only [↓State.acceptRec_mgmt, ↓State.complete_mgmt, ↓State.eventIf_mgmt, ↓State.modIng_mgmt, ↓State.rejectRec_mgmt] at hk; simp only [↓State.acceptRec_mgmt, ↓State.complete_mgmt, ↓State.eventIf_mgmt, ↓State.modIng_mgmt, ↓State.rejectRec_mgmt, ↓apply_ite State.mgmt, ite_self]; exact hk.symm))))
theorem execRecordDecoded_mgmt (c : Fin 16) (ok : Bool) (items : List ItemSource) (ns : Nat) (s : State) (t : State) (h : execRecordDecoded c ok items ns s = .next t) : t.mgmt = s.mgmt := by
  unfold execRecordDecoded at h; (try dsimp only at h); (repeat' split at h) <;> (first  | contradiction | (obtain rfl := Host.Outcome.next.inj h; first | with_reducible rfl | (simp only [↓State.account_mgmt, ↓State.feedEngines_mgmt, ↓State.freeDecode_mgmt, ↓State.modReading_mgmt, ↓State.rejectDecode_mgmt, ↓State.settleIngest_mgmt, ↓apply_ite State.mgmt, ite_self]; done) | (simp [↓State.account_mgmt, ↓State.feedEngines_mgmt, ↓State.freeDecode_mgmt, ↓State.modReading_mgmt, ↓State.rejectDecode_mgmt, ↓State.settleIngest_mgmt, ↓apply_ite State.mgmt, ite_self]; done) | (rename_i heq; have hk := congrArg (fun q => q.1.mgmt) heq; simp only [↓State.account_mgmt, ↓State.feedEngines_mgmt, ↓State.freeDecode_mgmt, ↓State.modReading_mgmt, ↓State.rejectDecode_mgmt, ↓State.settleIngest_mgmt] at hk; simp only [↓State.account_mgmt, ↓State.feedEngines_mgmt, ↓State.freeDecode_mgmt, ↓State.modReading_mgmt, ↓State.rejectDecode_mgmt, ↓State.settleIngest_mgmt, ↓apply_ite State.mgmt, ite_self]; exact hk.symm)))
theorem shardGo_mgmt (c : Nat) (scans : List HeaderScan) (bad : Bool) (a : Nat) (a4 : State) : (shardGo c scans bad a a4).mgmt = a4.mgmt := by
  induction a generalizing a4 with
  | zero => rfl
  | succ f ih =>
    unfold shardGo
    dsimp only
    repeat' split
    all_goals first | exact (State.rejectRec_mgmt ..).trans ((State.nextShard_mgmt ..).trans (State.ingRead_mgmt ..)) | exact (ih _).trans ((State.modIng_mgmt ..).trans (State.ingRead_mgmt ..)) | exact (ih _).trans (State.nextShard_mgmt ..) | exact State.readFrame_mgmt ..
theorem execRecordIngest_mgmt (c : Fin 16) (scans : List HeaderScan) (flashBad : Bool) (s : State) (t : State) (h : execRecordIngest c scans flashBad s = .next t) : t.mgmt = s.mgmt := by
  unfold execRecordIngest at h; (try dsimp only at h); (repeat' split at h) <;> (first  | contradiction | (obtain rfl := Host.Outcome.next.inj h; first | with_reducible rfl | (simp only [↓State.eventIf_mgmt, ↓shardGo_mgmt, ↓apply_ite State.mgmt, ite_self]; done) | (simp [↓State.eventIf_mgmt, ↓shardGo_mgmt, ↓apply_ite State.mgmt, ite_self]; done) | (rename_i heq; have hk := congrArg (fun q => q.1.mgmt) heq; simp only [↓State.eventIf_mgmt, ↓shardGo_mgmt] at hk; simp only [↓State.eventIf_mgmt, ↓shardGo_mgmt, ↓apply_ite State.mgmt, ite_self]; exact hk.symm)))
theorem execRecordRetire_mgmt (u : Fin 288) (tc : Nat) (s : State) (t : State) (h : execRecordRetire u tc s = .next t) : t.mgmt = s.mgmt := by
  unfold execRecordRetire at h; (try dsimp only at h); (repeat' split at h) <;> (first  | contradiction | (obtain rfl := Host.Outcome.next.inj h; first | with_reducible rfl | (simp only [↓State.modUnit_mgmt, ↓State.retire_mgmt, ↓apply_ite State.mgmt, ite_self]; done) | (simp [↓State.modUnit_mgmt, ↓State.retire_mgmt, ↓apply_ite State.mgmt, ite_self]; done) | (rename_i heq; have hk := congrArg (fun q => q.1.mgmt) heq; simp only [↓State.modUnit_mgmt, ↓State.retire_mgmt] at hk; simp only [↓State.modUnit_mgmt, ↓State.retire_mgmt, ↓apply_ite State.mgmt, ite_self]; exact hk.symm)))
theorem issueReduction_mgmt (op : Nat) (u : Nat) (r : Bytes) (env : RunEnv) (s : State) (t : State) (h : issueReduction op u r env s = .next t) : t.mgmt = s.mgmt := by
  unfold issueReduction at h; (try dsimp only at h); (repeat' split at h) <;> (first | (exact issue_mgmt (h := h) ..) | contradiction | (obtain rfl := Host.Outcome.next.inj h; first | with_reducible rfl | (simp only [↓apply_ite State.mgmt, ite_self]; done) | (simp [↓apply_ite State.mgmt, ite_self]; done) | (rename_i heq; have hk := congrArg (fun q => q.1.mgmt) heq; simp only [id] at hk; simp only [↓apply_ite State.mgmt, ite_self]; exact hk.symm)))
theorem execReductionMax_mgmt (u : Fin 256) (r : Bytes) (env : RunEnv) (s : State) (t : State) (h : execReductionMax u r env s = .next t) : t.mgmt = s.mgmt := by
  unfold execReductionMax at h; (try dsimp only at h); (repeat' split at h) <;> (first | (exact issueReduction_mgmt (h := h) ..) | contradiction | (obtain rfl := Host.Outcome.next.inj h; first | with_reducible rfl | (simp only [↓apply_ite State.mgmt, ite_self]; done) | (simp [↓apply_ite State.mgmt, ite_self]; done) | (rename_i heq; have hk := congrArg (fun q => q.1.mgmt) heq; simp only [id] at hk; simp only [↓apply_ite State.mgmt, ite_self]; exact hk.symm)))
theorem execReductionMean_mgmt (u : Fin 256) (r : Bytes) (env : RunEnv) (s : State) (t : State) (h : execReductionMean u r env s = .next t) : t.mgmt = s.mgmt := by
  unfold execReductionMean at h; (try dsimp only at h); (repeat' split at h) <;> (first | (exact issueReduction_mgmt (h := h) ..) | contradiction | (obtain rfl := Host.Outcome.next.inj h; first | with_reducible rfl | (simp only [↓apply_ite State.mgmt, ite_self]; done) | (simp [↓apply_ite State.mgmt, ite_self]; done) | (rename_i heq; have hk := congrArg (fun q => q.1.mgmt) heq; simp only [id] at hk; simp only [↓apply_ite State.mgmt, ite_self]; exact hk.symm)))
theorem execReductionMin_mgmt (u : Fin 256) (r : Bytes) (env : RunEnv) (s : State) (t : State) (h : execReductionMin u r env s = .next t) : t.mgmt = s.mgmt := by
  unfold execReductionMin at h; (try dsimp only at h); (repeat' split at h) <;> (first | (exact issueReduction_mgmt (h := h) ..) | contradiction | (obtain rfl := Host.Outcome.next.inj h; first | with_reducible rfl | (simp only [↓apply_ite State.mgmt, ite_self]; done) | (simp [↓apply_ite State.mgmt, ite_self]; done) | (rename_i heq; have hk := congrArg (fun q => q.1.mgmt) heq; simp only [id] at hk; simp only [↓apply_ite State.mgmt, ite_self]; exact hk.symm)))
theorem execReductionSum_mgmt (u : Fin 256) (r : Bytes) (env : RunEnv) (s : State) (t : State) (h : execReductionSum u r env s = .next t) : t.mgmt = s.mgmt := by
  unfold execReductionSum at h; (try dsimp only at h); (repeat' split at h) <;> (first | (exact issueReduction_mgmt (h := h) ..) | contradiction | (obtain rfl := Host.Outcome.next.inj h; first | with_reducible rfl | (simp only [↓apply_ite State.mgmt, ite_self]; done) | (simp [↓apply_ite State.mgmt, ite_self]; done) | (rename_i heq; have hk := congrArg (fun q => q.1.mgmt) heq; simp only [id] at hk; simp only [↓apply_ite State.mgmt, ite_self]; exact hk.symm)))
theorem execReductionSumsq_mgmt (u : Fin 256) (r : Bytes) (env : RunEnv) (s : State) (t : State) (h : execReductionSumsq u r env s = .next t) : t.mgmt = s.mgmt := by
  unfold execReductionSumsq at h; (try dsimp only at h); (repeat' split at h) <;> (first | (exact issueReduction_mgmt (h := h) ..) | contradiction | (obtain rfl := Host.Outcome.next.inj h; first | with_reducible rfl | (simp only [↓apply_ite State.mgmt, ite_self]; done) | (simp [↓apply_ite State.mgmt, ite_self]; done) | (rename_i heq; have hk := congrArg (fun q => q.1.mgmt) heq; simp only [id] at hk; simp only [↓apply_ite State.mgmt, ite_self]; exact hk.symm)))
theorem execRefclkFail_mgmt (r : RefClk) (s : State) (t : State) (h : execRefclkFail r s = .next t) : t.mgmt = s.mgmt := by
  unfold execRefclkFail at h; (try dsimp only at h); (repeat' split at h) <;> (first  | contradiction | (obtain rfl := Host.Outcome.next.inj h; first | with_reducible rfl | (simp only [↓State.event_mgmt, ↓State.platformEvent_mgmt, ↓apply_ite State.mgmt, ite_self]; done) | (simp [↓State.event_mgmt, ↓State.platformEvent_mgmt, ↓apply_ite State.mgmt, ite_self]; done) | (rename_i heq; have hk := congrArg (fun q => q.1.mgmt) heq; simp only [↓State.event_mgmt, ↓State.platformEvent_mgmt] at hk; simp only [↓State.event_mgmt, ↓State.platformEvent_mgmt, ↓apply_ite State.mgmt, ite_self]; exact hk.symm)))
theorem execRefclkRecover_mgmt (r : RefClk) (s : State) (t : State) (h : execRefclkRecover r s = .next t) : t.mgmt = s.mgmt := by
  unfold execRefclkRecover at h; (try dsimp only at h); (repeat' split at h) <;> (first  | contradiction | (obtain rfl := Host.Outcome.next.inj h; first | with_reducible rfl | (simp only [↓State.leaveHoldover_mgmt, ↓apply_ite State.mgmt, ite_self]; done) | (simp [↓State.leaveHoldover_mgmt, ↓apply_ite State.mgmt, ite_self]; done) | (rename_i heq; have hk := congrArg (fun q => q.1.mgmt) heq; simp only [↓State.leaveHoldover_mgmt] at hk; simp only [↓State.leaveHoldover_mgmt, ↓apply_ite State.mgmt, ite_self]; exact hk.symm)))
theorem execRelayout_mgmt (u : Fin 256) (r : Bytes) (env : RunEnv) (s : State) (t : State) (h : execRelayout u r env s = .next t) : t.mgmt = s.mgmt := by
  unfold execRelayout at h; (try dsimp only at h); (repeat' split at h) <;> (first | (exact issue_mgmt (h := h) ..) | contradiction | (obtain rfl := Host.Outcome.next.inj h; first | with_reducible rfl | (simp only [↓apply_ite State.mgmt, ite_self]; done) | (simp [↓apply_ite State.mgmt, ite_self]; done) | (rename_i heq; have hk := congrArg (fun q => q.1.mgmt) heq; simp only [id] at hk; simp only [↓apply_ite State.mgmt, ite_self]; exact hk.symm)))
theorem execReply_mgmt (link : Fin 24) (pkt : Bytes) (s : State) (t : State) (h : execReply link pkt s = .next t) : t.mgmt = s.mgmt := by
  unfold execReply at h; (try dsimp only at h); (repeat' split at h) <;> (first  | contradiction | (obtain rfl := Host.Outcome.next.inj h; first | with_reducible rfl | (simp only [↓State.count_mgmt, ↓State.modTick_mgmt, ↓State.takePacket_mgmt, ↓State.tryReply_mgmt, ↓apply_ite State.mgmt, ite_self]; done) | (simp [↓State.count_mgmt, ↓State.modTick_mgmt, ↓State.takePacket_mgmt, ↓State.tryReply_mgmt, ↓apply_ite State.mgmt, ite_self]; done) | (rename_i heq; have hk := congrArg (fun q => q.1.mgmt) heq; simp only [↓State.count_mgmt, ↓State.modTick_mgmt, ↓State.takePacket_mgmt, ↓State.tryReply_mgmt] at hk; simp only [↓State.count_mgmt, ↓State.modTick_mgmt, ↓State.takePacket_mgmt, ↓State.tryReply_mgmt, ↓apply_ite State.mgmt, ite_self]; exact hk.symm)))
theorem execRequestTimeout_mgmt (seq : Nat) (s : State) (t : State) (h : execRequestTimeout seq s = .next t) : t.mgmt = s.mgmt := by
  unfold execRequestTimeout at h; (try dsimp only at h); (repeat' split at h) <;> (first  | contradiction | (obtain rfl := Host.Outcome.next.inj h; first | with_reducible rfl | (simp only [↓State.failRequest_mgmt, ↓State.sendRouted_mgmt, ↓apply_ite State.mgmt, ite_self]; done) | (simp [↓State.failRequest_mgmt, ↓State.sendRouted_mgmt, ↓apply_ite State.mgmt, ite_self]; done) | (rename_i heq; have hk := congrArg (fun q => q.1.mgmt) heq; simp only [↓State.failRequest_mgmt, ↓State.sendRouted_mgmt] at hk; simp only [↓State.failRequest_mgmt, ↓State.sendRouted_mgmt, ↓apply_ite State.mgmt, ite_self]; exact hk.symm)))
theorem execReservationEnd_mgmt (link : Fin 24) (c : Fin 16) (tx : Bool) (idx : Nat) (s : State) (t : State) (h : execReservationEnd link c tx idx s = .next t) : t.mgmt = s.mgmt := by
  unfold execReservationEnd at h; (try dsimp only at h); (repeat' split at h) <;> (first  | contradiction | (obtain rfl := Host.Outcome.next.inj h; first | with_reducible rfl | (simp only [↓State.ackMirror_mgmt, ↓State.endCarry_mgmt, ↓apply_ite State.mgmt, ite_self]; done) | (simp [↓State.ackMirror_mgmt, ↓State.endCarry_mgmt, ↓apply_ite State.mgmt, ite_self]; done) | (rename_i heq; have hk := congrArg (fun q => q.1.mgmt) heq; simp only [↓State.ackMirror_mgmt, ↓State.endCarry_mgmt] at hk; simp only [↓State.ackMirror_mgmt, ↓State.endCarry_mgmt, ↓apply_ite State.mgmt, ite_self]; exact hk.symm)))
theorem execReservationStart_mgmt (link : Fin 24) (c : Fin 16) (idx : Nat) (s : State) (t : State) (h : execReservationStart link c idx s = .next t) : t.mgmt = s.mgmt := by
  unfold execReservationStart at h; (try dsimp only at h); (repeat' split at h) <;> (first  | contradiction | (obtain rfl := Host.Outcome.next.inj h; first | with_reducible rfl | (simp only [↓State.flag_mgmt, ↓State.modLink_mgmt, ↓State.sendMirror_mgmt, ↓State.sendPayload_mgmt, ↓apply_ite State.mgmt, ite_self]; done) | (simp [↓State.flag_mgmt, ↓State.modLink_mgmt, ↓State.sendMirror_mgmt, ↓State.sendPayload_mgmt, ↓apply_ite State.mgmt, ite_self]; done) | (rename_i heq; have hk := congrArg (fun q => q.1.mgmt) heq; simp only [↓State.flag_mgmt, ↓State.modLink_mgmt, ↓State.sendMirror_mgmt, ↓State.sendPayload_mgmt] at hk; simp only [↓State.flag_mgmt, ↓State.modLink_mgmt, ↓State.sendMirror_mgmt, ↓State.sendPayload_mgmt, ↓apply_ite State.mgmt, ite_self]; exact hk.symm)))
theorem execResetHeld_mgmt (s : State) (t : State) (h : execResetHeld s = .next t) : t.mgmt = s.mgmt := by
  unfold execResetHeld at h; (try dsimp only at h); (repeat' split at h) <;> (first  | contradiction | (obtain rfl := Host.Outcome.next.inj h; first | with_reducible rfl | (simp only [↓State.event_mgmt, ↓State.platformEvent_mgmt, ↓apply_ite State.mgmt, ite_self]; done) | (simp [↓State.event_mgmt, ↓State.platformEvent_mgmt, ↓apply_ite State.mgmt, ite_self]; done) | (rename_i heq; have hk := congrArg (fun q => q.1.mgmt) heq; simp only [↓State.event_mgmt, ↓State.platformEvent_mgmt] at hk; simp only [↓State.event_mgmt, ↓State.platformEvent_mgmt, ↓apply_ite State.mgmt, ite_self]; exact hk.symm)))
theorem execResetNRelease_mgmt (s : State) (t : State) (h : execResetNRelease s = .next t) : t.mgmt = s.mgmt := by
  unfold execResetNRelease at h; (try dsimp only at h); (repeat' split at h) <;> (first  | contradiction | (obtain rfl := Host.Outcome.next.inj h; first | with_reducible rfl | (simp only [↓State.emit_mgmt, ↓apply_ite State.mgmt, ite_self]; done) | (simp [↓State.emit_mgmt, ↓apply_ite State.mgmt, ite_self]; done) | (rename_i heq; have hk := congrArg (fun q => q.1.mgmt) heq; simp only [↓State.emit_mgmt] at hk; simp only [↓State.emit_mgmt, ↓apply_ite State.mgmt, ite_self]; exact hk.symm)))
theorem placeCopy_mgmt (c : Nat) (x : Nat) (a : List Ledger) (a3 : Bytes) (a4 : State) : (placeCopy c x a a3 a4).mgmt = a4.mgmt := by
  induction a generalizing a3 a4 with
  | nil => rfl
  | cons e t ih =>
    unfold placeCopy
    dsimp only
    exact (ih _ _).trans ((State.dirty_mgmt ..).trans (State.wrRaw_mgmt ..))
theorem execRestoreCopyDone_mgmt (c : Fin 16) (bad : Bool) (s : State) (t : State) (h : execRestoreCopyDone c bad s = .next t) : t.mgmt = s.mgmt := by
  unfold execRestoreCopyDone at h; (try dsimp only at h); (repeat' split at h) <;> (first  | contradiction | (obtain rfl := Host.Outcome.next.inj h; first | with_reducible rfl | (simp only [↓State.account_mgmt, ↓State.count_mgmt, ↓State.countVersion_mgmt, ↓State.event_mgmt, ↓State.modCtx_mgmt, ↓State.modHasp_mgmt, ↓State.modKv_mgmt, ↓State.resetPool_mgmt, ↓State.restoreSlots_mgmt, ↓State.showLs_mgmt, ↓placeCopy_mgmt, ↓over_mgmt, ↓foldl_mgmt, ↓apply_ite State.mgmt, ite_self]; done) | (simp [↓State.account_mgmt, ↓State.count_mgmt, ↓State.countVersion_mgmt, ↓State.event_mgmt, ↓State.modCtx_mgmt, ↓State.modHasp_mgmt, ↓State.modKv_mgmt, ↓State.resetPool_mgmt, ↓State.restoreSlots_mgmt, ↓State.showLs_mgmt, ↓placeCopy_mgmt, ↓over_mgmt, ↓foldl_mgmt, ↓apply_ite State.mgmt, ite_self]; done) | (rename_i heq; have hk := congrArg (fun q => q.1.mgmt) heq; simp only [↓State.account_mgmt, ↓State.count_mgmt, ↓State.countVersion_mgmt, ↓State.event_mgmt, ↓State.modCtx_mgmt, ↓State.modHasp_mgmt, ↓State.modKv_mgmt, ↓State.resetPool_mgmt, ↓State.restoreSlots_mgmt, ↓State.showLs_mgmt, ↓placeCopy_mgmt, ↓over_mgmt, ↓foldl_mgmt] at hk; simp only [↓State.account_mgmt, ↓State.count_mgmt, ↓State.countVersion_mgmt, ↓State.event_mgmt, ↓State.modCtx_mgmt, ↓State.modHasp_mgmt, ↓State.modKv_mgmt, ↓State.resetPool_mgmt, ↓State.restoreSlots_mgmt, ↓State.showLs_mgmt, ↓placeCopy_mgmt, ↓over_mgmt, ↓foldl_mgmt, ↓apply_ite State.mgmt, ite_self]; exact hk.symm)))
theorem execRingBoltAdd_mgmt (fn : Fin 17) (cmd : HostCmd) (s : State) (t : State) (h : execRingBoltAdd fn cmd s = .next t) : t.mgmt = s.mgmt := by
  unfold execRingBoltAdd at h; (try dsimp only at h); refine State.vfCmd_mgmt (t := t) (h := h) (h4 := ?_) .. <;> (intros; first | with_reducible rfl | (simp only [↓State.boltAdd_mgmt, ↓State.complete_mgmt, ↓apply_ite State.mgmt, ite_self]; done) | (simp [↓State.boltAdd_mgmt, ↓State.complete_mgmt, ↓apply_ite State.mgmt, ite_self]; done) | ((try dsimp only); (repeat' split) <;> (first | with_reducible rfl | (simp only [↓State.boltAdd_mgmt, ↓State.complete_mgmt, ↓apply_ite State.mgmt, ite_self]; done) | (simp [↓State.boltAdd_mgmt, ↓State.complete_mgmt, ↓apply_ite State.mgmt, ite_self]; done) | (rename_i heq; have hk := congrArg (fun q => q.1.mgmt) heq; simp only [↓State.boltAdd_mgmt, ↓State.complete_mgmt] at hk; simp only [↓State.boltAdd_mgmt, ↓State.complete_mgmt, ↓apply_ite State.mgmt, ite_self]; exact hk.symm))))
theorem execRingBoltSet_mgmt (fn : Fin 17) (cmd : HostCmd) (s : State) (t : State) (h : execRingBoltSet fn cmd s = .next t) : t.mgmt = s.mgmt := by
  unfold execRingBoltSet at h; (try dsimp only at h); refine State.vfCmd_mgmt (t := t) (h := h) (h4 := ?_) .. <;> (intros; first | with_reducible rfl | (simp only [↓State.boltSet_mgmt, ↓State.complete_mgmt, ↓apply_ite State.mgmt, ite_self]; done) | (simp [↓State.boltSet_mgmt, ↓State.complete_mgmt, ↓apply_ite State.mgmt, ite_self]; done) | ((try dsimp only); (repeat' split) <;> (first | with_reducible rfl | (simp only [↓State.boltSet_mgmt, ↓State.complete_mgmt, ↓apply_ite State.mgmt, ite_self]; done) | (simp [↓State.boltSet_mgmt, ↓State.complete_mgmt, ↓apply_ite State.mgmt, ite_self]; done) | (rename_i heq; have hk := congrArg (fun q => q.1.mgmt) heq; simp only [↓State.boltSet_mgmt, ↓State.complete_mgmt] at hk; simp only [↓State.boltSet_mgmt, ↓State.complete_mgmt, ↓apply_ite State.mgmt, ite_self]; exact hk.symm))))
theorem fetchGo_mgmt (fn : Nat) (a : List RingPacket) (a2 : State) : (fetchGo fn a a2).mgmt = a2.mgmt := by
  induction a generalizing a2 with
  | nil => rfl
  | cons e t ih =>
    unfold fetchGo
    dsimp only
    split
    · rfl
    split
    · exact State.ringError_mgmt ..
    split
    · rfl
    split
    · exact State.modRing_mgmt ..
    · exact (ih _).trans ((State.takeRingPacket_mgmt ..).trans ((State.modRing_mgmt ..).trans (State.countHost_mgmt ..)))
theorem execRingPoll_mgmt (fn : Fin 17) (words : RingWords) (pkts : List RingPacket) (s : State) (t : State) (h : execRingPoll fn words pkts s = .next t) : t.mgmt = s.mgmt := by
  unfold execRingPoll at h; (try dsimp only at h); (repeat' split at h) <;> (first  | contradiction | (obtain rfl := Host.Outcome.next.inj h; first | with_reducible rfl | (simp only [↓State.modRing_mgmt, ↓State.ringDrain_mgmt, ↓State.ringError_mgmt, ↓State.ringUp_mgmt, ↓State.showHead_mgmt, ↓fetchGo_mgmt, ↓apply_ite State.mgmt, ite_self]; done) | (simp [↓State.modRing_mgmt, ↓State.ringDrain_mgmt, ↓State.ringError_mgmt, ↓State.ringUp_mgmt, ↓State.showHead_mgmt, ↓fetchGo_mgmt, ↓apply_ite State.mgmt, ite_self]; done) | (rename_i heq; have hk := congrArg (fun q => q.1.mgmt) heq; simp only [↓State.modRing_mgmt, ↓State.ringDrain_mgmt, ↓State.ringError_mgmt, ↓State.ringUp_mgmt, ↓State.showHead_mgmt, ↓fetchGo_mgmt] at hk; simp only [↓State.modRing_mgmt, ↓State.ringDrain_mgmt, ↓State.ringError_mgmt, ↓State.ringUp_mgmt, ↓State.showHead_mgmt, ↓fetchGo_mgmt, ↓apply_ite State.mgmt, ite_self]; exact hk.symm)))
theorem execRmsNorm_mgmt (u : Fin 256) (r : Bytes) (env : RunEnv) (s : State) (t : State) (h : execRmsNorm u r env s = .next t) : t.mgmt = s.mgmt := by
  unfold execRmsNorm at h; (try dsimp only at h); (repeat' split at h) <;> (first | (exact issue_mgmt (h := h) ..) | contradiction | (obtain rfl := Host.Outcome.next.inj h; first | with_reducible rfl | (simp only [↓apply_ite State.mgmt, ite_self]; done) | (simp [↓apply_ite State.mgmt, ite_self]; done) | (rename_i heq; have hk := congrArg (fun q => q.1.mgmt) heq; simp only [id] at hk; simp only [↓apply_ite State.mgmt, ite_self]; exact hk.symm)))
theorem execRowRemap_mgmt (row : Nat) (bad : Bool) (s : State) (t : State) (h : execRowRemap row bad s = .next t) : t.mgmt = s.mgmt := by
  unfold execRowRemap at h; (try dsimp only at h); (repeat' split at h) <;> (first  | contradiction | (obtain rfl := Host.Outcome.next.inj h; first | with_reducible rfl | (simp only [↓State.dramUe_mgmt, ↓State.event_mgmt, ↓apply_ite State.mgmt, ite_self]; done) | (simp [↓State.dramUe_mgmt, ↓State.event_mgmt, ↓apply_ite State.mgmt, ite_self]; done) | (rename_i heq; have hk := congrArg (fun q => q.1.mgmt) heq; simp only [↓State.dramUe_mgmt, ↓State.event_mgmt] at hk; simp only [↓State.dramUe_mgmt, ↓State.event_mgmt, ↓apply_ite State.mgmt, ite_self]; exact hk.symm)))
theorem execScale_mgmt (w : Fin 16) (r : Bytes) (env : RunEnv) (s : State) (t : State) (h : execScale w r env s = .next t) : t.mgmt = s.mgmt := by
  unfold execScale at h; (try dsimp only at h); refine issueUpdate_mgmt (t := t) (h := h) (h7 := ?_) .. <;> (intros; first | with_reducible rfl | (simp only [↓State.modCtx_mgmt, ↓apply_ite State.mgmt, ite_self]; done) | (simp [↓State.modCtx_mgmt, ↓apply_ite State.mgmt, ite_self]; done) | ((try dsimp only); (repeat' split) <;> (first | with_reducible rfl | (simp only [↓State.modCtx_mgmt, ↓apply_ite State.mgmt, ite_self]; done) | (simp [↓State.modCtx_mgmt, ↓apply_ite State.mgmt, ite_self]; done) | (rename_i heq; have hk := congrArg (fun q => q.1.mgmt) heq; simp only [↓State.modCtx_mgmt] at hk; simp only [↓State.modCtx_mgmt, ↓apply_ite State.mgmt, ite_self]; exact hk.symm))))
theorem execScatter_mgmt (u : Fin 256) (r : Bytes) (env : RunEnv) (s : State) (t : State) (h : execScatter u r env s = .next t) : t.mgmt = s.mgmt := by
  unfold execScatter at h; (try dsimp only at h); (repeat' split at h) <;> (first | (exact issue_mgmt (h := h) ..) | contradiction | (obtain rfl := Host.Outcome.next.inj h; first | with_reducible rfl | (simp only [↓apply_ite State.mgmt, ite_self]; done) | (simp [↓apply_ite State.mgmt, ite_self]; done) | (rename_i heq; have hk := congrArg (fun q => q.1.mgmt) heq; simp only [id] at hk; simp only [↓apply_ite State.mgmt, ite_self]; exact hk.symm)))
theorem execScatterAdd_mgmt (u : Fin 256) (r : Bytes) (env : RunEnv) (s : State) (t : State) (h : execScatterAdd u r env s = .next t) : t.mgmt = s.mgmt := by
  unfold execScatterAdd at h; (try dsimp only at h); (repeat' split at h) <;> (first | (exact issue_mgmt (h := h) ..) | contradiction | (obtain rfl := Host.Outcome.next.inj h; first | with_reducible rfl | (simp only [↓apply_ite State.mgmt, ite_self]; done) | (simp [↓apply_ite State.mgmt, ite_self]; done) | (rename_i heq; have hk := congrArg (fun q => q.1.mgmt) heq; simp only [id] at hk; simp only [↓apply_ite State.mgmt, ite_self]; exact hk.symm)))
theorem execSched_mgmt (link : Fin 24) (b : Bytes) (s : State) (t : State) (h : execSched link b s = .next t) : t.mgmt = s.mgmt := by
  unfold execSched at h
  injection h with h; subst h
  refine State.takePacket_mgmt s _ _ _ _ (fun p u => ?_)
  dsimp only
  split
  · exact State.count_mgmt ..
  · split
    · split
      · exact State.mirrorPart_mgmt ..
      · exact State.count_mgmt ..
    · split
      · exact (State.gotPacket_mgmt ..).trans (State.wrRaw_mgmt ..)
      · exact State.count_mgmt ..
theorem execScrubRead_mgmt (_row : Nat) (errs : List MemErr) (s : State) (t : State) (h : execScrubRead _row errs s = .next t) : t.mgmt = s.mgmt := by
  unfold execScrubRead at h; (try dsimp only at h); (repeat' split at h) <;> (first  | contradiction | (obtain rfl := Host.Outcome.next.inj h; first | with_reducible rfl | (simp only [↓State.dramErrs_mgmt, ↓apply_ite State.mgmt, ite_self]; done) | (simp [↓State.dramErrs_mgmt, ↓apply_ite State.mgmt, ite_self]; done) | (rename_i heq; have hk := congrArg (fun q => q.1.mgmt) heq; simp only [↓State.dramErrs_mgmt] at hk; simp only [↓State.dramErrs_mgmt, ↓apply_ite State.mgmt, ite_self]; exact hk.symm)))
theorem execSend_mgmt (u : Fin 256) (r : Bytes) (env : RunEnv) (s : State) (t : State) (h : execSend u r env s = .next t) : t.mgmt = s.mgmt := by
  unfold execSend at h; (try dsimp only at h); (repeat' split at h) <;> (first | (exact issue_mgmt (h := h) ..) | contradiction | (obtain rfl := Host.Outcome.next.inj h; first | with_reducible rfl | (simp only [↓apply_ite State.mgmt, ite_self]; done) | (simp [↓apply_ite State.mgmt, ite_self]; done) | (rename_i heq; have hk := congrArg (fun q => q.1.mgmt) heq; simp only [id] at hk; simp only [↓apply_ite State.mgmt, ite_self]; exact hk.symm)))
theorem execSensor_mgmt (fn : Fin 17) (cmd : HostCmd) (first : Bool) (last : Bool) (s : State) (t : State) (h : execSensor fn cmd first last s = .next t) : t.mgmt = s.mgmt := by
  unfold execSensor at h; (try dsimp only at h); refine State.vfCmd_mgmt (t := t) (h := h) (h4 := ?_) .. <;> (intros; first | with_reducible rfl | (simp only [↓State.complete_mgmt, ↓State.count_mgmt, ↓State.endFrame_mgmt, ↓State.modMedia_mgmt, ↓apply_ite State.mgmt, ite_self]; done) | (simp [↓State.complete_mgmt, ↓State.count_mgmt, ↓State.endFrame_mgmt, ↓State.modMedia_mgmt, ↓apply_ite State.mgmt, ite_self]; done) | ((try dsimp only); (repeat' split) <;> (first | with_reducible rfl | (simp only [↓State.complete_mgmt, ↓State.count_mgmt, ↓State.endFrame_mgmt, ↓State.modMedia_mgmt, ↓apply_ite State.mgmt, ite_self]; done) | (simp [↓State.complete_mgmt, ↓State.count_mgmt, ↓State.endFrame_mgmt, ↓State.modMedia_mgmt, ↓apply_ite State.mgmt, ite_self]; done) | (rename_i heq; have hk := congrArg (fun q => q.1.mgmt) heq; simp only [↓State.complete_mgmt, ↓State.count_mgmt, ↓State.endFrame_mgmt, ↓State.modMedia_mgmt] at hk; simp only [↓State.complete_mgmt, ↓State.count_mgmt, ↓State.endFrame_mgmt, ↓State.modMedia_mgmt, ↓apply_ite State.mgmt, ite_self]; exact hk.symm))))
theorem execShedAssert_mgmt (s : State) (t : State) (h : execShedAssert s = .next t) : t.mgmt = s.mgmt := by
  unfold execShedAssert at h; (try dsimp only at h); (repeat' split at h) <;> (first  | contradiction | (obtain rfl := Host.Outcome.next.inj h; first | with_reducible rfl | (simp only [↓State.event_mgmt, ↓State.modPwr_mgmt, ↓State.showCap_mgmt, ↓apply_ite State.mgmt, ite_self]; done) | (simp [↓State.event_mgmt, ↓State.modPwr_mgmt, ↓State.showCap_mgmt, ↓apply_ite State.mgmt, ite_self]; done) | (rename_i heq; have hk := congrArg (fun q => q.1.mgmt) heq; simp only [↓State.event_mgmt, ↓State.modPwr_mgmt, ↓State.showCap_mgmt] at hk; simp only [↓State.event_mgmt, ↓State.modPwr_mgmt, ↓State.showCap_mgmt, ↓apply_ite State.mgmt, ite_self]; exact hk.symm)))
theorem execShedRelease_mgmt (s : State) (t : State) (h : execShedRelease s = .next t) : t.mgmt = s.mgmt := by
  unfold execShedRelease at h; (try dsimp only at h); (repeat' split at h) <;> (first  | contradiction | (obtain rfl := Host.Outcome.next.inj h; first | with_reducible rfl | (simp only [↓State.modPwr_mgmt, ↓State.showCap_mgmt, ↓apply_ite State.mgmt, ite_self]; done) | (simp [↓State.modPwr_mgmt, ↓State.showCap_mgmt, ↓apply_ite State.mgmt, ite_self]; done) | (rename_i heq; have hk := congrArg (fun q => q.1.mgmt) heq; simp only [↓State.modPwr_mgmt, ↓State.showCap_mgmt] at hk; simp only [↓State.modPwr_mgmt, ↓State.showCap_mgmt, ↓apply_ite State.mgmt, ite_self]; exact hk.symm)))
theorem execSilence_mgmt (link : Fin 24) (b : Bytes) (s : State) (t : State) (h : execSilence link b s = .next t) : t.mgmt = s.mgmt := by
  unfold execSilence at h; (try dsimp only at h); (repeat' split at h) <;> (first  | contradiction | (obtain rfl := Host.Outcome.next.inj h; first | with_reducible rfl | (simp only [↓State.count_mgmt, ↓State.modTick_mgmt, ↓State.takePacket_mgmt, ↓apply_ite State.mgmt, ite_self]; done) | (simp [↓State.count_mgmt, ↓State.modTick_mgmt, ↓State.takePacket_mgmt, ↓apply_ite State.mgmt, ite_self]; done) | (rename_i heq; have hk := congrArg (fun q => q.1.mgmt) heq; simp only [↓State.count_mgmt, ↓State.modTick_mgmt, ↓State.takePacket_mgmt] at hk; simp only [↓State.count_mgmt, ↓State.modTick_mgmt, ↓State.takePacket_mgmt, ↓apply_ite State.mgmt, ite_self]; exact hk.symm)))
theorem execSoftmax_mgmt (u : Fin 256) (r : Bytes) (env : RunEnv) (s : State) (t : State) (h : execSoftmax u r env s = .next t) : t.mgmt = s.mgmt := by
  unfold execSoftmax at h; (try dsimp only at h); (repeat' split at h) <;> (first | (exact issue_mgmt (h := h) ..) | contradiction | (obtain rfl := Host.Outcome.next.inj h; first | with_reducible rfl | (simp only [↓apply_ite State.mgmt, ite_self]; done) | (simp [↓apply_ite State.mgmt, ite_self]; done) | (rename_i heq; have hk := congrArg (fun q => q.1.mgmt) heq; simp only [id] at hk; simp only [↓apply_ite State.mgmt, ite_self]; exact hk.symm)))
theorem execStateRead_mgmt (fn : Fin 17) (cmd : HostCmd) (errs : ReadErrs) (s : State) (t : State) (h : execStateRead fn cmd errs s = .next t) : t.mgmt = s.mgmt := by
  unfold execStateRead at h; (try dsimp only at h); refine State.vfCmd_mgmt (t := t) (h := h) (h4 := ?_) .. <;> (intros; first | with_reducible rfl | (simp only [↓State.complete_mgmt, ↓State.completeR_mgmt, ↓State.countTier_mgmt, ↓State.escapeBytes_mgmt, ↓State.eventIf_mgmt, ↓State.noteErrs_mgmt, ↓State.replyData_mgmt, ↓apply_ite State.mgmt, ite_self]; done) | (simp [↓State.complete_mgmt, ↓State.completeR_mgmt, ↓State.countTier_mgmt, ↓State.escapeBytes_mgmt, ↓State.eventIf_mgmt, ↓State.noteErrs_mgmt, ↓State.replyData_mgmt, ↓apply_ite State.mgmt, ite_self]; done) | ((try dsimp only); (repeat' split) <;> (first | with_reducible rfl | (simp only [↓State.complete_mgmt, ↓State.completeR_mgmt, ↓State.countTier_mgmt, ↓State.escapeBytes_mgmt, ↓State.eventIf_mgmt, ↓State.noteErrs_mgmt, ↓State.replyData_mgmt, ↓apply_ite State.mgmt, ite_self]; done) | (simp [↓State.complete_mgmt, ↓State.completeR_mgmt, ↓State.countTier_mgmt, ↓State.escapeBytes_mgmt, ↓State.eventIf_mgmt, ↓State.noteErrs_mgmt, ↓State.replyData_mgmt, ↓apply_ite State.mgmt, ite_self]; done) | (rename_i heq; have hk := congrArg (fun q => q.1.mgmt) heq; simp only [↓State.complete_mgmt, ↓State.completeR_mgmt, ↓State.countTier_mgmt, ↓State.escapeBytes_mgmt, ↓State.eventIf_mgmt, ↓State.noteErrs_mgmt, ↓State.replyData_mgmt] at hk; simp only [↓State.complete_mgmt, ↓State.completeR_mgmt, ↓State.countTier_mgmt, ↓State.escapeBytes_mgmt, ↓State.eventIf_mgmt, ↓State.noteErrs_mgmt, ↓State.replyData_mgmt, ↓apply_ite State.mgmt, ite_self]; exact hk.symm))))
theorem execStateWrite_mgmt (fn : Fin 17) (cmd : HostCmd) (s : State) (t : State) (h : execStateWrite fn cmd s = .next t) : t.mgmt = s.mgmt := by
  unfold execStateWrite at h; (try dsimp only at h); refine State.vfCmd_mgmt (t := t) (h := h) (h4 := ?_) .. <;> (intros; first | with_reducible rfl | (simp only [↓State.complete_mgmt, ↓State.countTier_mgmt, ↓State.dirty_mgmt, ↓State.wr_mgmt, ↓State.wrRaw_mgmt, ↓over_mgmt, ↓foldl_mgmt, ↓apply_ite State.mgmt, ite_self]; done) | (simp [↓State.complete_mgmt, ↓State.countTier_mgmt, ↓State.dirty_mgmt, ↓State.wr_mgmt, ↓State.wrRaw_mgmt, ↓over_mgmt, ↓foldl_mgmt, ↓apply_ite State.mgmt, ite_self]; done) | ((try dsimp only); (repeat' split) <;> (first | with_reducible rfl | (simp only [↓State.complete_mgmt, ↓State.countTier_mgmt, ↓State.dirty_mgmt, ↓State.wr_mgmt, ↓State.wrRaw_mgmt, ↓over_mgmt, ↓foldl_mgmt, ↓apply_ite State.mgmt, ite_self]; done) | (simp [↓State.complete_mgmt, ↓State.countTier_mgmt, ↓State.dirty_mgmt, ↓State.wr_mgmt, ↓State.wrRaw_mgmt, ↓over_mgmt, ↓foldl_mgmt, ↓apply_ite State.mgmt, ite_self]; done) | (rename_i heq; have hk := congrArg (fun q => q.1.mgmt) heq; simp only [↓State.complete_mgmt, ↓State.countTier_mgmt, ↓State.dirty_mgmt, ↓State.wr_mgmt, ↓State.wrRaw_mgmt, ↓over_mgmt, ↓foldl_mgmt] at hk; simp only [↓State.complete_mgmt, ↓State.countTier_mgmt, ↓State.dirty_mgmt, ↓State.wr_mgmt, ↓State.wrRaw_mgmt, ↓over_mgmt, ↓foldl_mgmt, ↓apply_ite State.mgmt, ite_self]; exact hk.symm))))
theorem execStretchExpiry_mgmt (now : Nat) (pinHigh : Bool) (s : State) (t : State) (h : execStretchExpiry now pinHigh s = .next t) : t.mgmt = s.mgmt := by
  unfold execStretchExpiry at h; (try dsimp only at h); (repeat' split at h) <;> (first  | contradiction | (obtain rfl := Host.Outcome.next.inj h; first | with_reducible rfl | (simp only [↓State.emit_mgmt, ↓State.event_mgmt, ↓apply_ite State.mgmt, ite_self]; done) | (simp [↓State.emit_mgmt, ↓State.event_mgmt, ↓apply_ite State.mgmt, ite_self]; done) | (rename_i heq; have hk := congrArg (fun q => q.1.mgmt) heq; simp only [↓State.emit_mgmt, ↓State.event_mgmt] at hk; simp only [↓State.emit_mgmt, ↓State.event_mgmt, ↓apply_ite State.mgmt, ite_self]; exact hk.symm)))
theorem execSupplyStageRecover_mgmt (s : State) (t : State) (h : execSupplyStageRecover s = .next t) : t.mgmt = s.mgmt := by
  unfold execSupplyStageRecover at h; (try dsimp only at h); (repeat' split at h) <;> (first  | contradiction | (obtain rfl := Host.Outcome.next.inj h; first | with_reducible rfl | (simp only [↓State.modPwr_mgmt, ↓State.retryHeld_mgmt, ↓State.showCap_mgmt, ↓apply_ite State.mgmt, ite_self]; done) | (simp [↓State.modPwr_mgmt, ↓State.retryHeld_mgmt, ↓State.showCap_mgmt, ↓apply_ite State.mgmt, ite_self]; done) | (rename_i heq; have hk := congrArg (fun q => q.1.mgmt) heq; simp only [↓State.modPwr_mgmt, ↓State.retryHeld_mgmt, ↓State.showCap_mgmt] at hk; simp only [↓State.modPwr_mgmt, ↓State.retryHeld_mgmt, ↓State.showCap_mgmt, ↓apply_ite State.mgmt, ite_self]; exact hk.symm)))
theorem execSwapInPage_mgmt (c : Fin 16) (slot : Nat) (layer : Nat) (idx : Nat) (page : Bytes) (s : State) (t : State) (h : execSwapInPage c slot layer idx page s = .next t) : t.mgmt = s.mgmt := by
  unfold execSwapInPage at h; (try dsimp only at h); (repeat' split at h) <;> (first  | contradiction | (obtain rfl := Host.Outcome.next.inj h; first | with_reducible rfl | (simp only [↓State.account_mgmt, ↓State.event_mgmt, ↓State.modKv_mgmt, ↓State.wrRaw_mgmt, ↓apply_ite State.mgmt, ite_self]; done) | (simp [↓State.account_mgmt, ↓State.event_mgmt, ↓State.modKv_mgmt, ↓State.wrRaw_mgmt, ↓apply_ite State.mgmt, ite_self]; done) | (rename_i heq; have hk := congrArg (fun q => q.1.mgmt) heq; simp only [↓State.account_mgmt, ↓State.event_mgmt, ↓State.modKv_mgmt, ↓State.wrRaw_mgmt] at hk; simp only [↓State.account_mgmt, ↓State.event_mgmt, ↓State.modKv_mgmt, ↓State.wrRaw_mgmt, ↓apply_ite State.mgmt, ite_self]; exact hk.symm)))
theorem execSwapPageSent_mgmt (c : Fin 16) (slot : Nat) (layer : Nat) (idx : Nat) (errs : ReadErrs) (s : State) (t : State) (h : execSwapPageSent c slot layer idx errs s = .next t) : t.mgmt = s.mgmt := by
  unfold execSwapPageSent at h; (try dsimp only at h); (repeat' split at h) <;> (first  | contradiction | (obtain rfl := Host.Outcome.next.inj h; first | with_reducible rfl | (simp only [↓State.account_mgmt, ↓State.count_mgmt, ↓State.emit_mgmt, ↓State.escapeBytes_mgmt, ↓State.event_mgmt, ↓State.modKv_mgmt, ↓State.noteErrs_mgmt, ↓apply_ite State.mgmt, ite_self]; done) | (simp [↓State.account_mgmt, ↓State.count_mgmt, ↓State.emit_mgmt, ↓State.escapeBytes_mgmt, ↓State.event_mgmt, ↓State.modKv_mgmt, ↓State.noteErrs_mgmt, ↓apply_ite State.mgmt, ite_self]; done) | (rename_i heq; have hk := congrArg (fun q => q.1.mgmt) heq; simp only [↓State.account_mgmt, ↓State.count_mgmt, ↓State.emit_mgmt, ↓State.escapeBytes_mgmt, ↓State.event_mgmt, ↓State.modKv_mgmt, ↓State.noteErrs_mgmt] at hk; simp only [↓State.account_mgmt, ↓State.count_mgmt, ↓State.emit_mgmt, ↓State.escapeBytes_mgmt, ↓State.event_mgmt, ↓State.modKv_mgmt, ↓State.noteErrs_mgmt, ↓apply_ite State.mgmt, ite_self]; exact hk.symm)))
theorem execSweepComplete_mgmt (u : Fin 256) (pass : Bool) (s : State) (t : State) (h : execSweepComplete u pass s = .next t) : t.mgmt = s.mgmt := by
  unfold execSweepComplete at h; (try dsimp only at h); (repeat' split at h) <;> (first  | contradiction | (obtain rfl := Host.Outcome.next.inj h; first | with_reducible rfl | (simp only [↓State.count_mgmt, ↓State.event_mgmt, ↓State.makePermanent_mgmt, ↓State.markSuspect_mgmt, ↓State.modUnit_mgmt, ↓State.settleSuspects_mgmt, ↓State.unitEvent_mgmt, ↓apply_ite State.mgmt, ite_self]; done) | (simp [↓State.count_mgmt, ↓State.event_mgmt, ↓State.makePermanent_mgmt, ↓State.markSuspect_mgmt, ↓State.modUnit_mgmt, ↓State.settleSuspects_mgmt, ↓State.unitEvent_mgmt, ↓apply_ite State.mgmt, ite_self]; done) | (rename_i heq; have hk := congrArg (fun q => q.1.mgmt) heq; simp only [↓State.count_mgmt, ↓State.event_mgmt, ↓State.makePermanent_mgmt, ↓State.markSuspect_mgmt, ↓State.modUnit_mgmt, ↓State.settleSuspects_mgmt, ↓State.unitEvent_mgmt] at hk; simp only [↓State.count_mgmt, ↓State.event_mgmt, ↓State.makePermanent_mgmt, ↓State.markSuspect_mgmt, ↓State.modUnit_mgmt, ↓State.settleSuspects_mgmt, ↓State.unitEvent_mgmt, ↓apply_ite State.mgmt, ite_self]; exact hk.symm)))
theorem execTickBoundary_mgmt (k : Nat) (env : BoundaryEnv) (s : State) (t : State) (h : execTickBoundary k env s = .next t) : t.mgmt = s.mgmt := by
  unfold execTickBoundary at h; (try dsimp only at h); (repeat' split at h) <;> (first  | contradiction | (obtain rfl := Host.Outcome.next.inj h; first | with_reducible rfl | (simp only [↓State.beginTick_mgmt, ↓State.endTick_mgmt, ↓State.expireCredits_mgmt, ↓State.idleTick_mgmt, ↓State.modTick_mgmt, ↓apply_ite State.mgmt, ite_self]; done) | (simp [↓State.beginTick_mgmt, ↓State.endTick_mgmt, ↓State.expireCredits_mgmt, ↓State.idleTick_mgmt, ↓State.modTick_mgmt, ↓apply_ite State.mgmt, ite_self]; done) | (rename_i heq; have hk := congrArg (fun q => q.1.mgmt) heq; simp only [↓State.beginTick_mgmt, ↓State.endTick_mgmt, ↓State.expireCredits_mgmt, ↓State.idleTick_mgmt, ↓State.modTick_mgmt] at hk; simp only [↓State.beginTick_mgmt, ↓State.endTick_mgmt, ↓State.expireCredits_mgmt, ↓State.idleTick_mgmt, ↓State.modTick_mgmt, ↓apply_ite State.mgmt, ite_self]; exact hk.symm)))
theorem execTickPacket_mgmt (link : Fin 24) (pkt : Bytes) (s : State) (t : State) (h : execTickPacket link pkt s = .next t) : t.mgmt = s.mgmt := by
  unfold execTickPacket at h; (try dsimp only at h); (repeat' split at h) <;> (first  | contradiction | (obtain rfl := Host.Outcome.next.inj h; first | with_reducible rfl | (simp only [↓State.takePacket_mgmt, ↓State.takeTick_mgmt, ↓apply_ite State.mgmt, ite_self]; done) | (simp [↓State.takePacket_mgmt, ↓State.takeTick_mgmt, ↓apply_ite State.mgmt, ite_self]; done) | (rename_i heq; have hk := congrArg (fun q => q.1.mgmt) heq; simp only [↓State.takePacket_mgmt, ↓State.takeTick_mgmt] at hk; simp only [↓State.takePacket_mgmt, ↓State.takeTick_mgmt, ↓apply_ite State.mgmt, ite_self]; exact hk.symm)))
theorem execTokLoad_mgmt (fn : Fin 17) (cmd : HostCmd) (s : State) (t : State) (h : execTokLoad fn cmd s = .next t) : t.mgmt = s.mgmt := by
  unfold execTokLoad at h; (try dsimp only at h); refine State.adminCmd_mgmt (t := t) (h := h) (h4 := ?_) .. <;> (intros; first | with_reducible rfl | (simp only [↓State.complete_mgmt, ↓State.modMedia_mgmt, ↓apply_ite State.mgmt, ite_self]; done) | (simp [↓State.complete_mgmt, ↓State.modMedia_mgmt, ↓apply_ite State.mgmt, ite_self]; done) | ((try dsimp only); (repeat' split) <;> (first | with_reducible rfl | (simp only [↓State.complete_mgmt, ↓State.modMedia_mgmt, ↓apply_ite State.mgmt, ite_self]; done) | (simp [↓State.complete_mgmt, ↓State.modMedia_mgmt, ↓apply_ite State.mgmt, ite_self]; done) | (rename_i heq; have hk := congrArg (fun q => q.1.mgmt) heq; simp only [↓State.complete_mgmt, ↓State.modMedia_mgmt] at hk; simp only [↓State.complete_mgmt, ↓State.modMedia_mgmt, ↓apply_ite State.mgmt, ite_self]; exact hk.symm))))
theorem execTstate_mgmt (link : Fin 24) (b : Bytes) (s : State) (t : State) (h : execTstate link b s = .next t) : t.mgmt = s.mgmt := by
  unfold execTstate at h; obtain rfl := Host.Outcome.next.inj h; refine State.takePacket_mgmt (h4 := ?_) .. <;> (intros; first | with_reducible rfl | (simp only [↓State.count_mgmt, ↓State.modTick_mgmt, ↓State.takePacket_mgmt, ↓State.takeTick_mgmt, ↓State.takeVoteNotice_mgmt, ↓over_mgmt, ↓foldl_mgmt, ↓apply_ite State.mgmt, ite_self]; done) | (simp [↓State.count_mgmt, ↓State.modTick_mgmt, ↓State.takePacket_mgmt, ↓State.takeTick_mgmt, ↓State.takeVoteNotice_mgmt, ↓over_mgmt, ↓foldl_mgmt, ↓apply_ite State.mgmt, ite_self]; done) | ((try dsimp only); (repeat' split) <;> (first | with_reducible rfl | (simp only [↓State.count_mgmt, ↓State.modTick_mgmt, ↓State.takePacket_mgmt, ↓State.takeTick_mgmt, ↓State.takeVoteNotice_mgmt, ↓over_mgmt, ↓foldl_mgmt, ↓apply_ite State.mgmt, ite_self]; done) | (simp [↓State.count_mgmt, ↓State.modTick_mgmt, ↓State.takePacket_mgmt, ↓State.takeTick_mgmt, ↓State.takeVoteNotice_mgmt, ↓over_mgmt, ↓foldl_mgmt, ↓apply_ite State.mgmt, ite_self]; done) | (rename_i heq; have hk := congrArg (fun q => q.1.mgmt) heq; simp only [↓State.count_mgmt, ↓State.modTick_mgmt, ↓State.takePacket_mgmt, ↓State.takeTick_mgmt, ↓State.takeVoteNotice_mgmt, ↓over_mgmt, ↓foldl_mgmt] at hk; simp only [↓State.count_mgmt, ↓State.modTick_mgmt, ↓State.takePacket_mgmt, ↓State.takeTick_mgmt, ↓State.takeVoteNotice_mgmt, ↓over_mgmt, ↓foldl_mgmt, ↓apply_ite State.mgmt, ite_self]; exact hk.symm))))
theorem execTsync_mgmt (link : Fin 24) (b : Bytes) (arrival : Int) (sent : Int) (s : State) (t : State) (h : execTsync link b arrival sent s = .next t) : t.mgmt = s.mgmt := by
  unfold execTsync at h; (try dsimp only at h); (repeat' split at h) <;> (first  | contradiction | (obtain rfl := Host.Outcome.next.inj h; first | with_reducible rfl | (simp only [↓State.count_mgmt, ↓State.measureOffset_mgmt, ↓State.sendSync_mgmt, ↓State.takePacket_mgmt, ↓apply_ite State.mgmt, ite_self]; done) | (simp [↓State.count_mgmt, ↓State.measureOffset_mgmt, ↓State.sendSync_mgmt, ↓State.takePacket_mgmt, ↓apply_ite State.mgmt, ite_self]; done) | (rename_i heq; have hk := congrArg (fun q => q.1.mgmt) heq; simp only [↓State.count_mgmt, ↓State.measureOffset_mgmt, ↓State.sendSync_mgmt, ↓State.takePacket_mgmt] at hk; simp only [↓State.count_mgmt, ↓State.measureOffset_mgmt, ↓State.sendSync_mgmt, ↓State.takePacket_mgmt, ↓apply_ite State.mgmt, ite_self]; exact hk.symm)))
theorem execUnitRead_mgmt (kind : Nat) (unit : Nat) (s : State) (t : State) (h : execUnitRead kind unit s = .next t) : t.mgmt = s.mgmt := by
  unfold execUnitRead at h; (try dsimp only at h); refine State.answers_mgmt (t := t) (h := h) (h1 := ?_) .. <;> (intros; first | with_reducible rfl | (simp only [↓State.mgmtReply_mgmt, ↓apply_ite State.mgmt, ite_self]; done) | (simp [↓State.mgmtReply_mgmt, ↓apply_ite State.mgmt, ite_self]; done) | ((try dsimp only); (repeat' split) <;> (first | with_reducible rfl | (simp only [↓State.mgmtReply_mgmt, ↓apply_ite State.mgmt, ite_self]; done) | (simp [↓State.mgmtReply_mgmt, ↓apply_ite State.mgmt, ite_self]; done) | (rename_i heq; have hk := congrArg (fun q => q.1.mgmt) heq; simp only [↓State.mgmtReply_mgmt] at hk; simp only [↓State.mgmtReply_mgmt, ↓apply_ite State.mgmt, ite_self]; exact hk.symm))))
theorem execUnitRequestClearClass_mgmt (sess : Option Nat) (kind : Nat) (unit : Nat) (s : State) (t : State) (h : execUnitRequestClearClass sess kind unit s = .next t) : t.mgmt = s.mgmt := by
  unfold execUnitRequestClearClass at h; (try dsimp only at h); refine State.secured_mgmt (t := t) (h := h) (h3 := ?_) .. <;> (intros; first | with_reducible rfl | (simp only [↓State.enterAction_mgmt, ↓State.mgmtReply_mgmt, ↓apply_ite State.mgmt, ite_self]; done) | (simp [↓State.enterAction_mgmt, ↓State.mgmtReply_mgmt, ↓apply_ite State.mgmt, ite_self]; done) | ((try dsimp only); (repeat' split) <;> (first | with_reducible rfl | (simp only [↓State.enterAction_mgmt, ↓State.mgmtReply_mgmt, ↓apply_ite State.mgmt, ite_self]; done) | (simp [↓State.enterAction_mgmt, ↓State.mgmtReply_mgmt, ↓apply_ite State.mgmt, ite_self]; done) | (rename_i heq; have hk := congrArg (fun q => q.1.mgmt) heq; simp only [↓State.enterAction_mgmt, ↓State.mgmtReply_mgmt] at hk; simp only [↓State.enterAction_mgmt, ↓State.mgmtReply_mgmt, ↓apply_ite State.mgmt, ite_self]; exact hk.symm))))
theorem execUnitRequestFence_mgmt (sess : Option Nat) (kind : Nat) (unit : Nat) (s : State) (t : State) (h : execUnitRequestFence sess kind unit s = .next t) : t.mgmt = s.mgmt := by
  unfold execUnitRequestFence at h; (try dsimp only at h); refine State.secured_mgmt (t := t) (h := h) (h3 := ?_) .. <;> (intros; first | with_reducible rfl | (simp only [↓State.enterAction_mgmt, ↓State.mgmtReply_mgmt, ↓apply_ite State.mgmt, ite_self]; done) | (simp [↓State.enterAction_mgmt, ↓State.mgmtReply_mgmt, ↓apply_ite State.mgmt, ite_self]; done) | ((try dsimp only); (repeat' split) <;> (first | with_reducible rfl | (simp only [↓State.enterAction_mgmt, ↓State.mgmtReply_mgmt, ↓apply_ite State.mgmt, ite_self]; done) | (simp [↓State.enterAction_mgmt, ↓State.mgmtReply_mgmt, ↓apply_ite State.mgmt, ite_self]; done) | (rename_i heq; have hk := congrArg (fun q => q.1.mgmt) heq; simp only [↓State.enterAction_mgmt, ↓State.mgmtReply_mgmt] at hk; simp only [↓State.enterAction_mgmt, ↓State.mgmtReply_mgmt, ↓apply_ite State.mgmt, ite_self]; exact hk.symm))))
theorem execUnitRequestRestore_mgmt (sess : Option Nat) (kind : Nat) (unit : Nat) (s : State) (t : State) (h : execUnitRequestRestore sess kind unit s = .next t) : t.mgmt = s.mgmt := by
  unfold execUnitRequestRestore at h; (try dsimp only at h); refine State.secured_mgmt (t := t) (h := h) (h3 := ?_) .. <;> (intros; first | with_reducible rfl | (simp only [↓State.enterAction_mgmt, ↓State.mgmtReply_mgmt, ↓apply_ite State.mgmt, ite_self]; done) | (simp [↓State.enterAction_mgmt, ↓State.mgmtReply_mgmt, ↓apply_ite State.mgmt, ite_self]; done) | ((try dsimp only); (repeat' split) <;> (first | with_reducible rfl | (simp only [↓State.enterAction_mgmt, ↓State.mgmtReply_mgmt, ↓apply_ite State.mgmt, ite_self]; done) | (simp [↓State.enterAction_mgmt, ↓State.mgmtReply_mgmt, ↓apply_ite State.mgmt, ite_self]; done) | (rename_i heq; have hk := congrArg (fun q => q.1.mgmt) heq; simp only [↓State.enterAction_mgmt, ↓State.mgmtReply_mgmt] at hk; simp only [↓State.enterAction_mgmt, ↓State.mgmtReply_mgmt, ↓apply_ite State.mgmt, ite_self]; exact hk.symm))))
theorem execVariant_mgmt (w : Fin 16) (r : Bytes) (env : RunEnv) (s : State) (t : State) (h : execVariant w r env s = .next t) : t.mgmt = s.mgmt := by
  unfold execVariant at h; (try dsimp only at h); refine issueUpdate_mgmt (t := t) (h := h) (h7 := ?_) .. <;> (intros; first | with_reducible rfl | (simp only [↓State.eventIf_mgmt, ↓apply_ite State.mgmt, ite_self]; done) | (simp [↓State.eventIf_mgmt, ↓apply_ite State.mgmt, ite_self]; done) | ((try dsimp only); (repeat' split) <;> (first | with_reducible rfl | (simp only [↓State.eventIf_mgmt, ↓apply_ite State.mgmt, ite_self]; done) | (simp [↓State.eventIf_mgmt, ↓apply_ite State.mgmt, ite_self]; done) | (rename_i heq; have hk := congrArg (fun q => q.1.mgmt) heq; simp only [↓State.eventIf_mgmt] at hk; simp only [↓State.eventIf_mgmt, ↓apply_ite State.mgmt, ite_self]; exact hk.symm))))
theorem execVoteDeadline_mgmt (c : Fin 16) (s : State) (t : State) (h : execVoteDeadline c s = .next t) : t.mgmt = s.mgmt := by
  unfold execVoteDeadline at h; (try dsimp only at h); (repeat' split at h) <;> (first  | contradiction | (obtain rfl := Host.Outcome.next.inj h; first | with_reducible rfl | (simp only [↓State.noteVote_mgmt, ↓apply_ite State.mgmt, ite_self]; done) | (simp [↓State.noteVote_mgmt, ↓apply_ite State.mgmt, ite_self]; done) | (rename_i heq; have hk := congrArg (fun q => q.1.mgmt) heq; simp only [↓State.noteVote_mgmt] at hk; simp only [↓State.noteVote_mgmt, ↓apply_ite State.mgmt, ite_self]; exact hk.symm)))
theorem execVoteNotice_mgmt (link : Fin 24) (b : Bytes) (s : State) (t : State) (h : execVoteNotice link b s = .next t) : t.mgmt = s.mgmt := by
  unfold execVoteNotice at h; (try dsimp only at h); (repeat' split at h) <;> (first  | contradiction | (obtain rfl := Host.Outcome.next.inj h; first | with_reducible rfl | (simp only [↓State.count_mgmt, ↓State.takeMsg_mgmt, ↓State.takeVoteNotice_mgmt, ↓apply_ite State.mgmt, ite_self]; done) | (simp [↓State.count_mgmt, ↓State.takeMsg_mgmt, ↓State.takeVoteNotice_mgmt, ↓apply_ite State.mgmt, ite_self]; done) | (rename_i heq; have hk := congrArg (fun q => q.1.mgmt) heq; simp only [↓State.count_mgmt, ↓State.takeMsg_mgmt, ↓State.takeVoteNotice_mgmt] at hk; simp only [↓State.count_mgmt, ↓State.takeMsg_mgmt, ↓State.takeVoteNotice_mgmt, ↓apply_ite State.mgmt, ite_self]; exact hk.symm)))
theorem execWaitEpoch_mgmt (fn : Fin 17) (cmd : HostCmd) (s : State) (t : State) (h : execWaitEpoch fn cmd s = .next t) : t.mgmt = s.mgmt := by
  unfold execWaitEpoch at h; (try dsimp only at h); refine State.vfCmd_mgmt (t := t) (h := h) (h4 := ?_) .. <;> (intros; first | with_reducible rfl | (simp only [↓State.complete_mgmt, ↓State.modCtx_mgmt, ↓apply_ite State.mgmt, ite_self]; done) | (simp [↓State.complete_mgmt, ↓State.modCtx_mgmt, ↓apply_ite State.mgmt, ite_self]; done) | ((try dsimp only); (repeat' split) <;> (first | with_reducible rfl | (simp only [↓State.complete_mgmt, ↓State.modCtx_mgmt, ↓apply_ite State.mgmt, ite_self]; done) | (simp [↓State.complete_mgmt, ↓State.modCtx_mgmt, ↓apply_ite State.mgmt, ite_self]; done) | (rename_i heq; have hk := congrArg (fun q => q.1.mgmt) heq; simp only [↓State.complete_mgmt, ↓State.modCtx_mgmt] at hk; simp only [↓State.complete_mgmt, ↓State.modCtx_mgmt, ↓apply_ite State.mgmt, ite_self]; exact hk.symm))))
theorem execWardResetComplete_mgmt (w : Fin 16) (s : State) (t : State) (h : execWardResetComplete w s = .next t) : t.mgmt = s.mgmt := by
  unfold execWardResetComplete at h; (try dsimp only at h); (repeat' split at h) <;> (first  | contradiction | (obtain rfl := Host.Outcome.next.inj h; first | with_reducible rfl | (simp only [↓State.returnLater_mgmt, ↓apply_ite State.mgmt, ite_self]; done) | (simp [↓State.returnLater_mgmt, ↓apply_ite State.mgmt, ite_self]; done) | (rename_i heq; have hk := congrArg (fun q => q.1.mgmt) heq; simp only [↓State.returnLater_mgmt] at hk; simp only [↓State.returnLater_mgmt, ↓apply_ite State.mgmt, ite_self]; exact hk.symm)))
theorem execWrite_mgmt (link : Fin 24) (b : Bytes) (s : State) (t : State) (h : execWrite link b s = .next t) : t.mgmt = s.mgmt := by
  unfold execWrite at h; (try dsimp only at h); (repeat' split at h) <;> (first  | contradiction | (obtain rfl := Host.Outcome.next.inj h; first | with_reducible rfl | (simp only [↓State.answer_mgmt, ↓State.countSpot_mgmt, ↓State.moves_mgmt, ↓State.noteArrival_mgmt, ↓State.refuse_mgmt, ↓State.settleGuard_mgmt, ↓State.spotWrite_mgmt, ↓State.takePacket_mgmt, ↓apply_ite State.mgmt, ite_self]; done) | (simp [↓State.answer_mgmt, ↓State.countSpot_mgmt, ↓State.moves_mgmt, ↓State.noteArrival_mgmt, ↓State.refuse_mgmt, ↓State.settleGuard_mgmt, ↓State.spotWrite_mgmt, ↓State.takePacket_mgmt, ↓apply_ite State.mgmt, ite_self]; done) | (rename_i heq; have hk := congrArg (fun q => q.1.mgmt) heq; simp only [↓State.answer_mgmt, ↓State.countSpot_mgmt, ↓State.moves_mgmt, ↓State.noteArrival_mgmt, ↓State.refuse_mgmt, ↓State.settleGuard_mgmt, ↓State.spotWrite_mgmt, ↓State.takePacket_mgmt] at hk; simp only [↓State.answer_mgmt, ↓State.countSpot_mgmt, ↓State.moves_mgmt, ↓State.noteArrival_mgmt, ↓State.refuse_mgmt, ↓State.settleGuard_mgmt, ↓State.spotWrite_mgmt, ↓State.takePacket_mgmt, ↓apply_ite State.mgmt, ite_self]; exact hk.symm)))
theorem execZeroingComplete_mgmt (c : Fin 16) (s : State) (t : State) (h : execZeroingComplete c s = .next t) : t.mgmt = s.mgmt := by
  unfold execZeroingComplete at h; (try dsimp only at h); (repeat' split at h) <;> (first  | contradiction | (obtain rfl := Host.Outcome.next.inj h; first | with_reducible rfl | (simp only [↓State.event_mgmt, ↓State.modCtx_mgmt, ↓State.zeroPartitions_mgmt, ↓apply_ite State.mgmt, ite_self]; done) | (simp [↓State.event_mgmt, ↓State.modCtx_mgmt, ↓State.zeroPartitions_mgmt, ↓apply_ite State.mgmt, ite_self]; done) | (rename_i heq; have hk := congrArg (fun q => q.1.mgmt) heq; simp only [↓State.event_mgmt, ↓State.modCtx_mgmt, ↓State.zeroPartitions_mgmt] at hk; simp only [↓State.event_mgmt, ↓State.modCtx_mgmt, ↓State.zeroPartitions_mgmt, ↓apply_ite State.mgmt, ite_self]; exact hk.symm)))

end Sys2Proof.Machine
end

