-- ==== Sys2Proof/WellFormed.lean ====
section
/-! DEFINITION. Well-formed commands: the bytes and numbers that a command carries fit the fields that the manual gives them. What a meaning does with a command does not rest on it: an ill-formed packet, record or argument is answered as the manual says. -/

namespace Sys2Proof

/-- A number fits a field of `n` values. -/
def below (n v : Nat) : Bool := decide (v < n)

/-- A string of exactly `n` bytes. -/
def lenIs (n : Nat) (b : Bytes) : Bool := b.length == n

/-- A packet: a header of 32 bytes and at most 4,096 bytes of payload (R312, R313). -/
def packetLen (b : Bytes) : Bool := decide (32 ≤ b.length ∧ b.length ≤ 4128)

/-- A record: 64 or 128 bytes (R132, R133). -/
def recordLen (b : Bytes) : Bool := b.length == 64 || b.length == 128

/-- Symbols in error lie within a beat (R265, R266). -/
def errsOk (l : List MemErr) : Bool := l.all (fun e => e.symbols.all (below 136))

/-- SRAM errors name one of the four kinds of SRAM (R102); stacked DRAM errors lie within their beats (R265). -/
def readErrsOk (e : ReadErrs) : Bool := e.sram.all (fun x => below 4 x.space) && errsOk e.dram

/-- Energies of 16 wards and of the five pools, FEC counts of 24 links, credits of links and pools that exist (R313, R334, R402). -/
def boundaryOk (e : BoundaryEnv) : Bool :=
  e.wardMj.length == 16 && e.poolMj.length == 5 && e.linkCe.length == 24 && e.inFlight.all (fun p => below 24 p.1 && below 18 p.2.1) && readErrsOk e.errs

/-- A host command: arguments of 64 bits (R514). -/
def hostOk (c : HostCmd) : Bool := decide (c.arg0 < 2 ^ 64 ∧ c.arg1 < 2 ^ 64 ∧ c.arg2 < 2 ^ 64 ∧ c.arg3 < 2 ^ 64)

/-- Scans name the 64 slots of a schema at most once (R459). -/
def scansOk (l : List HeaderScan) : Bool := l.all (fun x => decide (x.slot < 64)) && decide ((l.map (·.slot)).Nodup)

/-- Index words of 32 bits (R510). -/
def ringWordsOk (w : RingWords) : Bool := [w.cmdTail, w.cmdHead, w.cplTail, w.cplHead, w.evtTail, w.evtHead].all (below (2 ^ 32))

/-- Packets of a ring: headers of 64 bytes (R514). -/
def ringOk (l : List RingPacket) : Bool := l.all (fun p => lenIs 64 p.header)

/-- As many readings as the die or the stack has sensors (R260, R582). -/
def readingsOk (n : Nat) (l : List Nat) : Bool := l.length == n && l.all (below 256)

/-- An access of 4 or 8 bytes (R609). -/
def sizeOk (n : Nat) : Bool := n == 4 || n == 8

/-- Whether the operands of a command fit their fields. -/
def wellFormed (i : Instr) : Bool :=
  match i with
  | .tickBoundary k env => below (2 ^ 64) k && boundaryOk env
  | .tickPacket _ pkt => packetLen pkt
  | .reply _ pkt => packetLen pkt
  | .childReplyTimeout _ => true
  | .silence _ pkt => packetLen pkt
  | .presenceNotice _ pkt => packetLen pkt
  | .tstate _ pkt => packetLen pkt
  | .deputyTakeover => true
  | .tsync _ pkt _ _ => packetLen pkt
  | .offsetMeasure _ => true
  | .adriftLimit => true
  | .voteNotice _ pkt => packetLen pkt
  | .voteDeadline _ => true
  | .firstFrameCopyDone _ => true
  | .commitDeadline _ => true
  | .restoreCopyDone _ _ => true
  | .swapPageSent _ _ _ _ errs => readErrsOk errs
  | .swapInPage _ _ _ _ _ => true
  | .stackTempSample readings _ => readingsOk 32 readings
  | .permuteLimit _ => true
  | .failoverStreamComplete _ => true
  | .deathDeclared addr => below 65536 addr
  | .matmul _ rec env => recordLen rec && readErrsOk env.errs
  | .elementwiseChain _ rec env => recordLen rec && readErrsOk env.errs
  | .reductionSum _ rec env => recordLen rec && readErrsOk env.errs
  | .reductionMax _ rec env => recordLen rec && readErrsOk env.errs
  | .reductionMin _ rec env => recordLen rec && readErrsOk env.errs
  | .reductionSumsq _ rec env => recordLen rec && readErrsOk env.errs
  | .reductionMean _ rec env => recordLen rec && readErrsOk env.errs
  | .softmax _ rec env => recordLen rec && readErrsOk env.errs
  | .logSoftmax _ rec env => recordLen rec && readErrsOk env.errs
  | .layerNorm _ rec env => recordLen rec && readErrsOk env.errs
  | .rmsNorm _ rec env => recordLen rec && readErrsOk env.errs
  | .relayout _ rec env => recordLen rec && readErrsOk env.errs
  | .gather _ rec env => recordLen rec && readErrsOk env.errs
  | .scatter _ rec env => recordLen rec && readErrsOk env.errs
  | .scatterAdd _ rec env => recordLen rec && readErrsOk env.errs
  | .quantise _ rec env => recordLen rec && readErrsOk env.errs
  | .dequantise _ rec env => recordLen rec && readErrsOk env.errs
  | .send _ rec env => recordLen rec && readErrsOk env.errs
  | .receiveCopy _ rec env => recordLen rec && readErrsOk env.errs
  | .receiveAdd _ rec env => recordLen rec && readErrsOk env.errs
  | .receiveMax _ rec env => recordLen rec && readErrsOk env.errs
  | .dmaMove _ rec env => recordLen rec && readErrsOk env.errs
  | .nextVariantMove _ rec env => recordLen rec && readErrsOk env.errs
  | .boltWait _ rec _ => recordLen rec
  | .boltAdd _ rec _ => recordLen rec
  | .boltSet _ rec _ => recordLen rec
  | .boltWaitTimeout _ => true
  | .checkerExport _ rec env => recordLen rec && readErrsOk env.errs
  | .checkerCompare _ rec env => recordLen rec && readErrsOk env.errs
  | .convolution _ rec env => recordLen rec && readErrsOk env.errs
  | .maxPool _ rec env => recordLen rec && readErrsOk env.errs
  | .averagePool _ rec env => recordLen rec && readErrsOk env.errs
  | .bilinearResize _ rec env => recordLen rec && readErrsOk env.errs
  | .nearestResize _ rec env => recordLen rec && readErrsOk env.errs
  | .attentionFwd _ rec env => recordLen rec && readErrsOk env.errs
  | .attentionBwd _ rec env => recordLen rec && readErrsOk env.errs
  | .attentionAppend _ rec env => recordLen rec && readErrsOk env.errs
  | .attentionMerge _ rec env => recordLen rec && readErrsOk env.errs
  | .elem _ rec env => recordLen rec && readErrsOk env.errs
  | .norm _ rec env => recordLen rec && readErrsOk env.errs
  | .fuse _ rec env => recordLen rec && readErrsOk env.errs
  | .scale _ rec env => recordLen rec && readErrsOk env.errs
  | .carry _ rec env => recordLen rec && readErrsOk env.errs
  | .ortho _ rec env => recordLen rec && readErrsOk env.errs
  | .kstat _ rec env => recordLen rec && readErrsOk env.errs
  | .kroot _ rec env => recordLen rec && readErrsOk env.errs
  | .kapply _ rec env => recordLen rec && readErrsOk env.errs
  | .variant _ rec env => recordLen rec && readErrsOk env.errs
  | .recordRetire _ _ => true
  | .reservationStart _ _ _ => true
  | .reservationEnd _ _ _ _ => true
  | .mirrorAck _ pkt => packetLen pkt
  | .mirrorAckTimeout _ _ => true
  | .sched _ pkt => packetLen pkt
  | .packetForward _ pkt => packetLen pkt
  | .packetAged _ => true
  | .credit _ pkt => packetLen pkt
  | .hello _ pkt => packetLen pkt
  | .helloTimer => true
  | .write _ pkt => packetLen pkt
  | .read _ pkt errs => packetLen pkt && readErrsOk errs
  | .readData _ pkt => packetLen pkt
  | .ack _ pkt errs => packetLen pkt && readErrsOk errs
  | .error _ pkt => packetLen pkt
  | .requestTimeout seq => below 65536 seq
  | .probe _ pkt _ => packetLen pkt
  | .assign _ pkt _ => packetLen pkt
  | .neighbours _ pkt _ => packetLen pkt
  | .tableWrite _ pkt _ => packetLen pkt
  | .tableSeal _ pkt _ => packetLen pkt
  | .fmRegWrite _ pkt _ => packetLen pkt
  | .fmRegRead _ pkt _ => packetLen pkt
  | .tickStart _ pkt _ => packetLen pkt
  | .resume _ pkt _ => packetLen pkt
  | .fmReset _ pkt _ => packetLen pkt
  | .linkTrainingDone _ _ _ _ => true
  | .linkDown _ => true
  | .codewordUncorrectable _ => true
  | .fabPermAtWrite _ _ => true
  | .key _ => true
  | .release _ => true
  | .zeroingComplete _ => true
  | .ctxSelectHiWrite _ => true
  | .ctxBoltValWrite _ => true
  | .ctxBoltAddWrite _ => true
  | .hspEvictWrite _ => true
  | .hspFoVersionWrite _ => true
  | .enrol => true
  | .permanenceNotice _ pkt => packetLen pkt
  | .sweepComplete _ _ => true
  | .unitClassHourly _ => true
  | .historyCompact => true
  | .recordIngest _ scans _ => scansOk scans
  | .recordDecoded _ _ _ _ => true
  | .batchDeadline _ => true
  | .adapterTransferDone _ v _ => below 65536 v
  | .pictureDecoded _ _ _ _ _ => true
  | .decodeTimeout _ _ => true
  | .livePictureLate _ => true
  | .liveStreamEnable _ _ => true
  | .archiveEncodeDone _ => true
  | .mediaFwSwitchDone => true
  | .nandProgramDone block _ => below (2 ^ 34) block
  | .readDisturbRelocate block => below (2 ^ 34) block
  | .scrubRead row errs => below (2 ^ 25) row && errsOk errs
  | .rowRemap row _ => below (2 ^ 25) row
  | .ringPoll _ words pkts => ringWordsOk words && ringOk pkts
  | .nop _ cmd => hostOk cmd
  | .fmCmd _ cmd => hostOk cmd
  | .tokLoad _ cmd => hostOk cmd
  | .flashWrite _ cmd => hostOk cmd
  | .flashRead _ cmd _ => hostOk cmd
  | .flashTrim _ cmd => hostOk cmd
  | .flashFlush _ cmd => hostOk cmd
  | .flashFormat _ cmd => hostOk cmd
  | .planLoad _ cmd => hostOk cmd
  | .planStart _ cmd => hostOk cmd
  | .planUnload _ cmd => hostOk cmd
  | .waitEpoch _ cmd => hostOk cmd
  | .stateRead _ cmd errs => hostOk cmd && readErrsOk errs
  | .stateWrite _ cmd => hostOk cmd
  | .ringBoltAdd _ cmd => hostOk cmd
  | .ringBoltSet _ cmd => hostOk cmd
  | .record _ cmd scans => hostOk cmd && scansOk scans
  | .live _ cmd width height _ _ _ => hostOk cmd && below 65536 width && below 65536 height
  | .sensor _ cmd _ _ => hostOk cmd
  | .ringEnable _ => true
  | .ringDisable _ => true
  | .irqTimer _ _ => true
  | .functionLevelReset _ => true
  | .perstAssert => true
  | .d3hotEntry _ => true
  | .powerOn => true
  | .resetNAssert _ => true
  | .stretchExpiry _ _ => true
  | .resetHeld => true
  | .rstCmd _ _ => true
  | .watchdogExpiry _ => true
  | .fatalEscalation _ => true
  | .pllLockTimeout _ => true
  | .bringupPhaseComplete _ _ => true
  | .wardResetComplete _ => true
  | .refclkFail _ => true
  | .refclkRecover _ => true
  | .clkSelect _ => true
  | .holdoverLimit => true
  | .pcieRefclkFail => true
  | .pwrLadderWrite _ => true
  | .vinSample mv _ => below 65536 mv
  | .supplyStageRecover => true
  | .railTimeout => true
  | .railUndervolt _ => true
  | .shedAssert => true
  | .shedRelease => true
  | .governorTick _ _ => true
  | .dieTempSample readings _ => readingsOk 72 readings
  | .setEndpointId _ eid => below (2 ^ 8) eid
  | .getEndpointId _ => true
  | .getMctpVersionSupport _ msgType => below (2 ^ 8) msgType
  | .getMessageTypeSupport _ => true
  | .getVendorDefinedMessageSupport _ => true
  | .getVersion => true
  | .getCapabilities => true
  | .negotiateAlgorithms _ _ _ _ => true
  | .getDigests => true
  | .getCertificate slot offset len => below (2 ^ 8) slot && below 65536 offset && below 65536 len
  | .challenge slot nonce => below (2 ^ 8) slot && lenIs 32 nonce
  | .getMeasurements idx => below (2 ^ 8) idx
  | .keyExchange reqId => below 65536 reqId
  | .finish _ _ => true
  | .heartbeat _ => true
  | .keyUpdate _ => true
  | .endSession _ => true
  | .getInfo => true
  | .mgmtRegRead off => below (2 ^ 32) off
  | .mgmtRegWrite _ off _ _ => below (2 ^ 32) off
  | .ladder _ rung => below (2 ^ 8) rung
  | .mgmtReset _ scope _ => below (2 ^ 8) scope
  | .unitRead kind unit => below (2 ^ 8) kind && below (2 ^ 32) unit
  | .unitRequestFence _ kind unit => below (2 ^ 8) kind && below (2 ^ 32) unit
  | .unitRequestRestore _ kind unit => below (2 ^ 8) kind && below (2 ^ 32) unit
  | .unitRequestClearClass _ kind unit => below (2 ^ 8) kind && below (2 ^ 32) unit
  | .histRead firstSeq count => below (2 ^ 32) firstSeq && below (2 ^ 8) count
  | .setTime _ seconds => below (2 ^ 64) seconds
  | .setFabricKey _ _ => true
  | .requestUpdate _ component => below 65536 component
  | .firmwareVerify component _ _ => below 65536 component
  | .firmwareActivate component => below 65536 component
  | .mgmtRestartDone => true
  | .getPdr sensor => below 65536 sensor
  | .getSensorReading sensor => below 65536 sensor
  | .setEventReceiver eid => below (2 ^ 8) eid
  | .loWordRead _ off size => below (2 ^ 32) off && sizeOk size
  | .accSnapEpochRead _ => true
  | .pwrFcastTickLoRead => true
  | .registerWrite _ off size v _ => below (2 ^ 32) off && sizeOk size && below (2 ^ 64) v
  | .jtagBypass _ => true
  | .jtagIdcode => true
  | .jtagSamplePreload => true
  | .jtagExtest _ => true
  | .resetNRelease => true
  | .perstRelease => true
  | .rebuildComplete _ => true
  | .linkHoldEnd => true
  | .debugUnlock _ => true
  | .unsupportedMessage msgType code _ => below (2 ^ 8) msgType && below (2 ^ 8) code

end Sys2Proof
end

