-- ==== Sys2Proof/Laws/PerInstr.lean ====
section
/-! SUPPORT. The statement family Framing: what a well-formed command carries on a link or in a record fits one packet (R312, R313) or one record (R132). One lemma per command. -/

namespace Sys2Proof.Laws

/-- The packet, message or record whose bytes a command carries; empty for a command that carries none. -/
def carried (i : Instr) : Bytes :=
  match i with
  | .tickBoundary _ _ => []
  | .tickPacket _ pkt => pkt
  | .reply _ pkt => pkt
  | .childReplyTimeout _ => []
  | .silence _ pkt => pkt
  | .presenceNotice _ pkt => pkt
  | .tstate _ pkt => pkt
  | .deputyTakeover => []
  | .tsync _ pkt _ _ => pkt
  | .offsetMeasure _ => []
  | .adriftLimit => []
  | .voteNotice _ pkt => pkt
  | .voteDeadline _ => []
  | .firstFrameCopyDone _ => []
  | .commitDeadline _ => []
  | .restoreCopyDone _ _ => []
  | .swapPageSent _ _ _ _ _ => []
  | .swapInPage _ _ _ _ _ => []
  | .stackTempSample _ _ => []
  | .permuteLimit _ => []
  | .failoverStreamComplete _ => []
  | .deathDeclared _ => []
  | .matmul _ rec _ => rec
  | .elementwiseChain _ rec _ => rec
  | .reductionSum _ rec _ => rec
  | .reductionMax _ rec _ => rec
  | .reductionMin _ rec _ => rec
  | .reductionSumsq _ rec _ => rec
  | .reductionMean _ rec _ => rec
  | .softmax _ rec _ => rec
  | .logSoftmax _ rec _ => rec
  | .layerNorm _ rec _ => rec
  | .rmsNorm _ rec _ => rec
  | .relayout _ rec _ => rec
  | .gather _ rec _ => rec
  | .scatter _ rec _ => rec
  | .scatterAdd _ rec _ => rec
  | .quantise _ rec _ => rec
  | .dequantise _ rec _ => rec
  | .send _ rec _ => rec
  | .receiveCopy _ rec _ => rec
  | .receiveAdd _ rec _ => rec
  | .receiveMax _ rec _ => rec
  | .dmaMove _ rec _ => rec
  | .nextVariantMove _ rec _ => rec
  | .boltWait _ rec _ => rec
  | .boltAdd _ rec _ => rec
  | .boltSet _ rec _ => rec
  | .boltWaitTimeout _ => []
  | .checkerExport _ rec _ => rec
  | .checkerCompare _ rec _ => rec
  | .convolution _ rec _ => rec
  | .maxPool _ rec _ => rec
  | .averagePool _ rec _ => rec
  | .bilinearResize _ rec _ => rec
  | .nearestResize _ rec _ => rec
  | .attentionFwd _ rec _ => rec
  | .attentionBwd _ rec _ => rec
  | .attentionAppend _ rec _ => rec
  | .attentionMerge _ rec _ => rec
  | .elem _ rec _ => rec
  | .norm _ rec _ => rec
  | .fuse _ rec _ => rec
  | .scale _ rec _ => rec
  | .carry _ rec _ => rec
  | .ortho _ rec _ => rec
  | .kstat _ rec _ => rec
  | .kroot _ rec _ => rec
  | .kapply _ rec _ => rec
  | .variant _ rec _ => rec
  | .recordRetire _ _ => []
  | .reservationStart _ _ _ => []
  | .reservationEnd _ _ _ _ => []
  | .mirrorAck _ pkt => pkt
  | .mirrorAckTimeout _ _ => []
  | .sched _ pkt => pkt
  | .packetForward _ pkt => pkt
  | .packetAged _ => []
  | .credit _ pkt => pkt
  | .hello _ pkt => pkt
  | .helloTimer => []
  | .write _ pkt => pkt
  | .read _ pkt _ => pkt
  | .readData _ pkt => pkt
  | .ack _ pkt _ => pkt
  | .error _ pkt => pkt
  | .requestTimeout _ => []
  | .probe _ pkt _ => pkt
  | .assign _ pkt _ => pkt
  | .neighbours _ pkt _ => pkt
  | .tableWrite _ pkt _ => pkt
  | .tableSeal _ pkt _ => pkt
  | .fmRegWrite _ pkt _ => pkt
  | .fmRegRead _ pkt _ => pkt
  | .tickStart _ pkt _ => pkt
  | .resume _ pkt _ => pkt
  | .fmReset _ pkt _ => pkt
  | .linkTrainingDone _ _ _ _ => []
  | .linkDown _ => []
  | .codewordUncorrectable _ => []
  | .fabPermAtWrite _ _ => []
  | .key _ => []
  | .release _ => []
  | .zeroingComplete _ => []
  | .ctxSelectHiWrite _ => []
  | .ctxBoltValWrite _ => []
  | .ctxBoltAddWrite _ => []
  | .hspEvictWrite _ => []
  | .hspFoVersionWrite _ => []
  | .enrol => []
  | .permanenceNotice _ pkt => pkt
  | .sweepComplete _ _ => []
  | .unitClassHourly _ => []
  | .historyCompact => []
  | .recordIngest _ _ _ => []
  | .recordDecoded _ _ _ _ => []
  | .batchDeadline _ => []
  | .adapterTransferDone _ _ _ => []
  | .pictureDecoded _ _ _ _ _ => []
  | .decodeTimeout _ _ => []
  | .livePictureLate _ => []
  | .liveStreamEnable _ _ => []
  | .archiveEncodeDone _ => []
  | .mediaFwSwitchDone => []
  | .nandProgramDone _ _ => []
  | .readDisturbRelocate _ => []
  | .scrubRead _ _ => []
  | .rowRemap _ _ => []
  | .ringPoll _ _ _ => []
  | .nop _ _ => []
  | .fmCmd _ _ => []
  | .tokLoad _ _ => []
  | .flashWrite _ _ => []
  | .flashRead _ _ _ => []
  | .flashTrim _ _ => []
  | .flashFlush _ _ => []
  | .flashFormat _ _ => []
  | .planLoad _ _ => []
  | .planStart _ _ => []
  | .planUnload _ _ => []
  | .waitEpoch _ _ => []
  | .stateRead _ _ _ => []
  | .stateWrite _ _ => []
  | .ringBoltAdd _ _ => []
  | .ringBoltSet _ _ => []
  | .record _ _ _ => []
  | .live _ _ _ _ _ _ _ => []
  | .sensor _ _ _ _ => []
  | .ringEnable _ => []
  | .ringDisable _ => []
  | .irqTimer _ _ => []
  | .functionLevelReset _ => []
  | .perstAssert => []
  | .d3hotEntry _ => []
  | .powerOn => []
  | .resetNAssert _ => []
  | .stretchExpiry _ _ => []
  | .resetHeld => []
  | .rstCmd _ _ => []
  | .watchdogExpiry _ => []
  | .fatalEscalation _ => []
  | .pllLockTimeout _ => []
  | .bringupPhaseComplete _ _ => []
  | .wardResetComplete _ => []
  | .refclkFail _ => []
  | .refclkRecover _ => []
  | .clkSelect _ => []
  | .holdoverLimit => []
  | .pcieRefclkFail => []
  | .pwrLadderWrite _ => []
  | .vinSample _ _ => []
  | .supplyStageRecover => []
  | .railTimeout => []
  | .railUndervolt _ => []
  | .shedAssert => []
  | .shedRelease => []
  | .governorTick _ _ => []
  | .dieTempSample _ _ => []
  | .setEndpointId _ _ => []
  | .getEndpointId _ => []
  | .getMctpVersionSupport _ _ => []
  | .getMessageTypeSupport _ => []
  | .getVendorDefinedMessageSupport _ => []
  | .getVersion => []
  | .getCapabilities => []
  | .negotiateAlgorithms _ _ _ _ => []
  | .getDigests => []
  | .getCertificate _ _ _ => []
  | .challenge _ _ => []
  | .getMeasurements _ => []
  | .keyExchange _ => []
  | .finish _ _ => []
  | .heartbeat _ => []
  | .keyUpdate _ => []
  | .endSession _ => []
  | .getInfo => []
  | .mgmtRegRead _ => []
  | .mgmtRegWrite _ _ _ _ => []
  | .ladder _ _ => []
  | .mgmtReset _ _ _ => []
  | .unitRead _ _ => []
  | .unitRequestFence _ _ _ => []
  | .unitRequestRestore _ _ _ => []
  | .unitRequestClearClass _ _ _ => []
  | .histRead _ _ => []
  | .setTime _ _ => []
  | .setFabricKey _ _ => []
  | .requestUpdate _ _ => []
  | .firmwareVerify _ _ _ => []
  | .firmwareActivate _ => []
  | .mgmtRestartDone => []
  | .getPdr _ => []
  | .getSensorReading _ => []
  | .setEventReceiver _ => []
  | .loWordRead _ _ _ => []
  | .accSnapEpochRead _ => []
  | .pwrFcastTickLoRead => []
  | .registerWrite _ _ _ _ _ => []
  | .jtagBypass _ => []
  | .jtagIdcode => []
  | .jtagSamplePreload => []
  | .jtagExtest _ => []
  | .resetNRelease => []
  | .perstRelease => []
  | .rebuildComplete _ => []
  | .linkHoldEnd => []
  | .debugUnlock _ => []
  | .unsupportedMessage _ _ _ => []

/-- A packet carries at most 4,128 bytes, header and payload (R312, R313). -/
def Framing.Statement (i : Instr) : Prop := wellFormed i = true → (carried i).length ≤ 4128

theorem packetLen_le {b : Bytes} (h : packetLen b = true) : b.length ≤ 4128 := (of_decide_eq_true h).2

theorem recordLen_le {b : Bytes} (h : recordLen b = true) : b.length ≤ 4128 := by
  rcases (Bool.or_eq_true _ _).mp h with h | h <;> have := eq_of_beq h <;> omega

theorem Framing.tickBoundary (_k : Nat) (_env : BoundaryEnv) : Framing.Statement (.tickBoundary _k _env) := fun _ => Nat.zero_le _
theorem Framing.tickPacket (_link : Fin 24) (pkt : Bytes) : Framing.Statement (.tickPacket _link pkt) := packetLen_le
theorem Framing.reply (_link : Fin 24) (pkt : Bytes) : Framing.Statement (.reply _link pkt) := packetLen_le
theorem Framing.childReplyTimeout (_link : Fin 24) : Framing.Statement (.childReplyTimeout _link) := fun _ => Nat.zero_le _
theorem Framing.silence (_link : Fin 24) (pkt : Bytes) : Framing.Statement (.silence _link pkt) := packetLen_le
theorem Framing.presenceNotice (_link : Fin 24) (pkt : Bytes) : Framing.Statement (.presenceNotice _link pkt) := packetLen_le
theorem Framing.tstate (_link : Fin 24) (pkt : Bytes) : Framing.Statement (.tstate _link pkt) := packetLen_le
theorem Framing.deputyTakeover : Framing.Statement (.deputyTakeover) := fun _ => Nat.zero_le _
theorem Framing.tsync (_link : Fin 24) (pkt : Bytes) (_arrival : Int) (_sent : Int) : Framing.Statement (.tsync _link pkt _arrival _sent) := packetLen_le
theorem Framing.offsetMeasure (_sent : Int) : Framing.Statement (.offsetMeasure _sent) := fun _ => Nat.zero_le _
theorem Framing.adriftLimit : Framing.Statement (.adriftLimit) := fun _ => Nat.zero_le _
theorem Framing.voteNotice (_link : Fin 24) (pkt : Bytes) : Framing.Statement (.voteNotice _link pkt) := packetLen_le
theorem Framing.voteDeadline (_c : Fin 16) : Framing.Statement (.voteDeadline _c) := fun _ => Nat.zero_le _
theorem Framing.firstFrameCopyDone (_c : Fin 16) : Framing.Statement (.firstFrameCopyDone _c) := fun _ => Nat.zero_le _
theorem Framing.commitDeadline (_c : Fin 16) : Framing.Statement (.commitDeadline _c) := fun _ => Nat.zero_le _
theorem Framing.restoreCopyDone (_c : Fin 16) (_bad : Bool) : Framing.Statement (.restoreCopyDone _c _bad) := fun _ => Nat.zero_le _
theorem Framing.swapPageSent (_c : Fin 16) (_slot : Nat) (_layer : Nat) (_idx : Nat) (_errs : ReadErrs) : Framing.Statement (.swapPageSent _c _slot _layer _idx _errs) := fun _ => Nat.zero_le _
theorem Framing.swapInPage (_c : Fin 16) (_slot : Nat) (_layer : Nat) (_idx : Nat) (_page : Bytes) : Framing.Statement (.swapInPage _c _slot _layer _idx _page) := fun _ => Nat.zero_le _
theorem Framing.stackTempSample (_readings : List Nat) (_now : Nat) : Framing.Statement (.stackTempSample _readings _now) := fun _ => Nat.zero_le _
theorem Framing.permuteLimit (_c : Fin 16) : Framing.Statement (.permuteLimit _c) := fun _ => Nat.zero_le _
theorem Framing.failoverStreamComplete (_c : Fin 16) : Framing.Statement (.failoverStreamComplete _c) := fun _ => Nat.zero_le _
theorem Framing.deathDeclared (_addr : Nat) : Framing.Statement (.deathDeclared _addr) := fun _ => Nat.zero_le _
theorem Framing.matmul (_u : Fin 256) (rec : Bytes) (_env : RunEnv) : Framing.Statement (.matmul _u rec _env) := fun h => recordLen_le ((Bool.and_eq_true _ _).mp h).1
theorem Framing.elementwiseChain (_u : Fin 256) (rec : Bytes) (_env : RunEnv) : Framing.Statement (.elementwiseChain _u rec _env) := fun h => recordLen_le ((Bool.and_eq_true _ _).mp h).1
theorem Framing.reductionSum (_u : Fin 256) (rec : Bytes) (_env : RunEnv) : Framing.Statement (.reductionSum _u rec _env) := fun h => recordLen_le ((Bool.and_eq_true _ _).mp h).1
theorem Framing.reductionMax (_u : Fin 256) (rec : Bytes) (_env : RunEnv) : Framing.Statement (.reductionMax _u rec _env) := fun h => recordLen_le ((Bool.and_eq_true _ _).mp h).1
theorem Framing.reductionMin (_u : Fin 256) (rec : Bytes) (_env : RunEnv) : Framing.Statement (.reductionMin _u rec _env) := fun h => recordLen_le ((Bool.and_eq_true _ _).mp h).1
theorem Framing.reductionSumsq (_u : Fin 256) (rec : Bytes) (_env : RunEnv) : Framing.Statement (.reductionSumsq _u rec _env) := fun h => recordLen_le ((Bool.and_eq_true _ _).mp h).1
theorem Framing.reductionMean (_u : Fin 256) (rec : Bytes) (_env : RunEnv) : Framing.Statement (.reductionMean _u rec _env) := fun h => recordLen_le ((Bool.and_eq_true _ _).mp h).1
theorem Framing.softmax (_u : Fin 256) (rec : Bytes) (_env : RunEnv) : Framing.Statement (.softmax _u rec _env) := fun h => recordLen_le ((Bool.and_eq_true _ _).mp h).1
theorem Framing.logSoftmax (_u : Fin 256) (rec : Bytes) (_env : RunEnv) : Framing.Statement (.logSoftmax _u rec _env) := fun h => recordLen_le ((Bool.and_eq_true _ _).mp h).1
theorem Framing.layerNorm (_u : Fin 256) (rec : Bytes) (_env : RunEnv) : Framing.Statement (.layerNorm _u rec _env) := fun h => recordLen_le ((Bool.and_eq_true _ _).mp h).1
theorem Framing.rmsNorm (_u : Fin 256) (rec : Bytes) (_env : RunEnv) : Framing.Statement (.rmsNorm _u rec _env) := fun h => recordLen_le ((Bool.and_eq_true _ _).mp h).1
theorem Framing.relayout (_u : Fin 256) (rec : Bytes) (_env : RunEnv) : Framing.Statement (.relayout _u rec _env) := fun h => recordLen_le ((Bool.and_eq_true _ _).mp h).1
theorem Framing.gather (_u : Fin 256) (rec : Bytes) (_env : RunEnv) : Framing.Statement (.gather _u rec _env) := fun h => recordLen_le ((Bool.and_eq_true _ _).mp h).1
theorem Framing.scatter (_u : Fin 256) (rec : Bytes) (_env : RunEnv) : Framing.Statement (.scatter _u rec _env) := fun h => recordLen_le ((Bool.and_eq_true _ _).mp h).1
theorem Framing.scatterAdd (_u : Fin 256) (rec : Bytes) (_env : RunEnv) : Framing.Statement (.scatterAdd _u rec _env) := fun h => recordLen_le ((Bool.and_eq_true _ _).mp h).1
theorem Framing.quantise (_u : Fin 256) (rec : Bytes) (_env : RunEnv) : Framing.Statement (.quantise _u rec _env) := fun h => recordLen_le ((Bool.and_eq_true _ _).mp h).1
theorem Framing.dequantise (_u : Fin 256) (rec : Bytes) (_env : RunEnv) : Framing.Statement (.dequantise _u rec _env) := fun h => recordLen_le ((Bool.and_eq_true _ _).mp h).1
theorem Framing.send (_u : Fin 256) (rec : Bytes) (_env : RunEnv) : Framing.Statement (.send _u rec _env) := fun h => recordLen_le ((Bool.and_eq_true _ _).mp h).1
theorem Framing.receiveCopy (_u : Fin 256) (rec : Bytes) (_env : RunEnv) : Framing.Statement (.receiveCopy _u rec _env) := fun h => recordLen_le ((Bool.and_eq_true _ _).mp h).1
theorem Framing.receiveAdd (_u : Fin 256) (rec : Bytes) (_env : RunEnv) : Framing.Statement (.receiveAdd _u rec _env) := fun h => recordLen_le ((Bool.and_eq_true _ _).mp h).1
theorem Framing.receiveMax (_u : Fin 256) (rec : Bytes) (_env : RunEnv) : Framing.Statement (.receiveMax _u rec _env) := fun h => recordLen_le ((Bool.and_eq_true _ _).mp h).1
theorem Framing.dmaMove (_w : Fin 16) (rec : Bytes) (_env : RunEnv) : Framing.Statement (.dmaMove _w rec _env) := fun h => recordLen_le ((Bool.and_eq_true _ _).mp h).1
theorem Framing.nextVariantMove (_w : Fin 16) (rec : Bytes) (_env : RunEnv) : Framing.Statement (.nextVariantMove _w rec _env) := fun h => recordLen_le ((Bool.and_eq_true _ _).mp h).1
theorem Framing.boltWait (_u : Fin 288) (rec : Bytes) (_late : Bool) : Framing.Statement (.boltWait _u rec _late) := recordLen_le
theorem Framing.boltAdd (_u : Fin 288) (rec : Bytes) (_late : Bool) : Framing.Statement (.boltAdd _u rec _late) := recordLen_le
theorem Framing.boltSet (_u : Fin 288) (rec : Bytes) (_late : Bool) : Framing.Statement (.boltSet _u rec _late) := recordLen_le
theorem Framing.boltWaitTimeout (_u : Fin 288) : Framing.Statement (.boltWaitTimeout _u) := fun _ => Nat.zero_le _
theorem Framing.checkerExport (_u : Fin 256) (rec : Bytes) (_env : RunEnv) : Framing.Statement (.checkerExport _u rec _env) := fun h => recordLen_le ((Bool.and_eq_true _ _).mp h).1
theorem Framing.checkerCompare (_u : Fin 256) (rec : Bytes) (_env : RunEnv) : Framing.Statement (.checkerCompare _u rec _env) := fun h => recordLen_le ((Bool.and_eq_true _ _).mp h).1
theorem Framing.convolution (_u : Fin 256) (rec : Bytes) (_env : RunEnv) : Framing.Statement (.convolution _u rec _env) := fun h => recordLen_le ((Bool.and_eq_true _ _).mp h).1
theorem Framing.maxPool (_u : Fin 256) (rec : Bytes) (_env : RunEnv) : Framing.Statement (.maxPool _u rec _env) := fun h => recordLen_le ((Bool.and_eq_true _ _).mp h).1
theorem Framing.averagePool (_u : Fin 256) (rec : Bytes) (_env : RunEnv) : Framing.Statement (.averagePool _u rec _env) := fun h => recordLen_le ((Bool.and_eq_true _ _).mp h).1
theorem Framing.bilinearResize (_u : Fin 256) (rec : Bytes) (_env : RunEnv) : Framing.Statement (.bilinearResize _u rec _env) := fun h => recordLen_le ((Bool.and_eq_true _ _).mp h).1
theorem Framing.nearestResize (_u : Fin 256) (rec : Bytes) (_env : RunEnv) : Framing.Statement (.nearestResize _u rec _env) := fun h => recordLen_le ((Bool.and_eq_true _ _).mp h).1
theorem Framing.attentionFwd (_u : Fin 256) (rec : Bytes) (_env : RunEnv) : Framing.Statement (.attentionFwd _u rec _env) := fun h => recordLen_le ((Bool.and_eq_true _ _).mp h).1
theorem Framing.attentionBwd (_u : Fin 256) (rec : Bytes) (_env : RunEnv) : Framing.Statement (.attentionBwd _u rec _env) := fun h => recordLen_le ((Bool.and_eq_true _ _).mp h).1
theorem Framing.attentionAppend (_u : Fin 256) (rec : Bytes) (_env : RunEnv) : Framing.Statement (.attentionAppend _u rec _env) := fun h => recordLen_le ((Bool.and_eq_true _ _).mp h).1
theorem Framing.attentionMerge (_u : Fin 256) (rec : Bytes) (_env : RunEnv) : Framing.Statement (.attentionMerge _u rec _env) := fun h => recordLen_le ((Bool.and_eq_true _ _).mp h).1
theorem Framing.elem (_w : Fin 16) (rec : Bytes) (_env : RunEnv) : Framing.Statement (.elem _w rec _env) := fun h => recordLen_le ((Bool.and_eq_true _ _).mp h).1
theorem Framing.norm (_w : Fin 16) (rec : Bytes) (_env : RunEnv) : Framing.Statement (.norm _w rec _env) := fun h => recordLen_le ((Bool.and_eq_true _ _).mp h).1
theorem Framing.fuse (_w : Fin 16) (rec : Bytes) (_env : RunEnv) : Framing.Statement (.fuse _w rec _env) := fun h => recordLen_le ((Bool.and_eq_true _ _).mp h).1
theorem Framing.scale (_w : Fin 16) (rec : Bytes) (_env : RunEnv) : Framing.Statement (.scale _w rec _env) := fun h => recordLen_le ((Bool.and_eq_true _ _).mp h).1
theorem Framing.carry (_w : Fin 16) (rec : Bytes) (_env : RunEnv) : Framing.Statement (.carry _w rec _env) := fun h => recordLen_le ((Bool.and_eq_true _ _).mp h).1
theorem Framing.ortho (_w : Fin 16) (rec : Bytes) (_env : RunEnv) : Framing.Statement (.ortho _w rec _env) := fun h => recordLen_le ((Bool.and_eq_true _ _).mp h).1
theorem Framing.kstat (_w : Fin 16) (rec : Bytes) (_env : RunEnv) : Framing.Statement (.kstat _w rec _env) := fun h => recordLen_le ((Bool.and_eq_true _ _).mp h).1
theorem Framing.kroot (_w : Fin 16) (rec : Bytes) (_env : RunEnv) : Framing.Statement (.kroot _w rec _env) := fun h => recordLen_le ((Bool.and_eq_true _ _).mp h).1
theorem Framing.kapply (_w : Fin 16) (rec : Bytes) (_env : RunEnv) : Framing.Statement (.kapply _w rec _env) := fun h => recordLen_le ((Bool.and_eq_true _ _).mp h).1
theorem Framing.variant (_w : Fin 16) (rec : Bytes) (_env : RunEnv) : Framing.Statement (.variant _w rec _env) := fun h => recordLen_le ((Bool.and_eq_true _ _).mp h).1
theorem Framing.recordRetire (_u : Fin 288) (_tc : Nat) : Framing.Statement (.recordRetire _u _tc) := fun _ => Nat.zero_le _
theorem Framing.reservationStart (_link : Fin 24) (_c : Fin 16) (_idx : Nat) : Framing.Statement (.reservationStart _link _c _idx) := fun _ => Nat.zero_le _
theorem Framing.reservationEnd (_link : Fin 24) (_c : Fin 16) (_tx : Bool) (_idx : Nat) : Framing.Statement (.reservationEnd _link _c _tx _idx) := fun _ => Nat.zero_le _
theorem Framing.mirrorAck (_link : Fin 24) (pkt : Bytes) : Framing.Statement (.mirrorAck _link pkt) := packetLen_le
theorem Framing.mirrorAckTimeout (_c : Fin 16) (_pair : Nat) : Framing.Statement (.mirrorAckTimeout _c _pair) := fun _ => Nat.zero_le _
theorem Framing.sched (_link : Fin 24) (pkt : Bytes) : Framing.Statement (.sched _link pkt) := packetLen_le
theorem Framing.packetForward (_link : Fin 24) (pkt : Bytes) : Framing.Statement (.packetForward _link pkt) := packetLen_le
theorem Framing.packetAged (_idx : Nat) : Framing.Statement (.packetAged _idx) := fun _ => Nat.zero_le _
theorem Framing.credit (_link : Fin 24) (pkt : Bytes) : Framing.Statement (.credit _link pkt) := packetLen_le
theorem Framing.hello (_link : Fin 24) (pkt : Bytes) : Framing.Statement (.hello _link pkt) := packetLen_le
theorem Framing.helloTimer : Framing.Statement (.helloTimer) := fun _ => Nat.zero_le _
theorem Framing.write (_link : Fin 24) (pkt : Bytes) : Framing.Statement (.write _link pkt) := packetLen_le
theorem Framing.read (_link : Fin 24) (pkt : Bytes) (_errs : ReadErrs) : Framing.Statement (.read _link pkt _errs) := fun h => packetLen_le ((Bool.and_eq_true _ _).mp h).1
theorem Framing.readData (_link : Fin 24) (pkt : Bytes) : Framing.Statement (.readData _link pkt) := packetLen_le
theorem Framing.ack (_link : Fin 24) (pkt : Bytes) (_errs : ReadErrs) : Framing.Statement (.ack _link pkt _errs) := fun h => packetLen_le ((Bool.and_eq_true _ _).mp h).1
theorem Framing.error (_link : Fin 24) (pkt : Bytes) : Framing.Statement (.error _link pkt) := packetLen_le
theorem Framing.requestTimeout (_seq : Nat) : Framing.Statement (.requestTimeout _seq) := fun _ => Nat.zero_le _
theorem Framing.probe (_link : Fin 24) (pkt : Bytes) (_now : Nat) : Framing.Statement (.probe _link pkt _now) := packetLen_le
theorem Framing.assign (_link : Fin 24) (pkt : Bytes) (_now : Nat) : Framing.Statement (.assign _link pkt _now) := packetLen_le
theorem Framing.neighbours (_link : Fin 24) (pkt : Bytes) (_now : Nat) : Framing.Statement (.neighbours _link pkt _now) := packetLen_le
theorem Framing.tableWrite (_link : Fin 24) (pkt : Bytes) (_now : Nat) : Framing.Statement (.tableWrite _link pkt _now) := packetLen_le
theorem Framing.tableSeal (_link : Fin 24) (pkt : Bytes) (_now : Nat) : Framing.Statement (.tableSeal _link pkt _now) := packetLen_le
theorem Framing.fmRegWrite (_link : Fin 24) (pkt : Bytes) (_now : Nat) : Framing.Statement (.fmRegWrite _link pkt _now) := packetLen_le
theorem Framing.fmRegRead (_link : Fin 24) (pkt : Bytes) (_now : Nat) : Framing.Statement (.fmRegRead _link pkt _now) := packetLen_le
theorem Framing.tickStart (_link : Fin 24) (pkt : Bytes) (_now : Nat) : Framing.Statement (.tickStart _link pkt _now) := packetLen_le
theorem Framing.resume (_link : Fin 24) (pkt : Bytes) (_now : Nat) : Framing.Statement (.resume _link pkt _now) := packetLen_le
theorem Framing.fmReset (_link : Fin 24) (pkt : Bytes) (_now : Nat) : Framing.Statement (.fmReset _link pkt _now) := packetLen_le
theorem Framing.linkTrainingDone (_link : Fin 24) (_failure : Nat) (_delay16 : Nat) (_sent : Int) : Framing.Statement (.linkTrainingDone _link _failure _delay16 _sent) := fun _ => Nat.zero_le _
theorem Framing.linkDown (_link : Fin 24) : Framing.Statement (.linkDown _link) := fun _ => Nat.zero_le _
theorem Framing.codewordUncorrectable (_link : Fin 24) : Framing.Statement (.codewordUncorrectable _link) := fun _ => Nat.zero_le _
theorem Framing.fabPermAtWrite (_c : Fin 16) (_v : W32) : Framing.Statement (.fabPermAtWrite _c _v) := fun _ => Nat.zero_le _
theorem Framing.key (_c : Fin 16) : Framing.Statement (.key _c) := fun _ => Nat.zero_le _
theorem Framing.release (_c : Fin 16) : Framing.Statement (.release _c) := fun _ => Nat.zero_le _
theorem Framing.zeroingComplete (_c : Fin 16) : Framing.Statement (.zeroingComplete _c) := fun _ => Nat.zero_le _
theorem Framing.ctxSelectHiWrite (_v : W32) : Framing.Statement (.ctxSelectHiWrite _v) := fun _ => Nat.zero_le _
theorem Framing.ctxBoltValWrite (_v : W32) : Framing.Statement (.ctxBoltValWrite _v) := fun _ => Nat.zero_le _
theorem Framing.ctxBoltAddWrite (_v : W32) : Framing.Statement (.ctxBoltAddWrite _v) := fun _ => Nat.zero_le _
theorem Framing.hspEvictWrite (_v : W32) : Framing.Statement (.hspEvictWrite _v) := fun _ => Nat.zero_le _
theorem Framing.hspFoVersionWrite (_v : W32) : Framing.Statement (.hspFoVersionWrite _v) := fun _ => Nat.zero_le _
theorem Framing.enrol : Framing.Statement (.enrol) := fun _ => Nat.zero_le _
theorem Framing.permanenceNotice (_link : Fin 24) (pkt : Bytes) : Framing.Statement (.permanenceNotice _link pkt) := packetLen_le
theorem Framing.sweepComplete (_u : Fin 256) (_pass : Bool) : Framing.Statement (.sweepComplete _u _pass) := fun _ => Nat.zero_le _
theorem Framing.unitClassHourly (_now : Nat) : Framing.Statement (.unitClassHourly _now) := fun _ => Nat.zero_le _
theorem Framing.historyCompact : Framing.Statement (.historyCompact) := fun _ => Nat.zero_le _
theorem Framing.recordIngest (_c : Fin 16) (_scans : List HeaderScan) (_flashBad : Bool) : Framing.Statement (.recordIngest _c _scans _flashBad) := fun _ => Nat.zero_le _
theorem Framing.recordDecoded (_c : Fin 16) (_ok : Bool) (_items : List ItemSource) (_ns : Nat) : Framing.Statement (.recordDecoded _c _ok _items _ns) := fun _ => Nat.zero_le _
theorem Framing.batchDeadline (_c : Fin 16) : Framing.Statement (.batchDeadline _c) := fun _ => Nat.zero_le _
theorem Framing.adapterTransferDone (_c : Fin 16) (_v : Nat) (_fill : Bool) : Framing.Statement (.adapterTransferDone _c _v _fill) := fun _ => Nat.zero_le _
theorem Framing.pictureDecoded (_e : Fin 4) (_own : Nat) (_refs : List (Nat × Nat)) (_out : List (Nat × RawPic)) (_ns : Nat) : Framing.Statement (.pictureDecoded _e _own _refs _out _ns) := fun _ => Nat.zero_le _
theorem Framing.decodeTimeout (_e : Fin 4) (_ns : Nat) : Framing.Statement (.decodeTimeout _e _ns) := fun _ => Nat.zero_le _
theorem Framing.livePictureLate (_st : Fin 64) : Framing.Statement (.livePictureLate _st) := fun _ => Nat.zero_le _
theorem Framing.liveStreamEnable (_st : Fin 64) (_v : W32) : Framing.Statement (.liveStreamEnable _st _v) := fun _ => Nat.zero_le _
theorem Framing.archiveEncodeDone (_unit : Bytes) : Framing.Statement (.archiveEncodeDone _unit) := fun _ => Nat.zero_le _
theorem Framing.mediaFwSwitchDone : Framing.Statement (.mediaFwSwitchDone) := fun _ => Nat.zero_le _
theorem Framing.nandProgramDone (_block : Nat) (_dieFail : Bool) : Framing.Statement (.nandProgramDone _block _dieFail) := fun _ => Nat.zero_le _
theorem Framing.readDisturbRelocate (_block : Nat) : Framing.Statement (.readDisturbRelocate _block) := fun _ => Nat.zero_le _
theorem Framing.scrubRead (_row : Nat) (_errs : List MemErr) : Framing.Statement (.scrubRead _row _errs) := fun _ => Nat.zero_le _
theorem Framing.rowRemap (_row : Nat) (_bad : Bool) : Framing.Statement (.rowRemap _row _bad) := fun _ => Nat.zero_le _
theorem Framing.ringPoll (_fn : Fin 17) (_words : RingWords) (_pkts : List RingPacket) : Framing.Statement (.ringPoll _fn _words _pkts) := fun _ => Nat.zero_le _
theorem Framing.nop (_fn : Fin 17) (_cmd : HostCmd) : Framing.Statement (.nop _fn _cmd) := fun _ => Nat.zero_le _
theorem Framing.fmCmd (_fn : Fin 17) (_cmd : HostCmd) : Framing.Statement (.fmCmd _fn _cmd) := fun _ => Nat.zero_le _
theorem Framing.tokLoad (_fn : Fin 17) (_cmd : HostCmd) : Framing.Statement (.tokLoad _fn _cmd) := fun _ => Nat.zero_le _
theorem Framing.flashWrite (_fn : Fin 17) (_cmd : HostCmd) : Framing.Statement (.flashWrite _fn _cmd) := fun _ => Nat.zero_le _
theorem Framing.flashRead (_fn : Fin 17) (_cmd : HostCmd) (_bad : Bool) : Framing.Statement (.flashRead _fn _cmd _bad) := fun _ => Nat.zero_le _
theorem Framing.flashTrim (_fn : Fin 17) (_cmd : HostCmd) : Framing.Statement (.flashTrim _fn _cmd) := fun _ => Nat.zero_le _
theorem Framing.flashFlush (_fn : Fin 17) (_cmd : HostCmd) : Framing.Statement (.flashFlush _fn _cmd) := fun _ => Nat.zero_le _
theorem Framing.flashFormat (_fn : Fin 17) (_cmd : HostCmd) : Framing.Statement (.flashFormat _fn _cmd) := fun _ => Nat.zero_le _
theorem Framing.planLoad (_fn : Fin 17) (_cmd : HostCmd) : Framing.Statement (.planLoad _fn _cmd) := fun _ => Nat.zero_le _
theorem Framing.planStart (_fn : Fin 17) (_cmd : HostCmd) : Framing.Statement (.planStart _fn _cmd) := fun _ => Nat.zero_le _
theorem Framing.planUnload (_fn : Fin 17) (_cmd : HostCmd) : Framing.Statement (.planUnload _fn _cmd) := fun _ => Nat.zero_le _
theorem Framing.waitEpoch (_fn : Fin 17) (_cmd : HostCmd) : Framing.Statement (.waitEpoch _fn _cmd) := fun _ => Nat.zero_le _
theorem Framing.stateRead (_fn : Fin 17) (_cmd : HostCmd) (_errs : ReadErrs) : Framing.Statement (.stateRead _fn _cmd _errs) := fun _ => Nat.zero_le _
theorem Framing.stateWrite (_fn : Fin 17) (_cmd : HostCmd) : Framing.Statement (.stateWrite _fn _cmd) := fun _ => Nat.zero_le _
theorem Framing.ringBoltAdd (_fn : Fin 17) (_cmd : HostCmd) : Framing.Statement (.ringBoltAdd _fn _cmd) := fun _ => Nat.zero_le _
theorem Framing.ringBoltSet (_fn : Fin 17) (_cmd : HostCmd) : Framing.Statement (.ringBoltSet _fn _cmd) := fun _ => Nat.zero_le _
theorem Framing.record (_fn : Fin 17) (_cmd : HostCmd) (_scans : List HeaderScan) : Framing.Statement (.record _fn _cmd _scans) := fun _ => Nat.zero_le _
theorem Framing.live (_fn : Fin 17) (_cmd : HostCmd) (_width : Nat) (_height : Nat) (_supported : Bool) (_rap : Bool) (_rasl : Bool) : Framing.Statement (.live _fn _cmd _width _height _supported _rap _rasl) := fun _ => Nat.zero_le _
theorem Framing.sensor (_fn : Fin 17) (_cmd : HostCmd) (_first : Bool) (_last : Bool) : Framing.Statement (.sensor _fn _cmd _first _last) := fun _ => Nat.zero_le _
theorem Framing.ringEnable (_fn : Fin 17) : Framing.Statement (.ringEnable _fn) := fun _ => Nat.zero_le _
theorem Framing.ringDisable (_fn : Fin 17) : Framing.Statement (.ringDisable _fn) := fun _ => Nat.zero_le _
theorem Framing.irqTimer (_fn : Fin 17) (_vec : Fin 2) : Framing.Statement (.irqTimer _fn _vec) := fun _ => Nat.zero_le _
theorem Framing.functionLevelReset (_fn : Fin 17) : Framing.Statement (.functionLevelReset _fn) := fun _ => Nat.zero_le _
theorem Framing.perstAssert : Framing.Statement (.perstAssert) := fun _ => Nat.zero_le _
theorem Framing.d3hotEntry (_fn : Fin 17) : Framing.Statement (.d3hotEntry _fn) := fun _ => Nat.zero_le _
theorem Framing.powerOn : Framing.Statement (.powerOn) := fun _ => Nat.zero_le _
theorem Framing.resetNAssert (_now : Nat) : Framing.Statement (.resetNAssert _now) := fun _ => Nat.zero_le _
theorem Framing.stretchExpiry (_now : Nat) (_pinHigh : Bool) : Framing.Statement (.stretchExpiry _now _pinHigh) := fun _ => Nat.zero_le _
theorem Framing.resetHeld : Framing.Statement (.resetHeld) := fun _ => Nat.zero_le _
theorem Framing.rstCmd (_v : W32) (_now : Nat) : Framing.Statement (.rstCmd _v _now) := fun _ => Nat.zero_le _
theorem Framing.watchdogExpiry (_now : Nat) : Framing.Statement (.watchdogExpiry _now) := fun _ => Nat.zero_le _
theorem Framing.fatalEscalation (_now : Nat) : Framing.Statement (.fatalEscalation _now) := fun _ => Nat.zero_le _
theorem Framing.pllLockTimeout (_now : Nat) : Framing.Statement (.pllLockTimeout _now) := fun _ => Nat.zero_le _
theorem Framing.bringupPhaseComplete (_ok : Bool) (_bad : List LpCopy) : Framing.Statement (.bringupPhaseComplete _ok _bad) := fun _ => Nat.zero_le _
theorem Framing.wardResetComplete (_w : Fin 16) : Framing.Statement (.wardResetComplete _w) := fun _ => Nat.zero_le _
theorem Framing.refclkFail (_r : RefClk) : Framing.Statement (.refclkFail _r) := fun _ => Nat.zero_le _
theorem Framing.refclkRecover (_r : RefClk) : Framing.Statement (.refclkRecover _r) := fun _ => Nat.zero_le _
theorem Framing.clkSelect (_v : W32) : Framing.Statement (.clkSelect _v) := fun _ => Nat.zero_le _
theorem Framing.holdoverLimit : Framing.Statement (.holdoverLimit) := fun _ => Nat.zero_le _
theorem Framing.pcieRefclkFail : Framing.Statement (.pcieRefclkFail) := fun _ => Nat.zero_le _
theorem Framing.pwrLadderWrite (_v : W32) : Framing.Statement (.pwrLadderWrite _v) := fun _ => Nat.zero_le _
theorem Framing.vinSample (_mv : Nat) (_now : Nat) : Framing.Statement (.vinSample _mv _now) := fun _ => Nat.zero_le _
theorem Framing.supplyStageRecover : Framing.Statement (.supplyStageRecover) := fun _ => Nat.zero_le _
theorem Framing.railTimeout : Framing.Statement (.railTimeout) := fun _ => Nat.zero_le _
theorem Framing.railUndervolt (_now : Nat) : Framing.Statement (.railUndervolt _now) := fun _ => Nat.zero_le _
theorem Framing.shedAssert : Framing.Statement (.shedAssert) := fun _ => Nat.zero_le _
theorem Framing.shedRelease : Framing.Statement (.shedRelease) := fun _ => Nat.zero_le _
theorem Framing.governorTick (_measuredW : Nat) (_fillW : Nat) : Framing.Statement (.governorTick _measuredW _fillW) := fun _ => Nat.zero_le _
theorem Framing.dieTempSample (_readings : List Nat) (_now : Nat) : Framing.Statement (.dieTempSample _readings _now) := fun _ => Nat.zero_le _
theorem Framing.setEndpointId (_vdm : Bool) (_eid : Nat) : Framing.Statement (.setEndpointId _vdm _eid) := fun _ => Nat.zero_le _
theorem Framing.getEndpointId (_vdm : Bool) : Framing.Statement (.getEndpointId _vdm) := fun _ => Nat.zero_le _
theorem Framing.getMctpVersionSupport (_vdm : Bool) (_msgType : Nat) : Framing.Statement (.getMctpVersionSupport _vdm _msgType) := fun _ => Nat.zero_le _
theorem Framing.getMessageTypeSupport (_vdm : Bool) : Framing.Statement (.getMessageTypeSupport _vdm) := fun _ => Nat.zero_le _
theorem Framing.getVendorDefinedMessageSupport (_vdm : Bool) : Framing.Statement (.getVendorDefinedMessageSupport _vdm) := fun _ => Nat.zero_le _
theorem Framing.getVersion : Framing.Statement (.getVersion) := fun _ => Nat.zero_le _
theorem Framing.getCapabilities : Framing.Statement (.getCapabilities) := fun _ => Nat.zero_le _
theorem Framing.negotiateAlgorithms (_dhe : Bool) (_sign : Bool) (_hash : Bool) (_aead : Bool) : Framing.Statement (.negotiateAlgorithms _dhe _sign _hash _aead) := fun _ => Nat.zero_le _
theorem Framing.getDigests : Framing.Statement (.getDigests) := fun _ => Nat.zero_le _
theorem Framing.getCertificate (_slot : Nat) (_offset : Nat) (_len : Nat) : Framing.Statement (.getCertificate _slot _offset _len) := fun _ => Nat.zero_le _
theorem Framing.challenge (_slot : Nat) (_nonce : Bytes) : Framing.Statement (.challenge _slot _nonce) := fun _ => Nat.zero_le _
theorem Framing.getMeasurements (_idx : Nat) : Framing.Statement (.getMeasurements _idx) := fun _ => Nat.zero_le _
theorem Framing.keyExchange (_reqId : Nat) : Framing.Statement (.keyExchange _reqId) := fun _ => Nat.zero_le _
theorem Framing.finish (_sess : Nat) (_hmacOk : Bool) : Framing.Statement (.finish _sess _hmacOk) := fun _ => Nat.zero_le _
theorem Framing.heartbeat (_sess : Nat) : Framing.Statement (.heartbeat _sess) := fun _ => Nat.zero_le _
theorem Framing.keyUpdate (_sess : Nat) : Framing.Statement (.keyUpdate _sess) := fun _ => Nat.zero_le _
theorem Framing.endSession (_sess : Nat) : Framing.Statement (.endSession _sess) := fun _ => Nat.zero_le _
theorem Framing.getInfo : Framing.Statement (.getInfo) := fun _ => Nat.zero_le _
theorem Framing.mgmtRegRead (_off : Nat) : Framing.Statement (.mgmtRegRead _off) := fun _ => Nat.zero_le _
theorem Framing.mgmtRegWrite (_sess : Option Nat) (_off : Nat) (_v : W32) (_now : Nat) : Framing.Statement (.mgmtRegWrite _sess _off _v _now) := fun _ => Nat.zero_le _
theorem Framing.ladder (_sess : Option Nat) (_rung : Nat) : Framing.Statement (.ladder _sess _rung) := fun _ => Nat.zero_le _
theorem Framing.mgmtReset (_sess : Option Nat) (_scope : Nat) (_now : Nat) : Framing.Statement (.mgmtReset _sess _scope _now) := fun _ => Nat.zero_le _
theorem Framing.unitRead (_kind : Nat) (_unit : Nat) : Framing.Statement (.unitRead _kind _unit) := fun _ => Nat.zero_le _
theorem Framing.unitRequestFence (_sess : Option Nat) (_kind : Nat) (_unit : Nat) : Framing.Statement (.unitRequestFence _sess _kind _unit) := fun _ => Nat.zero_le _
theorem Framing.unitRequestRestore (_sess : Option Nat) (_kind : Nat) (_unit : Nat) : Framing.Statement (.unitRequestRestore _sess _kind _unit) := fun _ => Nat.zero_le _
theorem Framing.unitRequestClearClass (_sess : Option Nat) (_kind : Nat) (_unit : Nat) : Framing.Statement (.unitRequestClearClass _sess _kind _unit) := fun _ => Nat.zero_le _
theorem Framing.histRead (_firstSeq : Nat) (_count : Nat) : Framing.Statement (.histRead _firstSeq _count) := fun _ => Nat.zero_le _
theorem Framing.setTime (_sess : Option Nat) (_seconds : Nat) : Framing.Statement (.setTime _sess _seconds) := fun _ => Nat.zero_le _
theorem Framing.setFabricKey (_sess : Option Nat) (_fabKey : Bytes) : Framing.Statement (.setFabricKey _sess _fabKey) := fun _ => Nat.zero_le _
theorem Framing.requestUpdate (_sess : Option Nat) (_component : Nat) : Framing.Statement (.requestUpdate _sess _component) := fun _ => Nat.zero_le _
theorem Framing.firmwareVerify (_component : Nat) (_image : Bytes) (_pubKey : Bytes) : Framing.Statement (.firmwareVerify _component _image _pubKey) := fun _ => Nat.zero_le _
theorem Framing.firmwareActivate (_component : Nat) : Framing.Statement (.firmwareActivate _component) := fun _ => Nat.zero_le _
theorem Framing.mgmtRestartDone : Framing.Statement (.mgmtRestartDone) := fun _ => Nat.zero_le _
theorem Framing.getPdr (_sensor : Nat) : Framing.Statement (.getPdr _sensor) := fun _ => Nat.zero_le _
theorem Framing.getSensorReading (_sensor : Nat) : Framing.Statement (.getSensorReading _sensor) := fun _ => Nat.zero_le _
theorem Framing.setEventReceiver (_eid : Nat) : Framing.Statement (.setEventReceiver _eid) := fun _ => Nat.zero_le _
theorem Framing.loWordRead (_fn : Fin 17) (_off : Nat) (_size : Nat) : Framing.Statement (.loWordRead _fn _off _size) := fun _ => Nat.zero_le _
theorem Framing.accSnapEpochRead (_c : Fin 16) : Framing.Statement (.accSnapEpochRead _c) := fun _ => Nat.zero_le _
theorem Framing.pwrFcastTickLoRead : Framing.Statement (.pwrFcastTickLoRead) := fun _ => Nat.zero_le _
theorem Framing.registerWrite (_fn : Fin 17) (_off : Nat) (_size : Nat) (_v : Nat) (_now : Nat) : Framing.Statement (.registerWrite _fn _off _size _v _now) := fun _ => Nat.zero_le _
theorem Framing.jtagBypass (_instr : Nat) : Framing.Statement (.jtagBypass _instr) := fun _ => Nat.zero_le _
theorem Framing.jtagIdcode : Framing.Statement (.jtagIdcode) := fun _ => Nat.zero_le _
theorem Framing.jtagSamplePreload : Framing.Statement (.jtagSamplePreload) := fun _ => Nat.zero_le _
theorem Framing.jtagExtest (_lands : List Bool) : Framing.Statement (.jtagExtest _lands) := fun _ => Nat.zero_le _
theorem Framing.resetNRelease : Framing.Statement (.resetNRelease) := fun _ => Nat.zero_le _
theorem Framing.perstRelease : Framing.Statement (.perstRelease) := fun _ => Nat.zero_le _
theorem Framing.rebuildComplete (_group : Nat) : Framing.Statement (.rebuildComplete _group) := fun _ => Nat.zero_le _
theorem Framing.linkHoldEnd : Framing.Statement (.linkHoldEnd) := fun _ => Nat.zero_le _
theorem Framing.debugUnlock (_sess : Option Nat) : Framing.Statement (.debugUnlock _sess) := fun _ => Nat.zero_le _
theorem Framing.unsupportedMessage (_msgType : Nat) (_code : Nat) (_len : Nat) : Framing.Statement (.unsupportedMessage _msgType _code _len) := fun _ => Nat.zero_le _

end Sys2Proof.Laws
end

