-- ==== Sys2Proof/Laws/Record.lean ====
section
/-! SUPPORT. What the records of the engines keep: the read latches, the board memory controller, the flash store,
the options, the reset and clock state, power, management and the queue. One lemma for each operation that a record goes through. -/

set_option linter.all false
namespace Sys2Proof.Machine
/-- The parts of the state that no record of an engine changes. -/
abbrev Rest := Tbl W32 × Lpddr × Flash × Options × Reset × Clocks × Power × Mgmt × List Instr
/-- Those parts of a state. -/
def State.rest (s : State) : Rest := (s.latches, s.lp, s.flash, s.opt, s.rst, s.clk, s.pwr, s.mgmt, s.pending)
theorem rest_fabric (s : State) (x : Fabric) : ({ s with fabric := x } : State).rest = s.rest := by rfl
theorem rest_chk (s : State) (x : Checker) : ({ s with chk := x } : State).rest = s.rest := by rfl
theorem rest_stack (s : State) (x : Stack) : ({ s with stack := x } : State).rest = s.rest := by rfl
theorem rest_stores (s : State) (x : Stores) : ({ s with stores := x } : State).rest = s.rest := by rfl
theorem rest_tick (s : State) (x : Tick) : ({ s with tick := x } : State).rest = s.rest := by rfl
theorem rest_media (s : State) (x : Media) : ({ s with media := x } : State).rest = s.rest := by rfl
theorem rest_regs (s : State) (x : Tbl W32) : ({ s with regs := x } : State).rest = s.rest := by rfl
theorem rest_ctxs (s : State) (x : Tbl Ctx) : ({ s with ctxs := x } : State).rest = s.rest := by rfl
theorem rest_units (s : State) (x : Tbl UnitSt) : ({ s with units := x } : State).rest = s.rest := by rfl
theorem rest_poison (s : State) (x : List Poison) : ({ s with poison := x } : State).rest = s.rest := by rfl
theorem rest_links (s : State) (x : Tbl Link) : ({ s with links := x } : State).rest = s.rest := by rfl
theorem rest_fresh (s : State) (x : Nat) : ({ s with fresh := x } : State).rest = s.rest := by rfl
theorem rest_rings (s : State) (x : Tbl Ring) : ({ s with rings := x } : State).rest = s.rest := by rfl
theorem rest_bolts (s : State) (x : Tbl Bolt) : ({ s with bolts := x } : State).rest = s.rest := by rfl
theorem rest_out (s : State) (x : List Out) : ({ s with out := x } : State).rest = s.rest := by rfl
theorem over_rest {α : Type} (s : State) (l : List α) (f : State → α → State) (h : ∀ s x, (f s x).rest = s.rest) : (s.over l f).rest = s.rest := by
  unfold State.over
  induction l generalizing s with
  | nil => rfl
  | cons a l ih => simp only [List.foldl_cons, ih, h]
theorem foldl_rest {α : Type} (l : List α) (f : State → α → State) (h : ∀ s x, (f s x).rest = s.rest) (s : State) : (l.foldl f s).rest = s.rest := over_rest s l f h
theorem ite_rest {c : Prop} [Decidable c] {a b : State} {m : Rest} (ha : a.rest = m) (hb : b.rest = m) : (if c then a else b).rest = m := by split <;> assumption
theorem pair_rest {α : Type} {p : State × α} {u : State} {x : α} {s : State} (h : p.1.rest = s.rest) (e : p = (u, x)) : u.rest = s.rest := by subst e; exact h
theorem State.modRing_rest (s : State) (fn : Nat) (f : Ring → Ring) : (State.modRing s fn f).rest = s.rest := by rfl
theorem State.releaseRecord_rest (s : State) (fn : Nat) (opcode : Nat) (id : W64) : (State.releaseRecord s fn opcode id).rest = s.rest := by
  unfold State.releaseRecord; simp only [↓rest_fabric, ↓rest_chk, ↓rest_stack, ↓rest_stores, ↓rest_tick, ↓rest_media, ↓rest_regs, ↓rest_ctxs, ↓rest_units, ↓rest_poison, ↓rest_links, ↓rest_fresh, ↓rest_rings, ↓rest_bolts, ↓rest_out, ↓State.modRing_rest, ↓apply_ite State.rest, ite_self]
theorem State.setReg_rest (s : State) (off : Nat) (v : W32) : (State.setReg s off v).rest = s.rest := by rfl
theorem State.count_rest (s : State) (off : Nat) : (State.count s off).rest = s.rest := by
  unfold State.count; simp only [↓rest_fabric, ↓rest_chk, ↓rest_stack, ↓rest_stores, ↓rest_tick, ↓rest_media, ↓rest_regs, ↓rest_ctxs, ↓rest_units, ↓rest_poison, ↓rest_links, ↓rest_fresh, ↓rest_rings, ↓rest_bolts, ↓rest_out, ↓State.setReg_rest, ↓apply_ite State.rest, ite_self]
theorem State.event_rest (s : State) (off : Nat) (i : Nat) : (State.event s off i).rest = s.rest := by
  unfold State.event; simp only [↓rest_fabric, ↓rest_chk, ↓rest_stack, ↓rest_stores, ↓rest_tick, ↓rest_media, ↓rest_regs, ↓rest_ctxs, ↓rest_units, ↓rest_poison, ↓rest_links, ↓rest_fresh, ↓rest_rings, ↓rest_bolts, ↓rest_out, ↓State.setReg_rest, ↓apply_ite State.rest, ite_self]
theorem State.loseEvent_rest (s : State) (fn : Nat) : (State.loseEvent s fn).rest = s.rest := by
  unfold State.loseEvent; simp only [↓rest_fabric, ↓rest_chk, ↓rest_stack, ↓rest_stores, ↓rest_tick, ↓rest_media, ↓rest_regs, ↓rest_ctxs, ↓rest_units, ↓rest_poison, ↓rest_links, ↓rest_fresh, ↓rest_rings, ↓rest_bolts, ↓rest_out, ↓State.count_rest, ↓State.event_rest, ↓apply_ite State.rest, ite_self]
theorem State.holdEntry_rest (s : State) (fn : Nat) (e : RingEntry) : (State.holdEntry s fn e).rest = s.rest := by
  unfold State.holdEntry; (try dsimp only); (repeat' split) <;> first | with_reducible rfl | (simp only [↓rest_fabric, ↓rest_chk, ↓rest_stack, ↓rest_stores, ↓rest_tick, ↓rest_media, ↓rest_regs, ↓rest_ctxs, ↓rest_units, ↓rest_poison, ↓rest_links, ↓rest_fresh, ↓rest_rings, ↓rest_bolts, ↓rest_out, ↓State.loseEvent_rest, ↓State.modRing_rest, ↓apply_ite State.rest, ite_self]; done) | (simp [↓rest_fabric, ↓rest_chk, ↓rest_stack, ↓rest_stores, ↓rest_tick, ↓rest_media, ↓rest_regs, ↓rest_ctxs, ↓rest_units, ↓rest_poison, ↓rest_links, ↓rest_fresh, ↓rest_rings, ↓rest_bolts, ↓rest_out, ↓State.loseEvent_rest, ↓State.modRing_rest, ↓apply_ite State.rest, ite_self]; done)
theorem State.setCtx_rest (s : State) (c : Nat) (x : Ctx) : (State.setCtx s c x).rest = s.rest := by rfl
theorem State.modCtx_rest (s : State) (c : Nat) (f : Ctx → Ctx) : (State.modCtx s c f).rest = s.rest := by
  unfold State.modCtx; simp only [↓rest_fabric, ↓rest_chk, ↓rest_stack, ↓rest_stores, ↓rest_tick, ↓rest_media, ↓rest_regs, ↓rest_ctxs, ↓rest_units, ↓rest_poison, ↓rest_links, ↓rest_fresh, ↓rest_rings, ↓rest_bolts, ↓rest_out, ↓State.setCtx_rest, ↓apply_ite State.rest, ite_self]
theorem State.account_rest (s : State) (c : Nat) (n : Nat) (v : Nat) : (State.account s c n v).rest = s.rest := by
  unfold State.account; simp only [↓rest_fabric, ↓rest_chk, ↓rest_stack, ↓rest_stores, ↓rest_tick, ↓rest_media, ↓rest_regs, ↓rest_ctxs, ↓rest_units, ↓rest_poison, ↓rest_links, ↓rest_fresh, ↓rest_rings, ↓rest_bolts, ↓rest_out, ↓State.modCtx_rest, ↓apply_ite State.rest, ite_self]
theorem State.countHost_rest (s : State) (fn : Nat) (n : Nat) : (State.countHost s fn n).rest = s.rest := by
  unfold State.countHost; (try dsimp only); (repeat' split) <;> first | with_reducible rfl | (simp only [↓rest_fabric, ↓rest_chk, ↓rest_stack, ↓rest_stores, ↓rest_tick, ↓rest_media, ↓rest_regs, ↓rest_ctxs, ↓rest_units, ↓rest_poison, ↓rest_links, ↓rest_fresh, ↓rest_rings, ↓rest_bolts, ↓rest_out, ↓State.account_rest, ↓apply_ite State.rest, ite_self]; done) | (simp [↓rest_fabric, ↓rest_chk, ↓rest_stack, ↓rest_stores, ↓rest_tick, ↓rest_media, ↓rest_regs, ↓rest_ctxs, ↓rest_units, ↓rest_poison, ↓rest_links, ↓rest_fresh, ↓rest_rings, ↓rest_bolts, ↓rest_out, ↓State.account_rest, ↓apply_ite State.rest, ite_self]; done)
theorem State.emit_rest (s : State) (o : Out) : (State.emit s o).rest = s.rest := by rfl
theorem State.signal_rest (s : State) (fn : Nat) (v : Nat) : (State.signal s fn v).rest = s.rest := by
  unfold State.signal; simp only [↓rest_fabric, ↓rest_chk, ↓rest_stack, ↓rest_stores, ↓rest_tick, ↓rest_media, ↓rest_regs, ↓rest_ctxs, ↓rest_units, ↓rest_poison, ↓rest_links, ↓rest_fresh, ↓rest_rings, ↓rest_bolts, ↓rest_out, ↓State.emit_rest, ↓State.event_rest, ↓apply_ite State.rest, ite_self]
theorem State.irqEntry_rest (s : State) (fn : Nat) (v : Nat) : (State.irqEntry s fn v).rest = s.rest := by
  unfold State.irqEntry; simp only [↓rest_fabric, ↓rest_chk, ↓rest_stack, ↓rest_stores, ↓rest_tick, ↓rest_media, ↓rest_regs, ↓rest_ctxs, ↓rest_units, ↓rest_poison, ↓rest_links, ↓rest_fresh, ↓rest_rings, ↓rest_bolts, ↓rest_out, ↓State.modRing_rest, ↓State.signal_rest, ↓apply_ite State.rest, ite_self]
theorem State.writeEntry_rest (s : State) (fn : Nat) (e : RingEntry) : (State.writeEntry s fn e).rest = s.rest := by
  unfold State.writeEntry; simp only [↓rest_fabric, ↓rest_chk, ↓rest_stack, ↓rest_stores, ↓rest_tick, ↓rest_media, ↓rest_regs, ↓rest_ctxs, ↓rest_units, ↓rest_poison, ↓rest_links, ↓rest_fresh, ↓rest_rings, ↓rest_bolts, ↓rest_out, ↓State.countHost_rest, ↓State.emit_rest, ↓State.irqEntry_rest, ↓State.modRing_rest, ↓apply_ite State.rest, ite_self]
theorem State.ringPush_rest (s : State) (fn : Nat) (imm : Bool) (e : RingEntry) : (State.ringPush s fn imm e).rest = s.rest := by
  unfold State.ringPush; simp only [↓rest_fabric, ↓rest_chk, ↓rest_stack, ↓rest_stores, ↓rest_tick, ↓rest_media, ↓rest_regs, ↓rest_ctxs, ↓rest_units, ↓rest_poison, ↓rest_links, ↓rest_fresh, ↓rest_rings, ↓rest_bolts, ↓rest_out, ↓State.holdEntry_rest, ↓State.loseEvent_rest, ↓State.modRing_rest, ↓State.writeEntry_rest, ↓apply_ite State.rest, ite_self]
theorem State.finish_rest (s : State) (fn : Nat) (opcode : Nat) (id : W64) (quiet : Bool) (status : Nat) (result : Nat) (deferred : Bool) : (State.finish s fn opcode id quiet status result deferred).rest = s.rest := by
  unfold State.finish; simp only [↓rest_fabric, ↓rest_chk, ↓rest_stack, ↓rest_stores, ↓rest_tick, ↓rest_media, ↓rest_regs, ↓rest_ctxs, ↓rest_units, ↓rest_poison, ↓rest_links, ↓rest_fresh, ↓rest_rings, ↓rest_bolts, ↓rest_out, ↓State.modRing_rest, ↓State.releaseRecord_rest, ↓State.ringPush_rest, ↓apply_ite State.rest, ite_self]
theorem State.complete_rest (s : State) (fn : Nat) (opcode : Nat) (cmd : HostCmd) (status : Nat) : (State.complete s fn opcode cmd status).rest = s.rest := by
  unfold State.complete; simp only [↓rest_fabric, ↓rest_chk, ↓rest_stack, ↓rest_stores, ↓rest_tick, ↓rest_media, ↓rest_regs, ↓rest_ctxs, ↓rest_units, ↓rest_poison, ↓rest_links, ↓rest_fresh, ↓rest_rings, ↓rest_bolts, ↓rest_out, ↓State.finish_rest, ↓apply_ite State.rest, ite_self]
theorem State.dropPic_rest (s : State) (p : LivePic) : (State.dropPic s p).rest = s.rest := by
  unfold State.dropPic; simp only [↓rest_fabric, ↓rest_chk, ↓rest_stack, ↓rest_stores, ↓rest_tick, ↓rest_media, ↓rest_regs, ↓rest_ctxs, ↓rest_units, ↓rest_poison, ↓rest_links, ↓rest_fresh, ↓rest_rings, ↓rest_bolts, ↓rest_out, ↓State.complete_rest, ↓State.count_rest, ↓apply_ite State.rest, ite_self]
theorem State.modMedia_rest (s : State) (f : Media → Media) : (State.modMedia s f).rest = s.rest := by rfl
theorem State.modEngine_rest (s : State) (e : Nat) (f : Engine → Engine) : (State.modEngine s e f).rest = s.rest := by
  unfold State.modEngine; simp only [↓rest_fabric, ↓rest_chk, ↓rest_stack, ↓rest_stores, ↓rest_tick, ↓rest_media, ↓rest_regs, ↓rest_ctxs, ↓rest_units, ↓rest_poison, ↓rest_links, ↓rest_fresh, ↓rest_rings, ↓rest_bolts, ↓rest_out, ↓State.modMedia_rest, ↓apply_ite State.rest, ite_self]
theorem State.modLive_rest (s : State) (st : Nat) (f : LiveStream → LiveStream) : (State.modLive s st f).rest = s.rest := by
  unfold State.modLive; simp only [↓rest_fabric, ↓rest_chk, ↓rest_stack, ↓rest_stores, ↓rest_tick, ↓rest_media, ↓rest_regs, ↓rest_ctxs, ↓rest_units, ↓rest_poison, ↓rest_links, ↓rest_fresh, ↓rest_rings, ↓rest_bolts, ↓rest_out, ↓State.modMedia_rest, ↓apply_ite State.rest, ite_self]
theorem State.skipToRap_rest (s : State) (st : Nat) : (State.skipToRap s st).rest = s.rest := by
  unfold State.skipToRap; (try dsimp only); (repeat' split) <;> first | with_reducible rfl | (simp only [↓rest_fabric, ↓rest_chk, ↓rest_stack, ↓rest_stores, ↓rest_tick, ↓rest_media, ↓rest_regs, ↓rest_ctxs, ↓rest_units, ↓rest_poison, ↓rest_links, ↓rest_fresh, ↓rest_rings, ↓rest_bolts, ↓rest_out, ↓State.dropPic_rest, ↓State.modLive_rest, ↓over_rest, ↓foldl_rest, ↓apply_ite State.rest, ite_self]; done) | (simp [↓rest_fabric, ↓rest_chk, ↓rest_stack, ↓rest_stores, ↓rest_tick, ↓rest_media, ↓rest_regs, ↓rest_ctxs, ↓rest_units, ↓rest_poison, ↓rest_links, ↓rest_fresh, ↓rest_rings, ↓rest_bolts, ↓rest_out, ↓State.dropPic_rest, ↓State.modLive_rest, ↓over_rest, ↓foldl_rest, ↓apply_ite State.rest, ite_self]; done)
theorem State.abandonPic_rest (s : State) (e : Nat) : (State.abandonPic s e).rest = s.rest := by
  unfold State.abandonPic; (try dsimp only); (repeat' split) <;> first | with_reducible rfl | (simp only [↓rest_fabric, ↓rest_chk, ↓rest_stack, ↓rest_stores, ↓rest_tick, ↓rest_media, ↓rest_regs, ↓rest_ctxs, ↓rest_units, ↓rest_poison, ↓rest_links, ↓rest_fresh, ↓rest_rings, ↓rest_bolts, ↓rest_out, ↓State.dropPic_rest, ↓State.event_rest, ↓State.modEngine_rest, ↓State.skipToRap_rest, ↓apply_ite State.rest, ite_self]; done) | (simp [↓rest_fabric, ↓rest_chk, ↓rest_stack, ↓rest_stores, ↓rest_tick, ↓rest_media, ↓rest_regs, ↓rest_ctxs, ↓rest_units, ↓rest_poison, ↓rest_links, ↓rest_fresh, ↓rest_rings, ↓rest_bolts, ↓rest_out, ↓State.dropPic_rest, ↓State.event_rest, ↓State.modEngine_rest, ↓State.skipToRap_rest, ↓apply_ite State.rest, ite_self]; done)
theorem State.admitStream_rest (s : State) (st : Nat) (other : Nat) : (State.admitStream s st other).1.rest = s.rest := by
  unfold State.admitStream; (try dsimp only); (repeat' split) <;> first | with_reducible rfl | (simp only [↓rest_fabric, ↓rest_chk, ↓rest_stack, ↓rest_stores, ↓rest_tick, ↓rest_media, ↓rest_regs, ↓rest_ctxs, ↓rest_units, ↓rest_poison, ↓rest_links, ↓rest_fresh, ↓rest_rings, ↓rest_bolts, ↓rest_out, ↓State.modEngine_rest, ↓State.modLive_rest, ↓apply_ite State.rest, ite_self]; done) | (simp [↓rest_fabric, ↓rest_chk, ↓rest_stack, ↓rest_stores, ↓rest_tick, ↓rest_media, ↓rest_regs, ↓rest_ctxs, ↓rest_units, ↓rest_poison, ↓rest_links, ↓rest_fresh, ↓rest_rings, ↓rest_bolts, ↓rest_out, ↓State.modEngine_rest, ↓State.modLive_rest, ↓apply_ite State.rest, ite_self]; done)
theorem State.markPoison_rest (s : State) (c : Nat) (r : Region) : (State.markPoison s c r).rest = s.rest := by rfl
theorem State.markAll_rest (s : State) (c : Nat) (rs : List Region) : (State.markAll s c rs).rest = s.rest := by
  unfold State.markAll; (try dsimp only); (repeat' split) <;> first | with_reducible rfl | (simp only [↓rest_fabric, ↓rest_chk, ↓rest_stack, ↓rest_stores, ↓rest_tick, ↓rest_media, ↓rest_regs, ↓rest_ctxs, ↓rest_units, ↓rest_poison, ↓rest_links, ↓rest_fresh, ↓rest_rings, ↓rest_bolts, ↓rest_out, ↓State.markPoison_rest, ↓over_rest, ↓foldl_rest, ↓apply_ite State.rest, ite_self]; done) | (simp [↓rest_fabric, ↓rest_chk, ↓rest_stack, ↓rest_stores, ↓rest_tick, ↓rest_media, ↓rest_regs, ↓rest_ctxs, ↓rest_units, ↓rest_poison, ↓rest_links, ↓rest_fresh, ↓rest_rings, ↓rest_bolts, ↓rest_out, ↓State.markPoison_rest, ↓over_rest, ↓foldl_rest, ↓apply_ite State.rest, ite_self]; done)
theorem State.modUnit_rest (s : State) (u : Nat) (f : UnitSt → UnitSt) : (State.modUnit s u f).rest = s.rest := by rfl
theorem State.postEvent_rest (s : State) (c : Nat) (ty : Nat) (status : Nat) (epoch : Nat) (detailA : Nat) (detailB : Nat) : (State.postEvent s c ty status epoch detailA detailB).rest = s.rest := by
  unfold State.postEvent; simp only [↓rest_fabric, ↓rest_chk, ↓rest_stack, ↓rest_stores, ↓rest_tick, ↓rest_media, ↓rest_regs, ↓rest_ctxs, ↓rest_units, ↓rest_poison, ↓rest_links, ↓rest_fresh, ↓rest_rings, ↓rest_bolts, ↓rest_out, ↓State.ringPush_rest, ↓apply_ite State.rest, ite_self]
theorem State.setRegN_rest (s : State) (off : Nat) (v : Nat) : (State.setRegN s off v).rest = s.rest := by
  unfold State.setRegN; simp only [↓rest_fabric, ↓rest_chk, ↓rest_stack, ↓rest_stores, ↓rest_tick, ↓rest_media, ↓rest_regs, ↓rest_ctxs, ↓rest_units, ↓rest_poison, ↓rest_links, ↓rest_fresh, ↓rest_rings, ↓rest_bolts, ↓rest_out, ↓State.setReg_rest, ↓apply_ite State.rest, ite_self]
theorem State.opFault_rest (s : State) (c : Nat) (u : Nat) (id : Nat) (code : Nat) : (State.opFault s c u id code).rest = s.rest := by
  unfold State.opFault; simp only [↓rest_fabric, ↓rest_chk, ↓rest_stack, ↓rest_stores, ↓rest_tick, ↓rest_media, ↓rest_regs, ↓rest_ctxs, ↓rest_units, ↓rest_poison, ↓rest_links, ↓rest_fresh, ↓rest_rings, ↓rest_bolts, ↓rest_out, ↓State.count_rest, ↓State.postEvent_rest, ↓State.setRegN_rest, ↓apply_ite State.rest, ite_self]
theorem State.draw_rest (s : State) : (State.draw s).2.rest = s.rest := by rfl
theorem State.putRecord_rest (s : State) (r : HistRec) : (State.putRecord s r).rest = s.rest := by
  unfold State.putRecord; (try dsimp only); (repeat' split) <;> first | with_reducible rfl | (simp only [↓rest_fabric, ↓rest_chk, ↓rest_stack, ↓rest_stores, ↓rest_tick, ↓rest_media, ↓rest_regs, ↓rest_ctxs, ↓rest_units, ↓rest_poison, ↓rest_links, ↓rest_fresh, ↓rest_rings, ↓rest_bolts, ↓rest_out, ↓State.count_rest, ↓State.event_rest, ↓apply_ite State.rest, ite_self]; done) | (simp [↓rest_fabric, ↓rest_chk, ↓rest_stack, ↓rest_stores, ↓rest_tick, ↓rest_media, ↓rest_regs, ↓rest_ctxs, ↓rest_units, ↓rest_poison, ↓rest_links, ↓rest_fresh, ↓rest_rings, ↓rest_bolts, ↓rest_out, ↓State.count_rest, ↓State.event_rest, ↓apply_ite State.rest, ite_self]; done)
theorem State.platformEvent_rest (s : State) (n : Nat) (data : Nat) : (State.platformEvent s n data).rest = s.rest := by
  unfold State.platformEvent; (try dsimp only); (repeat' split) <;> first | with_reducible rfl | (simp only [↓rest_fabric, ↓rest_chk, ↓rest_stack, ↓rest_stores, ↓rest_tick, ↓rest_media, ↓rest_regs, ↓rest_ctxs, ↓rest_units, ↓rest_poison, ↓rest_links, ↓rest_fresh, ↓rest_rings, ↓rest_bolts, ↓rest_out, ↓State.emit_rest, ↓apply_ite State.rest, ite_self]; done) | (simp [↓rest_fabric, ↓rest_chk, ↓rest_stack, ↓rest_stores, ↓rest_tick, ↓rest_media, ↓rest_regs, ↓rest_ctxs, ↓rest_units, ↓rest_poison, ↓rest_links, ↓rest_fresh, ↓rest_rings, ↓rest_bolts, ↓rest_out, ↓State.emit_rest, ↓apply_ite State.rest, ite_self]; done)
theorem State.degradeWard_rest (s : State) (w : Nat) (kind : Nat) (unit : Nat) : (State.degradeWard s w kind unit).rest = s.rest := by
  unfold State.degradeWard; simp only [↓rest_fabric, ↓rest_chk, ↓rest_stack, ↓rest_stores, ↓rest_tick, ↓rest_media, ↓rest_regs, ↓rest_ctxs, ↓rest_units, ↓rest_poison, ↓rest_links, ↓rest_fresh, ↓rest_rings, ↓rest_bolts, ↓rest_out, ↓State.event_rest, ↓State.platformEvent_rest, ↓State.putRecord_rest, ↓apply_ite State.rest, ite_self]
theorem State.dropWaiting_rest (s : State) (st : Nat) : (State.dropWaiting s st).rest = s.rest := by
  unfold State.dropWaiting; (try dsimp only); (repeat' split) <;> first | with_reducible rfl | (simp only [↓rest_fabric, ↓rest_chk, ↓rest_stack, ↓rest_stores, ↓rest_tick, ↓rest_media, ↓rest_regs, ↓rest_ctxs, ↓rest_units, ↓rest_poison, ↓rest_links, ↓rest_fresh, ↓rest_rings, ↓rest_bolts, ↓rest_out, ↓State.dropPic_rest, ↓State.modLive_rest, ↓over_rest, ↓foldl_rest, ↓apply_ite State.rest, ite_self]; done) | (simp [↓rest_fabric, ↓rest_chk, ↓rest_stack, ↓rest_stores, ↓rest_tick, ↓rest_media, ↓rest_regs, ↓rest_ctxs, ↓rest_units, ↓rest_poison, ↓rest_links, ↓rest_fresh, ↓rest_rings, ↓rest_bolts, ↓rest_out, ↓State.dropPic_rest, ↓State.modLive_rest, ↓over_rest, ↓foldl_rest, ↓apply_ite State.rest, ite_self]; done)
theorem State.releaseStream_rest (s : State) (st : Nat) : (State.releaseStream s st).rest = s.rest := by
  unfold State.releaseStream; simp only [↓rest_fabric, ↓rest_chk, ↓rest_stack, ↓rest_stores, ↓rest_tick, ↓rest_media, ↓rest_regs, ↓rest_ctxs, ↓rest_units, ↓rest_poison, ↓rest_links, ↓rest_fresh, ↓rest_rings, ↓rest_bolts, ↓rest_out, ↓State.modEngine_rest, ↓apply_ite State.rest, ite_self]
theorem State.readmit_rest (s : State) (st : Nat) : (State.readmit s st).rest = s.rest := by
  unfold State.readmit
  have hm := State.admitStream_rest (s.releaseStream st) st 3
  rw [State.releaseStream_rest] at hm
  split
  · rename_i u hu; rw [hu] at hm; exact hm
  · rename_i u hu; rw [hu] at hm
    simp only [↓State.dropWaiting_rest, ↓State.event_rest]; exact hm
theorem State.engineOut_rest (s : State) (e : Nat) : (State.engineOut s e).rest = s.rest := by
  unfold State.engineOut; (try dsimp only); (repeat' split) <;> first | with_reducible rfl | (simp only [↓rest_fabric, ↓rest_chk, ↓rest_stack, ↓rest_stores, ↓rest_tick, ↓rest_media, ↓rest_regs, ↓rest_ctxs, ↓rest_units, ↓rest_poison, ↓rest_links, ↓rest_fresh, ↓rest_rings, ↓rest_bolts, ↓rest_out, ↓State.abandonPic_rest, ↓State.event_rest, ↓State.modEngine_rest, ↓State.readmit_rest, ↓over_rest, ↓foldl_rest, ↓apply_ite State.rest, ite_self]; done) | (simp [↓rest_fabric, ↓rest_chk, ↓rest_stack, ↓rest_stores, ↓rest_tick, ↓rest_media, ↓rest_regs, ↓rest_ctxs, ↓rest_units, ↓rest_poison, ↓rest_links, ↓rest_fresh, ↓rest_rings, ↓rest_bolts, ↓rest_out, ↓State.abandonPic_rest, ↓State.event_rest, ↓State.modEngine_rest, ↓State.readmit_rest, ↓over_rest, ↓foldl_rest, ↓apply_ite State.rest, ite_self]; done)
theorem State.classAction_rest (s : State) (kind : Nat) (unit : Nat) (cls : Nat) : (State.classAction s kind unit cls).rest = s.rest := by
  unfold State.classAction; simp only [↓rest_fabric, ↓rest_chk, ↓rest_stack, ↓rest_stores, ↓rest_tick, ↓rest_media, ↓rest_regs, ↓rest_ctxs, ↓rest_units, ↓rest_poison, ↓rest_links, ↓rest_fresh, ↓rest_rings, ↓rest_bolts, ↓rest_out, ↓State.degradeWard_rest, ↓State.engineOut_rest, ↓apply_ite State.rest, ite_self]
theorem State.reclass_rest (s : State) (kind : Nat) (unit : Nat) : (State.reclass s kind unit).rest = s.rest := by
  unfold State.reclass; simp only [↓rest_fabric, ↓rest_chk, ↓rest_stack, ↓rest_stores, ↓rest_tick, ↓rest_media, ↓rest_regs, ↓rest_ctxs, ↓rest_units, ↓rest_poison, ↓rest_links, ↓rest_fresh, ↓rest_rings, ↓rest_bolts, ↓rest_out, ↓State.classAction_rest, ↓apply_ite State.rest, ite_self]
theorem State.unitEvent_rest (s : State) (kind : Nat) (unit : Nat) (code : Nat) (reproduced : Bool) (tag : Option (Nat × Nat)) : (State.unitEvent s kind unit code reproduced tag).rest = s.rest := by
  unfold State.unitEvent; simp only [↓rest_fabric, ↓rest_chk, ↓rest_stack, ↓rest_stores, ↓rest_tick, ↓rest_media, ↓rest_regs, ↓rest_ctxs, ↓rest_units, ↓rest_poison, ↓rest_links, ↓rest_fresh, ↓rest_rings, ↓rest_bolts, ↓rest_out, ↓State.putRecord_rest, ↓State.reclass_rest, ↓apply_ite State.rest, ite_self]
theorem State.laneCount_rest (s : State) (vault : Nat) (sym : Nat) (row : Nat) : (State.laneCount s vault sym row).rest = s.rest := by
  unfold State.laneCount; simp only [↓rest_fabric, ↓rest_chk, ↓rest_stack, ↓rest_stores, ↓rest_tick, ↓rest_media, ↓rest_regs, ↓rest_ctxs, ↓rest_units, ↓rest_poison, ↓rest_links, ↓rest_fresh, ↓rest_rings, ↓rest_bolts, ↓rest_out, ↓State.event_rest, ↓State.unitEvent_rest, ↓apply_ite State.rest, ite_self]
theorem State.beatLanes_rest (s : State) (e : MemErr) : (State.beatLanes s e).rest = s.rest := by
  unfold State.beatLanes; (try dsimp only); (repeat' split) <;> first | with_reducible rfl | (simp only [↓rest_fabric, ↓rest_chk, ↓rest_stack, ↓rest_stores, ↓rest_tick, ↓rest_media, ↓rest_regs, ↓rest_ctxs, ↓rest_units, ↓rest_poison, ↓rest_links, ↓rest_fresh, ↓rest_rings, ↓rest_bolts, ↓rest_out, ↓State.laneCount_rest, ↓over_rest, ↓foldl_rest, ↓apply_ite State.rest, ite_self]; done) | (simp [↓rest_fabric, ↓rest_chk, ↓rest_stack, ↓rest_stores, ↓rest_tick, ↓rest_media, ↓rest_regs, ↓rest_ctxs, ↓rest_units, ↓rest_poison, ↓rest_links, ↓rest_fresh, ↓rest_rings, ↓rest_bolts, ↓rest_out, ↓State.laneCount_rest, ↓over_rest, ↓foldl_rest, ↓apply_ite State.rest, ite_self]; done)
theorem State.correction_rest (s : State) (kind : Nat) (unit : Nat) : (State.correction s kind unit).rest = s.rest := by rfl
theorem State.setErrLoc_rest (s : State) (a : Nat) (ue : Bool) : (State.setErrLoc s a ue).rest = s.rest := by
  unfold State.setErrLoc; simp only [↓rest_fabric, ↓rest_chk, ↓rest_stack, ↓rest_stores, ↓rest_tick, ↓rest_media, ↓rest_regs, ↓rest_ctxs, ↓rest_units, ↓rest_poison, ↓rest_links, ↓rest_fresh, ↓rest_rings, ↓rest_bolts, ↓rest_out, ↓State.setRegN_rest, ↓apply_ite State.rest, ite_self]
theorem State.dramCe_rest (s : State) (e : MemErr) : (State.dramCe s e).rest = s.rest := by
  unfold State.dramCe; simp only [↓rest_fabric, ↓rest_chk, ↓rest_stack, ↓rest_stores, ↓rest_tick, ↓rest_media, ↓rest_regs, ↓rest_ctxs, ↓rest_units, ↓rest_poison, ↓rest_links, ↓rest_fresh, ↓rest_rings, ↓rest_bolts, ↓rest_out, ↓State.correction_rest, ↓State.count_rest, ↓State.event_rest, ↓State.setErrLoc_rest, ↓apply_ite State.rest, ite_self]
theorem State.remapRecord_rest (s : State) (row : Nat) (spare : Nat) (code : Nat) : (State.remapRecord s row spare code).rest = s.rest := by
  unfold State.remapRecord; simp only [↓rest_fabric, ↓rest_chk, ↓rest_stack, ↓rest_stores, ↓rest_tick, ↓rest_media, ↓rest_regs, ↓rest_ctxs, ↓rest_units, ↓rest_poison, ↓rest_links, ↓rest_fresh, ↓rest_rings, ↓rest_bolts, ↓rest_out, ↓State.putRecord_rest, ↓apply_ite State.rest, ite_self]
theorem State.pendRow_rest (s : State) (row : Nat) : (State.pendRow s row).rest = s.rest := by
  unfold State.pendRow; simp only [↓rest_fabric, ↓rest_chk, ↓rest_stack, ↓rest_stores, ↓rest_tick, ↓rest_media, ↓rest_regs, ↓rest_ctxs, ↓rest_units, ↓rest_poison, ↓rest_links, ↓rest_fresh, ↓rest_rings, ↓rest_bolts, ↓rest_out, ↓State.remapRecord_rest, ↓apply_ite State.rest, ite_self]
theorem State.dramUe_rest (s : State) (a : Nat) : (State.dramUe s a).rest = s.rest := by
  unfold State.dramUe; simp only [↓rest_fabric, ↓rest_chk, ↓rest_stack, ↓rest_stores, ↓rest_tick, ↓rest_media, ↓rest_regs, ↓rest_ctxs, ↓rest_units, ↓rest_poison, ↓rest_links, ↓rest_fresh, ↓rest_rings, ↓rest_bolts, ↓rest_out, ↓State.count_rest, ↓State.event_rest, ↓State.pendRow_rest, ↓State.setErrLoc_rest, ↓State.unitEvent_rest, ↓apply_ite State.rest, ite_self]
theorem State.noteBeat_rest (s : State) (e : MemErr) (b : Beat) : (State.noteBeat s e b).rest = s.rest := by
  unfold State.noteBeat; (try dsimp only); (repeat' split) <;> first | with_reducible rfl | (simp only [↓rest_fabric, ↓rest_chk, ↓rest_stack, ↓rest_stores, ↓rest_tick, ↓rest_media, ↓rest_regs, ↓rest_ctxs, ↓rest_units, ↓rest_poison, ↓rest_links, ↓rest_fresh, ↓rest_rings, ↓rest_bolts, ↓rest_out, ↓State.beatLanes_rest, ↓State.correction_rest, ↓State.dramCe_rest, ↓State.dramUe_rest, ↓over_rest, ↓foldl_rest, ↓apply_ite State.rest, ite_self]; done) | (simp [↓rest_fabric, ↓rest_chk, ↓rest_stack, ↓rest_stores, ↓rest_tick, ↓rest_media, ↓rest_regs, ↓rest_ctxs, ↓rest_units, ↓rest_poison, ↓rest_links, ↓rest_fresh, ↓rest_rings, ↓rest_bolts, ↓rest_out, ↓State.beatLanes_rest, ↓State.correction_rest, ↓State.dramCe_rest, ↓State.dramUe_rest, ↓over_rest, ↓foldl_rest, ↓apply_ite State.rest, ite_self]; done)
theorem State.dramErrs_rest (s : State) (es : List MemErr) : (State.dramErrs s es).rest = s.rest := by
  unfold State.dramErrs; (try dsimp only); (repeat' split) <;> first | with_reducible rfl | (simp only [↓rest_fabric, ↓rest_chk, ↓rest_stack, ↓rest_stores, ↓rest_tick, ↓rest_media, ↓rest_regs, ↓rest_ctxs, ↓rest_units, ↓rest_poison, ↓rest_links, ↓rest_fresh, ↓rest_rings, ↓rest_bolts, ↓rest_out, ↓State.draw_rest, ↓State.noteBeat_rest, ↓over_rest, ↓foldl_rest, ↓apply_ite State.rest, ite_self]; done) | (simp [↓rest_fabric, ↓rest_chk, ↓rest_stack, ↓rest_stores, ↓rest_tick, ↓rest_media, ↓rest_regs, ↓rest_ctxs, ↓rest_units, ↓rest_poison, ↓rest_links, ↓rest_fresh, ↓rest_rings, ↓rest_bolts, ↓rest_out, ↓State.draw_rest, ↓State.noteBeat_rest, ↓over_rest, ↓foldl_rest, ↓apply_ite State.rest, ite_self]; done)
theorem State.eventIf_rest (s : State) (b : Bool) (off : Nat) (i : Nat) : (State.eventIf s b off i).rest = s.rest := by
  unfold State.eventIf; simp only [↓rest_fabric, ↓rest_chk, ↓rest_stack, ↓rest_stores, ↓rest_tick, ↓rest_media, ↓rest_regs, ↓rest_ctxs, ↓rest_units, ↓rest_poison, ↓rest_links, ↓rest_fresh, ↓rest_rings, ↓rest_bolts, ↓rest_out, ↓State.event_rest, ↓apply_ite State.rest, ite_self]
theorem State.lpUe_rest (s : State) (channel : Nat) : (State.lpUe s channel).rest = s.rest := by
  unfold State.lpUe; simp only [↓rest_fabric, ↓rest_chk, ↓rest_stack, ↓rest_stores, ↓rest_tick, ↓rest_media, ↓rest_regs, ↓rest_ctxs, ↓rest_units, ↓rest_poison, ↓rest_links, ↓rest_fresh, ↓rest_rings, ↓rest_bolts, ↓rest_out, ↓State.count_rest, ↓State.event_rest, ↓State.unitEvent_rest, ↓apply_ite State.rest, ite_self]
theorem State.lpErrs_rest (s : State) (es : List LpErr) : (State.lpErrs s es).rest = s.rest := by
  unfold State.lpErrs; (try dsimp only); (repeat' split) <;> first | with_reducible rfl | (simp only [↓rest_fabric, ↓rest_chk, ↓rest_stack, ↓rest_stores, ↓rest_tick, ↓rest_media, ↓rest_regs, ↓rest_ctxs, ↓rest_units, ↓rest_poison, ↓rest_links, ↓rest_fresh, ↓rest_rings, ↓rest_bolts, ↓rest_out, ↓State.correction_rest, ↓State.count_rest, ↓State.lpUe_rest, ↓over_rest, ↓foldl_rest, ↓apply_ite State.rest, ite_self]; done) | (simp [↓rest_fabric, ↓rest_chk, ↓rest_stack, ↓rest_stores, ↓rest_tick, ↓rest_media, ↓rest_regs, ↓rest_ctxs, ↓rest_units, ↓rest_poison, ↓rest_links, ↓rest_fresh, ↓rest_rings, ↓rest_bolts, ↓rest_out, ↓State.correction_rest, ↓State.count_rest, ↓State.lpUe_rest, ↓over_rest, ↓foldl_rest, ↓apply_ite State.rest, ite_self]; done)
theorem State.memErrorEvent_rest (s : State) (c : Nat) : (State.memErrorEvent s c).rest = s.rest := by
  unfold State.memErrorEvent; simp only [↓rest_fabric, ↓rest_chk, ↓rest_stack, ↓rest_stores, ↓rest_tick, ↓rest_media, ↓rest_regs, ↓rest_ctxs, ↓rest_units, ↓rest_poison, ↓rest_links, ↓rest_fresh, ↓rest_rings, ↓rest_bolts, ↓rest_out, ↓State.postEvent_rest, ↓apply_ite State.rest, ite_self]
theorem State.readFaults_rest (s : State) (c : Nat) (es : ReadErrs) (reads : List Region) (outs : List Region) : (State.readFaults s c es reads outs).rest = s.rest := by
  unfold State.readFaults; simp only [↓rest_fabric, ↓rest_chk, ↓rest_stack, ↓rest_stores, ↓rest_tick, ↓rest_media, ↓rest_regs, ↓rest_ctxs, ↓rest_units, ↓rest_poison, ↓rest_links, ↓rest_fresh, ↓rest_rings, ↓rest_bolts, ↓rest_out, ↓State.dramErrs_rest, ↓State.eventIf_rest, ↓State.lpErrs_rest, ↓State.markAll_rest, ↓State.memErrorEvent_rest, ↓apply_ite State.rest, ite_self]
theorem State.sramErrs_rest (s : State) (es : List SramErr) (tag : Option (Nat × Nat)) : (State.sramErrs s es tag).rest = s.rest := by
  unfold State.sramErrs; (try dsimp only); (repeat' split) <;> first | with_reducible rfl | (simp only [↓rest_fabric, ↓rest_chk, ↓rest_stack, ↓rest_stores, ↓rest_tick, ↓rest_media, ↓rest_regs, ↓rest_ctxs, ↓rest_units, ↓rest_poison, ↓rest_links, ↓rest_fresh, ↓rest_rings, ↓rest_bolts, ↓rest_out, ↓State.correction_rest, ↓State.unitEvent_rest, ↓over_rest, ↓foldl_rest, ↓apply_ite State.rest, ite_self]; done) | (simp [↓rest_fabric, ↓rest_chk, ↓rest_stack, ↓rest_stores, ↓rest_tick, ↓rest_media, ↓rest_regs, ↓rest_ctxs, ↓rest_units, ↓rest_poison, ↓rest_links, ↓rest_fresh, ↓rest_rings, ↓rest_bolts, ↓rest_out, ↓State.correction_rest, ↓State.unitEvent_rest, ↓over_rest, ↓foldl_rest, ↓apply_ite State.rest, ite_self]; done)
theorem State.modHasp_rest (s : State) (c : Nat) (f : Hasp → Hasp) : (State.modHasp s c f).rest = s.rest := by
  unfold State.modHasp; simp only [↓rest_fabric, ↓rest_chk, ↓rest_stack, ↓rest_stores, ↓rest_tick, ↓rest_media, ↓rest_regs, ↓rest_ctxs, ↓rest_units, ↓rest_poison, ↓rest_links, ↓rest_fresh, ↓rest_rings, ↓rest_bolts, ↓rest_out, ↓State.modCtx_rest, ↓apply_ite State.rest, ite_self]
theorem State.unclean_rest (s : State) (c : Nat) : (State.unclean s c).rest = s.rest := by
  unfold State.unclean; simp only [↓rest_fabric, ↓rest_chk, ↓rest_stack, ↓rest_stores, ↓rest_tick, ↓rest_media, ↓rest_regs, ↓rest_ctxs, ↓rest_units, ↓rest_poison, ↓rest_links, ↓rest_fresh, ↓rest_rings, ↓rest_bolts, ↓rest_out, ↓State.modHasp_rest, ↓apply_ite State.rest, ite_self]
theorem State.sramFaults_rest (s : State) (c : Nat) (u : Nat) (id : Nat) (es : List SramErr) (outs : List Region) : (State.sramFaults s c u id es outs).rest = s.rest := by
  unfold State.sramFaults; simp only [↓rest_fabric, ↓rest_chk, ↓rest_stack, ↓rest_stores, ↓rest_tick, ↓rest_media, ↓rest_regs, ↓rest_ctxs, ↓rest_units, ↓rest_poison, ↓rest_links, ↓rest_fresh, ↓rest_rings, ↓rest_bolts, ↓rest_out, ↓State.markAll_rest, ↓State.opFault_rest, ↓State.sramErrs_rest, ↓State.unclean_rest, ↓apply_ite State.rest, ite_self]
theorem State.modLink_rest (s : State) (n : Nat) (f : Link → Link) : (State.modLink s n f).rest = s.rest := by rfl
theorem State.begin_rest (s : State) (l : Nat) (p : Packet) : (State.begin s l p).rest = s.rest := by
  unfold State.begin; simp only [↓rest_fabric, ↓rest_chk, ↓rest_stack, ↓rest_stores, ↓rest_tick, ↓rest_media, ↓rest_regs, ↓rest_ctxs, ↓rest_units, ↓rest_poison, ↓rest_links, ↓rest_fresh, ↓rest_rings, ↓rest_bolts, ↓rest_out, ↓State.account_rest, ↓State.emit_rest, ↓State.modLink_rest, ↓apply_ite State.rest, ite_self]
theorem State.transmit_rest (s : State) (port : Nat) (l : Nat) (p : Packet) : (State.transmit s port l p).rest = s.rest := by
  unfold State.transmit; simp only [↓rest_fabric, ↓rest_chk, ↓rest_stack, ↓rest_stores, ↓rest_tick, ↓rest_media, ↓rest_regs, ↓rest_ctxs, ↓rest_units, ↓rest_poison, ↓rest_links, ↓rest_fresh, ↓rest_rings, ↓rest_bolts, ↓rest_out, ↓State.begin_rest, ↓apply_ite State.rest, ite_self]
theorem State.trySend_rest (s : State) (p : Packet) : (State.trySend s p).1.rest = s.rest := by
  unfold State.trySend; (try dsimp only); (repeat' split) <;> first | with_reducible rfl | (simp only [↓rest_fabric, ↓rest_chk, ↓rest_stack, ↓rest_stores, ↓rest_tick, ↓rest_media, ↓rest_regs, ↓rest_ctxs, ↓rest_units, ↓rest_poison, ↓rest_links, ↓rest_fresh, ↓rest_rings, ↓rest_bolts, ↓rest_out, ↓State.count_rest, ↓State.emit_rest, ↓State.transmit_rest, ↓apply_ite State.rest, ite_self]; done) | (simp [↓rest_fabric, ↓rest_chk, ↓rest_stack, ↓rest_stores, ↓rest_tick, ↓rest_media, ↓rest_regs, ↓rest_ctxs, ↓rest_units, ↓rest_poison, ↓rest_links, ↓rest_fresh, ↓rest_rings, ↓rest_bolts, ↓rest_out, ↓State.count_rest, ↓State.emit_rest, ↓State.transmit_rest, ↓apply_ite State.rest, ite_self]; done)
theorem State.sendRouted_rest (s : State) (p : Packet) : (State.sendRouted s p).rest = s.rest := by
  unfold State.sendRouted; simp only [↓rest_fabric, ↓rest_chk, ↓rest_stack, ↓rest_stores, ↓rest_tick, ↓rest_media, ↓rest_regs, ↓rest_ctxs, ↓rest_units, ↓rest_poison, ↓rest_links, ↓rest_fresh, ↓rest_rings, ↓rest_bolts, ↓rest_out, ↓State.trySend_rest, ↓apply_ite State.rest, ite_self]
theorem State.sendMsg_rest (s : State) (dst : Nat) (c : Option Nat) (payload : Bytes) : (State.sendMsg s dst c payload).rest = s.rest := by
  unfold State.sendMsg; simp only [↓rest_fabric, ↓rest_chk, ↓rest_stack, ↓rest_stores, ↓rest_tick, ↓rest_media, ↓rest_regs, ↓rest_ctxs, ↓rest_units, ↓rest_poison, ↓rest_links, ↓rest_fresh, ↓rest_rings, ↓rest_bolts, ↓rest_out, ↓State.sendRouted_rest, ↓apply_ite State.rest, ite_self]
theorem State.permanence_rest (s : State) (kind : Nat) (unit : Nat) (ward : Nat) : (State.permanence s kind unit ward).rest = s.rest := by
  unfold State.permanence; simp only [↓rest_fabric, ↓rest_chk, ↓rest_stack, ↓rest_stores, ↓rest_tick, ↓rest_media, ↓rest_regs, ↓rest_ctxs, ↓rest_units, ↓rest_poison, ↓rest_links, ↓rest_fresh, ↓rest_rings, ↓rest_bolts, ↓rest_out, ↓State.sendMsg_rest, ↓apply_ite State.rest, ite_self]
theorem State.makePermanent_rest (s : State) (kind : Nat) (unit : Nat) : (State.makePermanent s kind unit).rest = s.rest := by
  unfold State.makePermanent; simp only [↓rest_fabric, ↓rest_chk, ↓rest_stack, ↓rest_stores, ↓rest_tick, ↓rest_media, ↓rest_regs, ↓rest_ctxs, ↓rest_units, ↓rest_poison, ↓rest_links, ↓rest_fresh, ↓rest_rings, ↓rest_bolts, ↓rest_out, ↓State.classAction_rest, ↓State.permanence_rest, ↓apply_ite State.rest, ite_self]
theorem State.noteMismatch_rest (s : State) (c : Nat) (kind : Nat) (id : Nat) (punit : Nat) : (State.noteMismatch s c kind id punit).rest = s.rest := by rfl
theorem State.setLast_rest (s : State) (u : Nat) (id : Nat) : (State.setLast s u id).rest = s.rest := by
  unfold State.setLast; simp only [↓rest_fabric, ↓rest_chk, ↓rest_stack, ↓rest_stores, ↓rest_tick, ↓rest_media, ↓rest_regs, ↓rest_ctxs, ↓rest_units, ↓rest_poison, ↓rest_links, ↓rest_fresh, ↓rest_rings, ↓rest_bolts, ↓rest_out, ↓State.setRegN_rest, ↓apply_ite State.rest, ite_self]
theorem State.sumMismatch_rest (s : State) (c : Nat) (u : Nat) (id : Nat) (lane : Bool) (outs : List Region) : (State.sumMismatch s c u id lane outs).rest = s.rest := by
  unfold State.sumMismatch; simp only [↓rest_fabric, ↓rest_chk, ↓rest_stack, ↓rest_stores, ↓rest_tick, ↓rest_media, ↓rest_regs, ↓rest_ctxs, ↓rest_units, ↓rest_poison, ↓rest_links, ↓rest_fresh, ↓rest_rings, ↓rest_bolts, ↓rest_out, ↓State.count_rest, ↓State.event_rest, ↓State.makePermanent_rest, ↓State.markAll_rest, ↓State.noteMismatch_rest, ↓State.opFault_rest, ↓State.setLast_rest, ↓State.unclean_rest, ↓State.unitEvent_rest, ↓apply_ite State.rest, ite_self]
theorem State.setStore_rest (s : State) (space : Nat) (unit : Nat) (m : Mem) : (State.setStore s space unit m).rest = s.rest := by
  unfold State.setStore; (try dsimp only); (repeat' split) <;> first | with_reducible rfl | (simp only [↓rest_fabric, ↓rest_chk, ↓rest_stack, ↓rest_stores, ↓rest_tick, ↓rest_media, ↓rest_regs, ↓rest_ctxs, ↓rest_units, ↓rest_poison, ↓rest_links, ↓rest_fresh, ↓rest_rings, ↓rest_bolts, ↓rest_out, ↓apply_ite State.rest, ite_self]; done) | (simp [↓rest_fabric, ↓rest_chk, ↓rest_stack, ↓rest_stores, ↓rest_tick, ↓rest_media, ↓rest_regs, ↓rest_ctxs, ↓rest_units, ↓rest_poison, ↓rest_links, ↓rest_fresh, ↓rest_rings, ↓rest_bolts, ↓rest_out, ↓apply_ite State.rest, ite_self]; done)
theorem State.wrRaw_rest (s : State) (c : Nat) (space : Nat) (unit : Nat) (a : Nat) (b : Bytes) : (State.wrRaw s c space unit a b).rest = s.rest := by
  unfold State.wrRaw; simp only [↓rest_fabric, ↓rest_chk, ↓rest_stack, ↓rest_stores, ↓rest_tick, ↓rest_media, ↓rest_regs, ↓rest_ctxs, ↓rest_units, ↓rest_poison, ↓rest_links, ↓rest_fresh, ↓rest_rings, ↓rest_bolts, ↓rest_out, ↓State.setStore_rest, ↓over_rest, ↓foldl_rest, ↓apply_ite State.rest, ite_self]
theorem State.wr_rest (s : State) (c : Nat) (space : Nat) (unit : Nat) (a : Nat) (b : Bytes) : (State.wr s c space unit a b).rest = s.rest := by
  unfold State.wr; simp only [↓rest_fabric, ↓rest_chk, ↓rest_stack, ↓rest_stores, ↓rest_tick, ↓rest_media, ↓rest_regs, ↓rest_ctxs, ↓rest_units, ↓rest_poison, ↓rest_links, ↓rest_fresh, ↓rest_rings, ↓rest_bolts, ↓rest_out, ↓State.event_rest, ↓State.markPoison_rest, ↓State.wrRaw_rest, ↓apply_ite State.rest, ite_self]
theorem State.afterRun_rest (s : State) (c : Nat) (u : Nat) (r : Bytes) (env : RunEnv) (reads : List Region) (outs : List Region) (o : RunOut) : (State.afterRun s c u r env reads outs o).rest = s.rest := by
  unfold State.afterRun
  extract_lets id outs s1 s2 s3 s4 s5 s6 s7 s8 s9 s10
  have h1 : s1.rest = s.rest := by unfold s1; split <;> simp only [State.modUnit_rest]
  have h2 : s2.rest = s1.rest := State.readFaults_rest ..
  have h3 : s3.rest = s2.rest := by unfold s3; split; rfl; exact over_rest _ _ _ (fun _ _ => State.wr_rest ..)
  have h4 : s4.rest = s3.rest := by unfold s4; simp only [State.account_rest]
  have h5 : s5.rest = s4.rest := over_rest _ _ _ (fun _ _ => by simp only [State.opFault_rest, State.count_rest])
  have h6 : s6.rest = s5.rest := by unfold s6; split <;> simp only [State.opFault_rest, State.markAll_rest]
  have h7 : s7.rest = s6.rest := by unfold s7; split <;> simp only [State.event_rest, State.postEvent_rest]
  have h8 : s8.rest = s7.rest := State.sramFaults_rest ..
  have h9 : s9.rest = s8.rest := by unfold s9; split <;> simp only [State.sumMismatch_rest]
  have h10 : s10.rest = s9.rest := by unfold s10; split <;> simp only [State.sumMismatch_rest]
  rw [State.modUnit_rest, h10, h9, h8, h7, h6, h5, h4, h3, h2, h1]
theorem State.afterVerdict_rest (s : State) (q : UpCtx) (r : Bytes) (outs : List Region) : (State.afterVerdict s q r outs).rest = s.rest := by
  unfold State.afterVerdict; simp only [↓rest_fabric, ↓rest_chk, ↓rest_stack, ↓rest_stores, ↓rest_tick, ↓rest_media, ↓rest_regs, ↓rest_ctxs, ↓rest_units, ↓rest_poison, ↓rest_links, ↓rest_fresh, ↓rest_rings, ↓rest_bolts, ↓rest_out, ↓State.eventIf_rest, ↓State.markAll_rest, ↓State.modHasp_rest, ↓apply_ite State.rest, ite_self]
theorem State.dirty_rest (s : State) (c : Nat) (space : Nat) (unit : Nat) (a : Nat) (n : Nat) : (State.dirty s c space unit a n).rest = s.rest := by
  unfold State.dirty; simp only [↓rest_fabric, ↓rest_chk, ↓rest_stack, ↓rest_stores, ↓rest_tick, ↓rest_media, ↓rest_regs, ↓rest_ctxs, ↓rest_units, ↓rest_poison, ↓rest_links, ↓rest_fresh, ↓rest_rings, ↓rest_bolts, ↓rest_out, ↓State.modCtx_rest, ↓apply_ite State.rest, ite_self]
theorem State.writeLate_rest (s : State) (c : Nat) : (State.writeLate s c).rest = s.rest := by
  unfold State.writeLate; (try dsimp only); (repeat' split) <;> first | with_reducible rfl | (simp only [↓rest_fabric, ↓rest_chk, ↓rest_stack, ↓rest_stores, ↓rest_tick, ↓rest_media, ↓rest_regs, ↓rest_ctxs, ↓rest_units, ↓rest_poison, ↓rest_links, ↓rest_fresh, ↓rest_rings, ↓rest_bolts, ↓rest_out, ↓State.dirty_rest, ↓State.markPoison_rest, ↓State.wrRaw_rest, ↓apply_ite State.rest, ite_self]; done) | (simp [↓rest_fabric, ↓rest_chk, ↓rest_stack, ↓rest_stores, ↓rest_tick, ↓rest_media, ↓rest_regs, ↓rest_ctxs, ↓rest_units, ↓rest_poison, ↓rest_links, ↓rest_fresh, ↓rest_rings, ↓rest_bolts, ↓rest_out, ↓State.dirty_rest, ↓State.markPoison_rest, ↓State.wrRaw_rest, ↓apply_ite State.rest, ite_self]; done)
theorem State.appendLate_rest (s : State) (c : Nat) (e : LateEntry) : (State.appendLate s c e).rest = s.rest := by
  unfold State.appendLate; simp only [↓rest_fabric, ↓rest_chk, ↓rest_stack, ↓rest_stores, ↓rest_tick, ↓rest_media, ↓rest_regs, ↓rest_ctxs, ↓rest_units, ↓rest_poison, ↓rest_links, ↓rest_fresh, ↓rest_rings, ↓rest_bolts, ↓rest_out, ↓State.modCtx_rest, ↓State.writeLate_rest, ↓apply_ite State.rest, ite_self]
theorem State.begun_rest (s : State) (c : Nat) (u : Nat) (r : Bytes) (isWait : Bool) : (State.begun s c u r isWait).rest = s.rest := by
  unfold State.begun; simp only [↓rest_fabric, ↓rest_chk, ↓rest_stack, ↓rest_stores, ↓rest_tick, ↓rest_media, ↓rest_regs, ↓rest_ctxs, ↓rest_units, ↓rest_poison, ↓rest_links, ↓rest_fresh, ↓rest_rings, ↓rest_bolts, ↓rest_out, ↓State.modUnit_rest, ↓apply_ite State.rest, ite_self]
theorem State.setBolt_rest (s : State) (b : Nat) (x : Bolt) : (State.setBolt s b x).rest = s.rest := by rfl
theorem State.boltAdd_rest (s : State) (c : Nat) (b : Nat) (v : W32) : (State.boltAdd s c b v).rest = s.rest := by
  unfold State.boltAdd; simp only [↓rest_fabric, ↓rest_chk, ↓rest_stack, ↓rest_stores, ↓rest_tick, ↓rest_media, ↓rest_regs, ↓rest_ctxs, ↓rest_units, ↓rest_poison, ↓rest_links, ↓rest_fresh, ↓rest_rings, ↓rest_bolts, ↓rest_out, ↓State.eventIf_rest, ↓State.setBolt_rest, ↓apply_ite State.rest, ite_self]
theorem State.boltSet_rest (s : State) (b : Nat) (v : W32) : (State.boltSet s b v).rest = s.rest := by
  unfold State.boltSet; simp only [↓rest_fabric, ↓rest_chk, ↓rest_stack, ↓rest_stores, ↓rest_tick, ↓rest_media, ↓rest_regs, ↓rest_ctxs, ↓rest_units, ↓rest_poison, ↓rest_links, ↓rest_fresh, ↓rest_rings, ↓rest_bolts, ↓rest_out, ↓State.setBolt_rest, ↓apply_ite State.rest, ite_self]
theorem State.boltWait_rest (s : State) (b : Nat) (w : Wait) : (State.boltWait s b w).rest = s.rest := by
  unfold State.boltWait; simp only [↓rest_fabric, ↓rest_chk, ↓rest_stack, ↓rest_stores, ↓rest_tick, ↓rest_media, ↓rest_regs, ↓rest_ctxs, ↓rest_units, ↓rest_poison, ↓rest_links, ↓rest_fresh, ↓rest_rings, ↓rest_bolts, ↓rest_out, ↓State.setBolt_rest, ↓apply_ite State.rest, ite_self]
theorem State.clearDigest_rest (s : State) (u : Nat) (slot : Nat) : (State.clearDigest s u slot).rest = s.rest := by
  unfold State.clearDigest; simp only [↓rest_fabric, ↓rest_chk, ↓rest_stack, ↓rest_stores, ↓rest_tick, ↓rest_media, ↓rest_regs, ↓rest_ctxs, ↓rest_units, ↓rest_poison, ↓rest_links, ↓rest_fresh, ↓rest_rings, ↓rest_bolts, ↓rest_out, ↓State.modUnit_rest, ↓apply_ite State.rest, ite_self]
theorem State.poisonCtx_rest (s : State) (c : Nat) : (State.poisonCtx s c).rest = s.rest := by
  unfold State.poisonCtx; simp only [↓rest_fabric, ↓rest_chk, ↓rest_stack, ↓rest_stores, ↓rest_tick, ↓rest_media, ↓rest_regs, ↓rest_ctxs, ↓rest_units, ↓rest_poison, ↓rest_links, ↓rest_fresh, ↓rest_rings, ↓rest_bolts, ↓rest_out, ↓State.markPoison_rest, ↓apply_ite State.rest, ite_self]
theorem State.refuseRecord_rest (s : State) (c : Nat) (u : Nat) (r : Bytes) (code : Nat) : (State.refuseRecord s c u r code).rest = s.rest := by
  unfold State.refuseRecord; simp only [↓rest_fabric, ↓rest_chk, ↓rest_stack, ↓rest_stores, ↓rest_tick, ↓rest_media, ↓rest_regs, ↓rest_ctxs, ↓rest_units, ↓rest_poison, ↓rest_links, ↓rest_fresh, ↓rest_rings, ↓rest_bolts, ↓rest_out, ↓State.modUnit_rest, ↓State.opFault_rest, ↓apply_ite State.rest, ite_self]
theorem State.ctxClash_rest (s : State) (c : Nat) (u : Nat) (r : Bytes) : (State.ctxClash s c u r).rest = s.rest := by
  unfold State.ctxClash; simp only [↓rest_fabric, ↓rest_chk, ↓rest_stack, ↓rest_stores, ↓rest_tick, ↓rest_media, ↓rest_regs, ↓rest_ctxs, ↓rest_units, ↓rest_poison, ↓rest_links, ↓rest_fresh, ↓rest_rings, ↓rest_bolts, ↓rest_out, ↓State.poisonCtx_rest, ↓State.refuseRecord_rest, ↓apply_ite State.rest, ite_self]
theorem State.digestMismatch_rest (s : State) (c : Nat) (u : Nat) (id : Nat) : (State.digestMismatch s c u id).rest = s.rest := by
  unfold State.digestMismatch; (try dsimp only); (repeat' split) <;> first | with_reducible rfl | (simp only [↓rest_fabric, ↓rest_chk, ↓rest_stack, ↓rest_stores, ↓rest_tick, ↓rest_media, ↓rest_regs, ↓rest_ctxs, ↓rest_units, ↓rest_poison, ↓rest_links, ↓rest_fresh, ↓rest_rings, ↓rest_bolts, ↓rest_out, ↓State.count_rest, ↓State.event_rest, ↓State.noteMismatch_rest, ↓State.opFault_rest, ↓State.poisonCtx_rest, ↓State.setLast_rest, ↓State.unclean_rest, ↓State.unitEvent_rest, ↓over_rest, ↓foldl_rest, ↓apply_ite State.rest, ite_self]; done) | (simp [↓rest_fabric, ↓rest_chk, ↓rest_stack, ↓rest_stores, ↓rest_tick, ↓rest_media, ↓rest_regs, ↓rest_ctxs, ↓rest_units, ↓rest_poison, ↓rest_links, ↓rest_fresh, ↓rest_rings, ↓rest_bolts, ↓rest_out, ↓State.count_rest, ↓State.event_rest, ↓State.noteMismatch_rest, ↓State.opFault_rest, ↓State.poisonCtx_rest, ↓State.setLast_rest, ↓State.unclean_rest, ↓State.unitEvent_rest, ↓over_rest, ↓foldl_rest, ↓apply_ite State.rest, ite_self]; done)
theorem State.escapeBytes_rest (s : State) (es : List MemErr) : (State.escapeBytes s es).rest = s.rest := by
  unfold State.escapeBytes; (try dsimp only); (repeat' split) <;> first | with_reducible rfl | (simp only [↓rest_fabric, ↓rest_chk, ↓rest_stack, ↓rest_stores, ↓rest_tick, ↓rest_media, ↓rest_regs, ↓rest_ctxs, ↓rest_units, ↓rest_poison, ↓rest_links, ↓rest_fresh, ↓rest_rings, ↓rest_bolts, ↓rest_out, ↓over_rest, ↓foldl_rest, ↓apply_ite State.rest, ite_self]; done) | (simp [↓rest_fabric, ↓rest_chk, ↓rest_stack, ↓rest_stores, ↓rest_tick, ↓rest_media, ↓rest_regs, ↓rest_ctxs, ↓rest_units, ↓rest_poison, ↓rest_links, ↓rest_fresh, ↓rest_rings, ↓rest_bolts, ↓rest_out, ↓over_rest, ↓foldl_rest, ↓apply_ite State.rest, ite_self]; done)
theorem State.takeRecord_rest (s : State) (u : Nat) (r : Bytes) : (State.takeRecord s u r).rest = s.rest := by
  unfold State.takeRecord; simp only [↓rest_fabric, ↓rest_chk, ↓rest_stack, ↓rest_stores, ↓rest_tick, ↓rest_media, ↓rest_regs, ↓rest_ctxs, ↓rest_units, ↓rest_poison, ↓rest_links, ↓rest_fresh, ↓rest_rings, ↓rest_bolts, ↓rest_out, ↓State.modUnit_rest, ↓apply_ite State.rest, ite_self]
theorem State.issued_rest (s : State) (u : Nat) (r : Bytes) (late : Bool) : (State.issued s u r late).rest = s.rest := by
  unfold State.issued; simp only [↓rest_fabric, ↓rest_chk, ↓rest_stack, ↓rest_stores, ↓rest_tick, ↓rest_media, ↓rest_regs, ↓rest_ctxs, ↓rest_units, ↓rest_poison, ↓rest_links, ↓rest_fresh, ↓rest_rings, ↓rest_bolts, ↓rest_out, ↓State.eventIf_rest, ↓State.takeRecord_rest, ↓apply_ite State.rest, ite_self]
theorem State.normAdd_rest (s : State) (q : UpCtx) (r : Bytes) : (State.normAdd s q r).rest = s.rest := by
  unfold State.normAdd; simp only [↓rest_fabric, ↓rest_chk, ↓rest_stack, ↓rest_stores, ↓rest_tick, ↓rest_media, ↓rest_regs, ↓rest_ctxs, ↓rest_units, ↓rest_poison, ↓rest_links, ↓rest_fresh, ↓rest_rings, ↓rest_bolts, ↓rest_out, ↓State.modCtx_rest, ↓apply_ite State.rest, ite_self]
theorem State.runReceive_rest (s : State) (c : Nat) (u : Nat) (r : Bytes) (env : RunEnv) : (State.runReceive s c u r env).rest = s.rest := by
  unfold State.runReceive; (try dsimp only); (repeat' split) <;> first | with_reducible rfl | (simp only [↓rest_fabric, ↓rest_chk, ↓rest_stack, ↓rest_stores, ↓rest_tick, ↓rest_media, ↓rest_regs, ↓rest_ctxs, ↓rest_units, ↓rest_poison, ↓rest_links, ↓rest_fresh, ↓rest_rings, ↓rest_bolts, ↓rest_out, ↓State.afterRun_rest, ↓State.appendLate_rest, ↓State.escapeBytes_rest, ↓State.eventIf_rest, ↓State.markPoison_rest, ↓State.opFault_rest, ↓apply_ite State.rest, ite_self]; done) | (simp [↓rest_fabric, ↓rest_chk, ↓rest_stack, ↓rest_stores, ↓rest_tick, ↓rest_media, ↓rest_regs, ↓rest_ctxs, ↓rest_units, ↓rest_poison, ↓rest_links, ↓rest_fresh, ↓rest_rings, ↓rest_bolts, ↓rest_out, ↓State.afterRun_rest, ↓State.appendLate_rest, ↓State.escapeBytes_rest, ↓State.eventIf_rest, ↓State.markPoison_rest, ↓State.opFault_rest, ↓apply_ite State.rest, ite_self]; done)
theorem issueG_rest (u : Nat) (r : Bytes) (late : Bool) (legal : Bool) (reach : Bool) (regions : List Region) (go : Nat → State → State) (s : State) (h6 : ∀ (x0 : Nat) (x1 : State), State.rest (go x0 x1) = State.rest x1) (t : State) (h : issueG u r late legal reach regions go s = .next t) : t.rest = s.rest := by
  unfold issueG at h; (try dsimp only at h); (repeat' split at h) <;> (first  | contradiction | (obtain rfl := Host.Outcome.next.inj h; first | with_reducible rfl | (simp only [↓rest_fabric, ↓rest_chk, ↓rest_stack, ↓rest_stores, ↓rest_tick, ↓rest_media, ↓rest_regs, ↓rest_ctxs, ↓rest_units, ↓rest_poison, ↓rest_links, ↓rest_fresh, ↓rest_rings, ↓rest_bolts, ↓rest_out, ↓State.ctxClash_rest, ↓State.issued_rest, ↓State.refuseRecord_rest, ↓State.takeRecord_rest, ↓h6, ↓apply_ite State.rest, ite_self]; done) | (simp [↓rest_fabric, ↓rest_chk, ↓rest_stack, ↓rest_stores, ↓rest_tick, ↓rest_media, ↓rest_regs, ↓rest_ctxs, ↓rest_units, ↓rest_poison, ↓rest_links, ↓rest_fresh, ↓rest_rings, ↓rest_bolts, ↓rest_out, ↓State.ctxClash_rest, ↓State.issued_rest, ↓State.refuseRecord_rest, ↓State.takeRecord_rest, ↓h6, ↓apply_ite State.rest, ite_self]; done) | (rename_i heq; have hk := congrArg (fun q => q.1.rest) heq; simp only [↓rest_fabric, ↓rest_chk, ↓rest_stack, ↓rest_stores, ↓rest_tick, ↓rest_media, ↓rest_regs, ↓rest_ctxs, ↓rest_units, ↓rest_poison, ↓rest_links, ↓rest_fresh, ↓rest_rings, ↓rest_bolts, ↓rest_out, ↓State.ctxClash_rest, ↓State.issued_rest, ↓State.refuseRecord_rest, ↓State.takeRecord_rest, ↓h6] at hk; simp only [↓rest_fabric, ↓rest_chk, ↓rest_stack, ↓rest_stores, ↓rest_tick, ↓rest_media, ↓rest_regs, ↓rest_ctxs, ↓rest_units, ↓rest_poison, ↓rest_links, ↓rest_fresh, ↓rest_rings, ↓rest_bolts, ↓rest_out, ↓State.ctxClash_rest, ↓State.issued_rest, ↓State.refuseRecord_rest, ↓State.takeRecord_rest, ↓h6, ↓apply_ite State.rest, ite_self]; exact hk.symm)))
theorem issue_rest (u : Nat) (r : Bytes) (env : RunEnv) (legal : Bool) (reads : List Region) (writes : List Region) (out : State → RunCtx → RunOut) (s : State) (t : State) (h : issue u r env legal reads writes out s = .next t) : t.rest = s.rest := by
  unfold issue at h; (try dsimp only at h); refine issueG_rest (t := t) (h := h) (h6 := ?_) .. <;> (intros; first | with_reducible rfl | (simp only [↓rest_fabric, ↓rest_chk, ↓rest_stack, ↓rest_stores, ↓rest_tick, ↓rest_media, ↓rest_regs, ↓rest_ctxs, ↓rest_units, ↓rest_poison, ↓rest_links, ↓rest_fresh, ↓rest_rings, ↓rest_bolts, ↓rest_out, ↓State.afterRun_rest, ↓State.escapeBytes_rest, ↓apply_ite State.rest, ite_self]; done) | (simp [↓rest_fabric, ↓rest_chk, ↓rest_stack, ↓rest_stores, ↓rest_tick, ↓rest_media, ↓rest_regs, ↓rest_ctxs, ↓rest_units, ↓rest_poison, ↓rest_links, ↓rest_fresh, ↓rest_rings, ↓rest_bolts, ↓rest_out, ↓State.afterRun_rest, ↓State.escapeBytes_rest, ↓apply_ite State.rest, ite_self]; done) | ((try dsimp only); (repeat' split) <;> (first | with_reducible rfl | (simp only [↓rest_fabric, ↓rest_chk, ↓rest_stack, ↓rest_stores, ↓rest_tick, ↓rest_media, ↓rest_regs, ↓rest_ctxs, ↓rest_units, ↓rest_poison, ↓rest_links, ↓rest_fresh, ↓rest_rings, ↓rest_bolts, ↓rest_out, ↓State.afterRun_rest, ↓State.escapeBytes_rest, ↓apply_ite State.rest, ite_self]; done) | (simp [↓rest_fabric, ↓rest_chk, ↓rest_stack, ↓rest_stores, ↓rest_tick, ↓rest_media, ↓rest_regs, ↓rest_ctxs, ↓rest_units, ↓rest_poison, ↓rest_links, ↓rest_fresh, ↓rest_rings, ↓rest_bolts, ↓rest_out, ↓State.afterRun_rest, ↓State.escapeBytes_rest, ↓apply_ite State.rest, ite_self]; done) | (rename_i heq; have hk := congrArg (fun q => q.1.rest) heq; simp only [↓rest_fabric, ↓rest_chk, ↓rest_stack, ↓rest_stores, ↓rest_tick, ↓rest_media, ↓rest_regs, ↓rest_ctxs, ↓rest_units, ↓rest_poison, ↓rest_links, ↓rest_fresh, ↓rest_rings, ↓rest_bolts, ↓rest_out, ↓State.afterRun_rest, ↓State.escapeBytes_rest] at hk; simp only [↓rest_fabric, ↓rest_chk, ↓rest_stack, ↓rest_stores, ↓rest_tick, ↓rest_media, ↓rest_regs, ↓rest_ctxs, ↓rest_units, ↓rest_poison, ↓rest_links, ↓rest_fresh, ↓rest_rings, ↓rest_bolts, ↓rest_out, ↓State.afterRun_rest, ↓State.escapeBytes_rest, ↓apply_ite State.rest, ite_self]; exact hk.symm))))
theorem issueAttention_rest (mode : Nat) (u : Nat) (r : Bytes) (env : RunEnv) (out : Bytes → State → RunCtx → RunOut) (s : State) (t : State) (h : issueAttention mode u r env out s = .next t) : t.rest = s.rest := by
  unfold issueAttention at h; (try dsimp only at h); (repeat' split at h) <;> (first | (exact issue_rest (h := h) ..) | contradiction | (obtain rfl := Host.Outcome.next.inj h; first | with_reducible rfl | (simp only [↓rest_fabric, ↓rest_chk, ↓rest_stack, ↓rest_stores, ↓rest_tick, ↓rest_media, ↓rest_regs, ↓rest_ctxs, ↓rest_units, ↓rest_poison, ↓rest_links, ↓rest_fresh, ↓rest_rings, ↓rest_bolts, ↓rest_out, ↓apply_ite State.rest, ite_self]; done) | (simp [↓rest_fabric, ↓rest_chk, ↓rest_stack, ↓rest_stores, ↓rest_tick, ↓rest_media, ↓rest_regs, ↓rest_ctxs, ↓rest_units, ↓rest_poison, ↓rest_links, ↓rest_fresh, ↓rest_rings, ↓rest_bolts, ↓rest_out, ↓apply_ite State.rest, ite_self]; done) | (rename_i heq; have hk := congrArg (fun q => q.1.rest) heq; simp only [↓rest_fabric, ↓rest_chk, ↓rest_stack, ↓rest_stores, ↓rest_tick, ↓rest_media, ↓rest_regs, ↓rest_ctxs, ↓rest_units, ↓rest_poison, ↓rest_links, ↓rest_fresh, ↓rest_rings, ↓rest_bolts, ↓rest_out] at hk; simp only [↓rest_fabric, ↓rest_chk, ↓rest_stack, ↓rest_stores, ↓rest_tick, ↓rest_media, ↓rest_regs, ↓rest_ctxs, ↓rest_units, ↓rest_poison, ↓rest_links, ↓rest_fresh, ↓rest_rings, ↓rest_bolts, ↓rest_out, ↓apply_ite State.rest, ite_self]; exact hk.symm)))
theorem execAttentionAppend_rest (u : Fin 256) (r : Bytes) (env : RunEnv) (s : State) (t : State) (h : execAttentionAppend u r env s = .next t) : t.rest = s.rest := by
  unfold execAttentionAppend at h; (try dsimp only at h); (repeat' split at h) <;> (first | (exact issueAttention_rest (h := h) ..) | contradiction | (obtain rfl := Host.Outcome.next.inj h; first | with_reducible rfl | (simp only [↓rest_fabric, ↓rest_chk, ↓rest_stack, ↓rest_stores, ↓rest_tick, ↓rest_media, ↓rest_regs, ↓rest_ctxs, ↓rest_units, ↓rest_poison, ↓rest_links, ↓rest_fresh, ↓rest_rings, ↓rest_bolts, ↓rest_out, ↓apply_ite State.rest, ite_self]; done) | (simp [↓rest_fabric, ↓rest_chk, ↓rest_stack, ↓rest_stores, ↓rest_tick, ↓rest_media, ↓rest_regs, ↓rest_ctxs, ↓rest_units, ↓rest_poison, ↓rest_links, ↓rest_fresh, ↓rest_rings, ↓rest_bolts, ↓rest_out, ↓apply_ite State.rest, ite_self]; done) | (rename_i heq; have hk := congrArg (fun q => q.1.rest) heq; simp only [↓rest_fabric, ↓rest_chk, ↓rest_stack, ↓rest_stores, ↓rest_tick, ↓rest_media, ↓rest_regs, ↓rest_ctxs, ↓rest_units, ↓rest_poison, ↓rest_links, ↓rest_fresh, ↓rest_rings, ↓rest_bolts, ↓rest_out] at hk; simp only [↓rest_fabric, ↓rest_chk, ↓rest_stack, ↓rest_stores, ↓rest_tick, ↓rest_media, ↓rest_regs, ↓rest_ctxs, ↓rest_units, ↓rest_poison, ↓rest_links, ↓rest_fresh, ↓rest_rings, ↓rest_bolts, ↓rest_out, ↓apply_ite State.rest, ite_self]; exact hk.symm)))
theorem execAttentionBwd_rest (u : Fin 256) (r : Bytes) (env : RunEnv) (s : State) (t : State) (h : execAttentionBwd u r env s = .next t) : t.rest = s.rest := by
  unfold execAttentionBwd at h; (try dsimp only at h); (repeat' split at h) <;> (first | (exact issueAttention_rest (h := h) ..) | contradiction | (obtain rfl := Host.Outcome.next.inj h; first | with_reducible rfl | (simp only [↓rest_fabric, ↓rest_chk, ↓rest_stack, ↓rest_stores, ↓rest_tick, ↓rest_media, ↓rest_regs, ↓rest_ctxs, ↓rest_units, ↓rest_poison, ↓rest_links, ↓rest_fresh, ↓rest_rings, ↓rest_bolts, ↓rest_out, ↓apply_ite State.rest, ite_self]; done) | (simp [↓rest_fabric, ↓rest_chk, ↓rest_stack, ↓rest_stores, ↓rest_tick, ↓rest_media, ↓rest_regs, ↓rest_ctxs, ↓rest_units, ↓rest_poison, ↓rest_links, ↓rest_fresh, ↓rest_rings, ↓rest_bolts, ↓rest_out, ↓apply_ite State.rest, ite_self]; done) | (rename_i heq; have hk := congrArg (fun q => q.1.rest) heq; simp only [↓rest_fabric, ↓rest_chk, ↓rest_stack, ↓rest_stores, ↓rest_tick, ↓rest_media, ↓rest_regs, ↓rest_ctxs, ↓rest_units, ↓rest_poison, ↓rest_links, ↓rest_fresh, ↓rest_rings, ↓rest_bolts, ↓rest_out] at hk; simp only [↓rest_fabric, ↓rest_chk, ↓rest_stack, ↓rest_stores, ↓rest_tick, ↓rest_media, ↓rest_regs, ↓rest_ctxs, ↓rest_units, ↓rest_poison, ↓rest_links, ↓rest_fresh, ↓rest_rings, ↓rest_bolts, ↓rest_out, ↓apply_ite State.rest, ite_self]; exact hk.symm)))
theorem execAttentionFwd_rest (u : Fin 256) (r : Bytes) (env : RunEnv) (s : State) (t : State) (h : execAttentionFwd u r env s = .next t) : t.rest = s.rest := by
  unfold execAttentionFwd at h; (try dsimp only at h); (repeat' split at h) <;> (first | (exact issueAttention_rest (h := h) ..) | contradiction | (obtain rfl := Host.Outcome.next.inj h; first | with_reducible rfl | (simp only [↓rest_fabric, ↓rest_chk, ↓rest_stack, ↓rest_stores, ↓rest_tick, ↓rest_media, ↓rest_regs, ↓rest_ctxs, ↓rest_units, ↓rest_poison, ↓rest_links, ↓rest_fresh, ↓rest_rings, ↓rest_bolts, ↓rest_out, ↓apply_ite State.rest, ite_self]; done) | (simp [↓rest_fabric, ↓rest_chk, ↓rest_stack, ↓rest_stores, ↓rest_tick, ↓rest_media, ↓rest_regs, ↓rest_ctxs, ↓rest_units, ↓rest_poison, ↓rest_links, ↓rest_fresh, ↓rest_rings, ↓rest_bolts, ↓rest_out, ↓apply_ite State.rest, ite_self]; done) | (rename_i heq; have hk := congrArg (fun q => q.1.rest) heq; simp only [↓rest_fabric, ↓rest_chk, ↓rest_stack, ↓rest_stores, ↓rest_tick, ↓rest_media, ↓rest_regs, ↓rest_ctxs, ↓rest_units, ↓rest_poison, ↓rest_links, ↓rest_fresh, ↓rest_rings, ↓rest_bolts, ↓rest_out] at hk; simp only [↓rest_fabric, ↓rest_chk, ↓rest_stack, ↓rest_stores, ↓rest_tick, ↓rest_media, ↓rest_regs, ↓rest_ctxs, ↓rest_units, ↓rest_poison, ↓rest_links, ↓rest_fresh, ↓rest_rings, ↓rest_bolts, ↓rest_out, ↓apply_ite State.rest, ite_self]; exact hk.symm)))
theorem execAttentionMerge_rest (u : Fin 256) (r : Bytes) (env : RunEnv) (s : State) (t : State) (h : execAttentionMerge u r env s = .next t) : t.rest = s.rest := by
  unfold execAttentionMerge at h; (try dsimp only at h); (repeat' split at h) <;> (first | (exact issue_rest (h := h) ..) | contradiction | (obtain rfl := Host.Outcome.next.inj h; first | with_reducible rfl | (simp only [↓rest_fabric, ↓rest_chk, ↓rest_stack, ↓rest_stores, ↓rest_tick, ↓rest_media, ↓rest_regs, ↓rest_ctxs, ↓rest_units, ↓rest_poison, ↓rest_links, ↓rest_fresh, ↓rest_rings, ↓rest_bolts, ↓rest_out, ↓apply_ite State.rest, ite_self]; done) | (simp [↓rest_fabric, ↓rest_chk, ↓rest_stack, ↓rest_stores, ↓rest_tick, ↓rest_media, ↓rest_regs, ↓rest_ctxs, ↓rest_units, ↓rest_poison, ↓rest_links, ↓rest_fresh, ↓rest_rings, ↓rest_bolts, ↓rest_out, ↓apply_ite State.rest, ite_self]; done) | (rename_i heq; have hk := congrArg (fun q => q.1.rest) heq; simp only [↓rest_fabric, ↓rest_chk, ↓rest_stack, ↓rest_stores, ↓rest_tick, ↓rest_media, ↓rest_regs, ↓rest_ctxs, ↓rest_units, ↓rest_poison, ↓rest_links, ↓rest_fresh, ↓rest_rings, ↓rest_bolts, ↓rest_out] at hk; simp only [↓rest_fabric, ↓rest_chk, ↓rest_stack, ↓rest_stores, ↓rest_tick, ↓rest_media, ↓rest_regs, ↓rest_ctxs, ↓rest_units, ↓rest_poison, ↓rest_links, ↓rest_fresh, ↓rest_rings, ↓rest_bolts, ↓rest_out, ↓apply_ite State.rest, ite_self]; exact hk.symm)))
theorem issueWindow_rest (op : Nat) (u : Nat) (r : Bytes) (env : RunEnv) (s : State) (t : State) (h : issueWindow op u r env s = .next t) : t.rest = s.rest := by
  unfold issueWindow at h; (try dsimp only at h); (repeat' split at h) <;> (first | (exact issue_rest (h := h) ..) | contradiction | (obtain rfl := Host.Outcome.next.inj h; first | with_reducible rfl | (simp only [↓rest_fabric, ↓rest_chk, ↓rest_stack, ↓rest_stores, ↓rest_tick, ↓rest_media, ↓rest_regs, ↓rest_ctxs, ↓rest_units, ↓rest_poison, ↓rest_links, ↓rest_fresh, ↓rest_rings, ↓rest_bolts, ↓rest_out, ↓apply_ite State.rest, ite_self]; done) | (simp [↓rest_fabric, ↓rest_chk, ↓rest_stack, ↓rest_stores, ↓rest_tick, ↓rest_media, ↓rest_regs, ↓rest_ctxs, ↓rest_units, ↓rest_poison, ↓rest_links, ↓rest_fresh, ↓rest_rings, ↓rest_bolts, ↓rest_out, ↓apply_ite State.rest, ite_self]; done) | (rename_i heq; have hk := congrArg (fun q => q.1.rest) heq; simp only [↓rest_fabric, ↓rest_chk, ↓rest_stack, ↓rest_stores, ↓rest_tick, ↓rest_media, ↓rest_regs, ↓rest_ctxs, ↓rest_units, ↓rest_poison, ↓rest_links, ↓rest_fresh, ↓rest_rings, ↓rest_bolts, ↓rest_out] at hk; simp only [↓rest_fabric, ↓rest_chk, ↓rest_stack, ↓rest_stores, ↓rest_tick, ↓rest_media, ↓rest_regs, ↓rest_ctxs, ↓rest_units, ↓rest_poison, ↓rest_links, ↓rest_fresh, ↓rest_rings, ↓rest_bolts, ↓rest_out, ↓apply_ite State.rest, ite_self]; exact hk.symm)))
theorem execAveragePool_rest (u : Fin 256) (r : Bytes) (env : RunEnv) (s : State) (t : State) (h : execAveragePool u r env s = .next t) : t.rest = s.rest := by
  unfold execAveragePool at h; (try dsimp only at h); (repeat' split at h) <;> (first | (exact issueWindow_rest (h := h) ..) | contradiction | (obtain rfl := Host.Outcome.next.inj h; first | with_reducible rfl | (simp only [↓rest_fabric, ↓rest_chk, ↓rest_stack, ↓rest_stores, ↓rest_tick, ↓rest_media, ↓rest_regs, ↓rest_ctxs, ↓rest_units, ↓rest_poison, ↓rest_links, ↓rest_fresh, ↓rest_rings, ↓rest_bolts, ↓rest_out, ↓apply_ite State.rest, ite_self]; done) | (simp [↓rest_fabric, ↓rest_chk, ↓rest_stack, ↓rest_stores, ↓rest_tick, ↓rest_media, ↓rest_regs, ↓rest_ctxs, ↓rest_units, ↓rest_poison, ↓rest_links, ↓rest_fresh, ↓rest_rings, ↓rest_bolts, ↓rest_out, ↓apply_ite State.rest, ite_self]; done) | (rename_i heq; have hk := congrArg (fun q => q.1.rest) heq; simp only [↓rest_fabric, ↓rest_chk, ↓rest_stack, ↓rest_stores, ↓rest_tick, ↓rest_media, ↓rest_regs, ↓rest_ctxs, ↓rest_units, ↓rest_poison, ↓rest_links, ↓rest_fresh, ↓rest_rings, ↓rest_bolts, ↓rest_out] at hk; simp only [↓rest_fabric, ↓rest_chk, ↓rest_stack, ↓rest_stores, ↓rest_tick, ↓rest_media, ↓rest_regs, ↓rest_ctxs, ↓rest_units, ↓rest_poison, ↓rest_links, ↓rest_fresh, ↓rest_rings, ↓rest_bolts, ↓rest_out, ↓apply_ite State.rest, ite_self]; exact hk.symm)))
theorem execBilinearResize_rest (u : Fin 256) (r : Bytes) (env : RunEnv) (s : State) (t : State) (h : execBilinearResize u r env s = .next t) : t.rest = s.rest := by
  unfold execBilinearResize at h; (try dsimp only at h); (repeat' split at h) <;> (first | (exact issueWindow_rest (h := h) ..) | contradiction | (obtain rfl := Host.Outcome.next.inj h; first | with_reducible rfl | (simp only [↓rest_fabric, ↓rest_chk, ↓rest_stack, ↓rest_stores, ↓rest_tick, ↓rest_media, ↓rest_regs, ↓rest_ctxs, ↓rest_units, ↓rest_poison, ↓rest_links, ↓rest_fresh, ↓rest_rings, ↓rest_bolts, ↓rest_out, ↓apply_ite State.rest, ite_self]; done) | (simp [↓rest_fabric, ↓rest_chk, ↓rest_stack, ↓rest_stores, ↓rest_tick, ↓rest_media, ↓rest_regs, ↓rest_ctxs, ↓rest_units, ↓rest_poison, ↓rest_links, ↓rest_fresh, ↓rest_rings, ↓rest_bolts, ↓rest_out, ↓apply_ite State.rest, ite_self]; done) | (rename_i heq; have hk := congrArg (fun q => q.1.rest) heq; simp only [↓rest_fabric, ↓rest_chk, ↓rest_stack, ↓rest_stores, ↓rest_tick, ↓rest_media, ↓rest_regs, ↓rest_ctxs, ↓rest_units, ↓rest_poison, ↓rest_links, ↓rest_fresh, ↓rest_rings, ↓rest_bolts, ↓rest_out] at hk; simp only [↓rest_fabric, ↓rest_chk, ↓rest_stack, ↓rest_stores, ↓rest_tick, ↓rest_media, ↓rest_regs, ↓rest_ctxs, ↓rest_units, ↓rest_poison, ↓rest_links, ↓rest_fresh, ↓rest_rings, ↓rest_bolts, ↓rest_out, ↓apply_ite State.rest, ite_self]; exact hk.symm)))
theorem issueBolt_rest (op : Nat) (u : Nat) (r : Bytes) (late : Bool) (go : Nat → State → State) (s : State) (h4 : ∀ (x0 : Nat) (x1 : State), State.rest (go x0 x1) = State.rest x1) (t : State) (h : issueBolt op u r late go s = .next t) : t.rest = s.rest := by
  unfold issueBolt at h; (try dsimp only at h); refine issueG_rest (t := t) (h := h) (h6 := ?_) .. <;> (intros; first | with_reducible rfl | (simp only [↓rest_fabric, ↓rest_chk, ↓rest_stack, ↓rest_stores, ↓rest_tick, ↓rest_media, ↓rest_regs, ↓rest_ctxs, ↓rest_units, ↓rest_poison, ↓rest_links, ↓rest_fresh, ↓rest_rings, ↓rest_bolts, ↓rest_out, ↓State.begun_rest, ↓h4, ↓apply_ite State.rest, ite_self]; done) | (simp [↓rest_fabric, ↓rest_chk, ↓rest_stack, ↓rest_stores, ↓rest_tick, ↓rest_media, ↓rest_regs, ↓rest_ctxs, ↓rest_units, ↓rest_poison, ↓rest_links, ↓rest_fresh, ↓rest_rings, ↓rest_bolts, ↓rest_out, ↓State.begun_rest, ↓h4, ↓apply_ite State.rest, ite_self]; done) | ((try dsimp only); (repeat' split) <;> (first | with_reducible rfl | (simp only [↓rest_fabric, ↓rest_chk, ↓rest_stack, ↓rest_stores, ↓rest_tick, ↓rest_media, ↓rest_regs, ↓rest_ctxs, ↓rest_units, ↓rest_poison, ↓rest_links, ↓rest_fresh, ↓rest_rings, ↓rest_bolts, ↓rest_out, ↓State.begun_rest, ↓h4, ↓apply_ite State.rest, ite_self]; done) | (simp [↓rest_fabric, ↓rest_chk, ↓rest_stack, ↓rest_stores, ↓rest_tick, ↓rest_media, ↓rest_regs, ↓rest_ctxs, ↓rest_units, ↓rest_poison, ↓rest_links, ↓rest_fresh, ↓rest_rings, ↓rest_bolts, ↓rest_out, ↓State.begun_rest, ↓h4, ↓apply_ite State.rest, ite_self]; done) | (rename_i heq; have hk := congrArg (fun q => q.1.rest) heq; simp only [↓rest_fabric, ↓rest_chk, ↓rest_stack, ↓rest_stores, ↓rest_tick, ↓rest_media, ↓rest_regs, ↓rest_ctxs, ↓rest_units, ↓rest_poison, ↓rest_links, ↓rest_fresh, ↓rest_rings, ↓rest_bolts, ↓rest_out, ↓State.begun_rest, ↓h4] at hk; simp only [↓rest_fabric, ↓rest_chk, ↓rest_stack, ↓rest_stores, ↓rest_tick, ↓rest_media, ↓rest_regs, ↓rest_ctxs, ↓rest_units, ↓rest_poison, ↓rest_links, ↓rest_fresh, ↓rest_rings, ↓rest_bolts, ↓rest_out, ↓State.begun_rest, ↓h4, ↓apply_ite State.rest, ite_self]; exact hk.symm))))
theorem execBoltAdd_rest (u : Fin 288) (r : Bytes) (late : Bool) (s : State) (t : State) (h : execBoltAdd u r late s = .next t) : t.rest = s.rest := by
  unfold execBoltAdd at h; (try dsimp only at h); refine issueBolt_rest (t := t) (h := h) (h4 := ?_) .. <;> (intros; first | with_reducible rfl | (simp only [↓rest_fabric, ↓rest_chk, ↓rest_stack, ↓rest_stores, ↓rest_tick, ↓rest_media, ↓rest_regs, ↓rest_ctxs, ↓rest_units, ↓rest_poison, ↓rest_links, ↓rest_fresh, ↓rest_rings, ↓rest_bolts, ↓rest_out, ↓State.boltAdd_rest, ↓apply_ite State.rest, ite_self]; done) | (simp [↓rest_fabric, ↓rest_chk, ↓rest_stack, ↓rest_stores, ↓rest_tick, ↓rest_media, ↓rest_regs, ↓rest_ctxs, ↓rest_units, ↓rest_poison, ↓rest_links, ↓rest_fresh, ↓rest_rings, ↓rest_bolts, ↓rest_out, ↓State.boltAdd_rest, ↓apply_ite State.rest, ite_self]; done) | ((try dsimp only); (repeat' split) <;> (first | with_reducible rfl | (simp only [↓rest_fabric, ↓rest_chk, ↓rest_stack, ↓rest_stores, ↓rest_tick, ↓rest_media, ↓rest_regs, ↓rest_ctxs, ↓rest_units, ↓rest_poison, ↓rest_links, ↓rest_fresh, ↓rest_rings, ↓rest_bolts, ↓rest_out, ↓State.boltAdd_rest, ↓apply_ite State.rest, ite_self]; done) | (simp [↓rest_fabric, ↓rest_chk, ↓rest_stack, ↓rest_stores, ↓rest_tick, ↓rest_media, ↓rest_regs, ↓rest_ctxs, ↓rest_units, ↓rest_poison, ↓rest_links, ↓rest_fresh, ↓rest_rings, ↓rest_bolts, ↓rest_out, ↓State.boltAdd_rest, ↓apply_ite State.rest, ite_self]; done) | (rename_i heq; have hk := congrArg (fun q => q.1.rest) heq; simp only [↓rest_fabric, ↓rest_chk, ↓rest_stack, ↓rest_stores, ↓rest_tick, ↓rest_media, ↓rest_regs, ↓rest_ctxs, ↓rest_units, ↓rest_poison, ↓rest_links, ↓rest_fresh, ↓rest_rings, ↓rest_bolts, ↓rest_out, ↓State.boltAdd_rest] at hk; simp only [↓rest_fabric, ↓rest_chk, ↓rest_stack, ↓rest_stores, ↓rest_tick, ↓rest_media, ↓rest_regs, ↓rest_ctxs, ↓rest_units, ↓rest_poison, ↓rest_links, ↓rest_fresh, ↓rest_rings, ↓rest_bolts, ↓rest_out, ↓State.boltAdd_rest, ↓apply_ite State.rest, ite_self]; exact hk.symm))))
theorem execBoltSet_rest (u : Fin 288) (r : Bytes) (late : Bool) (s : State) (t : State) (h : execBoltSet u r late s = .next t) : t.rest = s.rest := by
  unfold execBoltSet at h; (try dsimp only at h); refine issueBolt_rest (t := t) (h := h) (h4 := ?_) .. <;> (intros; first | with_reducible rfl | (simp only [↓rest_fabric, ↓rest_chk, ↓rest_stack, ↓rest_stores, ↓rest_tick, ↓rest_media, ↓rest_regs, ↓rest_ctxs, ↓rest_units, ↓rest_poison, ↓rest_links, ↓rest_fresh, ↓rest_rings, ↓rest_bolts, ↓rest_out, ↓State.boltSet_rest, ↓apply_ite State.rest, ite_self]; done) | (simp [↓rest_fabric, ↓rest_chk, ↓rest_stack, ↓rest_stores, ↓rest_tick, ↓rest_media, ↓rest_regs, ↓rest_ctxs, ↓rest_units, ↓rest_poison, ↓rest_links, ↓rest_fresh, ↓rest_rings, ↓rest_bolts, ↓rest_out, ↓State.boltSet_rest, ↓apply_ite State.rest, ite_self]; done) | ((try dsimp only); (repeat' split) <;> (first | with_reducible rfl | (simp only [↓rest_fabric, ↓rest_chk, ↓rest_stack, ↓rest_stores, ↓rest_tick, ↓rest_media, ↓rest_regs, ↓rest_ctxs, ↓rest_units, ↓rest_poison, ↓rest_links, ↓rest_fresh, ↓rest_rings, ↓rest_bolts, ↓rest_out, ↓State.boltSet_rest, ↓apply_ite State.rest, ite_self]; done) | (simp [↓rest_fabric, ↓rest_chk, ↓rest_stack, ↓rest_stores, ↓rest_tick, ↓rest_media, ↓rest_regs, ↓rest_ctxs, ↓rest_units, ↓rest_poison, ↓rest_links, ↓rest_fresh, ↓rest_rings, ↓rest_bolts, ↓rest_out, ↓State.boltSet_rest, ↓apply_ite State.rest, ite_self]; done) | (rename_i heq; have hk := congrArg (fun q => q.1.rest) heq; simp only [↓rest_fabric, ↓rest_chk, ↓rest_stack, ↓rest_stores, ↓rest_tick, ↓rest_media, ↓rest_regs, ↓rest_ctxs, ↓rest_units, ↓rest_poison, ↓rest_links, ↓rest_fresh, ↓rest_rings, ↓rest_bolts, ↓rest_out, ↓State.boltSet_rest] at hk; simp only [↓rest_fabric, ↓rest_chk, ↓rest_stack, ↓rest_stores, ↓rest_tick, ↓rest_media, ↓rest_regs, ↓rest_ctxs, ↓rest_units, ↓rest_poison, ↓rest_links, ↓rest_fresh, ↓rest_rings, ↓rest_bolts, ↓rest_out, ↓State.boltSet_rest, ↓apply_ite State.rest, ite_self]; exact hk.symm))))
theorem execBoltWait_rest (u : Fin 288) (r : Bytes) (late : Bool) (s : State) (t : State) (h : execBoltWait u r late s = .next t) : t.rest = s.rest := by
  unfold execBoltWait at h; (try dsimp only at h); refine issueBolt_rest (t := t) (h := h) (h4 := ?_) .. <;> (intros; first | with_reducible rfl | (simp only [↓rest_fabric, ↓rest_chk, ↓rest_stack, ↓rest_stores, ↓rest_tick, ↓rest_media, ↓rest_regs, ↓rest_ctxs, ↓rest_units, ↓rest_poison, ↓rest_links, ↓rest_fresh, ↓rest_rings, ↓rest_bolts, ↓rest_out, ↓State.boltWait_rest, ↓apply_ite State.rest, ite_self]; done) | (simp [↓rest_fabric, ↓rest_chk, ↓rest_stack, ↓rest_stores, ↓rest_tick, ↓rest_media, ↓rest_regs, ↓rest_ctxs, ↓rest_units, ↓rest_poison, ↓rest_links, ↓rest_fresh, ↓rest_rings, ↓rest_bolts, ↓rest_out, ↓State.boltWait_rest, ↓apply_ite State.rest, ite_self]; done) | ((try dsimp only); (repeat' split) <;> (first | with_reducible rfl | (simp only [↓rest_fabric, ↓rest_chk, ↓rest_stack, ↓rest_stores, ↓rest_tick, ↓rest_media, ↓rest_regs, ↓rest_ctxs, ↓rest_units, ↓rest_poison, ↓rest_links, ↓rest_fresh, ↓rest_rings, ↓rest_bolts, ↓rest_out, ↓State.boltWait_rest, ↓apply_ite State.rest, ite_self]; done) | (simp [↓rest_fabric, ↓rest_chk, ↓rest_stack, ↓rest_stores, ↓rest_tick, ↓rest_media, ↓rest_regs, ↓rest_ctxs, ↓rest_units, ↓rest_poison, ↓rest_links, ↓rest_fresh, ↓rest_rings, ↓rest_bolts, ↓rest_out, ↓State.boltWait_rest, ↓apply_ite State.rest, ite_self]; done) | (rename_i heq; have hk := congrArg (fun q => q.1.rest) heq; simp only [↓rest_fabric, ↓rest_chk, ↓rest_stack, ↓rest_stores, ↓rest_tick, ↓rest_media, ↓rest_regs, ↓rest_ctxs, ↓rest_units, ↓rest_poison, ↓rest_links, ↓rest_fresh, ↓rest_rings, ↓rest_bolts, ↓rest_out, ↓State.boltWait_rest] at hk; simp only [↓rest_fabric, ↓rest_chk, ↓rest_stack, ↓rest_stores, ↓rest_tick, ↓rest_media, ↓rest_regs, ↓rest_ctxs, ↓rest_units, ↓rest_poison, ↓rest_links, ↓rest_fresh, ↓rest_rings, ↓rest_bolts, ↓rest_out, ↓State.boltWait_rest, ↓apply_ite State.rest, ite_self]; exact hk.symm))))
theorem issueUpdate_rest (cls : Nat) (w : Nat) (r : Bytes) (env : RunEnv) (reads : UpCtx → State → List Region) (outs : UpCtx → State → List Region) (run : UpCtx → State → RunOut) (post : UpCtx → State → State) (s : State) (h7 : ∀ (x0 : UpCtx) (x1 : State), State.rest (post x0 x1) = State.rest x1) (t : State) (h : issueUpdate cls w r env reads outs run post s = .next t) : t.rest = s.rest := by
  unfold issueUpdate at h; (try dsimp only at h); refine issueG_rest (t := t) (h := h) (h6 := ?_) .. <;> (intros; first | with_reducible rfl | (simp only [↓rest_fabric, ↓rest_chk, ↓rest_stack, ↓rest_stores, ↓rest_tick, ↓rest_media, ↓rest_regs, ↓rest_ctxs, ↓rest_units, ↓rest_poison, ↓rest_links, ↓rest_fresh, ↓rest_rings, ↓rest_bolts, ↓rest_out, ↓State.afterRun_rest, ↓State.afterVerdict_rest, ↓State.escapeBytes_rest, ↓h7, ↓apply_ite State.rest, ite_self]; done) | (simp [↓rest_fabric, ↓rest_chk, ↓rest_stack, ↓rest_stores, ↓rest_tick, ↓rest_media, ↓rest_regs, ↓rest_ctxs, ↓rest_units, ↓rest_poison, ↓rest_links, ↓rest_fresh, ↓rest_rings, ↓rest_bolts, ↓rest_out, ↓State.afterRun_rest, ↓State.afterVerdict_rest, ↓State.escapeBytes_rest, ↓h7, ↓apply_ite State.rest, ite_self]; done) | ((try dsimp only); (repeat' split) <;> (first | with_reducible rfl | (simp only [↓rest_fabric, ↓rest_chk, ↓rest_stack, ↓rest_stores, ↓rest_tick, ↓rest_media, ↓rest_regs, ↓rest_ctxs, ↓rest_units, ↓rest_poison, ↓rest_links, ↓rest_fresh, ↓rest_rings, ↓rest_bolts, ↓rest_out, ↓State.afterRun_rest, ↓State.afterVerdict_rest, ↓State.escapeBytes_rest, ↓h7, ↓apply_ite State.rest, ite_self]; done) | (simp [↓rest_fabric, ↓rest_chk, ↓rest_stack, ↓rest_stores, ↓rest_tick, ↓rest_media, ↓rest_regs, ↓rest_ctxs, ↓rest_units, ↓rest_poison, ↓rest_links, ↓rest_fresh, ↓rest_rings, ↓rest_bolts, ↓rest_out, ↓State.afterRun_rest, ↓State.afterVerdict_rest, ↓State.escapeBytes_rest, ↓h7, ↓apply_ite State.rest, ite_self]; done) | (rename_i heq; have hk := congrArg (fun q => q.1.rest) heq; simp only [↓rest_fabric, ↓rest_chk, ↓rest_stack, ↓rest_stores, ↓rest_tick, ↓rest_media, ↓rest_regs, ↓rest_ctxs, ↓rest_units, ↓rest_poison, ↓rest_links, ↓rest_fresh, ↓rest_rings, ↓rest_bolts, ↓rest_out, ↓State.afterRun_rest, ↓State.afterVerdict_rest, ↓State.escapeBytes_rest, ↓h7] at hk; simp only [↓rest_fabric, ↓rest_chk, ↓rest_stack, ↓rest_stores, ↓rest_tick, ↓rest_media, ↓rest_regs, ↓rest_ctxs, ↓rest_units, ↓rest_poison, ↓rest_links, ↓rest_fresh, ↓rest_rings, ↓rest_bolts, ↓rest_out, ↓State.afterRun_rest, ↓State.afterVerdict_rest, ↓State.escapeBytes_rest, ↓h7, ↓apply_ite State.rest, ite_self]; exact hk.symm))))
theorem execCarry_rest (w : Fin 16) (r : Bytes) (env : RunEnv) (s : State) (t : State) (h : execCarry w r env s = .next t) : t.rest = s.rest := by
  unfold execCarry at h; (try dsimp only at h); refine issueUpdate_rest (t := t) (h := h) (h7 := ?_) .. <;> (intros; first | with_reducible rfl | (simp only [↓rest_fabric, ↓rest_chk, ↓rest_stack, ↓rest_stores, ↓rest_tick, ↓rest_media, ↓rest_regs, ↓rest_ctxs, ↓rest_units, ↓rest_poison, ↓rest_links, ↓rest_fresh, ↓rest_rings, ↓rest_bolts, ↓rest_out, ↓apply_ite State.rest, ite_self]; done) | (simp [↓rest_fabric, ↓rest_chk, ↓rest_stack, ↓rest_stores, ↓rest_tick, ↓rest_media, ↓rest_regs, ↓rest_ctxs, ↓rest_units, ↓rest_poison, ↓rest_links, ↓rest_fresh, ↓rest_rings, ↓rest_bolts, ↓rest_out, ↓apply_ite State.rest, ite_self]; done) | ((try dsimp only); (repeat' split) <;> (first | with_reducible rfl | (simp only [↓rest_fabric, ↓rest_chk, ↓rest_stack, ↓rest_stores, ↓rest_tick, ↓rest_media, ↓rest_regs, ↓rest_ctxs, ↓rest_units, ↓rest_poison, ↓rest_links, ↓rest_fresh, ↓rest_rings, ↓rest_bolts, ↓rest_out, ↓apply_ite State.rest, ite_self]; done) | (simp [↓rest_fabric, ↓rest_chk, ↓rest_stack, ↓rest_stores, ↓rest_tick, ↓rest_media, ↓rest_regs, ↓rest_ctxs, ↓rest_units, ↓rest_poison, ↓rest_links, ↓rest_fresh, ↓rest_rings, ↓rest_bolts, ↓rest_out, ↓apply_ite State.rest, ite_self]; done) | (rename_i heq; have hk := congrArg (fun q => q.1.rest) heq; simp only [↓rest_fabric, ↓rest_chk, ↓rest_stack, ↓rest_stores, ↓rest_tick, ↓rest_media, ↓rest_regs, ↓rest_ctxs, ↓rest_units, ↓rest_poison, ↓rest_links, ↓rest_fresh, ↓rest_rings, ↓rest_bolts, ↓rest_out] at hk; simp only [↓rest_fabric, ↓rest_chk, ↓rest_stack, ↓rest_stores, ↓rest_tick, ↓rest_media, ↓rest_regs, ↓rest_ctxs, ↓rest_units, ↓rest_poison, ↓rest_links, ↓rest_fresh, ↓rest_rings, ↓rest_bolts, ↓rest_out, ↓apply_ite State.rest, ite_self]; exact hk.symm))))
theorem execCheckerCompare_rest (u : Fin 256) (r : Bytes) (env : RunEnv) (s : State) (t : State) (h : execCheckerCompare u r env s = .next t) : t.rest = s.rest := by
  unfold execCheckerCompare at h; (try dsimp only at h); refine issueG_rest (t := t) (h := h) (h6 := ?_) .. <;> (intros; first | with_reducible rfl | (simp only [↓rest_fabric, ↓rest_chk, ↓rest_stack, ↓rest_stores, ↓rest_tick, ↓rest_media, ↓rest_regs, ↓rest_ctxs, ↓rest_units, ↓rest_poison, ↓rest_links, ↓rest_fresh, ↓rest_rings, ↓rest_bolts, ↓rest_out, ↓State.afterRun_rest, ↓State.clearDigest_rest, ↓State.digestMismatch_rest, ↓apply_ite State.rest, ite_self]; done) | (simp [↓rest_fabric, ↓rest_chk, ↓rest_stack, ↓rest_stores, ↓rest_tick, ↓rest_media, ↓rest_regs, ↓rest_ctxs, ↓rest_units, ↓rest_poison, ↓rest_links, ↓rest_fresh, ↓rest_rings, ↓rest_bolts, ↓rest_out, ↓State.afterRun_rest, ↓State.clearDigest_rest, ↓State.digestMismatch_rest, ↓apply_ite State.rest, ite_self]; done) | ((try dsimp only); (repeat' split) <;> (first | with_reducible rfl | (simp only [↓rest_fabric, ↓rest_chk, ↓rest_stack, ↓rest_stores, ↓rest_tick, ↓rest_media, ↓rest_regs, ↓rest_ctxs, ↓rest_units, ↓rest_poison, ↓rest_links, ↓rest_fresh, ↓rest_rings, ↓rest_bolts, ↓rest_out, ↓State.afterRun_rest, ↓State.clearDigest_rest, ↓State.digestMismatch_rest, ↓apply_ite State.rest, ite_self]; done) | (simp [↓rest_fabric, ↓rest_chk, ↓rest_stack, ↓rest_stores, ↓rest_tick, ↓rest_media, ↓rest_regs, ↓rest_ctxs, ↓rest_units, ↓rest_poison, ↓rest_links, ↓rest_fresh, ↓rest_rings, ↓rest_bolts, ↓rest_out, ↓State.afterRun_rest, ↓State.clearDigest_rest, ↓State.digestMismatch_rest, ↓apply_ite State.rest, ite_self]; done) | (rename_i heq; have hk := congrArg (fun q => q.1.rest) heq; simp only [↓rest_fabric, ↓rest_chk, ↓rest_stack, ↓rest_stores, ↓rest_tick, ↓rest_media, ↓rest_regs, ↓rest_ctxs, ↓rest_units, ↓rest_poison, ↓rest_links, ↓rest_fresh, ↓rest_rings, ↓rest_bolts, ↓rest_out, ↓State.afterRun_rest, ↓State.clearDigest_rest, ↓State.digestMismatch_rest] at hk; simp only [↓rest_fabric, ↓rest_chk, ↓rest_stack, ↓rest_stores, ↓rest_tick, ↓rest_media, ↓rest_regs, ↓rest_ctxs, ↓rest_units, ↓rest_poison, ↓rest_links, ↓rest_fresh, ↓rest_rings, ↓rest_bolts, ↓rest_out, ↓State.afterRun_rest, ↓State.clearDigest_rest, ↓State.digestMismatch_rest, ↓apply_ite State.rest, ite_self]; exact hk.symm))))
theorem execCheckerExport_rest (u : Fin 256) (r : Bytes) (env : RunEnv) (s : State) (t : State) (h : execCheckerExport u r env s = .next t) : t.rest = s.rest := by
  unfold execCheckerExport at h; (try dsimp only at h); refine issueG_rest (t := t) (h := h) (h6 := ?_) .. <;> (intros; first | with_reducible rfl | (simp only [↓rest_fabric, ↓rest_chk, ↓rest_stack, ↓rest_stores, ↓rest_tick, ↓rest_media, ↓rest_regs, ↓rest_ctxs, ↓rest_units, ↓rest_poison, ↓rest_links, ↓rest_fresh, ↓rest_rings, ↓rest_bolts, ↓rest_out, ↓State.afterRun_rest, ↓State.clearDigest_rest, ↓apply_ite State.rest, ite_self]; done) | (simp [↓rest_fabric, ↓rest_chk, ↓rest_stack, ↓rest_stores, ↓rest_tick, ↓rest_media, ↓rest_regs, ↓rest_ctxs, ↓rest_units, ↓rest_poison, ↓rest_links, ↓rest_fresh, ↓rest_rings, ↓rest_bolts, ↓rest_out, ↓State.afterRun_rest, ↓State.clearDigest_rest, ↓apply_ite State.rest, ite_self]; done) | ((try dsimp only); (repeat' split) <;> (first | with_reducible rfl | (simp only [↓rest_fabric, ↓rest_chk, ↓rest_stack, ↓rest_stores, ↓rest_tick, ↓rest_media, ↓rest_regs, ↓rest_ctxs, ↓rest_units, ↓rest_poison, ↓rest_links, ↓rest_fresh, ↓rest_rings, ↓rest_bolts, ↓rest_out, ↓State.afterRun_rest, ↓State.clearDigest_rest, ↓apply_ite State.rest, ite_self]; done) | (simp [↓rest_fabric, ↓rest_chk, ↓rest_stack, ↓rest_stores, ↓rest_tick, ↓rest_media, ↓rest_regs, ↓rest_ctxs, ↓rest_units, ↓rest_poison, ↓rest_links, ↓rest_fresh, ↓rest_rings, ↓rest_bolts, ↓rest_out, ↓State.afterRun_rest, ↓State.clearDigest_rest, ↓apply_ite State.rest, ite_self]; done) | (rename_i heq; have hk := congrArg (fun q => q.1.rest) heq; simp only [↓rest_fabric, ↓rest_chk, ↓rest_stack, ↓rest_stores, ↓rest_tick, ↓rest_media, ↓rest_regs, ↓rest_ctxs, ↓rest_units, ↓rest_poison, ↓rest_links, ↓rest_fresh, ↓rest_rings, ↓rest_bolts, ↓rest_out, ↓State.afterRun_rest, ↓State.clearDigest_rest] at hk; simp only [↓rest_fabric, ↓rest_chk, ↓rest_stack, ↓rest_stores, ↓rest_tick, ↓rest_media, ↓rest_regs, ↓rest_ctxs, ↓rest_units, ↓rest_poison, ↓rest_links, ↓rest_fresh, ↓rest_rings, ↓rest_bolts, ↓rest_out, ↓State.afterRun_rest, ↓State.clearDigest_rest, ↓apply_ite State.rest, ite_self]; exact hk.symm))))
theorem execConvolution_rest (u : Fin 256) (r : Bytes) (env : RunEnv) (s : State) (t : State) (h : execConvolution u r env s = .next t) : t.rest = s.rest := by
  unfold execConvolution at h; (try dsimp only at h); (repeat' split at h) <;> (first | (exact issueWindow_rest (h := h) ..) | contradiction | (obtain rfl := Host.Outcome.next.inj h; first | with_reducible rfl | (simp only [↓rest_fabric, ↓rest_chk, ↓rest_stack, ↓rest_stores, ↓rest_tick, ↓rest_media, ↓rest_regs, ↓rest_ctxs, ↓rest_units, ↓rest_poison, ↓rest_links, ↓rest_fresh, ↓rest_rings, ↓rest_bolts, ↓rest_out, ↓apply_ite State.rest, ite_self]; done) | (simp [↓rest_fabric, ↓rest_chk, ↓rest_stack, ↓rest_stores, ↓rest_tick, ↓rest_media, ↓rest_regs, ↓rest_ctxs, ↓rest_units, ↓rest_poison, ↓rest_links, ↓rest_fresh, ↓rest_rings, ↓rest_bolts, ↓rest_out, ↓apply_ite State.rest, ite_self]; done) | (rename_i heq; have hk := congrArg (fun q => q.1.rest) heq; simp only [↓rest_fabric, ↓rest_chk, ↓rest_stack, ↓rest_stores, ↓rest_tick, ↓rest_media, ↓rest_regs, ↓rest_ctxs, ↓rest_units, ↓rest_poison, ↓rest_links, ↓rest_fresh, ↓rest_rings, ↓rest_bolts, ↓rest_out] at hk; simp only [↓rest_fabric, ↓rest_chk, ↓rest_stack, ↓rest_stores, ↓rest_tick, ↓rest_media, ↓rest_regs, ↓rest_ctxs, ↓rest_units, ↓rest_poison, ↓rest_links, ↓rest_fresh, ↓rest_rings, ↓rest_bolts, ↓rest_out, ↓apply_ite State.rest, ite_self]; exact hk.symm)))
theorem execDequantise_rest (u : Fin 256) (r : Bytes) (env : RunEnv) (s : State) (t : State) (h : execDequantise u r env s = .next t) : t.rest = s.rest := by
  unfold execDequantise at h; (try dsimp only at h); (repeat' split at h) <;> (first | (exact issue_rest (h := h) ..) | contradiction | (obtain rfl := Host.Outcome.next.inj h; first | with_reducible rfl | (simp only [↓rest_fabric, ↓rest_chk, ↓rest_stack, ↓rest_stores, ↓rest_tick, ↓rest_media, ↓rest_regs, ↓rest_ctxs, ↓rest_units, ↓rest_poison, ↓rest_links, ↓rest_fresh, ↓rest_rings, ↓rest_bolts, ↓rest_out, ↓apply_ite State.rest, ite_self]; done) | (simp [↓rest_fabric, ↓rest_chk, ↓rest_stack, ↓rest_stores, ↓rest_tick, ↓rest_media, ↓rest_regs, ↓rest_ctxs, ↓rest_units, ↓rest_poison, ↓rest_links, ↓rest_fresh, ↓rest_rings, ↓rest_bolts, ↓rest_out, ↓apply_ite State.rest, ite_self]; done) | (rename_i heq; have hk := congrArg (fun q => q.1.rest) heq; simp only [↓rest_fabric, ↓rest_chk, ↓rest_stack, ↓rest_stores, ↓rest_tick, ↓rest_media, ↓rest_regs, ↓rest_ctxs, ↓rest_units, ↓rest_poison, ↓rest_links, ↓rest_fresh, ↓rest_rings, ↓rest_bolts, ↓rest_out] at hk; simp only [↓rest_fabric, ↓rest_chk, ↓rest_stack, ↓rest_stores, ↓rest_tick, ↓rest_media, ↓rest_regs, ↓rest_ctxs, ↓rest_units, ↓rest_poison, ↓rest_links, ↓rest_fresh, ↓rest_rings, ↓rest_bolts, ↓rest_out, ↓apply_ite State.rest, ite_self]; exact hk.symm)))
theorem execDmaMove_rest (w : Fin 16) (r : Bytes) (env : RunEnv) (s : State) (t : State) (h : execDmaMove w r env s = .next t) : t.rest = s.rest := by
  unfold execDmaMove at h; (try dsimp only at h); (repeat' split at h) <;> (first | (exact issue_rest (h := h) ..) | contradiction | (obtain rfl := Host.Outcome.next.inj h; first | with_reducible rfl | (simp only [↓rest_fabric, ↓rest_chk, ↓rest_stack, ↓rest_stores, ↓rest_tick, ↓rest_media, ↓rest_regs, ↓rest_ctxs, ↓rest_units, ↓rest_poison, ↓rest_links, ↓rest_fresh, ↓rest_rings, ↓rest_bolts, ↓rest_out, ↓apply_ite State.rest, ite_self]; done) | (simp [↓rest_fabric, ↓rest_chk, ↓rest_stack, ↓rest_stores, ↓rest_tick, ↓rest_media, ↓rest_regs, ↓rest_ctxs, ↓rest_units, ↓rest_poison, ↓rest_links, ↓rest_fresh, ↓rest_rings, ↓rest_bolts, ↓rest_out, ↓apply_ite State.rest, ite_self]; done) | (rename_i heq; have hk := congrArg (fun q => q.1.rest) heq; simp only [↓rest_fabric, ↓rest_chk, ↓rest_stack, ↓rest_stores, ↓rest_tick, ↓rest_media, ↓rest_regs, ↓rest_ctxs, ↓rest_units, ↓rest_poison, ↓rest_links, ↓rest_fresh, ↓rest_rings, ↓rest_bolts, ↓rest_out] at hk; simp only [↓rest_fabric, ↓rest_chk, ↓rest_stack, ↓rest_stores, ↓rest_tick, ↓rest_media, ↓rest_regs, ↓rest_ctxs, ↓rest_units, ↓rest_poison, ↓rest_links, ↓rest_fresh, ↓rest_rings, ↓rest_bolts, ↓rest_out, ↓apply_ite State.rest, ite_self]; exact hk.symm)))
theorem execElem_rest (w : Fin 16) (r : Bytes) (env : RunEnv) (s : State) (t : State) (h : execElem w r env s = .next t) : t.rest = s.rest := by
  unfold execElem at h; (try dsimp only at h); refine issueUpdate_rest (t := t) (h := h) (h7 := ?_) .. <;> (intros; first | with_reducible rfl | (simp only [↓rest_fabric, ↓rest_chk, ↓rest_stack, ↓rest_stores, ↓rest_tick, ↓rest_media, ↓rest_regs, ↓rest_ctxs, ↓rest_units, ↓rest_poison, ↓rest_links, ↓rest_fresh, ↓rest_rings, ↓rest_bolts, ↓rest_out, ↓apply_ite State.rest, ite_self]; done) | (simp [↓rest_fabric, ↓rest_chk, ↓rest_stack, ↓rest_stores, ↓rest_tick, ↓rest_media, ↓rest_regs, ↓rest_ctxs, ↓rest_units, ↓rest_poison, ↓rest_links, ↓rest_fresh, ↓rest_rings, ↓rest_bolts, ↓rest_out, ↓apply_ite State.rest, ite_self]; done) | ((try dsimp only); (repeat' split) <;> (first | with_reducible rfl | (simp only [↓rest_fabric, ↓rest_chk, ↓rest_stack, ↓rest_stores, ↓rest_tick, ↓rest_media, ↓rest_regs, ↓rest_ctxs, ↓rest_units, ↓rest_poison, ↓rest_links, ↓rest_fresh, ↓rest_rings, ↓rest_bolts, ↓rest_out, ↓apply_ite State.rest, ite_self]; done) | (simp [↓rest_fabric, ↓rest_chk, ↓rest_stack, ↓rest_stores, ↓rest_tick, ↓rest_media, ↓rest_regs, ↓rest_ctxs, ↓rest_units, ↓rest_poison, ↓rest_links, ↓rest_fresh, ↓rest_rings, ↓rest_bolts, ↓rest_out, ↓apply_ite State.rest, ite_self]; done) | (rename_i heq; have hk := congrArg (fun q => q.1.rest) heq; simp only [↓rest_fabric, ↓rest_chk, ↓rest_stack, ↓rest_stores, ↓rest_tick, ↓rest_media, ↓rest_regs, ↓rest_ctxs, ↓rest_units, ↓rest_poison, ↓rest_links, ↓rest_fresh, ↓rest_rings, ↓rest_bolts, ↓rest_out] at hk; simp only [↓rest_fabric, ↓rest_chk, ↓rest_stack, ↓rest_stores, ↓rest_tick, ↓rest_media, ↓rest_regs, ↓rest_ctxs, ↓rest_units, ↓rest_poison, ↓rest_links, ↓rest_fresh, ↓rest_rings, ↓rest_bolts, ↓rest_out, ↓apply_ite State.rest, ite_self]; exact hk.symm))))
theorem execElementwiseChain_rest (u : Fin 256) (r : Bytes) (env : RunEnv) (s : State) (t : State) (h : execElementwiseChain u r env s = .next t) : t.rest = s.rest := by
  unfold execElementwiseChain at h; (try dsimp only at h); (repeat' split at h) <;> (first | (exact issue_rest (h := h) ..) | contradiction | (obtain rfl := Host.Outcome.next.inj h; first | with_reducible rfl | (simp only [↓rest_fabric, ↓rest_chk, ↓rest_stack, ↓rest_stores, ↓rest_tick, ↓rest_media, ↓rest_regs, ↓rest_ctxs, ↓rest_units, ↓rest_poison, ↓rest_links, ↓rest_fresh, ↓rest_rings, ↓rest_bolts, ↓rest_out, ↓apply_ite State.rest, ite_self]; done) | (simp [↓rest_fabric, ↓rest_chk, ↓rest_stack, ↓rest_stores, ↓rest_tick, ↓rest_media, ↓rest_regs, ↓rest_ctxs, ↓rest_units, ↓rest_poison, ↓rest_links, ↓rest_fresh, ↓rest_rings, ↓rest_bolts, ↓rest_out, ↓apply_ite State.rest, ite_self]; done) | (rename_i heq; have hk := congrArg (fun q => q.1.rest) heq; simp only [↓rest_fabric, ↓rest_chk, ↓rest_stack, ↓rest_stores, ↓rest_tick, ↓rest_media, ↓rest_regs, ↓rest_ctxs, ↓rest_units, ↓rest_poison, ↓rest_links, ↓rest_fresh, ↓rest_rings, ↓rest_bolts, ↓rest_out] at hk; simp only [↓rest_fabric, ↓rest_chk, ↓rest_stack, ↓rest_stores, ↓rest_tick, ↓rest_media, ↓rest_regs, ↓rest_ctxs, ↓rest_units, ↓rest_poison, ↓rest_links, ↓rest_fresh, ↓rest_rings, ↓rest_bolts, ↓rest_out, ↓apply_ite State.rest, ite_self]; exact hk.symm)))
theorem execFuse_rest (w : Fin 16) (r : Bytes) (env : RunEnv) (s : State) (t : State) (h : execFuse w r env s = .next t) : t.rest = s.rest := by
  unfold execFuse at h; (try dsimp only at h); refine issueUpdate_rest (t := t) (h := h) (h7 := ?_) .. <;> (intros; first | with_reducible rfl | (simp only [↓rest_fabric, ↓rest_chk, ↓rest_stack, ↓rest_stores, ↓rest_tick, ↓rest_media, ↓rest_regs, ↓rest_ctxs, ↓rest_units, ↓rest_poison, ↓rest_links, ↓rest_fresh, ↓rest_rings, ↓rest_bolts, ↓rest_out, ↓apply_ite State.rest, ite_self]; done) | (simp [↓rest_fabric, ↓rest_chk, ↓rest_stack, ↓rest_stores, ↓rest_tick, ↓rest_media, ↓rest_regs, ↓rest_ctxs, ↓rest_units, ↓rest_poison, ↓rest_links, ↓rest_fresh, ↓rest_rings, ↓rest_bolts, ↓rest_out, ↓apply_ite State.rest, ite_self]; done) | ((try dsimp only); (repeat' split) <;> (first | with_reducible rfl | (simp only [↓rest_fabric, ↓rest_chk, ↓rest_stack, ↓rest_stores, ↓rest_tick, ↓rest_media, ↓rest_regs, ↓rest_ctxs, ↓rest_units, ↓rest_poison, ↓rest_links, ↓rest_fresh, ↓rest_rings, ↓rest_bolts, ↓rest_out, ↓apply_ite State.rest, ite_self]; done) | (simp [↓rest_fabric, ↓rest_chk, ↓rest_stack, ↓rest_stores, ↓rest_tick, ↓rest_media, ↓rest_regs, ↓rest_ctxs, ↓rest_units, ↓rest_poison, ↓rest_links, ↓rest_fresh, ↓rest_rings, ↓rest_bolts, ↓rest_out, ↓apply_ite State.rest, ite_self]; done) | (rename_i heq; have hk := congrArg (fun q => q.1.rest) heq; simp only [↓rest_fabric, ↓rest_chk, ↓rest_stack, ↓rest_stores, ↓rest_tick, ↓rest_media, ↓rest_regs, ↓rest_ctxs, ↓rest_units, ↓rest_poison, ↓rest_links, ↓rest_fresh, ↓rest_rings, ↓rest_bolts, ↓rest_out] at hk; simp only [↓rest_fabric, ↓rest_chk, ↓rest_stack, ↓rest_stores, ↓rest_tick, ↓rest_media, ↓rest_regs, ↓rest_ctxs, ↓rest_units, ↓rest_poison, ↓rest_links, ↓rest_fresh, ↓rest_rings, ↓rest_bolts, ↓rest_out, ↓apply_ite State.rest, ite_self]; exact hk.symm))))
theorem execGather_rest (u : Fin 256) (r : Bytes) (env : RunEnv) (s : State) (t : State) (h : execGather u r env s = .next t) : t.rest = s.rest := by
  unfold execGather at h; (try dsimp only at h); (repeat' split at h) <;> (first | (exact issue_rest (h := h) ..) | contradiction | (obtain rfl := Host.Outcome.next.inj h; first | with_reducible rfl | (simp only [↓rest_fabric, ↓rest_chk, ↓rest_stack, ↓rest_stores, ↓rest_tick, ↓rest_media, ↓rest_regs, ↓rest_ctxs, ↓rest_units, ↓rest_poison, ↓rest_links, ↓rest_fresh, ↓rest_rings, ↓rest_bolts, ↓rest_out, ↓apply_ite State.rest, ite_self]; done) | (simp [↓rest_fabric, ↓rest_chk, ↓rest_stack, ↓rest_stores, ↓rest_tick, ↓rest_media, ↓rest_regs, ↓rest_ctxs, ↓rest_units, ↓rest_poison, ↓rest_links, ↓rest_fresh, ↓rest_rings, ↓rest_bolts, ↓rest_out, ↓apply_ite State.rest, ite_self]; done) | (rename_i heq; have hk := congrArg (fun q => q.1.rest) heq; simp only [↓rest_fabric, ↓rest_chk, ↓rest_stack, ↓rest_stores, ↓rest_tick, ↓rest_media, ↓rest_regs, ↓rest_ctxs, ↓rest_units, ↓rest_poison, ↓rest_links, ↓rest_fresh, ↓rest_rings, ↓rest_bolts, ↓rest_out] at hk; simp only [↓rest_fabric, ↓rest_chk, ↓rest_stack, ↓rest_stores, ↓rest_tick, ↓rest_media, ↓rest_regs, ↓rest_ctxs, ↓rest_units, ↓rest_poison, ↓rest_links, ↓rest_fresh, ↓rest_rings, ↓rest_bolts, ↓rest_out, ↓apply_ite State.rest, ite_self]; exact hk.symm)))
theorem execKapply_rest (w : Fin 16) (r : Bytes) (env : RunEnv) (s : State) (t : State) (h : execKapply w r env s = .next t) : t.rest = s.rest := by
  unfold execKapply at h; (try dsimp only at h); refine issueUpdate_rest (t := t) (h := h) (h7 := ?_) .. <;> (intros; first | with_reducible rfl | (simp only [↓rest_fabric, ↓rest_chk, ↓rest_stack, ↓rest_stores, ↓rest_tick, ↓rest_media, ↓rest_regs, ↓rest_ctxs, ↓rest_units, ↓rest_poison, ↓rest_links, ↓rest_fresh, ↓rest_rings, ↓rest_bolts, ↓rest_out, ↓apply_ite State.rest, ite_self]; done) | (simp [↓rest_fabric, ↓rest_chk, ↓rest_stack, ↓rest_stores, ↓rest_tick, ↓rest_media, ↓rest_regs, ↓rest_ctxs, ↓rest_units, ↓rest_poison, ↓rest_links, ↓rest_fresh, ↓rest_rings, ↓rest_bolts, ↓rest_out, ↓apply_ite State.rest, ite_self]; done) | ((try dsimp only); (repeat' split) <;> (first | with_reducible rfl | (simp only [↓rest_fabric, ↓rest_chk, ↓rest_stack, ↓rest_stores, ↓rest_tick, ↓rest_media, ↓rest_regs, ↓rest_ctxs, ↓rest_units, ↓rest_poison, ↓rest_links, ↓rest_fresh, ↓rest_rings, ↓rest_bolts, ↓rest_out, ↓apply_ite State.rest, ite_self]; done) | (simp [↓rest_fabric, ↓rest_chk, ↓rest_stack, ↓rest_stores, ↓rest_tick, ↓rest_media, ↓rest_regs, ↓rest_ctxs, ↓rest_units, ↓rest_poison, ↓rest_links, ↓rest_fresh, ↓rest_rings, ↓rest_bolts, ↓rest_out, ↓apply_ite State.rest, ite_self]; done) | (rename_i heq; have hk := congrArg (fun q => q.1.rest) heq; simp only [↓rest_fabric, ↓rest_chk, ↓rest_stack, ↓rest_stores, ↓rest_tick, ↓rest_media, ↓rest_regs, ↓rest_ctxs, ↓rest_units, ↓rest_poison, ↓rest_links, ↓rest_fresh, ↓rest_rings, ↓rest_bolts, ↓rest_out] at hk; simp only [↓rest_fabric, ↓rest_chk, ↓rest_stack, ↓rest_stores, ↓rest_tick, ↓rest_media, ↓rest_regs, ↓rest_ctxs, ↓rest_units, ↓rest_poison, ↓rest_links, ↓rest_fresh, ↓rest_rings, ↓rest_bolts, ↓rest_out, ↓apply_ite State.rest, ite_self]; exact hk.symm))))
theorem execKroot_rest (w : Fin 16) (r : Bytes) (env : RunEnv) (s : State) (t : State) (h : execKroot w r env s = .next t) : t.rest = s.rest := by
  unfold execKroot at h; (try dsimp only at h); refine issueUpdate_rest (t := t) (h := h) (h7 := ?_) .. <;> (intros; first | with_reducible rfl | (simp only [↓rest_fabric, ↓rest_chk, ↓rest_stack, ↓rest_stores, ↓rest_tick, ↓rest_media, ↓rest_regs, ↓rest_ctxs, ↓rest_units, ↓rest_poison, ↓rest_links, ↓rest_fresh, ↓rest_rings, ↓rest_bolts, ↓rest_out, ↓apply_ite State.rest, ite_self]; done) | (simp [↓rest_fabric, ↓rest_chk, ↓rest_stack, ↓rest_stores, ↓rest_tick, ↓rest_media, ↓rest_regs, ↓rest_ctxs, ↓rest_units, ↓rest_poison, ↓rest_links, ↓rest_fresh, ↓rest_rings, ↓rest_bolts, ↓rest_out, ↓apply_ite State.rest, ite_self]; done) | ((try dsimp only); (repeat' split) <;> (first | with_reducible rfl | (simp only [↓rest_fabric, ↓rest_chk, ↓rest_stack, ↓rest_stores, ↓rest_tick, ↓rest_media, ↓rest_regs, ↓rest_ctxs, ↓rest_units, ↓rest_poison, ↓rest_links, ↓rest_fresh, ↓rest_rings, ↓rest_bolts, ↓rest_out, ↓apply_ite State.rest, ite_self]; done) | (simp [↓rest_fabric, ↓rest_chk, ↓rest_stack, ↓rest_stores, ↓rest_tick, ↓rest_media, ↓rest_regs, ↓rest_ctxs, ↓rest_units, ↓rest_poison, ↓rest_links, ↓rest_fresh, ↓rest_rings, ↓rest_bolts, ↓rest_out, ↓apply_ite State.rest, ite_self]; done) | (rename_i heq; have hk := congrArg (fun q => q.1.rest) heq; simp only [↓rest_fabric, ↓rest_chk, ↓rest_stack, ↓rest_stores, ↓rest_tick, ↓rest_media, ↓rest_regs, ↓rest_ctxs, ↓rest_units, ↓rest_poison, ↓rest_links, ↓rest_fresh, ↓rest_rings, ↓rest_bolts, ↓rest_out] at hk; simp only [↓rest_fabric, ↓rest_chk, ↓rest_stack, ↓rest_stores, ↓rest_tick, ↓rest_media, ↓rest_regs, ↓rest_ctxs, ↓rest_units, ↓rest_poison, ↓rest_links, ↓rest_fresh, ↓rest_rings, ↓rest_bolts, ↓rest_out, ↓apply_ite State.rest, ite_self]; exact hk.symm))))
theorem execKstat_rest (w : Fin 16) (r : Bytes) (env : RunEnv) (s : State) (t : State) (h : execKstat w r env s = .next t) : t.rest = s.rest := by
  unfold execKstat at h; (try dsimp only at h); refine issueUpdate_rest (t := t) (h := h) (h7 := ?_) .. <;> (intros; first | with_reducible rfl | (simp only [↓rest_fabric, ↓rest_chk, ↓rest_stack, ↓rest_stores, ↓rest_tick, ↓rest_media, ↓rest_regs, ↓rest_ctxs, ↓rest_units, ↓rest_poison, ↓rest_links, ↓rest_fresh, ↓rest_rings, ↓rest_bolts, ↓rest_out, ↓apply_ite State.rest, ite_self]; done) | (simp [↓rest_fabric, ↓rest_chk, ↓rest_stack, ↓rest_stores, ↓rest_tick, ↓rest_media, ↓rest_regs, ↓rest_ctxs, ↓rest_units, ↓rest_poison, ↓rest_links, ↓rest_fresh, ↓rest_rings, ↓rest_bolts, ↓rest_out, ↓apply_ite State.rest, ite_self]; done) | ((try dsimp only); (repeat' split) <;> (first | with_reducible rfl | (simp only [↓rest_fabric, ↓rest_chk, ↓rest_stack, ↓rest_stores, ↓rest_tick, ↓rest_media, ↓rest_regs, ↓rest_ctxs, ↓rest_units, ↓rest_poison, ↓rest_links, ↓rest_fresh, ↓rest_rings, ↓rest_bolts, ↓rest_out, ↓apply_ite State.rest, ite_self]; done) | (simp [↓rest_fabric, ↓rest_chk, ↓rest_stack, ↓rest_stores, ↓rest_tick, ↓rest_media, ↓rest_regs, ↓rest_ctxs, ↓rest_units, ↓rest_poison, ↓rest_links, ↓rest_fresh, ↓rest_rings, ↓rest_bolts, ↓rest_out, ↓apply_ite State.rest, ite_self]; done) | (rename_i heq; have hk := congrArg (fun q => q.1.rest) heq; simp only [↓rest_fabric, ↓rest_chk, ↓rest_stack, ↓rest_stores, ↓rest_tick, ↓rest_media, ↓rest_regs, ↓rest_ctxs, ↓rest_units, ↓rest_poison, ↓rest_links, ↓rest_fresh, ↓rest_rings, ↓rest_bolts, ↓rest_out] at hk; simp only [↓rest_fabric, ↓rest_chk, ↓rest_stack, ↓rest_stores, ↓rest_tick, ↓rest_media, ↓rest_regs, ↓rest_ctxs, ↓rest_units, ↓rest_poison, ↓rest_links, ↓rest_fresh, ↓rest_rings, ↓rest_bolts, ↓rest_out, ↓apply_ite State.rest, ite_self]; exact hk.symm))))
theorem execLayerNorm_rest (u : Fin 256) (r : Bytes) (env : RunEnv) (s : State) (t : State) (h : execLayerNorm u r env s = .next t) : t.rest = s.rest := by
  unfold execLayerNorm at h; (try dsimp only at h); (repeat' split at h) <;> (first | (exact issue_rest (h := h) ..) | contradiction | (obtain rfl := Host.Outcome.next.inj h; first | with_reducible rfl | (simp only [↓rest_fabric, ↓rest_chk, ↓rest_stack, ↓rest_stores, ↓rest_tick, ↓rest_media, ↓rest_regs, ↓rest_ctxs, ↓rest_units, ↓rest_poison, ↓rest_links, ↓rest_fresh, ↓rest_rings, ↓rest_bolts, ↓rest_out, ↓apply_ite State.rest, ite_self]; done) | (simp [↓rest_fabric, ↓rest_chk, ↓rest_stack, ↓rest_stores, ↓rest_tick, ↓rest_media, ↓rest_regs, ↓rest_ctxs, ↓rest_units, ↓rest_poison, ↓rest_links, ↓rest_fresh, ↓rest_rings, ↓rest_bolts, ↓rest_out, ↓apply_ite State.rest, ite_self]; done) | (rename_i heq; have hk := congrArg (fun q => q.1.rest) heq; simp only [↓rest_fabric, ↓rest_chk, ↓rest_stack, ↓rest_stores, ↓rest_tick, ↓rest_media, ↓rest_regs, ↓rest_ctxs, ↓rest_units, ↓rest_poison, ↓rest_links, ↓rest_fresh, ↓rest_rings, ↓rest_bolts, ↓rest_out] at hk; simp only [↓rest_fabric, ↓rest_chk, ↓rest_stack, ↓rest_stores, ↓rest_tick, ↓rest_media, ↓rest_regs, ↓rest_ctxs, ↓rest_units, ↓rest_poison, ↓rest_links, ↓rest_fresh, ↓rest_rings, ↓rest_bolts, ↓rest_out, ↓apply_ite State.rest, ite_self]; exact hk.symm)))
theorem execLogSoftmax_rest (u : Fin 256) (r : Bytes) (env : RunEnv) (s : State) (t : State) (h : execLogSoftmax u r env s = .next t) : t.rest = s.rest := by
  unfold execLogSoftmax at h; (try dsimp only at h); (repeat' split at h) <;> (first | (exact issue_rest (h := h) ..) | contradiction | (obtain rfl := Host.Outcome.next.inj h; first | with_reducible rfl | (simp only [↓rest_fabric, ↓rest_chk, ↓rest_stack, ↓rest_stores, ↓rest_tick, ↓rest_media, ↓rest_regs, ↓rest_ctxs, ↓rest_units, ↓rest_poison, ↓rest_links, ↓rest_fresh, ↓rest_rings, ↓rest_bolts, ↓rest_out, ↓apply_ite State.rest, ite_self]; done) | (simp [↓rest_fabric, ↓rest_chk, ↓rest_stack, ↓rest_stores, ↓rest_tick, ↓rest_media, ↓rest_regs, ↓rest_ctxs, ↓rest_units, ↓rest_poison, ↓rest_links, ↓rest_fresh, ↓rest_rings, ↓rest_bolts, ↓rest_out, ↓apply_ite State.rest, ite_self]; done) | (rename_i heq; have hk := congrArg (fun q => q.1.rest) heq; simp only [↓rest_fabric, ↓rest_chk, ↓rest_stack, ↓rest_stores, ↓rest_tick, ↓rest_media, ↓rest_regs, ↓rest_ctxs, ↓rest_units, ↓rest_poison, ↓rest_links, ↓rest_fresh, ↓rest_rings, ↓rest_bolts, ↓rest_out] at hk; simp only [↓rest_fabric, ↓rest_chk, ↓rest_stack, ↓rest_stores, ↓rest_tick, ↓rest_media, ↓rest_regs, ↓rest_ctxs, ↓rest_units, ↓rest_poison, ↓rest_links, ↓rest_fresh, ↓rest_rings, ↓rest_bolts, ↓rest_out, ↓apply_ite State.rest, ite_self]; exact hk.symm)))
theorem execMatmul_rest (u : Fin 256) (r : Bytes) (env : RunEnv) (s : State) (t : State) (h : execMatmul u r env s = .next t) : t.rest = s.rest := by
  unfold execMatmul at h; (try dsimp only at h); (repeat' split at h) <;> (first | (exact issue_rest (h := h) ..) | contradiction | (obtain rfl := Host.Outcome.next.inj h; first | with_reducible rfl | (simp only [↓rest_fabric, ↓rest_chk, ↓rest_stack, ↓rest_stores, ↓rest_tick, ↓rest_media, ↓rest_regs, ↓rest_ctxs, ↓rest_units, ↓rest_poison, ↓rest_links, ↓rest_fresh, ↓rest_rings, ↓rest_bolts, ↓rest_out, ↓apply_ite State.rest, ite_self]; done) | (simp [↓rest_fabric, ↓rest_chk, ↓rest_stack, ↓rest_stores, ↓rest_tick, ↓rest_media, ↓rest_regs, ↓rest_ctxs, ↓rest_units, ↓rest_poison, ↓rest_links, ↓rest_fresh, ↓rest_rings, ↓rest_bolts, ↓rest_out, ↓apply_ite State.rest, ite_self]; done) | (rename_i heq; have hk := congrArg (fun q => q.1.rest) heq; simp only [↓rest_fabric, ↓rest_chk, ↓rest_stack, ↓rest_stores, ↓rest_tick, ↓rest_media, ↓rest_regs, ↓rest_ctxs, ↓rest_units, ↓rest_poison, ↓rest_links, ↓rest_fresh, ↓rest_rings, ↓rest_bolts, ↓rest_out] at hk; simp only [↓rest_fabric, ↓rest_chk, ↓rest_stack, ↓rest_stores, ↓rest_tick, ↓rest_media, ↓rest_regs, ↓rest_ctxs, ↓rest_units, ↓rest_poison, ↓rest_links, ↓rest_fresh, ↓rest_rings, ↓rest_bolts, ↓rest_out, ↓apply_ite State.rest, ite_self]; exact hk.symm)))
theorem execMaxPool_rest (u : Fin 256) (r : Bytes) (env : RunEnv) (s : State) (t : State) (h : execMaxPool u r env s = .next t) : t.rest = s.rest := by
  unfold execMaxPool at h; (try dsimp only at h); (repeat' split at h) <;> (first | (exact issueWindow_rest (h := h) ..) | contradiction | (obtain rfl := Host.Outcome.next.inj h; first | with_reducible rfl | (simp only [↓rest_fabric, ↓rest_chk, ↓rest_stack, ↓rest_stores, ↓rest_tick, ↓rest_media, ↓rest_regs, ↓rest_ctxs, ↓rest_units, ↓rest_poison, ↓rest_links, ↓rest_fresh, ↓rest_rings, ↓rest_bolts, ↓rest_out, ↓apply_ite State.rest, ite_self]; done) | (simp [↓rest_fabric, ↓rest_chk, ↓rest_stack, ↓rest_stores, ↓rest_tick, ↓rest_media, ↓rest_regs, ↓rest_ctxs, ↓rest_units, ↓rest_poison, ↓rest_links, ↓rest_fresh, ↓rest_rings, ↓rest_bolts, ↓rest_out, ↓apply_ite State.rest, ite_self]; done) | (rename_i heq; have hk := congrArg (fun q => q.1.rest) heq; simp only [↓rest_fabric, ↓rest_chk, ↓rest_stack, ↓rest_stores, ↓rest_tick, ↓rest_media, ↓rest_regs, ↓rest_ctxs, ↓rest_units, ↓rest_poison, ↓rest_links, ↓rest_fresh, ↓rest_rings, ↓rest_bolts, ↓rest_out] at hk; simp only [↓rest_fabric, ↓rest_chk, ↓rest_stack, ↓rest_stores, ↓rest_tick, ↓rest_media, ↓rest_regs, ↓rest_ctxs, ↓rest_units, ↓rest_poison, ↓rest_links, ↓rest_fresh, ↓rest_rings, ↓rest_bolts, ↓rest_out, ↓apply_ite State.rest, ite_self]; exact hk.symm)))
theorem execNearestResize_rest (u : Fin 256) (r : Bytes) (env : RunEnv) (s : State) (t : State) (h : execNearestResize u r env s = .next t) : t.rest = s.rest := by
  unfold execNearestResize at h; (try dsimp only at h); (repeat' split at h) <;> (first | (exact issueWindow_rest (h := h) ..) | contradiction | (obtain rfl := Host.Outcome.next.inj h; first | with_reducible rfl | (simp only [↓rest_fabric, ↓rest_chk, ↓rest_stack, ↓rest_stores, ↓rest_tick, ↓rest_media, ↓rest_regs, ↓rest_ctxs, ↓rest_units, ↓rest_poison, ↓rest_links, ↓rest_fresh, ↓rest_rings, ↓rest_bolts, ↓rest_out, ↓apply_ite State.rest, ite_self]; done) | (simp [↓rest_fabric, ↓rest_chk, ↓rest_stack, ↓rest_stores, ↓rest_tick, ↓rest_media, ↓rest_regs, ↓rest_ctxs, ↓rest_units, ↓rest_poison, ↓rest_links, ↓rest_fresh, ↓rest_rings, ↓rest_bolts, ↓rest_out, ↓apply_ite State.rest, ite_self]; done) | (rename_i heq; have hk := congrArg (fun q => q.1.rest) heq; simp only [↓rest_fabric, ↓rest_chk, ↓rest_stack, ↓rest_stores, ↓rest_tick, ↓rest_media, ↓rest_regs, ↓rest_ctxs, ↓rest_units, ↓rest_poison, ↓rest_links, ↓rest_fresh, ↓rest_rings, ↓rest_bolts, ↓rest_out] at hk; simp only [↓rest_fabric, ↓rest_chk, ↓rest_stack, ↓rest_stores, ↓rest_tick, ↓rest_media, ↓rest_regs, ↓rest_ctxs, ↓rest_units, ↓rest_poison, ↓rest_links, ↓rest_fresh, ↓rest_rings, ↓rest_bolts, ↓rest_out, ↓apply_ite State.rest, ite_self]; exact hk.symm)))
theorem execNextVariantMove_rest (w : Fin 16) (r : Bytes) (env : RunEnv) (s : State) (t : State) (h : execNextVariantMove w r env s = .next t) : t.rest = s.rest := by
  unfold execNextVariantMove at h; (try dsimp only at h); (repeat' split at h) <;> (first | (exact issue_rest (h := h) ..) | contradiction | (obtain rfl := Host.Outcome.next.inj h; first | with_reducible rfl | (simp only [↓rest_fabric, ↓rest_chk, ↓rest_stack, ↓rest_stores, ↓rest_tick, ↓rest_media, ↓rest_regs, ↓rest_ctxs, ↓rest_units, ↓rest_poison, ↓rest_links, ↓rest_fresh, ↓rest_rings, ↓rest_bolts, ↓rest_out, ↓apply_ite State.rest, ite_self]; done) | (simp [↓rest_fabric, ↓rest_chk, ↓rest_stack, ↓rest_stores, ↓rest_tick, ↓rest_media, ↓rest_regs, ↓rest_ctxs, ↓rest_units, ↓rest_poison, ↓rest_links, ↓rest_fresh, ↓rest_rings, ↓rest_bolts, ↓rest_out, ↓apply_ite State.rest, ite_self]; done) | (rename_i heq; have hk := congrArg (fun q => q.1.rest) heq; simp only [↓rest_fabric, ↓rest_chk, ↓rest_stack, ↓rest_stores, ↓rest_tick, ↓rest_media, ↓rest_regs, ↓rest_ctxs, ↓rest_units, ↓rest_poison, ↓rest_links, ↓rest_fresh, ↓rest_rings, ↓rest_bolts, ↓rest_out] at hk; simp only [↓rest_fabric, ↓rest_chk, ↓rest_stack, ↓rest_stores, ↓rest_tick, ↓rest_media, ↓rest_regs, ↓rest_ctxs, ↓rest_units, ↓rest_poison, ↓rest_links, ↓rest_fresh, ↓rest_rings, ↓rest_bolts, ↓rest_out, ↓apply_ite State.rest, ite_self]; exact hk.symm)))
theorem execNorm_rest (w : Fin 16) (r : Bytes) (env : RunEnv) (s : State) (t : State) (h : execNorm w r env s = .next t) : t.rest = s.rest := by
  unfold execNorm at h; (try dsimp only at h); refine issueUpdate_rest (t := t) (h := h) (h7 := ?_) .. <;> (intros; first | with_reducible rfl | (simp only [↓rest_fabric, ↓rest_chk, ↓rest_stack, ↓rest_stores, ↓rest_tick, ↓rest_media, ↓rest_regs, ↓rest_ctxs, ↓rest_units, ↓rest_poison, ↓rest_links, ↓rest_fresh, ↓rest_rings, ↓rest_bolts, ↓rest_out, ↓State.normAdd_rest, ↓apply_ite State.rest, ite_self]; done) | (simp [↓rest_fabric, ↓rest_chk, ↓rest_stack, ↓rest_stores, ↓rest_tick, ↓rest_media, ↓rest_regs, ↓rest_ctxs, ↓rest_units, ↓rest_poison, ↓rest_links, ↓rest_fresh, ↓rest_rings, ↓rest_bolts, ↓rest_out, ↓State.normAdd_rest, ↓apply_ite State.rest, ite_self]; done) | ((try dsimp only); (repeat' split) <;> (first | with_reducible rfl | (simp only [↓rest_fabric, ↓rest_chk, ↓rest_stack, ↓rest_stores, ↓rest_tick, ↓rest_media, ↓rest_regs, ↓rest_ctxs, ↓rest_units, ↓rest_poison, ↓rest_links, ↓rest_fresh, ↓rest_rings, ↓rest_bolts, ↓rest_out, ↓State.normAdd_rest, ↓apply_ite State.rest, ite_self]; done) | (simp [↓rest_fabric, ↓rest_chk, ↓rest_stack, ↓rest_stores, ↓rest_tick, ↓rest_media, ↓rest_regs, ↓rest_ctxs, ↓rest_units, ↓rest_poison, ↓rest_links, ↓rest_fresh, ↓rest_rings, ↓rest_bolts, ↓rest_out, ↓State.normAdd_rest, ↓apply_ite State.rest, ite_self]; done) | (rename_i heq; have hk := congrArg (fun q => q.1.rest) heq; simp only [↓rest_fabric, ↓rest_chk, ↓rest_stack, ↓rest_stores, ↓rest_tick, ↓rest_media, ↓rest_regs, ↓rest_ctxs, ↓rest_units, ↓rest_poison, ↓rest_links, ↓rest_fresh, ↓rest_rings, ↓rest_bolts, ↓rest_out, ↓State.normAdd_rest] at hk; simp only [↓rest_fabric, ↓rest_chk, ↓rest_stack, ↓rest_stores, ↓rest_tick, ↓rest_media, ↓rest_regs, ↓rest_ctxs, ↓rest_units, ↓rest_poison, ↓rest_links, ↓rest_fresh, ↓rest_rings, ↓rest_bolts, ↓rest_out, ↓State.normAdd_rest, ↓apply_ite State.rest, ite_self]; exact hk.symm))))
theorem execOrtho_rest (w : Fin 16) (r : Bytes) (env : RunEnv) (s : State) (t : State) (h : execOrtho w r env s = .next t) : t.rest = s.rest := by
  unfold execOrtho at h; (try dsimp only at h); refine issueUpdate_rest (t := t) (h := h) (h7 := ?_) .. <;> (intros; first | with_reducible rfl | (simp only [↓rest_fabric, ↓rest_chk, ↓rest_stack, ↓rest_stores, ↓rest_tick, ↓rest_media, ↓rest_regs, ↓rest_ctxs, ↓rest_units, ↓rest_poison, ↓rest_links, ↓rest_fresh, ↓rest_rings, ↓rest_bolts, ↓rest_out, ↓apply_ite State.rest, ite_self]; done) | (simp [↓rest_fabric, ↓rest_chk, ↓rest_stack, ↓rest_stores, ↓rest_tick, ↓rest_media, ↓rest_regs, ↓rest_ctxs, ↓rest_units, ↓rest_poison, ↓rest_links, ↓rest_fresh, ↓rest_rings, ↓rest_bolts, ↓rest_out, ↓apply_ite State.rest, ite_self]; done) | ((try dsimp only); (repeat' split) <;> (first | with_reducible rfl | (simp only [↓rest_fabric, ↓rest_chk, ↓rest_stack, ↓rest_stores, ↓rest_tick, ↓rest_media, ↓rest_regs, ↓rest_ctxs, ↓rest_units, ↓rest_poison, ↓rest_links, ↓rest_fresh, ↓rest_rings, ↓rest_bolts, ↓rest_out, ↓apply_ite State.rest, ite_self]; done) | (simp [↓rest_fabric, ↓rest_chk, ↓rest_stack, ↓rest_stores, ↓rest_tick, ↓rest_media, ↓rest_regs, ↓rest_ctxs, ↓rest_units, ↓rest_poison, ↓rest_links, ↓rest_fresh, ↓rest_rings, ↓rest_bolts, ↓rest_out, ↓apply_ite State.rest, ite_self]; done) | (rename_i heq; have hk := congrArg (fun q => q.1.rest) heq; simp only [↓rest_fabric, ↓rest_chk, ↓rest_stack, ↓rest_stores, ↓rest_tick, ↓rest_media, ↓rest_regs, ↓rest_ctxs, ↓rest_units, ↓rest_poison, ↓rest_links, ↓rest_fresh, ↓rest_rings, ↓rest_bolts, ↓rest_out] at hk; simp only [↓rest_fabric, ↓rest_chk, ↓rest_stack, ↓rest_stores, ↓rest_tick, ↓rest_media, ↓rest_regs, ↓rest_ctxs, ↓rest_units, ↓rest_poison, ↓rest_links, ↓rest_fresh, ↓rest_rings, ↓rest_bolts, ↓rest_out, ↓apply_ite State.rest, ite_self]; exact hk.symm))))
theorem execQuantise_rest (u : Fin 256) (r : Bytes) (env : RunEnv) (s : State) (t : State) (h : execQuantise u r env s = .next t) : t.rest = s.rest := by
  unfold execQuantise at h; (try dsimp only at h); (repeat' split at h) <;> (first | (exact issue_rest (h := h) ..) | contradiction | (obtain rfl := Host.Outcome.next.inj h; first | with_reducible rfl | (simp only [↓rest_fabric, ↓rest_chk, ↓rest_stack, ↓rest_stores, ↓rest_tick, ↓rest_media, ↓rest_regs, ↓rest_ctxs, ↓rest_units, ↓rest_poison, ↓rest_links, ↓rest_fresh, ↓rest_rings, ↓rest_bolts, ↓rest_out, ↓apply_ite State.rest, ite_self]; done) | (simp [↓rest_fabric, ↓rest_chk, ↓rest_stack, ↓rest_stores, ↓rest_tick, ↓rest_media, ↓rest_regs, ↓rest_ctxs, ↓rest_units, ↓rest_poison, ↓rest_links, ↓rest_fresh, ↓rest_rings, ↓rest_bolts, ↓rest_out, ↓apply_ite State.rest, ite_self]; done) | (rename_i heq; have hk := congrArg (fun q => q.1.rest) heq; simp only [↓rest_fabric, ↓rest_chk, ↓rest_stack, ↓rest_stores, ↓rest_tick, ↓rest_media, ↓rest_regs, ↓rest_ctxs, ↓rest_units, ↓rest_poison, ↓rest_links, ↓rest_fresh, ↓rest_rings, ↓rest_bolts, ↓rest_out] at hk; simp only [↓rest_fabric, ↓rest_chk, ↓rest_stack, ↓rest_stores, ↓rest_tick, ↓rest_media, ↓rest_regs, ↓rest_ctxs, ↓rest_units, ↓rest_poison, ↓rest_links, ↓rest_fresh, ↓rest_rings, ↓rest_bolts, ↓rest_out, ↓apply_ite State.rest, ite_self]; exact hk.symm)))
theorem issueReceive_rest (m : Nat) (u : Nat) (r : Bytes) (env : RunEnv) (s : State) (t : State) (h : issueReceive m u r env s = .next t) : t.rest = s.rest := by
  unfold issueReceive at h; (try dsimp only at h); refine issueG_rest (t := t) (h := h) (h6 := ?_) .. <;> (intros; first | with_reducible rfl | (simp only [↓rest_fabric, ↓rest_chk, ↓rest_stack, ↓rest_stores, ↓rest_tick, ↓rest_media, ↓rest_regs, ↓rest_ctxs, ↓rest_units, ↓rest_poison, ↓rest_links, ↓rest_fresh, ↓rest_rings, ↓rest_bolts, ↓rest_out, ↓State.runReceive_rest, ↓apply_ite State.rest, ite_self]; done) | (simp [↓rest_fabric, ↓rest_chk, ↓rest_stack, ↓rest_stores, ↓rest_tick, ↓rest_media, ↓rest_regs, ↓rest_ctxs, ↓rest_units, ↓rest_poison, ↓rest_links, ↓rest_fresh, ↓rest_rings, ↓rest_bolts, ↓rest_out, ↓State.runReceive_rest, ↓apply_ite State.rest, ite_self]; done) | ((try dsimp only); (repeat' split) <;> (first | with_reducible rfl | (simp only [↓rest_fabric, ↓rest_chk, ↓rest_stack, ↓rest_stores, ↓rest_tick, ↓rest_media, ↓rest_regs, ↓rest_ctxs, ↓rest_units, ↓rest_poison, ↓rest_links, ↓rest_fresh, ↓rest_rings, ↓rest_bolts, ↓rest_out, ↓State.runReceive_rest, ↓apply_ite State.rest, ite_self]; done) | (simp [↓rest_fabric, ↓rest_chk, ↓rest_stack, ↓rest_stores, ↓rest_tick, ↓rest_media, ↓rest_regs, ↓rest_ctxs, ↓rest_units, ↓rest_poison, ↓rest_links, ↓rest_fresh, ↓rest_rings, ↓rest_bolts, ↓rest_out, ↓State.runReceive_rest, ↓apply_ite State.rest, ite_self]; done) | (rename_i heq; have hk := congrArg (fun q => q.1.rest) heq; simp only [↓rest_fabric, ↓rest_chk, ↓rest_stack, ↓rest_stores, ↓rest_tick, ↓rest_media, ↓rest_regs, ↓rest_ctxs, ↓rest_units, ↓rest_poison, ↓rest_links, ↓rest_fresh, ↓rest_rings, ↓rest_bolts, ↓rest_out, ↓State.runReceive_rest] at hk; simp only [↓rest_fabric, ↓rest_chk, ↓rest_stack, ↓rest_stores, ↓rest_tick, ↓rest_media, ↓rest_regs, ↓rest_ctxs, ↓rest_units, ↓rest_poison, ↓rest_links, ↓rest_fresh, ↓rest_rings, ↓rest_bolts, ↓rest_out, ↓State.runReceive_rest, ↓apply_ite State.rest, ite_self]; exact hk.symm))))
theorem execReceiveAdd_rest (u : Fin 256) (r : Bytes) (env : RunEnv) (s : State) (t : State) (h : execReceiveAdd u r env s = .next t) : t.rest = s.rest := by
  unfold execReceiveAdd at h; (try dsimp only at h); (repeat' split at h) <;> (first | (exact issueReceive_rest (h := h) ..) | contradiction | (obtain rfl := Host.Outcome.next.inj h; first | with_reducible rfl | (simp only [↓rest_fabric, ↓rest_chk, ↓rest_stack, ↓rest_stores, ↓rest_tick, ↓rest_media, ↓rest_regs, ↓rest_ctxs, ↓rest_units, ↓rest_poison, ↓rest_links, ↓rest_fresh, ↓rest_rings, ↓rest_bolts, ↓rest_out, ↓apply_ite State.rest, ite_self]; done) | (simp [↓rest_fabric, ↓rest_chk, ↓rest_stack, ↓rest_stores, ↓rest_tick, ↓rest_media, ↓rest_regs, ↓rest_ctxs, ↓rest_units, ↓rest_poison, ↓rest_links, ↓rest_fresh, ↓rest_rings, ↓rest_bolts, ↓rest_out, ↓apply_ite State.rest, ite_self]; done) | (rename_i heq; have hk := congrArg (fun q => q.1.rest) heq; simp only [↓rest_fabric, ↓rest_chk, ↓rest_stack, ↓rest_stores, ↓rest_tick, ↓rest_media, ↓rest_regs, ↓rest_ctxs, ↓rest_units, ↓rest_poison, ↓rest_links, ↓rest_fresh, ↓rest_rings, ↓rest_bolts, ↓rest_out] at hk; simp only [↓rest_fabric, ↓rest_chk, ↓rest_stack, ↓rest_stores, ↓rest_tick, ↓rest_media, ↓rest_regs, ↓rest_ctxs, ↓rest_units, ↓rest_poison, ↓rest_links, ↓rest_fresh, ↓rest_rings, ↓rest_bolts, ↓rest_out, ↓apply_ite State.rest, ite_self]; exact hk.symm)))
theorem execReceiveCopy_rest (u : Fin 256) (r : Bytes) (env : RunEnv) (s : State) (t : State) (h : execReceiveCopy u r env s = .next t) : t.rest = s.rest := by
  unfold execReceiveCopy at h; (try dsimp only at h); (repeat' split at h) <;> (first | (exact issueReceive_rest (h := h) ..) | contradiction | (obtain rfl := Host.Outcome.next.inj h; first | with_reducible rfl | (simp only [↓rest_fabric, ↓rest_chk, ↓rest_stack, ↓rest_stores, ↓rest_tick, ↓rest_media, ↓rest_regs, ↓rest_ctxs, ↓rest_units, ↓rest_poison, ↓rest_links, ↓rest_fresh, ↓rest_rings, ↓rest_bolts, ↓rest_out, ↓apply_ite State.rest, ite_self]; done) | (simp [↓rest_fabric, ↓rest_chk, ↓rest_stack, ↓rest_stores, ↓rest_tick, ↓rest_media, ↓rest_regs, ↓rest_ctxs, ↓rest_units, ↓rest_poison, ↓rest_links, ↓rest_fresh, ↓rest_rings, ↓rest_bolts, ↓rest_out, ↓apply_ite State.rest, ite_self]; done) | (rename_i heq; have hk := congrArg (fun q => q.1.rest) heq; simp only [↓rest_fabric, ↓rest_chk, ↓rest_stack, ↓rest_stores, ↓rest_tick, ↓rest_media, ↓rest_regs, ↓rest_ctxs, ↓rest_units, ↓rest_poison, ↓rest_links, ↓rest_fresh, ↓rest_rings, ↓rest_bolts, ↓rest_out] at hk; simp only [↓rest_fabric, ↓rest_chk, ↓rest_stack, ↓rest_stores, ↓rest_tick, ↓rest_media, ↓rest_regs, ↓rest_ctxs, ↓rest_units, ↓rest_poison, ↓rest_links, ↓rest_fresh, ↓rest_rings, ↓rest_bolts, ↓rest_out, ↓apply_ite State.rest, ite_self]; exact hk.symm)))
theorem execReceiveMax_rest (u : Fin 256) (r : Bytes) (env : RunEnv) (s : State) (t : State) (h : execReceiveMax u r env s = .next t) : t.rest = s.rest := by
  unfold execReceiveMax at h; (try dsimp only at h); (repeat' split at h) <;> (first | (exact issueReceive_rest (h := h) ..) | contradiction | (obtain rfl := Host.Outcome.next.inj h; first | with_reducible rfl | (simp only [↓rest_fabric, ↓rest_chk, ↓rest_stack, ↓rest_stores, ↓rest_tick, ↓rest_media, ↓rest_regs, ↓rest_ctxs, ↓rest_units, ↓rest_poison, ↓rest_links, ↓rest_fresh, ↓rest_rings, ↓rest_bolts, ↓rest_out, ↓apply_ite State.rest, ite_self]; done) | (simp [↓rest_fabric, ↓rest_chk, ↓rest_stack, ↓rest_stores, ↓rest_tick, ↓rest_media, ↓rest_regs, ↓rest_ctxs, ↓rest_units, ↓rest_poison, ↓rest_links, ↓rest_fresh, ↓rest_rings, ↓rest_bolts, ↓rest_out, ↓apply_ite State.rest, ite_self]; done) | (rename_i heq; have hk := congrArg (fun q => q.1.rest) heq; simp only [↓rest_fabric, ↓rest_chk, ↓rest_stack, ↓rest_stores, ↓rest_tick, ↓rest_media, ↓rest_regs, ↓rest_ctxs, ↓rest_units, ↓rest_poison, ↓rest_links, ↓rest_fresh, ↓rest_rings, ↓rest_bolts, ↓rest_out] at hk; simp only [↓rest_fabric, ↓rest_chk, ↓rest_stack, ↓rest_stores, ↓rest_tick, ↓rest_media, ↓rest_regs, ↓rest_ctxs, ↓rest_units, ↓rest_poison, ↓rest_links, ↓rest_fresh, ↓rest_rings, ↓rest_bolts, ↓rest_out, ↓apply_ite State.rest, ite_self]; exact hk.symm)))
theorem issueReduction_rest (op : Nat) (u : Nat) (r : Bytes) (env : RunEnv) (s : State) (t : State) (h : issueReduction op u r env s = .next t) : t.rest = s.rest := by
  unfold issueReduction at h; (try dsimp only at h); (repeat' split at h) <;> (first | (exact issue_rest (h := h) ..) | contradiction | (obtain rfl := Host.Outcome.next.inj h; first | with_reducible rfl | (simp only [↓rest_fabric, ↓rest_chk, ↓rest_stack, ↓rest_stores, ↓rest_tick, ↓rest_media, ↓rest_regs, ↓rest_ctxs, ↓rest_units, ↓rest_poison, ↓rest_links, ↓rest_fresh, ↓rest_rings, ↓rest_bolts, ↓rest_out, ↓apply_ite State.rest, ite_self]; done) | (simp [↓rest_fabric, ↓rest_chk, ↓rest_stack, ↓rest_stores, ↓rest_tick, ↓rest_media, ↓rest_regs, ↓rest_ctxs, ↓rest_units, ↓rest_poison, ↓rest_links, ↓rest_fresh, ↓rest_rings, ↓rest_bolts, ↓rest_out, ↓apply_ite State.rest, ite_self]; done) | (rename_i heq; have hk := congrArg (fun q => q.1.rest) heq; simp only [↓rest_fabric, ↓rest_chk, ↓rest_stack, ↓rest_stores, ↓rest_tick, ↓rest_media, ↓rest_regs, ↓rest_ctxs, ↓rest_units, ↓rest_poison, ↓rest_links, ↓rest_fresh, ↓rest_rings, ↓rest_bolts, ↓rest_out] at hk; simp only [↓rest_fabric, ↓rest_chk, ↓rest_stack, ↓rest_stores, ↓rest_tick, ↓rest_media, ↓rest_regs, ↓rest_ctxs, ↓rest_units, ↓rest_poison, ↓rest_links, ↓rest_fresh, ↓rest_rings, ↓rest_bolts, ↓rest_out, ↓apply_ite State.rest, ite_self]; exact hk.symm)))
theorem execReductionMax_rest (u : Fin 256) (r : Bytes) (env : RunEnv) (s : State) (t : State) (h : execReductionMax u r env s = .next t) : t.rest = s.rest := by
  unfold execReductionMax at h; (try dsimp only at h); (repeat' split at h) <;> (first | (exact issueReduction_rest (h := h) ..) | contradiction | (obtain rfl := Host.Outcome.next.inj h; first | with_reducible rfl | (simp only [↓rest_fabric, ↓rest_chk, ↓rest_stack, ↓rest_stores, ↓rest_tick, ↓rest_media, ↓rest_regs, ↓rest_ctxs, ↓rest_units, ↓rest_poison, ↓rest_links, ↓rest_fresh, ↓rest_rings, ↓rest_bolts, ↓rest_out, ↓apply_ite State.rest, ite_self]; done) | (simp [↓rest_fabric, ↓rest_chk, ↓rest_stack, ↓rest_stores, ↓rest_tick, ↓rest_media, ↓rest_regs, ↓rest_ctxs, ↓rest_units, ↓rest_poison, ↓rest_links, ↓rest_fresh, ↓rest_rings, ↓rest_bolts, ↓rest_out, ↓apply_ite State.rest, ite_self]; done) | (rename_i heq; have hk := congrArg (fun q => q.1.rest) heq; simp only [↓rest_fabric, ↓rest_chk, ↓rest_stack, ↓rest_stores, ↓rest_tick, ↓rest_media, ↓rest_regs, ↓rest_ctxs, ↓rest_units, ↓rest_poison, ↓rest_links, ↓rest_fresh, ↓rest_rings, ↓rest_bolts, ↓rest_out] at hk; simp only [↓rest_fabric, ↓rest_chk, ↓rest_stack, ↓rest_stores, ↓rest_tick, ↓rest_media, ↓rest_regs, ↓rest_ctxs, ↓rest_units, ↓rest_poison, ↓rest_links, ↓rest_fresh, ↓rest_rings, ↓rest_bolts, ↓rest_out, ↓apply_ite State.rest, ite_self]; exact hk.symm)))
theorem execReductionMean_rest (u : Fin 256) (r : Bytes) (env : RunEnv) (s : State) (t : State) (h : execReductionMean u r env s = .next t) : t.rest = s.rest := by
  unfold execReductionMean at h; (try dsimp only at h); (repeat' split at h) <;> (first | (exact issueReduction_rest (h := h) ..) | contradiction | (obtain rfl := Host.Outcome.next.inj h; first | with_reducible rfl | (simp only [↓rest_fabric, ↓rest_chk, ↓rest_stack, ↓rest_stores, ↓rest_tick, ↓rest_media, ↓rest_regs, ↓rest_ctxs, ↓rest_units, ↓rest_poison, ↓rest_links, ↓rest_fresh, ↓rest_rings, ↓rest_bolts, ↓rest_out, ↓apply_ite State.rest, ite_self]; done) | (simp [↓rest_fabric, ↓rest_chk, ↓rest_stack, ↓rest_stores, ↓rest_tick, ↓rest_media, ↓rest_regs, ↓rest_ctxs, ↓rest_units, ↓rest_poison, ↓rest_links, ↓rest_fresh, ↓rest_rings, ↓rest_bolts, ↓rest_out, ↓apply_ite State.rest, ite_self]; done) | (rename_i heq; have hk := congrArg (fun q => q.1.rest) heq; simp only [↓rest_fabric, ↓rest_chk, ↓rest_stack, ↓rest_stores, ↓rest_tick, ↓rest_media, ↓rest_regs, ↓rest_ctxs, ↓rest_units, ↓rest_poison, ↓rest_links, ↓rest_fresh, ↓rest_rings, ↓rest_bolts, ↓rest_out] at hk; simp only [↓rest_fabric, ↓rest_chk, ↓rest_stack, ↓rest_stores, ↓rest_tick, ↓rest_media, ↓rest_regs, ↓rest_ctxs, ↓rest_units, ↓rest_poison, ↓rest_links, ↓rest_fresh, ↓rest_rings, ↓rest_bolts, ↓rest_out, ↓apply_ite State.rest, ite_self]; exact hk.symm)))
theorem execReductionMin_rest (u : Fin 256) (r : Bytes) (env : RunEnv) (s : State) (t : State) (h : execReductionMin u r env s = .next t) : t.rest = s.rest := by
  unfold execReductionMin at h; (try dsimp only at h); (repeat' split at h) <;> (first | (exact issueReduction_rest (h := h) ..) | contradiction | (obtain rfl := Host.Outcome.next.inj h; first | with_reducible rfl | (simp only [↓rest_fabric, ↓rest_chk, ↓rest_stack, ↓rest_stores, ↓rest_tick, ↓rest_media, ↓rest_regs, ↓rest_ctxs, ↓rest_units, ↓rest_poison, ↓rest_links, ↓rest_fresh, ↓rest_rings, ↓rest_bolts, ↓rest_out, ↓apply_ite State.rest, ite_self]; done) | (simp [↓rest_fabric, ↓rest_chk, ↓rest_stack, ↓rest_stores, ↓rest_tick, ↓rest_media, ↓rest_regs, ↓rest_ctxs, ↓rest_units, ↓rest_poison, ↓rest_links, ↓rest_fresh, ↓rest_rings, ↓rest_bolts, ↓rest_out, ↓apply_ite State.rest, ite_self]; done) | (rename_i heq; have hk := congrArg (fun q => q.1.rest) heq; simp only [↓rest_fabric, ↓rest_chk, ↓rest_stack, ↓rest_stores, ↓rest_tick, ↓rest_media, ↓rest_regs, ↓rest_ctxs, ↓rest_units, ↓rest_poison, ↓rest_links, ↓rest_fresh, ↓rest_rings, ↓rest_bolts, ↓rest_out] at hk; simp only [↓rest_fabric, ↓rest_chk, ↓rest_stack, ↓rest_stores, ↓rest_tick, ↓rest_media, ↓rest_regs, ↓rest_ctxs, ↓rest_units, ↓rest_poison, ↓rest_links, ↓rest_fresh, ↓rest_rings, ↓rest_bolts, ↓rest_out, ↓apply_ite State.rest, ite_self]; exact hk.symm)))
theorem execReductionSum_rest (u : Fin 256) (r : Bytes) (env : RunEnv) (s : State) (t : State) (h : execReductionSum u r env s = .next t) : t.rest = s.rest := by
  unfold execReductionSum at h; (try dsimp only at h); (repeat' split at h) <;> (first | (exact issueReduction_rest (h := h) ..) | contradiction | (obtain rfl := Host.Outcome.next.inj h; first | with_reducible rfl | (simp only [↓rest_fabric, ↓rest_chk, ↓rest_stack, ↓rest_stores, ↓rest_tick, ↓rest_media, ↓rest_regs, ↓rest_ctxs, ↓rest_units, ↓rest_poison, ↓rest_links, ↓rest_fresh, ↓rest_rings, ↓rest_bolts, ↓rest_out, ↓apply_ite State.rest, ite_self]; done) | (simp [↓rest_fabric, ↓rest_chk, ↓rest_stack, ↓rest_stores, ↓rest_tick, ↓rest_media, ↓rest_regs, ↓rest_ctxs, ↓rest_units, ↓rest_poison, ↓rest_links, ↓rest_fresh, ↓rest_rings, ↓rest_bolts, ↓rest_out, ↓apply_ite State.rest, ite_self]; done) | (rename_i heq; have hk := congrArg (fun q => q.1.rest) heq; simp only [↓rest_fabric, ↓rest_chk, ↓rest_stack, ↓rest_stores, ↓rest_tick, ↓rest_media, ↓rest_regs, ↓rest_ctxs, ↓rest_units, ↓rest_poison, ↓rest_links, ↓rest_fresh, ↓rest_rings, ↓rest_bolts, ↓rest_out] at hk; simp only [↓rest_fabric, ↓rest_chk, ↓rest_stack, ↓rest_stores, ↓rest_tick, ↓rest_media, ↓rest_regs, ↓rest_ctxs, ↓rest_units, ↓rest_poison, ↓rest_links, ↓rest_fresh, ↓rest_rings, ↓rest_bolts, ↓rest_out, ↓apply_ite State.rest, ite_self]; exact hk.symm)))
theorem execReductionSumsq_rest (u : Fin 256) (r : Bytes) (env : RunEnv) (s : State) (t : State) (h : execReductionSumsq u r env s = .next t) : t.rest = s.rest := by
  unfold execReductionSumsq at h; (try dsimp only at h); (repeat' split at h) <;> (first | (exact issueReduction_rest (h := h) ..) | contradiction | (obtain rfl := Host.Outcome.next.inj h; first | with_reducible rfl | (simp only [↓rest_fabric, ↓rest_chk, ↓rest_stack, ↓rest_stores, ↓rest_tick, ↓rest_media, ↓rest_regs, ↓rest_ctxs, ↓rest_units, ↓rest_poison, ↓rest_links, ↓rest_fresh, ↓rest_rings, ↓rest_bolts, ↓rest_out, ↓apply_ite State.rest, ite_self]; done) | (simp [↓rest_fabric, ↓rest_chk, ↓rest_stack, ↓rest_stores, ↓rest_tick, ↓rest_media, ↓rest_regs, ↓rest_ctxs, ↓rest_units, ↓rest_poison, ↓rest_links, ↓rest_fresh, ↓rest_rings, ↓rest_bolts, ↓rest_out, ↓apply_ite State.rest, ite_self]; done) | (rename_i heq; have hk := congrArg (fun q => q.1.rest) heq; simp only [↓rest_fabric, ↓rest_chk, ↓rest_stack, ↓rest_stores, ↓rest_tick, ↓rest_media, ↓rest_regs, ↓rest_ctxs, ↓rest_units, ↓rest_poison, ↓rest_links, ↓rest_fresh, ↓rest_rings, ↓rest_bolts, ↓rest_out] at hk; simp only [↓rest_fabric, ↓rest_chk, ↓rest_stack, ↓rest_stores, ↓rest_tick, ↓rest_media, ↓rest_regs, ↓rest_ctxs, ↓rest_units, ↓rest_poison, ↓rest_links, ↓rest_fresh, ↓rest_rings, ↓rest_bolts, ↓rest_out, ↓apply_ite State.rest, ite_self]; exact hk.symm)))
theorem execRelayout_rest (u : Fin 256) (r : Bytes) (env : RunEnv) (s : State) (t : State) (h : execRelayout u r env s = .next t) : t.rest = s.rest := by
  unfold execRelayout at h; (try dsimp only at h); (repeat' split at h) <;> (first | (exact issue_rest (h := h) ..) | contradiction | (obtain rfl := Host.Outcome.next.inj h; first | with_reducible rfl | (simp only [↓rest_fabric, ↓rest_chk, ↓rest_stack, ↓rest_stores, ↓rest_tick, ↓rest_media, ↓rest_regs, ↓rest_ctxs, ↓rest_units, ↓rest_poison, ↓rest_links, ↓rest_fresh, ↓rest_rings, ↓rest_bolts, ↓rest_out, ↓apply_ite State.rest, ite_self]; done) | (simp [↓rest_fabric, ↓rest_chk, ↓rest_stack, ↓rest_stores, ↓rest_tick, ↓rest_media, ↓rest_regs, ↓rest_ctxs, ↓rest_units, ↓rest_poison, ↓rest_links, ↓rest_fresh, ↓rest_rings, ↓rest_bolts, ↓rest_out, ↓apply_ite State.rest, ite_self]; done) | (rename_i heq; have hk := congrArg (fun q => q.1.rest) heq; simp only [↓rest_fabric, ↓rest_chk, ↓rest_stack, ↓rest_stores, ↓rest_tick, ↓rest_media, ↓rest_regs, ↓rest_ctxs, ↓rest_units, ↓rest_poison, ↓rest_links, ↓rest_fresh, ↓rest_rings, ↓rest_bolts, ↓rest_out] at hk; simp only [↓rest_fabric, ↓rest_chk, ↓rest_stack, ↓rest_stores, ↓rest_tick, ↓rest_media, ↓rest_regs, ↓rest_ctxs, ↓rest_units, ↓rest_poison, ↓rest_links, ↓rest_fresh, ↓rest_rings, ↓rest_bolts, ↓rest_out, ↓apply_ite State.rest, ite_self]; exact hk.symm)))
theorem execRmsNorm_rest (u : Fin 256) (r : Bytes) (env : RunEnv) (s : State) (t : State) (h : execRmsNorm u r env s = .next t) : t.rest = s.rest := by
  unfold execRmsNorm at h; (try dsimp only at h); (repeat' split at h) <;> (first | (exact issue_rest (h := h) ..) | contradiction | (obtain rfl := Host.Outcome.next.inj h; first | with_reducible rfl | (simp only [↓rest_fabric, ↓rest_chk, ↓rest_stack, ↓rest_stores, ↓rest_tick, ↓rest_media, ↓rest_regs, ↓rest_ctxs, ↓rest_units, ↓rest_poison, ↓rest_links, ↓rest_fresh, ↓rest_rings, ↓rest_bolts, ↓rest_out, ↓apply_ite State.rest, ite_self]; done) | (simp [↓rest_fabric, ↓rest_chk, ↓rest_stack, ↓rest_stores, ↓rest_tick, ↓rest_media, ↓rest_regs, ↓rest_ctxs, ↓rest_units, ↓rest_poison, ↓rest_links, ↓rest_fresh, ↓rest_rings, ↓rest_bolts, ↓rest_out, ↓apply_ite State.rest, ite_self]; done) | (rename_i heq; have hk := congrArg (fun q => q.1.rest) heq; simp only [↓rest_fabric, ↓rest_chk, ↓rest_stack, ↓rest_stores, ↓rest_tick, ↓rest_media, ↓rest_regs, ↓rest_ctxs, ↓rest_units, ↓rest_poison, ↓rest_links, ↓rest_fresh, ↓rest_rings, ↓rest_bolts, ↓rest_out] at hk; simp only [↓rest_fabric, ↓rest_chk, ↓rest_stack, ↓rest_stores, ↓rest_tick, ↓rest_media, ↓rest_regs, ↓rest_ctxs, ↓rest_units, ↓rest_poison, ↓rest_links, ↓rest_fresh, ↓rest_rings, ↓rest_bolts, ↓rest_out, ↓apply_ite State.rest, ite_self]; exact hk.symm)))
theorem execScale_rest (w : Fin 16) (r : Bytes) (env : RunEnv) (s : State) (t : State) (h : execScale w r env s = .next t) : t.rest = s.rest := by
  unfold execScale at h; (try dsimp only at h); refine issueUpdate_rest (t := t) (h := h) (h7 := ?_) .. <;> (intros; first | with_reducible rfl | (simp only [↓rest_fabric, ↓rest_chk, ↓rest_stack, ↓rest_stores, ↓rest_tick, ↓rest_media, ↓rest_regs, ↓rest_ctxs, ↓rest_units, ↓rest_poison, ↓rest_links, ↓rest_fresh, ↓rest_rings, ↓rest_bolts, ↓rest_out, ↓State.modCtx_rest, ↓apply_ite State.rest, ite_self]; done) | (simp [↓rest_fabric, ↓rest_chk, ↓rest_stack, ↓rest_stores, ↓rest_tick, ↓rest_media, ↓rest_regs, ↓rest_ctxs, ↓rest_units, ↓rest_poison, ↓rest_links, ↓rest_fresh, ↓rest_rings, ↓rest_bolts, ↓rest_out, ↓State.modCtx_rest, ↓apply_ite State.rest, ite_self]; done) | ((try dsimp only); (repeat' split) <;> (first | with_reducible rfl | (simp only [↓rest_fabric, ↓rest_chk, ↓rest_stack, ↓rest_stores, ↓rest_tick, ↓rest_media, ↓rest_regs, ↓rest_ctxs, ↓rest_units, ↓rest_poison, ↓rest_links, ↓rest_fresh, ↓rest_rings, ↓rest_bolts, ↓rest_out, ↓State.modCtx_rest, ↓apply_ite State.rest, ite_self]; done) | (simp [↓rest_fabric, ↓rest_chk, ↓rest_stack, ↓rest_stores, ↓rest_tick, ↓rest_media, ↓rest_regs, ↓rest_ctxs, ↓rest_units, ↓rest_poison, ↓rest_links, ↓rest_fresh, ↓rest_rings, ↓rest_bolts, ↓rest_out, ↓State.modCtx_rest, ↓apply_ite State.rest, ite_self]; done) | (rename_i heq; have hk := congrArg (fun q => q.1.rest) heq; simp only [↓rest_fabric, ↓rest_chk, ↓rest_stack, ↓rest_stores, ↓rest_tick, ↓rest_media, ↓rest_regs, ↓rest_ctxs, ↓rest_units, ↓rest_poison, ↓rest_links, ↓rest_fresh, ↓rest_rings, ↓rest_bolts, ↓rest_out, ↓State.modCtx_rest] at hk; simp only [↓rest_fabric, ↓rest_chk, ↓rest_stack, ↓rest_stores, ↓rest_tick, ↓rest_media, ↓rest_regs, ↓rest_ctxs, ↓rest_units, ↓rest_poison, ↓rest_links, ↓rest_fresh, ↓rest_rings, ↓rest_bolts, ↓rest_out, ↓State.modCtx_rest, ↓apply_ite State.rest, ite_self]; exact hk.symm))))
theorem execScatter_rest (u : Fin 256) (r : Bytes) (env : RunEnv) (s : State) (t : State) (h : execScatter u r env s = .next t) : t.rest = s.rest := by
  unfold execScatter at h; (try dsimp only at h); (repeat' split at h) <;> (first | (exact issue_rest (h := h) ..) | contradiction | (obtain rfl := Host.Outcome.next.inj h; first | with_reducible rfl | (simp only [↓rest_fabric, ↓rest_chk, ↓rest_stack, ↓rest_stores, ↓rest_tick, ↓rest_media, ↓rest_regs, ↓rest_ctxs, ↓rest_units, ↓rest_poison, ↓rest_links, ↓rest_fresh, ↓rest_rings, ↓rest_bolts, ↓rest_out, ↓apply_ite State.rest, ite_self]; done) | (simp [↓rest_fabric, ↓rest_chk, ↓rest_stack, ↓rest_stores, ↓rest_tick, ↓rest_media, ↓rest_regs, ↓rest_ctxs, ↓rest_units, ↓rest_poison, ↓rest_links, ↓rest_fresh, ↓rest_rings, ↓rest_bolts, ↓rest_out, ↓apply_ite State.rest, ite_self]; done) | (rename_i heq; have hk := congrArg (fun q => q.1.rest) heq; simp only [↓rest_fabric, ↓rest_chk, ↓rest_stack, ↓rest_stores, ↓rest_tick, ↓rest_media, ↓rest_regs, ↓rest_ctxs, ↓rest_units, ↓rest_poison, ↓rest_links, ↓rest_fresh, ↓rest_rings, ↓rest_bolts, ↓rest_out] at hk; simp only [↓rest_fabric, ↓rest_chk, ↓rest_stack, ↓rest_stores, ↓rest_tick, ↓rest_media, ↓rest_regs, ↓rest_ctxs, ↓rest_units, ↓rest_poison, ↓rest_links, ↓rest_fresh, ↓rest_rings, ↓rest_bolts, ↓rest_out, ↓apply_ite State.rest, ite_self]; exact hk.symm)))
theorem execScatterAdd_rest (u : Fin 256) (r : Bytes) (env : RunEnv) (s : State) (t : State) (h : execScatterAdd u r env s = .next t) : t.rest = s.rest := by
  unfold execScatterAdd at h; (try dsimp only at h); (repeat' split at h) <;> (first | (exact issue_rest (h := h) ..) | contradiction | (obtain rfl := Host.Outcome.next.inj h; first | with_reducible rfl | (simp only [↓rest_fabric, ↓rest_chk, ↓rest_stack, ↓rest_stores, ↓rest_tick, ↓rest_media, ↓rest_regs, ↓rest_ctxs, ↓rest_units, ↓rest_poison, ↓rest_links, ↓rest_fresh, ↓rest_rings, ↓rest_bolts, ↓rest_out, ↓apply_ite State.rest, ite_self]; done) | (simp [↓rest_fabric, ↓rest_chk, ↓rest_stack, ↓rest_stores, ↓rest_tick, ↓rest_media, ↓rest_regs, ↓rest_ctxs, ↓rest_units, ↓rest_poison, ↓rest_links, ↓rest_fresh, ↓rest_rings, ↓rest_bolts, ↓rest_out, ↓apply_ite State.rest, ite_self]; done) | (rename_i heq; have hk := congrArg (fun q => q.1.rest) heq; simp only [↓rest_fabric, ↓rest_chk, ↓rest_stack, ↓rest_stores, ↓rest_tick, ↓rest_media, ↓rest_regs, ↓rest_ctxs, ↓rest_units, ↓rest_poison, ↓rest_links, ↓rest_fresh, ↓rest_rings, ↓rest_bolts, ↓rest_out] at hk; simp only [↓rest_fabric, ↓rest_chk, ↓rest_stack, ↓rest_stores, ↓rest_tick, ↓rest_media, ↓rest_regs, ↓rest_ctxs, ↓rest_units, ↓rest_poison, ↓rest_links, ↓rest_fresh, ↓rest_rings, ↓rest_bolts, ↓rest_out, ↓apply_ite State.rest, ite_self]; exact hk.symm)))
theorem execSend_rest (u : Fin 256) (r : Bytes) (env : RunEnv) (s : State) (t : State) (h : execSend u r env s = .next t) : t.rest = s.rest := by
  unfold execSend at h; (try dsimp only at h); (repeat' split at h) <;> (first | (exact issue_rest (h := h) ..) | contradiction | (obtain rfl := Host.Outcome.next.inj h; first | with_reducible rfl | (simp only [↓rest_fabric, ↓rest_chk, ↓rest_stack, ↓rest_stores, ↓rest_tick, ↓rest_media, ↓rest_regs, ↓rest_ctxs, ↓rest_units, ↓rest_poison, ↓rest_links, ↓rest_fresh, ↓rest_rings, ↓rest_bolts, ↓rest_out, ↓apply_ite State.rest, ite_self]; done) | (simp [↓rest_fabric, ↓rest_chk, ↓rest_stack, ↓rest_stores, ↓rest_tick, ↓rest_media, ↓rest_regs, ↓rest_ctxs, ↓rest_units, ↓rest_poison, ↓rest_links, ↓rest_fresh, ↓rest_rings, ↓rest_bolts, ↓rest_out, ↓apply_ite State.rest, ite_self]; done) | (rename_i heq; have hk := congrArg (fun q => q.1.rest) heq; simp only [↓rest_fabric, ↓rest_chk, ↓rest_stack, ↓rest_stores, ↓rest_tick, ↓rest_media, ↓rest_regs, ↓rest_ctxs, ↓rest_units, ↓rest_poison, ↓rest_links, ↓rest_fresh, ↓rest_rings, ↓rest_bolts, ↓rest_out] at hk; simp only [↓rest_fabric, ↓rest_chk, ↓rest_stack, ↓rest_stores, ↓rest_tick, ↓rest_media, ↓rest_regs, ↓rest_ctxs, ↓rest_units, ↓rest_poison, ↓rest_links, ↓rest_fresh, ↓rest_rings, ↓rest_bolts, ↓rest_out, ↓apply_ite State.rest, ite_self]; exact hk.symm)))
theorem execSoftmax_rest (u : Fin 256) (r : Bytes) (env : RunEnv) (s : State) (t : State) (h : execSoftmax u r env s = .next t) : t.rest = s.rest := by
  unfold execSoftmax at h; (try dsimp only at h); (repeat' split at h) <;> (first | (exact issue_rest (h := h) ..) | contradiction | (obtain rfl := Host.Outcome.next.inj h; first | with_reducible rfl | (simp only [↓rest_fabric, ↓rest_chk, ↓rest_stack, ↓rest_stores, ↓rest_tick, ↓rest_media, ↓rest_regs, ↓rest_ctxs, ↓rest_units, ↓rest_poison, ↓rest_links, ↓rest_fresh, ↓rest_rings, ↓rest_bolts, ↓rest_out, ↓apply_ite State.rest, ite_self]; done) | (simp [↓rest_fabric, ↓rest_chk, ↓rest_stack, ↓rest_stores, ↓rest_tick, ↓rest_media, ↓rest_regs, ↓rest_ctxs, ↓rest_units, ↓rest_poison, ↓rest_links, ↓rest_fresh, ↓rest_rings, ↓rest_bolts, ↓rest_out, ↓apply_ite State.rest, ite_self]; done) | (rename_i heq; have hk := congrArg (fun q => q.1.rest) heq; simp only [↓rest_fabric, ↓rest_chk, ↓rest_stack, ↓rest_stores, ↓rest_tick, ↓rest_media, ↓rest_regs, ↓rest_ctxs, ↓rest_units, ↓rest_poison, ↓rest_links, ↓rest_fresh, ↓rest_rings, ↓rest_bolts, ↓rest_out] at hk; simp only [↓rest_fabric, ↓rest_chk, ↓rest_stack, ↓rest_stores, ↓rest_tick, ↓rest_media, ↓rest_regs, ↓rest_ctxs, ↓rest_units, ↓rest_poison, ↓rest_links, ↓rest_fresh, ↓rest_rings, ↓rest_bolts, ↓rest_out, ↓apply_ite State.rest, ite_self]; exact hk.symm)))
theorem execVariant_rest (w : Fin 16) (r : Bytes) (env : RunEnv) (s : State) (t : State) (h : execVariant w r env s = .next t) : t.rest = s.rest := by
  unfold execVariant at h; (try dsimp only at h); refine issueUpdate_rest (t := t) (h := h) (h7 := ?_) .. <;> (intros; first | with_reducible rfl | (simp only [↓rest_fabric, ↓rest_chk, ↓rest_stack, ↓rest_stores, ↓rest_tick, ↓rest_media, ↓rest_regs, ↓rest_ctxs, ↓rest_units, ↓rest_poison, ↓rest_links, ↓rest_fresh, ↓rest_rings, ↓rest_bolts, ↓rest_out, ↓State.eventIf_rest, ↓apply_ite State.rest, ite_self]; done) | (simp [↓rest_fabric, ↓rest_chk, ↓rest_stack, ↓rest_stores, ↓rest_tick, ↓rest_media, ↓rest_regs, ↓rest_ctxs, ↓rest_units, ↓rest_poison, ↓rest_links, ↓rest_fresh, ↓rest_rings, ↓rest_bolts, ↓rest_out, ↓State.eventIf_rest, ↓apply_ite State.rest, ite_self]; done) | ((try dsimp only); (repeat' split) <;> (first | with_reducible rfl | (simp only [↓rest_fabric, ↓rest_chk, ↓rest_stack, ↓rest_stores, ↓rest_tick, ↓rest_media, ↓rest_regs, ↓rest_ctxs, ↓rest_units, ↓rest_poison, ↓rest_links, ↓rest_fresh, ↓rest_rings, ↓rest_bolts, ↓rest_out, ↓State.eventIf_rest, ↓apply_ite State.rest, ite_self]; done) | (simp [↓rest_fabric, ↓rest_chk, ↓rest_stack, ↓rest_stores, ↓rest_tick, ↓rest_media, ↓rest_regs, ↓rest_ctxs, ↓rest_units, ↓rest_poison, ↓rest_links, ↓rest_fresh, ↓rest_rings, ↓rest_bolts, ↓rest_out, ↓State.eventIf_rest, ↓apply_ite State.rest, ite_self]; done) | (rename_i heq; have hk := congrArg (fun q => q.1.rest) heq; simp only [↓rest_fabric, ↓rest_chk, ↓rest_stack, ↓rest_stores, ↓rest_tick, ↓rest_media, ↓rest_regs, ↓rest_ctxs, ↓rest_units, ↓rest_poison, ↓rest_links, ↓rest_fresh, ↓rest_rings, ↓rest_bolts, ↓rest_out, ↓State.eventIf_rest] at hk; simp only [↓rest_fabric, ↓rest_chk, ↓rest_stack, ↓rest_stores, ↓rest_tick, ↓rest_media, ↓rest_regs, ↓rest_ctxs, ↓rest_units, ↓rest_poison, ↓rest_links, ↓rest_fresh, ↓rest_rings, ↓rest_bolts, ↓rest_out, ↓State.eventIf_rest, ↓apply_ite State.rest, ite_self]; exact hk.symm))))

end Sys2Proof.Machine
end

