-- ==== Sys2Proof/Laws/Session.lean ====
section
/-! SUPPORT. The sessions, the fabric key and the debug lock of the management controller: what the operations that write its state can do to them. -/

set_option linter.all false

namespace Sys2Proof.Machine

/-- `a` opens no session that `b` lacks room for, holds no fabric key but `b`'s, and is unlocked only where `b` is. -/
def Mgmt.Within (a b : Mgmt) : Prop :=
  a.sessions.length ≤ b.sessions.length ∧ (a.fabricKey = b.fabricKey ∨ a.fabricKey = none) ∧ (a.debug = true → b.debug = true)

theorem Mgmt.within_refl (a : Mgmt) : a.Within a := ⟨Nat.le_refl _, .inl rfl, id⟩

theorem Mgmt.within_of_eq {a b : Mgmt} (h : a = b) : a.Within b := h ▸ a.within_refl

theorem Mgmt.within_trans {a b c : Mgmt} (h : a.Within b) (k : b.Within c) : a.Within c := by
  refine ⟨h.1.trans k.1, ?_, fun x => k.2.2 (h.2.2 x)⟩
  rcases h.2.1 with e | e
  · rw [e]; exact k.2.1
  · exact .inr e

theorem Mgmt.kept_within (m : Mgmt) (cold : Bool) : (m.kept cold).Within m := by
  cases cold
  · exact m.within_refl
  · exact ⟨Nat.zero_le _, .inr rfl, fun h => nomatch h⟩

theorem State.clearDevice_mgmt (s : State) (cold a b : Bool) : (s.clearDevice cold a b).mgmt = s.mgmt.kept cold := by rfl

/-- The management controller of `t` is that of `s`, or that of `s` after a reset of cold scope. -/
def MgmtKept (s t : State) : Prop := ∃ c, t.mgmt = s.mgmt.kept c

theorem MgmtKept.of_eq {s t : State} (h : t.mgmt = s.mgmt) : MgmtKept s t := ⟨false, h⟩

theorem MgmtKept.trans {s t u : State} (h : MgmtKept s t) (k : MgmtKept t u) : MgmtKept s u := by
  obtain ⟨a, h⟩ := h
  obtain ⟨b, k⟩ := k
  refine ⟨a || b, ?_⟩
  rw [k, h]
  cases a <;> cases b <;> rfl

theorem MgmtKept.then_eq {s t u : State} (h : MgmtKept s t) (k : u.mgmt = t.mgmt) : MgmtKept s u := h.trans (.of_eq k)

theorem MgmtKept.after_eq {s t u : State} (h : t.mgmt = s.mgmt) (k : MgmtKept t u) : MgmtKept s u := (MgmtKept.of_eq h).trans k

theorem MgmtKept.within {s t : State} (h : MgmtKept s t) : t.mgmt.Within s.mgmt := by
  obtain ⟨c, h⟩ := h
  exact h ▸ Mgmt.kept_within _ _

theorem via_kept (s : State) (o : Host.Outcome State Fault Refusal) (h : ∀ t, o = .next t → MgmtKept s t) : MgmtKept s (s.via o) := by
  unfold State.via
  split
  · exact h _ rfl
  · exact .of_eq rfl

theorem State.beginReset_mgmt (s : State) (cause : List Nat) (cold trip : Bool) (now : Nat) : (s.beginReset cause cold trip now).mgmt = s.mgmt.kept cold := by
  unfold State.beginReset
  simp only [↓apply_ite State.mgmt, ↓State.platformEvent_mgmt, ↓State.emit_mgmt, ite_self, State.clearDevice_mgmt, State.eventIf_mgmt, State.countAssertion_mgmt]
  rw [over_mgmt s cause _ (fun _ _ => State.event_mgmt ..)]

theorem State.beginReset_kept (s : State) (cause : List Nat) (cold trip : Bool) (now : Nat) : MgmtKept s (s.beginReset cause cold trip now) :=
  ⟨cold, s.beginReset_mgmt cause cold trip now⟩

theorem State.resetScope_kept (s : State) (b : Nat) (cause : List Nat) (now : Nat) : MgmtKept s (s.resetScope b cause now) := by
  unfold State.resetScope
  split
  · exact s.beginReset_kept ..
  · exact s.beginReset_kept ..
  · exact .of_eq ((over_mgmt _ cause _ (fun _ _ => State.event_mgmt ..)).trans s.hostScope_mgmt)
  · exact .of_eq ((over_mgmt _ cause _ (fun _ _ => State.event_mgmt ..)).trans (s.wardScope_mgmt _))

theorem execRstCmd_kept (v : W32) (now : Nat) (s t : State) (h : execRstCmd v now s = .next t) : MgmtKept s t := by
  unfold execRstCmd at h
  dsimp only at h
  split at h
  · exact Host.Outcome.next.inj h ▸ .of_eq (State.event_mgmt ..)
  · split at h
    · exact Host.Outcome.next.inj h ▸ .of_eq (State.event_mgmt ..)
    · exact Host.Outcome.next.inj h ▸ s.resetScope_kept ..

theorem State.railsOff_mgmt (s : State) : s.railsOff.mgmt = s.mgmt := by rfl

theorem State.enterRung_kept (s : State) (t : Nat) : MgmtKept s (s.enterRung t) := by
  unfold State.enterRung
  apply MgmtKept.of_eq
  dsimp only
  rw [State.modPwr_mgmt, State.setRegN_mgmt]
  have h : (if 3 ≤ t then s.stopTick.selfRefreshed.resetHost.sramLost else s.stopTick.selfRefreshed : State).mgmt = s.mgmt := by
    split
    · rw [State.sramLost_mgmt, State.resetHost_mgmt, State.selfRefreshed_mgmt, State.stopTick_mgmt]
    · rw [State.selfRefreshed_mgmt, State.stopTick_mgmt]
  generalize (if 3 ≤ t then s.stopTick.selfRefreshed.resetHost.sramLost else s.stopTick.selfRefreshed : State) = u at h
  split
  · exact u.railsOff_mgmt.trans h
  · exact h

theorem State.setTarget_kept (s : State) (t : Nat) (m : Bool) : MgmtKept s (s.setTarget t m) := by
  unfold State.setTarget
  dsimp only
  split
  · exact .of_eq rfl
  split
  · split
    · exact .after_eq (s.leaveRung_mgmt t) (State.enterRung_kept ..)
    · exact .of_eq (s.leaveRung_mgmt t)
  split
  · exact .of_eq rfl
  split
  · exact .of_eq (State.event_mgmt ..)
  split
  · exact s.enterRung_kept t
  · exact .of_eq (State.setRegN_mgmt ..)

theorem execPwrLadderWrite_kept (v : W32) (s t : State) (h : execPwrLadderWrite v s = .next t) : MgmtKept s t := by
  unfold execPwrLadderWrite at h
  exact Host.Outcome.next.inj h ▸ .after_eq (State.eventIf_mgmt ..) (State.setTarget_kept ..)

theorem State.writePower_kept (s : State) (off v : Nat) : MgmtKept s (s.writePower off v) := by
  unfold State.writePower
  split
  · exact via_kept s _ (fun t h => execPwrLadderWrite_kept _ s t h)
  split
  · exact .of_eq (State.storeReg_mgmt ..)
  · exact .of_eq ((State.showCap_mgmt ..).trans (State.storeReg_mgmt ..))

theorem State.writeSetup_kept (s : State) (off v now : Nat) : MgmtKept s (s.writeSetup off v now) := by
  unfold State.writeSetup
  by_cases c : off = Reg.RST_CMD
  · rw [if_pos c]; exact via_kept s _ (fun t h => execRstCmd_kept _ _ s t h)
  rw [if_neg c]
  by_cases c : off = Reg.CLK_CTRL
  · rw [if_pos c]; exact .of_eq (via_mgmt _ _ (fun t h => execClkSelect_mgmt (h := h) ..))
  rw [if_neg c]
  by_cases c : off < 0x00020000
  · rw [if_pos c]; exact .of_eq (State.setRegN_mgmt ..)
  rw [if_neg c]
  by_cases c : off < 0x00040000
  · rw [if_pos c]; exact s.writePower_kept ..
  rw [if_neg c]
  repeat' split
  all_goals first
    | exact .of_eq (State.writeTick_mgmt ..)
    | exact .of_eq (State.writeContext_mgmt ..)
    | exact .of_eq (State.writeRing_mgmt ..)
    | exact .of_eq (State.writeMemory_mgmt ..)
    | exact .of_eq (State.writeFabric_mgmt ..)
    | exact .of_eq (State.writeHasp_mgmt ..)
    | exact .of_eq (State.storeReg_mgmt ..)
    | exact .of_eq (State.writeMedia_mgmt ..)
    | exact .of_eq (State.writeUpdate_mgmt ..)
    | exact .of_eq rfl

theorem State.regWrite_kept (s : State) (off : Nat) (v : W32) (now : Nat) : MgmtKept s (s.regWrite off v now) := by
  unfold State.regWrite
  repeat' split
  · exact .of_eq rfl
  · exact .of_eq rfl
  · exact .of_eq (State.clearBits_mgmt ..)
  · exact s.writeSetup_kept ..

theorem State.barWrite_kept (s : State) (fn off size v now : Nat) : MgmtKept s (s.barWrite fn off size v now) := by
  unfold State.barWrite
  dsimp only
  repeat' split
  · exact .of_eq (State.count_mgmt ..)
  · exact s.regWrite_kept ..
  · exact (s.regWrite_kept ..).trans (State.regWrite_kept ..)

theorem State.remoteWrite_kept (s : State) (off v now : Nat) : MgmtKept s (s.remoteWrite off v now).1 := by
  unfold State.remoteWrite
  split
  · exact .of_eq rfl
  · exact s.barWrite_kept ..

theorem State.fmOperate_kept (s : State) (m : FmMsg) : MgmtKept s (s.fmOperate m).1 := by
  unfold State.fmOperate
  split
  · exact .of_eq (s.fmAssign_mgmt m)
  · exact .of_eq (s.fmNeighbours_mgmt m)
  · exact .of_eq (s.fmTableWrite_mgmt m)
  · exact .of_eq (s.fmTableSeal_mgmt m)
  · unfold State.fmRegWrite
    split
    · exact .of_eq rfl
    · exact s.remoteWrite_kept ..
  · exact .of_eq (s.fmRegRead_mgmt m)
  · exact .of_eq (s.fmTickStart_mgmt m)
  · exact .of_eq (s.fmResume_mgmt m)
  · exact .of_eq rfl
  · exact .of_eq rfl

theorem State.fmRun_kept (s : State) (m : FmMsg) : MgmtKept s (s.fmRun m) := by
  unfold State.fmRun
  dsimp only
  split
  · exact .of_eq (s.fmRefuse_mgmt m)
  · have h : MgmtKept s (((s.fmNote m).fmOperate m).1.fmReply m ((s.fmNote m).fmOperate m).2.1 ((s.fmNote m).fmOperate m).2.2) :=
      (MgmtKept.after_eq (s.fmNote_mgmt m) (State.fmOperate_kept ..)).then_eq (State.fmReply_mgmt ..)
    split
    · exact h.trans (State.resetScope_kept ..)
    · exact h

/-! The commands that write the management controller's state. -/

theorem execStackTempSample_kept (readings : List Nat) (now : Nat) (s t : State) (h : execStackTempSample readings now s = .next t) : MgmtKept s t := by
  have hk : ∀ u : State, MgmtKept s u → ∀ x, MgmtKept s (({ u with stack := x } : State).showLayers.showTemp) :=
    fun u hu x => hu.then_eq ((State.showTemp_mgmt ..).trans (State.showLayers_mgmt ..))
  unfold execStackTempSample at h
  dsimp only at h
  have hs := hk s (.of_eq rfl) { s.stack with
    readings := layerReadings readings
    valid := s.stack.valid && !(s.rst.active && (layerReadings readings).any (fun t => decide (95 < t))) }
  dsimp only at hs
  generalize State.showTemp _ = u at h hs
  split at h
  · exact Host.Outcome.next.inj h ▸ hs.then_eq (State.coolDown_mgmt u)
  · split at h
    · have hb := hs.trans (u.beginReset_kept [7] false true now)
      generalize u.beginReset [7] false true now = v at h hb
      exact Host.Outcome.next.inj h ▸ hk v hb _
    · exact Host.Outcome.next.inj h ▸ hs

/-- What a command leaves of the management controller, taken through the receipt of its packet. -/
theorem takePacket_kept (s : State) (l : Nat) (b : Bytes) (op : Nat) (f : Packet → State → State) (hf : ∀ p u, MgmtKept u (f p u)) :
    MgmtKept s (s.takePacket l b op f) := by
  unfold State.takePacket
  have hm := s.accept_mgmt l b
  split
  · rename_i u hu; rw [hu] at hm; exact .of_eq hm
  · rename_i u p hu
    rw [hu] at hm
    have hm : u.mgmt = s.mgmt := hm
    repeat' split
    · exact .of_eq hm
    · exact .of_eq ((State.count_mgmt ..).trans hm)
    · exact .after_eq hm (hf p u)

theorem State.fmRow_kept (s : State) (sub link : Nat) (b : Bytes) (now : Nat) (t : State) (h : s.fmRow sub link b now = .next t) : MgmtKept s t := by
  refine Host.Outcome.next.inj h ▸ takePacket_kept s link b 0x21 _ (fun p u => ?_)
  dsimp only
  repeat' split
  · exact .of_eq rfl
  · exact u.fmRun_kept _
  · exact .of_eq (State.fmRefuse_mgmt ..)

theorem execProbe_kept (link : Fin 24) (b : Bytes) (now : Nat) (s t : State) (h : execProbe link b now s = .next t) : MgmtKept s t := by
  have ha := s.accept_mgmt link b
  unfold execProbe at h
  generalize s.accept link b = r at h ha
  obtain ⟨u, p⟩ := r
  have hu : u.mgmt = s.mgmt := ha
  cases p with
  | none => exact Host.Outcome.next.inj h ▸ .of_eq hu
  | some p =>
    dsimp only at h
    split at h
    · exact Host.Outcome.next.inj h ▸ .of_eq hu
    split at h
    · exact Host.Outcome.next.inj h ▸ .of_eq hu
    split at h
    · exact Host.Outcome.next.inj h ▸ .of_eq ((u.sendProbe_mgmt _ p).trans hu)
    split at h
    · split at h
      · exact Host.Outcome.next.inj h ▸ .of_eq ((State.fmAnswered_mgmt u _ _).trans hu)
      · exact Host.Outcome.next.inj h ▸ .of_eq hu
    · split at h
      · exact Host.Outcome.next.inj h ▸ .after_eq hu (u.fmRun_kept _)
      · exact Host.Outcome.next.inj h ▸ .of_eq ((u.fmRefuse_mgmt _).trans hu)

theorem execResetNAssert_kept (now : Nat) (s t : State) (h : execResetNAssert now s = .next t) : MgmtKept s t := by
  unfold execResetNAssert at h
  split at h
  · exact Host.Outcome.next.inj h ▸ .of_eq rfl
  · exact Host.Outcome.next.inj h ▸ s.beginReset_kept ..

theorem execWatchdogExpiry_kept (now : Nat) (s t : State) (h : execWatchdogExpiry now s = .next t) : MgmtKept s t := by
  unfold execWatchdogExpiry at h
  split at h
  · exact Host.Outcome.next.inj h ▸ .of_eq rfl
  · exact Host.Outcome.next.inj h ▸ s.beginReset_kept ..

theorem execFatalEscalation_kept (now : Nat) (s t : State) (h : execFatalEscalation now s = .next t) : MgmtKept s t :=
  Host.Outcome.next.inj h ▸ s.beginReset_kept ..

theorem execPllLockTimeout_kept (now : Nat) (s t : State) (h : execPllLockTimeout now s = .next t) : MgmtKept s t :=
  Host.Outcome.next.inj h ▸ s.beginReset_kept ..

theorem execRailUndervolt_kept (now : Nat) (s t : State) (h : execRailUndervolt now s = .next t) : MgmtKept s t := by
  unfold execRailUndervolt at h
  split at h
  · exact Host.Outcome.next.inj h ▸ s.beginReset_kept ..
  · exact Host.Outcome.next.inj h ▸ .of_eq rfl

theorem execVinSample_kept (mv now : Nat) (s t : State) (h : execVinSample mv now s = .next t) : MgmtKept s t := by
  unfold execVinSample at h
  dsimp only at h
  have hs : ∀ v f, ((s.setRegN Reg.PWR_VIN v).modPwr f).mgmt = s.mgmt := fun v f => (State.modPwr_mgmt ..).trans (State.setRegN_mgmt ..)
  have hv := fun v f => hs v f
  split at h
  · exact Host.Outcome.next.inj h ▸ .of_eq (hv _ _)
  · split at h
    · exact Host.Outcome.next.inj h ▸ .after_eq (hv _ _) (State.beginReset_kept ..)
    · exact Host.Outcome.next.inj h ▸ .of_eq ((State.enterStage_mgmt ..).trans (hv _ _))

theorem execDieTempSample_kept (readings : List Nat) (now : Nat) (s t : State) (h : execDieTempSample readings now s = .next t) : MgmtKept s t := by
  unfold execDieTempSample at h
  dsimp only at h
  have hs : ∀ u : State, ∀ f, ((u.modPwr f).showTemp).mgmt = u.mgmt := fun u f => (State.showTemp_mgmt ..).trans (State.modPwr_mgmt ..)
  have hu := hs s (fun p => { p with tj := (hottestOf (readings.take 72)).1, tjSensor := (hottestOf (readings.take 72)).2 })
  generalize (State.modPwr s _).showTemp = u at h hu
  split at h
  · exact Host.Outcome.next.inj h ▸ .of_eq ((State.coolDown_mgmt u).trans hu)
  split at h
  · exact Host.Outcome.next.inj h ▸ (MgmtKept.after_eq hu (u.beginReset_kept [7] false true now)).then_eq (hs _ _)
  split at h
  · exact Host.Outcome.next.inj h ▸ .of_eq ((State.chooseVolts_mgmt _).trans ((State.setClocks_mgmt ..).trans ((State.modPwr_mgmt ..).trans ((State.eventIf_mgmt ..).trans hu))))
  · exact Host.Outcome.next.inj h ▸ .of_eq ((State.modPwr_mgmt ..).trans hu)

theorem execRegisterWrite_kept (fn : Fin 17) (off size v now : Nat) (s t : State) (h : execRegisterWrite fn off size v now s = .next t) : MgmtKept s t :=
  Host.Outcome.next.inj h ▸ s.barWrite_kept ..

/-- What `answers` can do: nothing during a restart of the controller, else what `f` does. -/
theorem State.answers_next (s : State) (f : State → State) (t : State) (h : s.answers f = .next t) : t = s ∨ t = f s := by
  unfold State.answers at h
  split at h
  · exact .inl (Host.Outcome.next.inj h).symm
  · exact .inr (Host.Outcome.next.inj h).symm

/-- What `secured` can do: nothing, AUTH_FAIL outside a session, or what `f` does in one. -/
theorem State.secured_next (s : State) (sess : Option Nat) (code : Nat) (f : State → State) (t : State) (h : s.secured sess code f = .next t) :
    t = s ∨ (s.inSession sess = true ∧ t = f s) ∨ (s.inSession sess = false ∧ t = s.mgmtReply code 6 []) := by
  rcases s.answers_next _ t h with rfl | rfl
  · exact .inl rfl
  · by_cases c : s.inSession sess = true
    · rw [if_pos c]; exact .inr (.inl ⟨c, rfl⟩)
    · rw [if_neg c]; exact .inr (.inr ⟨by simpa using c, rfl⟩)

theorem execMgmtRegWrite_kept (sess : Option Nat) (off : Nat) (v : W32) (now : Nat) (s t : State) (h : execMgmtRegWrite sess off v now s = .next t) : MgmtKept s t := by
  rcases s.secured_next sess 3 _ t h with rfl | ⟨_, rfl⟩ | ⟨_, rfl⟩
  · exact .of_eq rfl
  · exact (s.remoteWrite_kept ..).then_eq (State.mgmtReply_mgmt ..)
  · exact .of_eq (State.mgmtReply_mgmt ..)

theorem execLadder_kept (sess : Option Nat) (rung : Nat) (s t : State) (h : execLadder sess rung s = .next t) : MgmtKept s t := by
  rcases s.secured_next sess 4 _ t h with rfl | ⟨_, rfl⟩ | ⟨_, rfl⟩
  · exact .of_eq rfl
  · exact (MgmtKept.after_eq (State.eventIf_mgmt ..) (State.setTarget_kept ..)).then_eq (State.mgmtReply_mgmt ..)
  · exact .of_eq (State.mgmtReply_mgmt ..)

theorem execMgmtReset_kept (sess : Option Nat) (scope now : Nat) (s t : State) (h : execMgmtReset sess scope now s = .next t) : MgmtKept s t := by
  rcases s.secured_next sess 5 _ t h with rfl | ⟨_, rfl⟩ | ⟨_, rfl⟩
  · exact .of_eq rfl
  · dsimp only
    split
    · exact .after_eq (State.mgmtReply_mgmt ..) (State.resetScope_kept ..)
    · exact .of_eq (State.mgmtReply_mgmt ..)
  · exact .of_eq (State.mgmtReply_mgmt ..)

end Sys2Proof.Machine
end

