-- ==== Sys2Proof/Laws/Stores.lean ====
section
/-! SUPPORT. What a record keeps of the memories: one lemma for each operation that a record goes through beside its own writes, which says that the operation leaves
every store as it is. -/

set_option linter.all false
namespace Sys2Proof.Machine
theorem stores_fabric (s : State) (x : Fabric) : ({ s with fabric := x } : State).stores = s.stores := by rfl
theorem stores_chk (s : State) (x : Checker) : ({ s with chk := x } : State).stores = s.stores := by rfl
theorem stores_stack (s : State) (x : Stack) : ({ s with stack := x } : State).stores = s.stores := by rfl
theorem stores_tick (s : State) (x : Tick) : ({ s with tick := x } : State).stores = s.stores := by rfl
theorem stores_media (s : State) (x : Media) : ({ s with media := x } : State).stores = s.stores := by rfl
theorem stores_regs (s : State) (x : Tbl W32) : ({ s with regs := x } : State).stores = s.stores := by rfl
theorem stores_ctxs (s : State) (x : Tbl Ctx) : ({ s with ctxs := x } : State).stores = s.stores := by rfl
theorem stores_units (s : State) (x : Tbl UnitSt) : ({ s with units := x } : State).stores = s.stores := by rfl
theorem stores_poison (s : State) (x : List Poison) : ({ s with poison := x } : State).stores = s.stores := by rfl
theorem stores_links (s : State) (x : Tbl Link) : ({ s with links := x } : State).stores = s.stores := by rfl
theorem stores_lp (s : State) (x : Lpddr) : ({ s with lp := x } : State).stores = s.stores := by rfl
theorem stores_flash (s : State) (x : Flash) : ({ s with flash := x } : State).stores = s.stores := by rfl
theorem stores_fresh (s : State) (x : Nat) : ({ s with fresh := x } : State).stores = s.stores := by rfl
theorem stores_rings (s : State) (x : Tbl Ring) : ({ s with rings := x } : State).stores = s.stores := by rfl
theorem stores_bolts (s : State) (x : Tbl Bolt) : ({ s with bolts := x } : State).stores = s.stores := by rfl
theorem stores_out (s : State) (x : List Out) : ({ s with out := x } : State).stores = s.stores := by rfl
theorem over_stores {α : Type} (s : State) (l : List α) (f : State → α → State) (h : ∀ s x, (f s x).stores = s.stores) : (s.over l f).stores = s.stores := by
  unfold State.over
  induction l generalizing s with
  | nil => rfl
  | cons a l ih => simp only [List.foldl_cons, ih, h]
theorem foldl_stores {α : Type} (l : List α) (f : State → α → State) (h : ∀ s x, (f s x).stores = s.stores) (s : State) : (l.foldl f s).stores = s.stores := over_stores s l f h
theorem ite_stores {c : Prop} [Decidable c] {a b : State} {m : Stores} (ha : a.stores = m) (hb : b.stores = m) : (if c then a else b).stores = m := by split <;> assumption
theorem pair_stores {α : Type} {p : State × α} {u : State} {x : α} {s : State} (h : p.1.stores = s.stores) (e : p = (u, x)) : u.stores = s.stores := by subst e; exact h
theorem State.releaseRecord_stores (s : State) (fn : Nat) (opcode : Nat) (id : W64) : (State.releaseRecord s fn opcode id).stores = s.stores := by
  unfold State.releaseRecord; simp only [↓stores_fabric, ↓stores_chk, ↓stores_stack, ↓stores_tick, ↓stores_media, ↓stores_regs, ↓stores_ctxs, ↓stores_units, ↓stores_poison, ↓stores_links, ↓stores_lp, ↓stores_flash, ↓stores_fresh, ↓stores_rings, ↓stores_bolts, ↓stores_out, ↓State.modRing_stores, ↓apply_ite State.stores, ite_self]
theorem State.loseEvent_stores (s : State) (fn : Nat) : (State.loseEvent s fn).stores = s.stores := by
  unfold State.loseEvent; simp only [↓stores_fabric, ↓stores_chk, ↓stores_stack, ↓stores_tick, ↓stores_media, ↓stores_regs, ↓stores_ctxs, ↓stores_units, ↓stores_poison, ↓stores_links, ↓stores_lp, ↓stores_flash, ↓stores_fresh, ↓stores_rings, ↓stores_bolts, ↓stores_out, ↓State.count_stores, ↓State.event_stores, ↓apply_ite State.stores, ite_self]
theorem State.holdEntry_stores (s : State) (fn : Nat) (e : RingEntry) : (State.holdEntry s fn e).stores = s.stores := by
  unfold State.holdEntry; (try dsimp only); (repeat' split) <;> first | with_reducible rfl | (simp only [↓stores_fabric, ↓stores_chk, ↓stores_stack, ↓stores_tick, ↓stores_media, ↓stores_regs, ↓stores_ctxs, ↓stores_units, ↓stores_poison, ↓stores_links, ↓stores_lp, ↓stores_flash, ↓stores_fresh, ↓stores_rings, ↓stores_bolts, ↓stores_out, ↓State.loseEvent_stores, ↓State.modRing_stores, ↓apply_ite State.stores, ite_self]; done) | (simp [↓stores_fabric, ↓stores_chk, ↓stores_stack, ↓stores_tick, ↓stores_media, ↓stores_regs, ↓stores_ctxs, ↓stores_units, ↓stores_poison, ↓stores_links, ↓stores_lp, ↓stores_flash, ↓stores_fresh, ↓stores_rings, ↓stores_bolts, ↓stores_out, ↓State.loseEvent_stores, ↓State.modRing_stores, ↓apply_ite State.stores, ite_self]; done)
theorem State.countHost_stores (s : State) (fn : Nat) (n : Nat) : (State.countHost s fn n).stores = s.stores := by
  unfold State.countHost; (try dsimp only); (repeat' split) <;> first | with_reducible rfl | (simp only [↓stores_fabric, ↓stores_chk, ↓stores_stack, ↓stores_tick, ↓stores_media, ↓stores_regs, ↓stores_ctxs, ↓stores_units, ↓stores_poison, ↓stores_links, ↓stores_lp, ↓stores_flash, ↓stores_fresh, ↓stores_rings, ↓stores_bolts, ↓stores_out, ↓State.account_stores, ↓apply_ite State.stores, ite_self]; done) | (simp [↓stores_fabric, ↓stores_chk, ↓stores_stack, ↓stores_tick, ↓stores_media, ↓stores_regs, ↓stores_ctxs, ↓stores_units, ↓stores_poison, ↓stores_links, ↓stores_lp, ↓stores_flash, ↓stores_fresh, ↓stores_rings, ↓stores_bolts, ↓stores_out, ↓State.account_stores, ↓apply_ite State.stores, ite_self]; done)
theorem State.signal_stores (s : State) (fn : Nat) (v : Nat) : (State.signal s fn v).stores = s.stores := by
  unfold State.signal; simp only [↓stores_fabric, ↓stores_chk, ↓stores_stack, ↓stores_tick, ↓stores_media, ↓stores_regs, ↓stores_ctxs, ↓stores_units, ↓stores_poison, ↓stores_links, ↓stores_lp, ↓stores_flash, ↓stores_fresh, ↓stores_rings, ↓stores_bolts, ↓stores_out, ↓State.emit_stores, ↓State.event_stores, ↓apply_ite State.stores, ite_self]
theorem State.irqEntry_stores (s : State) (fn : Nat) (v : Nat) : (State.irqEntry s fn v).stores = s.stores := by
  unfold State.irqEntry; simp only [↓stores_fabric, ↓stores_chk, ↓stores_stack, ↓stores_tick, ↓stores_media, ↓stores_regs, ↓stores_ctxs, ↓stores_units, ↓stores_poison, ↓stores_links, ↓stores_lp, ↓stores_flash, ↓stores_fresh, ↓stores_rings, ↓stores_bolts, ↓stores_out, ↓State.modRing_stores, ↓State.signal_stores, ↓apply_ite State.stores, ite_self]
theorem State.writeEntry_stores (s : State) (fn : Nat) (e : RingEntry) : (State.writeEntry s fn e).stores = s.stores := by
  unfold State.writeEntry; simp only [↓stores_fabric, ↓stores_chk, ↓stores_stack, ↓stores_tick, ↓stores_media, ↓stores_regs, ↓stores_ctxs, ↓stores_units, ↓stores_poison, ↓stores_links, ↓stores_lp, ↓stores_flash, ↓stores_fresh, ↓stores_rings, ↓stores_bolts, ↓stores_out, ↓State.countHost_stores, ↓State.emit_stores, ↓State.irqEntry_stores, ↓State.modRing_stores, ↓apply_ite State.stores, ite_self]
theorem State.ringPush_stores (s : State) (fn : Nat) (imm : Bool) (e : RingEntry) : (State.ringPush s fn imm e).stores = s.stores := by
  unfold State.ringPush; simp only [↓stores_fabric, ↓stores_chk, ↓stores_stack, ↓stores_tick, ↓stores_media, ↓stores_regs, ↓stores_ctxs, ↓stores_units, ↓stores_poison, ↓stores_links, ↓stores_lp, ↓stores_flash, ↓stores_fresh, ↓stores_rings, ↓stores_bolts, ↓stores_out, ↓State.holdEntry_stores, ↓State.loseEvent_stores, ↓State.modRing_stores, ↓State.writeEntry_stores, ↓apply_ite State.stores, ite_self]
theorem State.finish_stores (s : State) (fn : Nat) (opcode : Nat) (id : W64) (quiet : Bool) (status : Nat) (result : Nat) (deferred : Bool) : (State.finish s fn opcode id quiet status result deferred).stores = s.stores := by
  unfold State.finish; simp only [↓stores_fabric, ↓stores_chk, ↓stores_stack, ↓stores_tick, ↓stores_media, ↓stores_regs, ↓stores_ctxs, ↓stores_units, ↓stores_poison, ↓stores_links, ↓stores_lp, ↓stores_flash, ↓stores_fresh, ↓stores_rings, ↓stores_bolts, ↓stores_out, ↓State.modRing_stores, ↓State.releaseRecord_stores, ↓State.ringPush_stores, ↓apply_ite State.stores, ite_self]
theorem State.complete_stores (s : State) (fn : Nat) (opcode : Nat) (cmd : HostCmd) (status : Nat) : (State.complete s fn opcode cmd status).stores = s.stores := by
  unfold State.complete; simp only [↓stores_fabric, ↓stores_chk, ↓stores_stack, ↓stores_tick, ↓stores_media, ↓stores_regs, ↓stores_ctxs, ↓stores_units, ↓stores_poison, ↓stores_links, ↓stores_lp, ↓stores_flash, ↓stores_fresh, ↓stores_rings, ↓stores_bolts, ↓stores_out, ↓State.finish_stores, ↓apply_ite State.stores, ite_self]
theorem State.dropPic_stores (s : State) (p : LivePic) : (State.dropPic s p).stores = s.stores := by
  unfold State.dropPic; simp only [↓stores_fabric, ↓stores_chk, ↓stores_stack, ↓stores_tick, ↓stores_media, ↓stores_regs, ↓stores_ctxs, ↓stores_units, ↓stores_poison, ↓stores_links, ↓stores_lp, ↓stores_flash, ↓stores_fresh, ↓stores_rings, ↓stores_bolts, ↓stores_out, ↓State.complete_stores, ↓State.count_stores, ↓apply_ite State.stores, ite_self]
theorem State.modLive_stores (s : State) (st : Nat) (f : LiveStream → LiveStream) : (State.modLive s st f).stores = s.stores := by
  unfold State.modLive; simp only [↓stores_fabric, ↓stores_chk, ↓stores_stack, ↓stores_tick, ↓stores_media, ↓stores_regs, ↓stores_ctxs, ↓stores_units, ↓stores_poison, ↓stores_links, ↓stores_lp, ↓stores_flash, ↓stores_fresh, ↓stores_rings, ↓stores_bolts, ↓stores_out, ↓State.modMedia_stores, ↓apply_ite State.stores, ite_self]
theorem State.skipToRap_stores (s : State) (st : Nat) : (State.skipToRap s st).stores = s.stores := by
  unfold State.skipToRap; (try dsimp only); (repeat' split) <;> first | with_reducible rfl | (simp only [↓stores_fabric, ↓stores_chk, ↓stores_stack, ↓stores_tick, ↓stores_media, ↓stores_regs, ↓stores_ctxs, ↓stores_units, ↓stores_poison, ↓stores_links, ↓stores_lp, ↓stores_flash, ↓stores_fresh, ↓stores_rings, ↓stores_bolts, ↓stores_out, ↓State.dropPic_stores, ↓State.modLive_stores, ↓over_stores, ↓foldl_stores, ↓apply_ite State.stores, ite_self]; done) | (simp [↓stores_fabric, ↓stores_chk, ↓stores_stack, ↓stores_tick, ↓stores_media, ↓stores_regs, ↓stores_ctxs, ↓stores_units, ↓stores_poison, ↓stores_links, ↓stores_lp, ↓stores_flash, ↓stores_fresh, ↓stores_rings, ↓stores_bolts, ↓stores_out, ↓State.dropPic_stores, ↓State.modLive_stores, ↓over_stores, ↓foldl_stores, ↓apply_ite State.stores, ite_self]; done)
theorem State.abandonPic_stores (s : State) (e : Nat) : (State.abandonPic s e).stores = s.stores := by
  unfold State.abandonPic; (try dsimp only); (repeat' split) <;> first | with_reducible rfl | (simp only [↓stores_fabric, ↓stores_chk, ↓stores_stack, ↓stores_tick, ↓stores_media, ↓stores_regs, ↓stores_ctxs, ↓stores_units, ↓stores_poison, ↓stores_links, ↓stores_lp, ↓stores_flash, ↓stores_fresh, ↓stores_rings, ↓stores_bolts, ↓stores_out, ↓State.dropPic_stores, ↓State.event_stores, ↓State.modEngine_stores, ↓State.skipToRap_stores, ↓apply_ite State.stores, ite_self]; done) | (simp [↓stores_fabric, ↓stores_chk, ↓stores_stack, ↓stores_tick, ↓stores_media, ↓stores_regs, ↓stores_ctxs, ↓stores_units, ↓stores_poison, ↓stores_links, ↓stores_lp, ↓stores_flash, ↓stores_fresh, ↓stores_rings, ↓stores_bolts, ↓stores_out, ↓State.dropPic_stores, ↓State.event_stores, ↓State.modEngine_stores, ↓State.skipToRap_stores, ↓apply_ite State.stores, ite_self]; done)
theorem State.admitStream_stores (s : State) (st : Nat) (other : Nat) : (State.admitStream s st other).1.stores = s.stores := by
  unfold State.admitStream; (try dsimp only); (repeat' split) <;> first | with_reducible rfl | (simp only [↓stores_fabric, ↓stores_chk, ↓stores_stack, ↓stores_tick, ↓stores_media, ↓stores_regs, ↓stores_ctxs, ↓stores_units, ↓stores_poison, ↓stores_links, ↓stores_lp, ↓stores_flash, ↓stores_fresh, ↓stores_rings, ↓stores_bolts, ↓stores_out, ↓State.modEngine_stores, ↓State.modLive_stores, ↓apply_ite State.stores, ite_self]; done) | (simp [↓stores_fabric, ↓stores_chk, ↓stores_stack, ↓stores_tick, ↓stores_media, ↓stores_regs, ↓stores_ctxs, ↓stores_units, ↓stores_poison, ↓stores_links, ↓stores_lp, ↓stores_flash, ↓stores_fresh, ↓stores_rings, ↓stores_bolts, ↓stores_out, ↓State.modEngine_stores, ↓State.modLive_stores, ↓apply_ite State.stores, ite_self]; done)
theorem State.putRecord_stores (s : State) (r : HistRec) : (State.putRecord s r).stores = s.stores := by
  unfold State.putRecord; (try dsimp only); (repeat' split) <;> first | with_reducible rfl | (simp only [↓stores_fabric, ↓stores_chk, ↓stores_stack, ↓stores_tick, ↓stores_media, ↓stores_regs, ↓stores_ctxs, ↓stores_units, ↓stores_poison, ↓stores_links, ↓stores_lp, ↓stores_flash, ↓stores_fresh, ↓stores_rings, ↓stores_bolts, ↓stores_out, ↓State.count_stores, ↓State.event_stores, ↓apply_ite State.stores, ite_self]; done) | (simp [↓stores_fabric, ↓stores_chk, ↓stores_stack, ↓stores_tick, ↓stores_media, ↓stores_regs, ↓stores_ctxs, ↓stores_units, ↓stores_poison, ↓stores_links, ↓stores_lp, ↓stores_flash, ↓stores_fresh, ↓stores_rings, ↓stores_bolts, ↓stores_out, ↓State.count_stores, ↓State.event_stores, ↓apply_ite State.stores, ite_self]; done)
theorem State.platformEvent_stores (s : State) (n : Nat) (data : Nat) : (State.platformEvent s n data).stores = s.stores := by
  unfold State.platformEvent; (try dsimp only); (repeat' split) <;> first | with_reducible rfl | (simp only [↓stores_fabric, ↓stores_chk, ↓stores_stack, ↓stores_tick, ↓stores_media, ↓stores_regs, ↓stores_ctxs, ↓stores_units, ↓stores_poison, ↓stores_links, ↓stores_lp, ↓stores_flash, ↓stores_fresh, ↓stores_rings, ↓stores_bolts, ↓stores_out, ↓State.emit_stores, ↓apply_ite State.stores, ite_self]; done) | (simp [↓stores_fabric, ↓stores_chk, ↓stores_stack, ↓stores_tick, ↓stores_media, ↓stores_regs, ↓stores_ctxs, ↓stores_units, ↓stores_poison, ↓stores_links, ↓stores_lp, ↓stores_flash, ↓stores_fresh, ↓stores_rings, ↓stores_bolts, ↓stores_out, ↓State.emit_stores, ↓apply_ite State.stores, ite_self]; done)
theorem State.degradeWard_stores (s : State) (w : Nat) (kind : Nat) (unit : Nat) : (State.degradeWard s w kind unit).stores = s.stores := by
  unfold State.degradeWard; simp only [↓stores_fabric, ↓stores_chk, ↓stores_stack, ↓stores_tick, ↓stores_media, ↓stores_regs, ↓stores_ctxs, ↓stores_units, ↓stores_poison, ↓stores_links, ↓stores_lp, ↓stores_flash, ↓stores_fresh, ↓stores_rings, ↓stores_bolts, ↓stores_out, ↓State.event_stores, ↓State.platformEvent_stores, ↓State.putRecord_stores, ↓apply_ite State.stores, ite_self]
theorem State.dropWaiting_stores (s : State) (st : Nat) : (State.dropWaiting s st).stores = s.stores := by
  unfold State.dropWaiting; (try dsimp only); (repeat' split) <;> first | with_reducible rfl | (simp only [↓stores_fabric, ↓stores_chk, ↓stores_stack, ↓stores_tick, ↓stores_media, ↓stores_regs, ↓stores_ctxs, ↓stores_units, ↓stores_poison, ↓stores_links, ↓stores_lp, ↓stores_flash, ↓stores_fresh, ↓stores_rings, ↓stores_bolts, ↓stores_out, ↓State.dropPic_stores, ↓State.modLive_stores, ↓over_stores, ↓foldl_stores, ↓apply_ite State.stores, ite_self]; done) | (simp [↓stores_fabric, ↓stores_chk, ↓stores_stack, ↓stores_tick, ↓stores_media, ↓stores_regs, ↓stores_ctxs, ↓stores_units, ↓stores_poison, ↓stores_links, ↓stores_lp, ↓stores_flash, ↓stores_fresh, ↓stores_rings, ↓stores_bolts, ↓stores_out, ↓State.dropPic_stores, ↓State.modLive_stores, ↓over_stores, ↓foldl_stores, ↓apply_ite State.stores, ite_self]; done)
theorem State.releaseStream_stores (s : State) (st : Nat) : (State.releaseStream s st).stores = s.stores := by
  unfold State.releaseStream; simp only [↓stores_fabric, ↓stores_chk, ↓stores_stack, ↓stores_tick, ↓stores_media, ↓stores_regs, ↓stores_ctxs, ↓stores_units, ↓stores_poison, ↓stores_links, ↓stores_lp, ↓stores_flash, ↓stores_fresh, ↓stores_rings, ↓stores_bolts, ↓stores_out, ↓State.modEngine_stores, ↓apply_ite State.stores, ite_self]
theorem State.readmit_stores (s : State) (st : Nat) : (State.readmit s st).stores = s.stores := by
  unfold State.readmit
  have hm := State.admitStream_stores (s.releaseStream st) st 3
  rw [State.releaseStream_stores] at hm
  split
  · rename_i u hu; rw [hu] at hm; exact hm
  · rename_i u hu; rw [hu] at hm
    simp only [↓State.dropWaiting_stores, ↓State.event_stores]; exact hm
theorem State.engineOut_stores (s : State) (e : Nat) : (State.engineOut s e).stores = s.stores := by
  unfold State.engineOut; (try dsimp only); (repeat' split) <;> first | with_reducible rfl | (simp only [↓stores_fabric, ↓stores_chk, ↓stores_stack, ↓stores_tick, ↓stores_media, ↓stores_regs, ↓stores_ctxs, ↓stores_units, ↓stores_poison, ↓stores_links, ↓stores_lp, ↓stores_flash, ↓stores_fresh, ↓stores_rings, ↓stores_bolts, ↓stores_out, ↓State.abandonPic_stores, ↓State.event_stores, ↓State.modEngine_stores, ↓State.readmit_stores, ↓over_stores, ↓foldl_stores, ↓apply_ite State.stores, ite_self]; done) | (simp [↓stores_fabric, ↓stores_chk, ↓stores_stack, ↓stores_tick, ↓stores_media, ↓stores_regs, ↓stores_ctxs, ↓stores_units, ↓stores_poison, ↓stores_links, ↓stores_lp, ↓stores_flash, ↓stores_fresh, ↓stores_rings, ↓stores_bolts, ↓stores_out, ↓State.abandonPic_stores, ↓State.event_stores, ↓State.modEngine_stores, ↓State.readmit_stores, ↓over_stores, ↓foldl_stores, ↓apply_ite State.stores, ite_self]; done)
theorem State.classAction_stores (s : State) (kind : Nat) (unit : Nat) (cls : Nat) : (State.classAction s kind unit cls).stores = s.stores := by
  unfold State.classAction; simp only [↓stores_fabric, ↓stores_chk, ↓stores_stack, ↓stores_tick, ↓stores_media, ↓stores_regs, ↓stores_ctxs, ↓stores_units, ↓stores_poison, ↓stores_links, ↓stores_lp, ↓stores_flash, ↓stores_fresh, ↓stores_rings, ↓stores_bolts, ↓stores_out, ↓State.degradeWard_stores, ↓State.engineOut_stores, ↓apply_ite State.stores, ite_self]
theorem State.reclass_stores (s : State) (kind : Nat) (unit : Nat) : (State.reclass s kind unit).stores = s.stores := by
  unfold State.reclass; simp only [↓stores_fabric, ↓stores_chk, ↓stores_stack, ↓stores_tick, ↓stores_media, ↓stores_regs, ↓stores_ctxs, ↓stores_units, ↓stores_poison, ↓stores_links, ↓stores_lp, ↓stores_flash, ↓stores_fresh, ↓stores_rings, ↓stores_bolts, ↓stores_out, ↓State.classAction_stores, ↓apply_ite State.stores, ite_self]
theorem State.unitEvent_stores (s : State) (kind : Nat) (unit : Nat) (code : Nat) (reproduced : Bool) (tag : Option (Nat × Nat)) : (State.unitEvent s kind unit code reproduced tag).stores = s.stores := by
  unfold State.unitEvent; simp only [↓stores_fabric, ↓stores_chk, ↓stores_stack, ↓stores_tick, ↓stores_media, ↓stores_regs, ↓stores_ctxs, ↓stores_units, ↓stores_poison, ↓stores_links, ↓stores_lp, ↓stores_flash, ↓stores_fresh, ↓stores_rings, ↓stores_bolts, ↓stores_out, ↓State.putRecord_stores, ↓State.reclass_stores, ↓apply_ite State.stores, ite_self]
theorem State.laneCount_stores (s : State) (vault : Nat) (sym : Nat) (row : Nat) : (State.laneCount s vault sym row).stores = s.stores := by
  unfold State.laneCount; simp only [↓stores_fabric, ↓stores_chk, ↓stores_stack, ↓stores_tick, ↓stores_media, ↓stores_regs, ↓stores_ctxs, ↓stores_units, ↓stores_poison, ↓stores_links, ↓stores_lp, ↓stores_flash, ↓stores_fresh, ↓stores_rings, ↓stores_bolts, ↓stores_out, ↓State.event_stores, ↓State.unitEvent_stores, ↓apply_ite State.stores, ite_self]
theorem State.beatLanes_stores (s : State) (e : MemErr) : (State.beatLanes s e).stores = s.stores := by
  unfold State.beatLanes; (try dsimp only); (repeat' split) <;> first | with_reducible rfl | (simp only [↓stores_fabric, ↓stores_chk, ↓stores_stack, ↓stores_tick, ↓stores_media, ↓stores_regs, ↓stores_ctxs, ↓stores_units, ↓stores_poison, ↓stores_links, ↓stores_lp, ↓stores_flash, ↓stores_fresh, ↓stores_rings, ↓stores_bolts, ↓stores_out, ↓State.laneCount_stores, ↓over_stores, ↓foldl_stores, ↓apply_ite State.stores, ite_self]; done) | (simp [↓stores_fabric, ↓stores_chk, ↓stores_stack, ↓stores_tick, ↓stores_media, ↓stores_regs, ↓stores_ctxs, ↓stores_units, ↓stores_poison, ↓stores_links, ↓stores_lp, ↓stores_flash, ↓stores_fresh, ↓stores_rings, ↓stores_bolts, ↓stores_out, ↓State.laneCount_stores, ↓over_stores, ↓foldl_stores, ↓apply_ite State.stores, ite_self]; done)
theorem State.begin_stores (s : State) (l : Nat) (p : Packet) : (State.begin s l p).stores = s.stores := by
  unfold State.begin; simp only [↓stores_fabric, ↓stores_chk, ↓stores_stack, ↓stores_tick, ↓stores_media, ↓stores_regs, ↓stores_ctxs, ↓stores_units, ↓stores_poison, ↓stores_links, ↓stores_lp, ↓stores_flash, ↓stores_fresh, ↓stores_rings, ↓stores_bolts, ↓stores_out, ↓State.account_stores, ↓State.emit_stores, ↓State.modLink_stores, ↓apply_ite State.stores, ite_self]
theorem State.correction_stores (s : State) (kind : Nat) (unit : Nat) : (State.correction s kind unit).stores = s.stores := by rfl
theorem State.setErrLoc_stores (s : State) (a : Nat) (ue : Bool) : (State.setErrLoc s a ue).stores = s.stores := by
  unfold State.setErrLoc; simp only [↓stores_fabric, ↓stores_chk, ↓stores_stack, ↓stores_tick, ↓stores_media, ↓stores_regs, ↓stores_ctxs, ↓stores_units, ↓stores_poison, ↓stores_links, ↓stores_lp, ↓stores_flash, ↓stores_fresh, ↓stores_rings, ↓stores_bolts, ↓stores_out, ↓State.setRegN_stores, ↓apply_ite State.stores, ite_self]
theorem State.dramCe_stores (s : State) (e : MemErr) : (State.dramCe s e).stores = s.stores := by
  unfold State.dramCe; simp only [↓stores_fabric, ↓stores_chk, ↓stores_stack, ↓stores_tick, ↓stores_media, ↓stores_regs, ↓stores_ctxs, ↓stores_units, ↓stores_poison, ↓stores_links, ↓stores_lp, ↓stores_flash, ↓stores_fresh, ↓stores_rings, ↓stores_bolts, ↓stores_out, ↓State.correction_stores, ↓State.count_stores, ↓State.event_stores, ↓State.setErrLoc_stores, ↓apply_ite State.stores, ite_self]
theorem State.remapRecord_stores (s : State) (row : Nat) (spare : Nat) (code : Nat) : (State.remapRecord s row spare code).stores = s.stores := by
  unfold State.remapRecord; simp only [↓stores_fabric, ↓stores_chk, ↓stores_stack, ↓stores_tick, ↓stores_media, ↓stores_regs, ↓stores_ctxs, ↓stores_units, ↓stores_poison, ↓stores_links, ↓stores_lp, ↓stores_flash, ↓stores_fresh, ↓stores_rings, ↓stores_bolts, ↓stores_out, ↓State.putRecord_stores, ↓apply_ite State.stores, ite_self]
theorem State.pendRow_stores (s : State) (row : Nat) : (State.pendRow s row).stores = s.stores := by
  unfold State.pendRow; simp only [↓stores_fabric, ↓stores_chk, ↓stores_stack, ↓stores_tick, ↓stores_media, ↓stores_regs, ↓stores_ctxs, ↓stores_units, ↓stores_poison, ↓stores_links, ↓stores_lp, ↓stores_flash, ↓stores_fresh, ↓stores_rings, ↓stores_bolts, ↓stores_out, ↓State.remapRecord_stores, ↓apply_ite State.stores, ite_self]
theorem State.dramUe_stores (s : State) (a : Nat) : (State.dramUe s a).stores = s.stores := by
  unfold State.dramUe; simp only [↓stores_fabric, ↓stores_chk, ↓stores_stack, ↓stores_tick, ↓stores_media, ↓stores_regs, ↓stores_ctxs, ↓stores_units, ↓stores_poison, ↓stores_links, ↓stores_lp, ↓stores_flash, ↓stores_fresh, ↓stores_rings, ↓stores_bolts, ↓stores_out, ↓State.count_stores, ↓State.event_stores, ↓State.pendRow_stores, ↓State.setErrLoc_stores, ↓State.unitEvent_stores, ↓apply_ite State.stores, ite_self]
theorem State.noteBeat_stores (s : State) (e : MemErr) (b : Beat) : (State.noteBeat s e b).stores = s.stores := by
  unfold State.noteBeat; (try dsimp only); (repeat' split) <;> first | with_reducible rfl | (simp only [↓stores_fabric, ↓stores_chk, ↓stores_stack, ↓stores_tick, ↓stores_media, ↓stores_regs, ↓stores_ctxs, ↓stores_units, ↓stores_poison, ↓stores_links, ↓stores_lp, ↓stores_flash, ↓stores_fresh, ↓stores_rings, ↓stores_bolts, ↓stores_out, ↓State.beatLanes_stores, ↓State.correction_stores, ↓State.dramCe_stores, ↓State.dramUe_stores, ↓over_stores, ↓foldl_stores, ↓apply_ite State.stores, ite_self]; done) | (simp [↓stores_fabric, ↓stores_chk, ↓stores_stack, ↓stores_tick, ↓stores_media, ↓stores_regs, ↓stores_ctxs, ↓stores_units, ↓stores_poison, ↓stores_links, ↓stores_lp, ↓stores_flash, ↓stores_fresh, ↓stores_rings, ↓stores_bolts, ↓stores_out, ↓State.beatLanes_stores, ↓State.correction_stores, ↓State.dramCe_stores, ↓State.dramUe_stores, ↓over_stores, ↓foldl_stores, ↓apply_ite State.stores, ite_self]; done)
theorem State.dramErrs_stores (s : State) (es : List MemErr) : (State.dramErrs s es).stores = s.stores := by
  unfold State.dramErrs; (try dsimp only); (repeat' split) <;> first | with_reducible rfl | (simp only [↓stores_fabric, ↓stores_chk, ↓stores_stack, ↓stores_tick, ↓stores_media, ↓stores_regs, ↓stores_ctxs, ↓stores_units, ↓stores_poison, ↓stores_links, ↓stores_lp, ↓stores_flash, ↓stores_fresh, ↓stores_rings, ↓stores_bolts, ↓stores_out, ↓State.draw_stores, ↓State.noteBeat_stores, ↓over_stores, ↓foldl_stores, ↓apply_ite State.stores, ite_self]; done) | (simp [↓stores_fabric, ↓stores_chk, ↓stores_stack, ↓stores_tick, ↓stores_media, ↓stores_regs, ↓stores_ctxs, ↓stores_units, ↓stores_poison, ↓stores_links, ↓stores_lp, ↓stores_flash, ↓stores_fresh, ↓stores_rings, ↓stores_bolts, ↓stores_out, ↓State.draw_stores, ↓State.noteBeat_stores, ↓over_stores, ↓foldl_stores, ↓apply_ite State.stores, ite_self]; done)
theorem State.lpUe_stores (s : State) (channel : Nat) : (State.lpUe s channel).stores = s.stores := by
  unfold State.lpUe; simp only [↓stores_fabric, ↓stores_chk, ↓stores_stack, ↓stores_tick, ↓stores_media, ↓stores_regs, ↓stores_ctxs, ↓stores_units, ↓stores_poison, ↓stores_links, ↓stores_lp, ↓stores_flash, ↓stores_fresh, ↓stores_rings, ↓stores_bolts, ↓stores_out, ↓State.count_stores, ↓State.event_stores, ↓State.unitEvent_stores, ↓apply_ite State.stores, ite_self]
theorem State.lpErrs_stores (s : State) (es : List LpErr) : (State.lpErrs s es).stores = s.stores := by
  unfold State.lpErrs; (try dsimp only); (repeat' split) <;> first | with_reducible rfl | (simp only [↓stores_fabric, ↓stores_chk, ↓stores_stack, ↓stores_tick, ↓stores_media, ↓stores_regs, ↓stores_ctxs, ↓stores_units, ↓stores_poison, ↓stores_links, ↓stores_lp, ↓stores_flash, ↓stores_fresh, ↓stores_rings, ↓stores_bolts, ↓stores_out, ↓State.correction_stores, ↓State.count_stores, ↓State.lpUe_stores, ↓over_stores, ↓foldl_stores, ↓apply_ite State.stores, ite_self]; done) | (simp [↓stores_fabric, ↓stores_chk, ↓stores_stack, ↓stores_tick, ↓stores_media, ↓stores_regs, ↓stores_ctxs, ↓stores_units, ↓stores_poison, ↓stores_links, ↓stores_lp, ↓stores_flash, ↓stores_fresh, ↓stores_rings, ↓stores_bolts, ↓stores_out, ↓State.correction_stores, ↓State.count_stores, ↓State.lpUe_stores, ↓over_stores, ↓foldl_stores, ↓apply_ite State.stores, ite_self]; done)
theorem State.transmit_stores (s : State) (port : Nat) (l : Nat) (p : Packet) : (State.transmit s port l p).stores = s.stores := by
  unfold State.transmit; simp only [↓stores_fabric, ↓stores_chk, ↓stores_stack, ↓stores_tick, ↓stores_media, ↓stores_regs, ↓stores_ctxs, ↓stores_units, ↓stores_poison, ↓stores_links, ↓stores_lp, ↓stores_flash, ↓stores_fresh, ↓stores_rings, ↓stores_bolts, ↓stores_out, ↓State.begin_stores, ↓apply_ite State.stores, ite_self]
theorem State.trySend_stores (s : State) (p : Packet) : (State.trySend s p).1.stores = s.stores := by
  unfold State.trySend; (try dsimp only); (repeat' split) <;> first | with_reducible rfl | (simp only [↓stores_fabric, ↓stores_chk, ↓stores_stack, ↓stores_tick, ↓stores_media, ↓stores_regs, ↓stores_ctxs, ↓stores_units, ↓stores_poison, ↓stores_links, ↓stores_lp, ↓stores_flash, ↓stores_fresh, ↓stores_rings, ↓stores_bolts, ↓stores_out, ↓State.count_stores, ↓State.emit_stores, ↓State.transmit_stores, ↓apply_ite State.stores, ite_self]; done) | (simp [↓stores_fabric, ↓stores_chk, ↓stores_stack, ↓stores_tick, ↓stores_media, ↓stores_regs, ↓stores_ctxs, ↓stores_units, ↓stores_poison, ↓stores_links, ↓stores_lp, ↓stores_flash, ↓stores_fresh, ↓stores_rings, ↓stores_bolts, ↓stores_out, ↓State.count_stores, ↓State.emit_stores, ↓State.transmit_stores, ↓apply_ite State.stores, ite_self]; done)
theorem State.sendRouted_stores (s : State) (p : Packet) : (State.sendRouted s p).stores = s.stores := by
  unfold State.sendRouted; simp only [↓stores_fabric, ↓stores_chk, ↓stores_stack, ↓stores_tick, ↓stores_media, ↓stores_regs, ↓stores_ctxs, ↓stores_units, ↓stores_poison, ↓stores_links, ↓stores_lp, ↓stores_flash, ↓stores_fresh, ↓stores_rings, ↓stores_bolts, ↓stores_out, ↓State.trySend_stores, ↓apply_ite State.stores, ite_self]
theorem State.sendMsg_stores (s : State) (dst : Nat) (c : Option Nat) (payload : Bytes) : (State.sendMsg s dst c payload).stores = s.stores := by
  unfold State.sendMsg; simp only [↓stores_fabric, ↓stores_chk, ↓stores_stack, ↓stores_tick, ↓stores_media, ↓stores_regs, ↓stores_ctxs, ↓stores_units, ↓stores_poison, ↓stores_links, ↓stores_lp, ↓stores_flash, ↓stores_fresh, ↓stores_rings, ↓stores_bolts, ↓stores_out, ↓State.sendRouted_stores, ↓apply_ite State.stores, ite_self]
theorem State.permanence_stores (s : State) (kind : Nat) (unit : Nat) (ward : Nat) : (State.permanence s kind unit ward).stores = s.stores := by
  unfold State.permanence; simp only [↓stores_fabric, ↓stores_chk, ↓stores_stack, ↓stores_tick, ↓stores_media, ↓stores_regs, ↓stores_ctxs, ↓stores_units, ↓stores_poison, ↓stores_links, ↓stores_lp, ↓stores_flash, ↓stores_fresh, ↓stores_rings, ↓stores_bolts, ↓stores_out, ↓State.sendMsg_stores, ↓apply_ite State.stores, ite_self]
theorem State.makePermanent_stores (s : State) (kind : Nat) (unit : Nat) : (State.makePermanent s kind unit).stores = s.stores := by
  unfold State.makePermanent; simp only [↓stores_fabric, ↓stores_chk, ↓stores_stack, ↓stores_tick, ↓stores_media, ↓stores_regs, ↓stores_ctxs, ↓stores_units, ↓stores_poison, ↓stores_links, ↓stores_lp, ↓stores_flash, ↓stores_fresh, ↓stores_rings, ↓stores_bolts, ↓stores_out, ↓State.classAction_stores, ↓State.permanence_stores, ↓apply_ite State.stores, ite_self]
theorem State.markAll_stores (s : State) (c : Nat) (rs : List Region) : (State.markAll s c rs).stores = s.stores :=
  over_stores _ _ _ (fun _ _ => rfl)
theorem State.postEvent_stores (s : State) (c : Nat) (ty : Nat) (status : Nat) (epoch : Nat) (detailA : Nat) (detailB : Nat) : (State.postEvent s c ty status epoch detailA detailB).stores = s.stores := by
  unfold State.postEvent; simp only [↓stores_fabric, ↓stores_chk, ↓stores_stack, ↓stores_tick, ↓stores_media, ↓stores_regs, ↓stores_ctxs, ↓stores_units, ↓stores_poison, ↓stores_links, ↓stores_lp, ↓stores_flash, ↓stores_fresh, ↓stores_rings, ↓stores_bolts, ↓stores_out, ↓State.ringPush_stores, ↓apply_ite State.stores, ite_self]
theorem State.memErrorEvent_stores (s : State) (c : Nat) : (State.memErrorEvent s c).stores = s.stores := by
  unfold State.memErrorEvent; simp only [↓stores_fabric, ↓stores_chk, ↓stores_stack, ↓stores_tick, ↓stores_media, ↓stores_regs, ↓stores_ctxs, ↓stores_units, ↓stores_poison, ↓stores_links, ↓stores_lp, ↓stores_flash, ↓stores_fresh, ↓stores_rings, ↓stores_bolts, ↓stores_out, ↓State.postEvent_stores, ↓apply_ite State.stores, ite_self]
theorem State.noteMismatch_stores (s : State) (c : Nat) (kind : Nat) (id : Nat) (punit : Nat) : (State.noteMismatch s c kind id punit).stores = s.stores := by rfl
theorem State.opFault_stores (s : State) (c : Nat) (u : Nat) (id : Nat) (code : Nat) : (State.opFault s c u id code).stores = s.stores := by
  unfold State.opFault; simp only [↓stores_fabric, ↓stores_chk, ↓stores_stack, ↓stores_tick, ↓stores_media, ↓stores_regs, ↓stores_ctxs, ↓stores_units, ↓stores_poison, ↓stores_links, ↓stores_lp, ↓stores_flash, ↓stores_fresh, ↓stores_rings, ↓stores_bolts, ↓stores_out, ↓State.count_stores, ↓State.postEvent_stores, ↓State.setRegN_stores, ↓apply_ite State.stores, ite_self]
theorem State.readFaults_stores (s : State) (c : Nat) (es : ReadErrs) (reads : List Region) (outs : List Region) : (State.readFaults s c es reads outs).stores = s.stores := by
  unfold State.readFaults; simp only [↓stores_fabric, ↓stores_chk, ↓stores_stack, ↓stores_tick, ↓stores_media, ↓stores_regs, ↓stores_ctxs, ↓stores_units, ↓stores_poison, ↓stores_links, ↓stores_lp, ↓stores_flash, ↓stores_fresh, ↓stores_rings, ↓stores_bolts, ↓stores_out, ↓State.dramErrs_stores, ↓State.eventIf_stores, ↓State.lpErrs_stores, ↓State.markAll_stores, ↓State.memErrorEvent_stores, ↓apply_ite State.stores, ite_self]
theorem State.setLast_stores (s : State) (u : Nat) (id : Nat) : (State.setLast s u id).stores = s.stores := by
  unfold State.setLast; simp only [↓stores_fabric, ↓stores_chk, ↓stores_stack, ↓stores_tick, ↓stores_media, ↓stores_regs, ↓stores_ctxs, ↓stores_units, ↓stores_poison, ↓stores_links, ↓stores_lp, ↓stores_flash, ↓stores_fresh, ↓stores_rings, ↓stores_bolts, ↓stores_out, ↓State.setRegN_stores, ↓apply_ite State.stores, ite_self]
theorem State.sramErrs_stores (s : State) (es : List SramErr) (tag : Option (Nat × Nat)) : (State.sramErrs s es tag).stores = s.stores := by
  unfold State.sramErrs; (try dsimp only); (repeat' split) <;> first | with_reducible rfl | (simp only [↓stores_fabric, ↓stores_chk, ↓stores_stack, ↓stores_tick, ↓stores_media, ↓stores_regs, ↓stores_ctxs, ↓stores_units, ↓stores_poison, ↓stores_links, ↓stores_lp, ↓stores_flash, ↓stores_fresh, ↓stores_rings, ↓stores_bolts, ↓stores_out, ↓State.correction_stores, ↓State.unitEvent_stores, ↓over_stores, ↓foldl_stores, ↓apply_ite State.stores, ite_self]; done) | (simp [↓stores_fabric, ↓stores_chk, ↓stores_stack, ↓stores_tick, ↓stores_media, ↓stores_regs, ↓stores_ctxs, ↓stores_units, ↓stores_poison, ↓stores_links, ↓stores_lp, ↓stores_flash, ↓stores_fresh, ↓stores_rings, ↓stores_bolts, ↓stores_out, ↓State.correction_stores, ↓State.unitEvent_stores, ↓over_stores, ↓foldl_stores, ↓apply_ite State.stores, ite_self]; done)
theorem State.unclean_stores (s : State) (c : Nat) : (State.unclean s c).stores = s.stores := by
  unfold State.unclean; simp only [↓stores_fabric, ↓stores_chk, ↓stores_stack, ↓stores_tick, ↓stores_media, ↓stores_regs, ↓stores_ctxs, ↓stores_units, ↓stores_poison, ↓stores_links, ↓stores_lp, ↓stores_flash, ↓stores_fresh, ↓stores_rings, ↓stores_bolts, ↓stores_out, ↓State.modHasp_stores, ↓apply_ite State.stores, ite_self]
theorem State.sramFaults_stores (s : State) (c : Nat) (u : Nat) (id : Nat) (es : List SramErr) (outs : List Region) : (State.sramFaults s c u id es outs).stores = s.stores := by
  unfold State.sramFaults; simp only [↓stores_fabric, ↓stores_chk, ↓stores_stack, ↓stores_tick, ↓stores_media, ↓stores_regs, ↓stores_ctxs, ↓stores_units, ↓stores_poison, ↓stores_links, ↓stores_lp, ↓stores_flash, ↓stores_fresh, ↓stores_rings, ↓stores_bolts, ↓stores_out, ↓State.markAll_stores, ↓State.opFault_stores, ↓State.sramErrs_stores, ↓State.unclean_stores, ↓apply_ite State.stores, ite_self]
theorem State.sumMismatch_stores (s : State) (c : Nat) (u : Nat) (id : Nat) (lane : Bool) (outs : List Region) : (State.sumMismatch s c u id lane outs).stores = s.stores := by
  unfold State.sumMismatch; simp only [↓stores_fabric, ↓stores_chk, ↓stores_stack, ↓stores_tick, ↓stores_media, ↓stores_regs, ↓stores_ctxs, ↓stores_units, ↓stores_poison, ↓stores_links, ↓stores_lp, ↓stores_flash, ↓stores_fresh, ↓stores_rings, ↓stores_bolts, ↓stores_out, ↓State.count_stores, ↓State.event_stores, ↓State.makePermanent_stores, ↓State.markAll_stores, ↓State.noteMismatch_stores, ↓State.opFault_stores, ↓State.setLast_stores, ↓State.unclean_stores, ↓State.unitEvent_stores, ↓apply_ite State.stores, ite_self]

end Sys2Proof.Machine
end

