-- ==== Sys2Proof/Tests/Slice0.lean ====
section
/-! SUPPORT. Tests of the model: for every statement of Obligations.lean that has hypotheses, one theorem test_witness_<Name> that gives states and operands that meet
the hypotheses of each of its clauses; ill-formed terms that the well-formedness checks refuse; and values that the manual works out. -/

namespace Sys2Proof.Tests

open Sys2Proof Sys2Proof.Machine

set_option Elab.async false

/-- The state after reset. -/
def r0 : State := State.reset
/-- The next state of an outcome. -/
def nextOf (o : Host.Outcome State Fault Refusal) : State := match o with | .next t => t | _ => r0
/-- A string of n bytes with some bytes set. -/
def mkRec (n : Nat) (l : List (Nat × Nat)) : Bytes := l.foldl (fun b p => b.set p.1 (BitVec.ofNat 8 p.2)) (zeros n)
/-- Reset with the tick changed. -/
def tk (f : Tick → Tick) : State := r0.modTick f
/-- Reset with the hasp state of context 0 changed. -/
def hs (f : Hasp → Hasp) : State := r0.modHasp 0 f
/-- Reset with context 0 changed. -/
def cx (f : Ctx → Ctx) : State := r0.modCtx 0 f
/-- A packet from address 1 to 0xFFFF. -/
def mkPk (op fl ctx arg : Nat) (b : Bytes) : Packet := ⟨op, fl, 0xFFFF, 1, ctx, 1, 0, 0, arg, 0, payloadCrc b, b⟩
/-- Bytes with their CRC-32C. -/
def sealB (b : Bytes) : Bytes := b ++ toLe 4 (crc32c b)
/-- A state with link 0 up. -/
def upL (s : State) : State := s.modLink 0 (fun k => { k with state := 2 })
/-- A state whose context 0 runs a tick and has partitions in every store. -/
def sR : State := { State.reset with
  regs := [(Reg.CTX_TS 0, BitVec.ofNat 32 (96 * 65536)), (Reg.CTX_WS 0, BitVec.ofNat 32 (384 * 65536)), (Reg.CTX_STG 0, BitVec.ofNat 32 (448 * 65536)), (Reg.CTX_BOLTS 0, 0x0FFF0000#32), (Reg.CTX_DRAM_SIZE 0, 4096#32), (Reg.CTX_LP_SIZE 0, 4096#32)]
  pwr := { State.reset.pwr with rung := 0 }
  ctxs := [(0, { hasp := { run := true } })]
  stores := { State.reset.stores with wards := [(0, [(44, 1#8), (45, 1#8), (46, 1#8), (64, 1#8)])] } }
/-- The body of a fabric-manager command with its authenticator under a key of zeros, nonce 0 and term 0. -/
def fmBody (sub : Nat) (args : Bytes) : Bytes :=
  let b := toLe 2 sub ++ zeros 2 ++ toLe 4 0 ++ args
  b ++ authCode (zeros 32) 0 b
/-- The FM_CMD packet of a body. -/
def fmPk (b : Bytes) : Packet := ⟨0x21, 16, 0xFFFF, 1, 0, 1, 0, 0, 0, 0, payloadCrc b, b⟩
/-- The fabric-manager message of a body. -/
def fmMsg (b : Bytes) : FmMsg := ⟨0, b, 1, 0, [], 0⟩
/-- What a record meets when nothing goes wrong. -/
def e0 : RunEnv := ⟨⟨[], [], []⟩, false, false, false⟩
/-- Reset with a fabric key of zeros. -/
def sK : State := { r0 with mgmt := { r0.mgmt with fabricKey := some (zeros 32) } }
/-- A state with one request in flight. -/
def withReq (s : State) (r : Request) : State := { s with fabric := { s.fabric with requests := [r] } }
/-- Whether an outcome is a next state. -/
def isNext (o : Host.Outcome State Fault Refusal) : Bool := match o with | .next _ => true | _ => false
theorem next_of {o : Host.Outcome State Fault Refusal} (h : isNext o = true) : o = .next (nextOf o) := by cases o <;> simp_all [isNext, nextOf]
theorem some_of {o : Option State} (h : o.isSome = true) : o = some (o.getD r0) := by cases o <;> simp_all
theorem some_get {α : Type} {o : Option α} {d : α} (h : o.isSome = true) : o = some (o.getD d) := by cases o <;> simp_all
/-- A plan image of one seat, role, frame and variant, with no record. -/
def tinyImage : Bytes :=
  toLe 10 0xCC0010000014C504B49 ++ (zeros 6 ++ (toLe 2 0x1234 ++ (zeros 6 ++ (toLe 17 0x101010001000104B0000A03E80000000A ++ (zeros 19 ++ (
    toLe 14 0x100F16177D2000000017E6FA47F ++ (zeros 6 ++ (toLe 1 0x2 ++ (zeros 7 ++ (toLe 10 0x1400781500A00000002 ++ (zeros 6 ++ (
    toLe 1 0x40 ++ (zeros 7 ++ (toLe 10 0x180E85AA84D00000003 ++ (zeros 6 ++ (toLe 1 0x10 ++ (zeros 7 ++ (
    toLe 10 0x1C0D874D05B00000004 ++ (zeros 6 ++ (toLe 2 0xA80 ++ (zeros 6 ++ (toLe 1 0x5 ++ (zeros 7 ++ (
    toLe 2 0xC40 ++ (zeros 14 ++ (toLe 10 0xC40638A5E4A00000006 ++ (zeros 6 ++ (toLe 1 0x40 ++ (zeros 7 ++ (
    toLe 10 0xC8003C8EB6700000007 ++ (zeros 6 ++ (toLe 1 0x40 ++ (zeros 95 ++ (toLe 17 0x200000000100000004FFFFFFFFFFFFFFFF ++ (zeros 55 ++ (
    toLe 2 0xA80 ++ (zeros 2742 ++ (toLe 1 0x40 ++ (zeros 127)))))))))))))))))))))))))))))))))))))))
/-- Reset with context 0 keyed and attached to function 1. -/
def vf : State := (cx (fun x => { x with adm := .keyed })).setRegN (Reg.CTX_VF 0) 1
/-- A state that accepts the tiny image. -/
def planSt : State :=
  let s := ((((((vf.setRegN Reg.TCK_PERIOD 10).setRegN Reg.TCK_WINDOW 1000).setRegN Reg.TCK_GUARD 10).setRegN Reg.FAB_GEOM 0x20101).setRegN
    (Reg.CTX_WARDS 0) 0xFFFF).setRegN (Reg.CTX_DRAM_SIZE 0) 16)
  { s with fabric := { s.fabric with inForce := { place := [(0, 0)], version := 1 } } }
/-- The tiny image, but for a directory entry `e` that names one reservation with pair identifier `pair`. -/
def imgResv (e pair : Nat) : Bytes :=
  tinyImage.take 448 ++ (zeros (2304 + 8 * e) ++ (toLe 6 0x80 ++ (toLe 2 1 ++ (zeros (376 - 8 * e) ++ (zeros 128 ++ (toLe 4 0 ++ (toLe 4 1 ++
    (toLe 4 1 ++ toLe 4 pair))))))))
/-- The tiny image, but for one record of unit 256 and an entry region of that unit in the ward store. -/
def imgEntry : Bytes :=
  tinyImage.take 448 ++ (zeros 2054 ++ (toLe 2 1 ++ (zeros 632 ++ (toLe 8 64 ++ (toLe 4 1 ++ (zeros 52 ++ ([4, 1, 0, 1] ++ zeros 60)))))))
/-- A state whose context 0 runs a tick of an image on its only seat. -/
def runSt (b : Bytes) : State :=
  let s := (cx (fun x => { x with image := b, hasp := { x.hasp with run := true, loaded := true, stepOpen := true } })).setRegN Reg.FAB_ADDR 0
  { s with fabric := { s.fabric with inForce := { place := [(0, 0)], version := 1 } } }
theorem flash_fits (s : State) (h : s.flash.overprov = 125) : 1 ≤ s.flashBlocks := by
  have : 64 ≤ Config.nandBlocks := by unfold Config.nandBlocks; omega
  unfold State.flashBlocks
  rw [h, Nat.le_div_iff_mul_le (by omega)]
  omega
theorem zeros_length (n : Nat) : (zeros n).length = n := List.length_replicate
theorem zeros_ne (n : Nat) : zeros (n + 1) ≠ [] := by simp [zeros, List.replicate_succ]
/-- A directory entry of a plan image: type and offset. -/
def dirEnt (ty off : Nat) : Bytes := toLe 4 ty ++ (zeros 4 ++ (toLe 8 off ++ zeros 8))
/-- The parts of a plan image that its sequencers read, of one seat, role, frame and variant: an entry region of unit `u` at 32 KiB of its store, and one record of
that unit in the only frame. -/
def imgUnit (u : Nat) : Bytes :=
  zeros 34 ++ (toLe 2 1 ++ (zeros 4 ++ (toLe 4 1 ++ (zeros 20 ++ (dirEnt 1 48 ++ (dirEnt 2 192 ++ (dirEnt 3 224 ++ (dirEnt 4 304 ++ (dirEnt 6 256 ++ (zeros 16 ++
    (toLe 4 4 ++ (zeros 4 ++ (toLe 8 32 ++ (zeros 40 ++ (toLe 8 16 ++ (toLe 4 1 ++ (zeros 4 ++
    ([4#8, if u < 256 then 0#8 else 1#8] ++ (toLe 2 u ++ (zeros 4 ++ (toLe 8 0x8000 ++ (toLe 8 128 ++ (toLe 4 1 ++ (zeros (8 * u + 10) ++
    toLe 2 1))))))))))))))))))))))))
/-- Bytes of a record in a store, from 32 KiB. -/
def recCells (l : List (Nat × Nat)) : Mem := l.map (fun p => (0x8000 + p.1, BitVec.ofNat 8 p.2))
/-- A state whose context 0 runs tick 0 of a step, has partitions in every store, and whose unit `u` is handed next the record with
these bytes set. -/
def unitSt (u : Nat) (l : List (Nat × Nat)) : State :=
  let s := ({ sR with
    ctxs := [(0, { image := imgUnit u, hasp := { run := true, loaded := true, stepOpen := true } })]
    stores := { sR.stores with
      tiles := if u < 256 then [(u / 16 * 17 + u % 16, recCells l)] else []
      wards := if u < 256 then sR.stores.wards else [(0, [(44, 1#8), (45, 1#8), (46, 1#8), (64, 1#8)] ++ recCells l)] } } : State).setRegN Reg.FAB_ADDR 0
  { s with fabric := { s.fabric with inForce := { place := [(0, 0)], version := 1 } } }
theorem crc16Bit_lt (c : Nat) : crc16Bit c < 65536 := by unfold crc16Bit; split <;> omega
theorem crc16_lt (b : Bytes) : crc16 b < 65536 := by
  have h : ∀ (l : Bytes) (c : Nat), c < 65536 → l.foldl crc16Byte c < 65536 := by
    intro l; induction l with
    | nil => exact fun _ h => h
    | cons x t ih => exact fun c _ => ih _ (crc16Bit_lt _)
  exact h b _ (by decide)
theorem payloadCrc_lt (b : Bytes) : payloadCrc b < 2 ^ 32 := by
  unfold payloadCrc
  split
  · decide
  · exact crc32c_lt b
theorem u16_toLe (v : Nat) (h : v < 65536) : u16 (toLe 2 v) 0 = v := by
  simp only [u16, le, byteAt_toLe 2 v 0 (by omega), byteAt_toLe 2 v 1 (by omega)]; omega
theorem byteAt_skip (a b : Bytes) (i : Nat) : byteAt (a ++ b) (a.length + i) = byteAt b i := by
  simp [byteAt, List.getD_eq_getElem?_getD, List.getElem?_append_right]
theorem byteAt_first (a b : Bytes) (i : Nat) (h : i < a.length) : byteAt (a ++ b) i = byteAt a i := by
  simp [byteAt, List.getD_eq_getElem?_getD, List.getElem?_append_left h]
theorem byte26 (b : Bytes) (x y : Nat) (h : Bytes) (e : h.length = 26) : u32 (h ++ toLe 4 x ++ toLe 2 y ++ b) 26 = u32 (toLe 4 x) 0 := by
  have k : ∀ i, i < 4 → byteAt (h ++ toLe 4 x ++ toLe 2 y ++ b) (26 + i) = byteAt (toLe 4 x) i := fun i hi => by
    rw [List.append_assoc, List.append_assoc, ← e, byteAt_skip, byteAt_first _ _ _ (by simpa using hi)]
  simp only [u32, le, k 0 (by omega), k 1 (by omega), k 2 (by omega), k 3 (by omega)]
theorem byte30 (b : Bytes) (y : Nat) (h : Bytes) (e : h.length = 30) : u16 (h ++ toLe 2 y ++ b) 30 = u16 (toLe 2 y) 0 := by
  have k : ∀ i, i < 2 → byteAt (h ++ toLe 2 y ++ b) (30 + i) = byteAt (toLe 2 y) i := fun i hi => by
    rw [List.append_assoc, ← e, byteAt_skip, byteAt_first _ _ _ (by simpa using hi)]
  simp only [u16, le, k 0 (by omega), k 1 (by omega)]
theorem fmPk_bytes (b : Bytes) : (fmPk b).bytes = (fmPk b).head ++ toLe 2 (crc16 (fmPk b).head) ++ b := rfl
theorem fmPk_head (b : Bytes) : (fmPk b).head = (toLe 1 0x21 ++ toLe 1 16 ++ toLe 2 0xFFFF ++ toLe 2 1 ++ toLe 2 b.length ++ toLe 1 0 ++ toLe 1 1 ++
    toLe 2 0 ++ toLe 4 0 ++ toLe 8 0 ++ toLe 2 0) ++ toLe 4 (payloadCrc b) := rfl
theorem fmPk_head_length (b : Bytes) : (fmPk b).head.length = 30 := by simp [fmPk_head]
/-- The fields of an FM_CMD packet's bytes. -/
theorem fmPk_fields (b : Bytes) (h : b.length ≤ 4096) : u16 (fmPk b).bytes 6 = b.length ∧ u32 (fmPk b).bytes 26 = payloadCrc b ∧
    u16 (fmPk b).bytes 30 = crc16 (fmPk b).head ∧ (fmPk b).bytes.take 30 = (fmPk b).head ∧ (fmPk b).bytes.drop 32 = b ∧
    (fmPk b).bytes.length = 32 + b.length := by
  refine ⟨?_, ?_, ?_, ?_, ?_, ?_⟩
  · have e : u16 (fmPk b).bytes 6 = u16 (toLe 2 b.length) 0 := by
      rw [fmPk_bytes]
      generalize crc16 (fmPk b).head = y
      rw [fmPk_head]
      generalize payloadCrc b = x
      rfl
    exact e.trans (u16_toLe _ (by omega))
  · rw [fmPk_bytes]
    conv => lhs; rw [fmPk_head b]
    rw [byte26 _ _ _ _ (by simp)]
    exact u32_toLe _ (payloadCrc_lt b)
  · rw [fmPk_bytes, byte30 _ _ _ (fmPk_head_length b)]
    exact u16_toLe _ (crc16_lt _)
  · rw [fmPk_bytes, List.append_assoc]
    exact List.take_left' (fmPk_head_length b)
  · rw [fmPk_bytes]
    exact List.drop_left' (by simp [fmPk_head_length])
  · simp [fmPk_bytes, fmPk_head_length]; omega
/-- The bytes of an FM_CMD packet hold it and pass the header checks. -/
theorem fmPk_parses (b : Bytes) (h : b.length ≤ 4096) : packetOk (fmPk b).bytes = true ∧ parsePacket (fmPk b).bytes = fmPk b := by
  obtain ⟨e6, e26, e30, t30, d32, ln⟩ := fmPk_fields b h
  have q : byteAt (fmPk b).bytes 0 = 0x21 ∧ byteAt (fmPk b).bytes 1 = 16 ∧ byteAt (fmPk b).bytes 8 = 0 ∧ u16 (fmPk b).bytes 2 = 0xFFFF ∧
    u16 (fmPk b).bytes 4 = 1 ∧ u16 (fmPk b).bytes 10 = 0 ∧ u32 (fmPk b).bytes 12 = 0 := by
    rw [fmPk_bytes]
    generalize crc16 (fmPk b).head = y
    rw [fmPk_head]
    generalize payloadCrc b = x
    simp [byteAt, u16, u32, le, toLe]
  obtain ⟨q0, q1, q2, q3, q4, q5, q6⟩ := q
  refine ⟨?_, ?_⟩
  · simp only [packetOk, e6, e30, t30, ln, q0, q1, q2, q3, q4, q5, q6, h]
    simp
    decide
  · have g : byteAt (fmPk b).bytes 9 = 1 ∧ u64 (fmPk b).bytes 16 = 0 ∧ u16 (fmPk b).bytes 24 = 0 := by
      rw [fmPk_bytes]
      generalize crc16 (fmPk b).head = y
      rw [fmPk_head]
      generalize payloadCrc b = x
      simp [byteAt, u16, u64, le, toLe]
    unfold parsePacket
    rw [e26, d32, q0, q1, q2, q3, q4, q5, q6, g.1, g.2.1, g.2.2]
    rfl
/-- An FM_CMD packet arrives whole on a link that is up, at a device that has no address yet. -/
theorem fmPk_delivers (s : State) (b : Bytes) (h : b.length ≤ 4096) (hl : s.linkTakes 0 (fmPk b).bytes = true) (ha : s.addr = 0xFFFF)
    (hg : ((s.landed 0 (fmPk b)).hasp 0).gen = 0#16) : Delivers s 0 (fmPk b).bytes 0x21 (fmPk b) := by
  refine ⟨hl, (fmPk_parses b h).1, (fmPk_parses b h).2.symm, ?_, rfl, .inr (.inl ha.symm), ?_⟩
  · have e : (fmPk b).gen = 0#16 := rfl
    have c : (fmPk b).ctx = 0 := rfl
    simp [State.stale, c, e, hg]
  · simp [Packet.payloadOk, fmPk]
theorem fmBody_length (sub : Nat) (args : Bytes) : (fmBody sub args).length = args.length + 40 := by simp [fmBody, zeros]; omega
theorem fmBody_args (sub : Nat) (args : Bytes) : fmArgs (fmMsg (fmBody sub args)) = args := by
  rw [fmArgs_of (fmMsg (fmBody sub args)) (zeros 32) (toLe 2 sub ++ zeros 2 ++ toLe 4 0 ++ args) 0 rfl]; rfl
theorem fmBody_accepted (s : State) (sub : Nat) (args : Bytes) (hk : s.mgmt.fabricKey = some (zeros 32)) (ht : s.regN Reg.FAB_FM_TERM = 0)
    (hn : s.fabric.nonce = none) : s.fmAccepts (fmMsg (fmBody sub args)) = true := by
  refine fmAccepts_of s (fmMsg (fmBody sub args)) (zeros 32) (toLe 2 sub ++ zeros 2 ++ toLe 4 0 ++ args) hk rfl ?_ (by omega) hn
  simp [zeros]; omega
theorem landed_hasp (s : State) (l c : Nat) (p : Packet) : (s.landed l p).hasp c = s.hasp c := by
  unfold State.landed
  split <;> rfl
/-- A fabric-manager command arrives at a state that has link 0 up, no address and generation 0. -/
theorem fm_manages (s : State) (b : Bytes) (h : b.length ≤ 4096) (hl : s.linkUp 0 = true) (ha : s.addr = 0xFFFF) (hg : (s.hasp 0).gen = 0#16) :
    Manages s (s.landed 0 (fmPk b)) 0 (fmPk b).bytes 0 (fmMsg b) :=
  ⟨fmPk b, fmPk_delivers s b h (by simp [State.linkTakes, hl]) ha (by rw [landed_hasp, hg]), rfl, (by show bit 16 5 = false; decide),
    (by show bit 16 4 = true; decide), rfl⟩
theorem bank_crc_lt (k : Bank) : k.crc < 2 ^ 32 := crc32c_lt _
theorem u32_skip (v : Nat) (h : v < 2 ^ 32) : u32 (zeros 4 ++ toLe 4 v) 4 = v := u32_toLe v h
theorem zeroAt_skip (v : Nat) : zeroAt (zeros 4 ++ toLe 4 v) 2 2 = true := rfl
/-- `Admits` as a computed value. -/
def admitsB (s : State) (u : Nat) (r : Bytes) (legal reach : Bool) (regions : List Region) : Bool :=
  s.issues (s.selected u) && (!s.wardOut u && (decide (s.seqNext (s.selected u) u = some r) && (decide (recCtx r = s.selected u) &&
    (headLegal r u && (legal && (regionsFit regions && (reach && regions.all (fun g => s.inPart (recCtx r) g.space g.addr g.len))))))))
theorem admits_of {s : State} {u : Nat} {r : Bytes} {legal reach : Bool} {regions : List Region} (h : admitsB s u r legal reach regions = true) :
    Admits s u r legal reach regions := by
  simpa only [Admits, admitsB, Bool.and_eq_true, Bool.not_eq_true', decide_eq_true_eq] using h
/-- `Delivers` as a computed value. -/
def deliversB (s : State) (link : Nat) (b : Bytes) (opcode : Nat) (p : Packet) : Bool :=
  s.linkTakes link b && (packetOk b && (decide (p = parsePacket b) && (!(s.landed link p).stale p && (decide (p.opcode = opcode) &&
    (decide (p.control = true ∨ p.dst = s.addr ∨ (opcode = 1 ∧ p.detour = false)) && p.payloadOk)))))
theorem delivers_of {s : State} {link : Nat} {b : Bytes} {opcode : Nat} {p : Packet} (h : deliversB s link b opcode p = true) :
    Delivers s link b opcode p := by
  simpa only [Delivers, deliversB, Bool.and_eq_true, Bool.not_eq_true', decide_eq_true_eq] using h
/-- A request of a host's FM_CMD. -/
def rqCmd : Request := ⟨0, mkPk 0x21 16 0 0 [], 0, 0, some (0, ⟨0, 0, 0, 0, 0, [], false⟩)⟩

/-! Refusals of the well-formedness checks: one ill-formed term each. -/

theorem test_wf_packet_short : wellFormed (.sched 0 []) = false := by decide
theorem test_wf_packet_long : wellFormed (.tickPacket 0 (zeros 4129)) = false := by decide +kernel
theorem test_wf_record_size : wellFormed (.boltSet 0 (zeros 63) false) = false := by decide +kernel
theorem test_wf_error_symbol : wellFormed (.matmul 0 (zeros 128) { e0 with errs := { dram := [⟨0, [136], 0⟩] } }) = false := by decide +kernel
theorem test_wf_sram_space : wellFormed (.softmax 0 (zeros 128) { e0 with errs := { sram := [⟨4, 0, true⟩] } }) = false := by decide +kernel
theorem test_wf_boundary_wards : wellFormed (.tickBoundary 0 ⟨[], [], 0, 0, 0, [], [], {}⟩) = false := by decide
theorem test_wf_tick_width : wellFormed (.tickBoundary (2 ^ 64) ⟨List.replicate 16 0, List.replicate 5 0, 0, 0, 0, List.replicate 24 0, [], {}⟩) = false := by decide +kernel
theorem test_wf_grant_link :
    wellFormed (.tickBoundary 0 ⟨List.replicate 16 0, List.replicate 5 0, 0, 0, 0, List.replicate 24 0, [(24, 0, 0)], {}⟩) = false := by decide +kernel
theorem test_wf_host_argument : wellFormed (.nop 0 ⟨0, 2 ^ 64, 0, 0, 0, [], false⟩) = false := by decide +kernel
theorem test_wf_scans_twice :
    wellFormed (.recordIngest 0 [⟨0, 0, 0, 0, 0, 0, 0, 0, 0, true⟩, ⟨0, 0, 0, 0, 0, 0, 0, 0, 0, true⟩] false) = false := by decide
theorem test_wf_ring_words : wellFormed (.ringPoll 0 ⟨2 ^ 32, 0, 0, 0, 0, 0⟩ []) = false := by decide +kernel
theorem test_wf_ring_header : wellFormed (.ringPoll 0 ⟨0, 0, 0, 0, 0, 0⟩ [⟨[], []⟩]) = false := by decide
theorem test_wf_readings : wellFormed (.stackTempSample [] 0) = false := by decide
theorem test_wf_nonce : wellFormed (.challenge 0 []) = false := by decide
theorem test_wf_access_size : wellFormed (.loWordRead 0 0 2) = false := by decide
theorem test_wf_block : wellFormed (.nandProgramDone (2 ^ 34) false) = false := by decide +kernel

/-! Values that the manual works out. -/

/-- FP32 0x3F9D_F3B6 in BF16 by RTZ and by RNE (the example after R113). -/
theorem test_bf16_example : bf16.convert .rtz false 0 (dec32 0x3F9DF3B6) = 0x3F9D ∧ bf16.convert .rne false 0 (dec32 0x3F9DF3B6) = 0x3F9E := by decide +kernel
/-- 300 in E4M3 by RNE and on both sides of the stochastic threshold 24,576; 470 with and without SAT (the same example). -/
theorem test_e4m3_example : e4m3.convert .rne false 0 (.fin false 300 0) = 0x79 ∧ e4m3.convert .sr false 24575 (.fin false 300 0) = 0x7A ∧
    e4m3.convert .sr false 24576 (.fin false 300 0) = 0x79 ∧ e4m3.convert .rne true 0 (.fin false 470 0) = 0x7E ∧
    e4m3.convert .rne false 0 (.fin false 470 0) = 0x7F := by decide +kernel
/-- The group of the example after R123: 2^24 with the products 4.5, -3, 0 and -0.125, rounded once. -/
theorem test_group_example : enc32 (dotAcc 4 (.fin false 1 24) 4 (fun k =>
    [Fp.fin false 9 (-1), Fp.fin true 3 0, fpZero, Fp.fin true 1 (-3)].getD k fpZero)) = enc32 (.fin false 16777218 0) := by decide +kernel
/-- The MXFP4 block of the example at the end of chapter 3: 21.5, -3.1, 0.9 and 2.2 give scale 0x81 and codes 7, A, 0, 1. -/
theorem test_mxfp4_example : mxBlock 9 .rne (fun _ => 0) ([dec32 0x41AC0000, dec32 0xC0466666, dec32 0x3F666666, dec32 0x400CCCCD] ++ List.replicate 28 fpZero) =
    (0x81, [7, 0xA, 0, 1] ++ List.replicate 28 0) := by decide +kernel
/-- Element 2 of that block by stochastic rounding, on both sides of 29,491. -/
theorem test_mxfp4_stochastic : e2m1.convert .sr true 29490 ((dec32 0x3F666666).scale (-2)) = 1 ∧ e2m1.convert .sr true 29491 ((dec32 0x3F666666).scale (-2)) = 0 := by
  decide +kernel
/-- Length of the BF16 and of the MXFP4 matmul of the example after R170, in tc. -/
theorem test_matmul_cycles : matCycles (mkRec 128 [(0, 1), (36, 0), (37, 2), (38, 0), (39, 2), (41, 8), (44, 1), (46, 1), (47, 1)]) = 134218 ∧
    matCycles (mkRec 128 [(0, 1), (36, 0), (37, 2), (38, 0), (39, 2), (41, 8), (44, 1), (46, 9), (47, 9)]) = 34439 := by decide +kernel
/-- Decode time of the cameras of the example after R489. -/
theorem test_decode_time : decodeNs 3840 2160 4000000 = 2075600 ∧ decodeNs 1920 1080 0 = 520400 := by decide
/-- The tumbler area of the default geometry at 1,500 MHz (R17). -/
theorem test_tumbler_area : tumblerArea 250 2500 20 1500 = 22733 := by decide
/-- SHA-256 of abc (FIPS 180-4, appendix B). -/
theorem test_sha256 : beNat (sha256 [0x61#8, 0x62#8, 0x63#8]) = 0xBA7816BF8F01CFEA414140DE5DAE2223B00361A396177A9CB410FF61F20015AD := by decide +kernel

/-! Witnesses of the statements: states and operands that meet the hypotheses of each clause. -/

theorem test_witness_StepRunsFront :
    ∃ c : Instr, ∃ q : List Instr, ∃ s : State, s.pending = c :: q :=
  ⟨.nop 0 ⟨0, 0, 0, 0, 0, [], false⟩, [], { r0 with pending := [.nop 0 ⟨0, 0, 0, 0, 0, [], false⟩] }, by decide +kernel⟩

theorem test_witness_StepIdlesOnEmptyQueue :
    ∃ s : State, s.pending = [] :=
  ⟨r0, by decide +kernel⟩

theorem test_witness_SessionsStayBounded :
    ∃ s : State, ∃ t : State, s.sessionsOk = true ∧ step s = .next t :=
  ⟨r0, r0, by decide +kernel, rfl⟩

theorem test_witness_FabricKeyRule :
    ∃ c : Instr, ∃ s : State, ∃ t : State, exec c s = .next t :=
  ⟨.getVersion, r0, _, next_of (by decide +kernel)⟩

theorem test_witness_DebugLockRule :
    ∃ c : Instr, ∃ s : State, ∃ t : State, exec c s = .next t ∧ t.mgmt.debug = true :=
  ⟨.getVersion, { r0 with mgmt := { r0.mgmt with debug := true } }, _, next_of (by decide +kernel), by decide +kernel⟩

theorem test_witness_TickPacketsComplete :
    (∃ l : Fin 24, ∃ b : Bytes, ∃ p : Packet, ∃ s : State, ∃ u : State, Delivers s l b 0x02 p ∧ u = s.landed l p ∧ u.tick.run ≠ .stopped ∧ u.tick.firstTick ≤ u.tick.now ∧ tickPacketOk p.payload = true ∧ u.tick.term ≤ pkTerm p.payload ∧ u.tick.now < pkTick p.payload ∧ u.tick.packets.find? (fun q => q.1 == pkTick p.payload) = none) ∧
    (∃ l : Fin 24, ∃ b : Bytes, ∃ p : Packet, ∃ s : State, ∃ u : State, Delivers s l b 0x02 p ∧ u = s.landed l p ∧ u.tick.run ≠ .stopped ∧ u.tick.firstTick ≤ u.tick.now ∧ tickPacketOk p.payload = true ∧ u.tick.term ≤ pkTerm p.payload ∧ pkTick p.payload ≤ u.tick.now ∧ u.tick.passed.contains (pkTick p.payload) = false ∧ u.tick.packets.any (fun q => q.1 == pkTick p.payload) = false) ∧
    (∃ l : Fin 24, ∃ b : Bytes, ∃ p : Packet, ∃ s : State, ∃ u : State, Delivers s l b 0x03 p ∧ u = s.landed l p ∧ replyOk p.payload = true ∧ u.tick.run ≠ .stopped ∧ u.tick.replied = false ∧ u64 p.payload 0 = u.tick.replyTick ∧ u.tick.heard.contains l.val = false ∧ (u.children ++ u.backupChildren).contains l.val = true) ∧
    (∃ l : Fin 24, ∃ b : Bytes, ∃ p : Packet, ∃ s : State, ∃ u : State, Delivers s l b 0x08 p ∧ u = s.landed l p ∧ p.payload.length = 2 ∧ u.tick.master = true ∧ u.tick.now ≤ p.arg) ∧
    (∃ l : Fin 24, ∃ b : Bytes, ∃ p : Packet, ∃ s : State, ∃ u : State, Delivers s l b 0x18 p ∧ u = s.landed l p ∧ p.payload.length = 16 ∧ u16 p.payload 0 = 3 ∧ zeroAt p.payload 2 2 = true ∧ zeroAt p.payload 6 2 = true ∧ u.tick.master = true ∧ u.tick.now ≤ u64 p.payload 8) ∧
    (∃ l : Fin 24, ∃ b : Bytes, ∃ p : Packet, ∃ s : State, ∃ u : State, Delivers s l b 0x18 p ∧ u = s.landed l p ∧ p.payload.length = 16 ∧ u16 p.payload 0 = 1 ∧ byteAt p.payload 2 < 16 ∧ byteAt p.payload 3 = 0 ∧ u.tick.master = true) ∧
    (∃ l : Fin 24, ∃ b : Bytes, ∃ p : Packet, ∃ vs : List Bytes, ∃ ns : List Bytes, ∃ s : State, ∃ u : State, Delivers s l b 0x04 p ∧ u = s.landed l p ∧ parseMasterState p.payload = some (vs, ns) ∧ u.tick.deputy = true ∧ u.tick.run ≠ .stopped) :=
  ⟨⟨0, (mkPk 2 0 0 0 (sealB (mkRec 60 [(0, 5)]))).bytes, mkPk 2 0 0 0 (sealB (mkRec 60 [(0, 5)])), upL (tk (fun t => { t with run := .running })), _, delivers_of (by decide +kernel), rfl, by decide +kernel, by decide +kernel, by decide +kernel, by decide +kernel, by decide +kernel, by decide +kernel⟩,
   ⟨0, (mkPk 2 0 0 0 (sealB (mkRec 60 [(0, 4)]))).bytes, mkPk 2 0 0 0 (sealB (mkRec 60 [(0, 4)])), upL (tk (fun t => { t with run := .running, now := 4 })), _, delivers_of (by decide +kernel), rfl, by decide +kernel, by decide +kernel, by decide +kernel, by decide +kernel, by decide +kernel, by decide +kernel, by decide +kernel⟩,
   ⟨0, (mkPk 3 0 0 0 (sealB (zeros 28))).bytes, mkPk 3 0 0 0 (sealB (zeros 28)), (upL (tk (fun t => { t with run := .running, replied := false }))).setRegN Reg.TCK_CHILD 1, _, delivers_of (by decide +kernel), rfl, by decide +kernel, by decide +kernel, by decide +kernel, by decide +kernel, by decide +kernel, by decide +kernel⟩,
   ⟨0, (mkPk 8 0 0 0 (zeros 2)).bytes, mkPk 8 0 0 0 (zeros 2), upL (tk (fun t => { t with master := true })), _, delivers_of (by decide +kernel), rfl, by decide +kernel, by decide +kernel, by decide +kernel⟩,
   ⟨0, (mkPk 24 0 0 0 (mkRec 16 [(0, 3)])).bytes, mkPk 24 0 0 0 (mkRec 16 [(0, 3)]), upL (tk (fun t => { t with master := true })), _, delivers_of (by decide +kernel), rfl, by decide +kernel, by decide +kernel, by decide +kernel, by decide +kernel, by decide +kernel, by decide +kernel⟩,
   ⟨0, (mkPk 24 0 0 0 (mkRec 16 [(0, 1), (2, 15)])).bytes, mkPk 24 0 0 0 (mkRec 16 [(0, 1), (2, 15)]), upL (tk (fun t => { t with master := true })), _, delivers_of (by decide +kernel), rfl, by decide +kernel, by decide +kernel, by decide +kernel, by decide +kernel, by decide +kernel⟩,
   ⟨0, (mkPk 4 0 0 0 (sealB (zeros 28) ++ sealB (zeros 60) ++ zeros 16)).bytes, mkPk 4 0 0 0 (sealB (zeros 28) ++ sealB (zeros 60) ++ zeros 16), [], [], upL (tk (fun t => { t with deputy := true, run := .running })), _, delivers_of (by decide +kernel), rfl, by decide +kernel, by decide +kernel, by decide +kernel⟩⟩

theorem test_witness_NoteVoteRule :
    (∃ c : Nat, ∃ e : Nat, ∃ s : State, (s.tick.votes.any (fun p => p.1 == c * 2 ^ 32 + e) = true)) ∧
    (∃ c : Nat, ∃ e : Nat, ∃ s : State, (s.tick.votes.any (fun p => p.1 == c * 2 ^ 32 + e) = false)) :=
  ⟨⟨0, 0, tk (fun t => { t with votes := [(0, 0)] }), by decide +kernel⟩,
   ⟨0, 0, r0, by decide +kernel⟩⟩

theorem test_witness_TickDeadlinesComplete :
    (∃ k : Nat, ∃ s : State, k ≤ s.tick.now) ∧
    (∃ k : Nat, ∃ s : State, s.tick.now < k) ∧
    (∃ l : Fin 24, ∃ s : State, s.tick.run ≠ .stopped ∧ s.tick.replied = false ∧ s.tick.heard.contains l.val = false ∧ s.children.contains l.val = true) ∧
    (∃ s : State, s.tick.deputy = true ∧ s.tick.run ≠ .stopped ∧ s.tick.firstTick ≤ s.tick.now ∧ s.tick.packets.any (fun p => p.1 == s.tick.now + 2) = false) ∧
    (∃ s : State, s.tick.run = .adrift ∧ 3 ≤ s.tick.adriftRun) ∧
    (∃ s : State, ¬(s.tick.run = .adrift ∧ 3 ≤ s.tick.adriftRun)) ∧
    (∃ c : Fin 16, ∃ s : State, s.tick.master = true ∧ s.loaded c = true ∧ (s.hasp c).stepOpen = true ∧ (s.ctx c).perm.state < 2 ∧ s.stepLen c ≤ (s.hasp c).stepTick + 2) ∧
    (∃ c : Fin 16, ∃ s : State, s.tick.master = true ∧ s.loaded c = true ∧ (s.view c).runs = true ∧ (s.view c).stepOpen = true ∧ (s.view c).stepEpoch = (s.view c).epoch + 2 ∧ 2 ≤ (s.view c).index s.tick.now ∧ s.announced c = false) ∧
    (∃ c : Fin 16, ∃ s : State, s.tick.master = true ∧ 2 ≤ (s.ctx c).perm.state ∧ (s.ctx c).perm.startTick + s.regN (Reg.FAB_PERM_CTRL c) / 65536 ≤ s.tick.now ∧ (bit s.tick.mergedReady c && decide ((s.hasp c).gate ≤ s.tick.mergedTick.getD 0)) = false) ∧
    (∃ a : Nat, ∃ s : State, (s.tick.master = true ∧ 3 ≤ s.silent a ∧ s.tick.dead.contains a = false)) ∧
    (∃ a : Nat, ∃ s : State, ¬(s.tick.master = true ∧ 3 ≤ s.silent a ∧ s.tick.dead.contains a = false)) :=
  ⟨⟨0, r0, by decide +kernel⟩,
   ⟨1, r0, by decide +kernel⟩,
   ⟨0, (tk (fun t => { t with run := .running, replied := false })).setRegN Reg.TCK_CHILD 1, by decide +kernel, by decide +kernel, by decide +kernel, by decide +kernel⟩,
   ⟨tk (fun t => { t with deputy := true, run := .running }), by decide +kernel, by decide +kernel, by decide +kernel, by decide +kernel⟩,
   ⟨tk (fun t => { t with run := .adrift, adriftRun := 3 }), by decide +kernel, by decide +kernel⟩,
   ⟨tk (fun t => { t with run := .adrift, adriftRun := 2 }), by decide +kernel⟩,
   ⟨0, (hs (fun h => { h with loaded := true, stepOpen := true })).modTick (fun t => { t with master := true }), by decide +kernel, by decide +kernel, by decide +kernel, by decide +kernel, by decide +kernel⟩,
   ⟨0, (hs (fun h => { h with loaded := true, stepOpen := true, phase := .running, stepEpoch := 2, stepTick := 2 })).modTick (fun t => { t with master := true }), by decide +kernel, by decide +kernel, by decide +kernel, by decide +kernel, by decide +kernel, by decide +kernel, by decide +kernel⟩,
   ⟨0, (cx (fun x => { x with perm := { x.perm with state := 2 } })).modTick (fun t => { t with master := true, now := 65536 }), by decide +kernel, by decide +kernel, by decide +kernel, by decide +kernel⟩,
   ⟨0, tk (fun t => { t with master := true, missCount := [(0, 3)] }), by decide +kernel⟩,
   ⟨0, tk (fun t => { t with master := true, missCount := [(0, 2)] }), by decide +kernel⟩⟩

theorem test_witness_OffsetMeasureRule :
    (∃ l : Fin 24, ∃ b : Bytes, ∃ p : Packet, ∃ s : State, ∃ u : State, Delivers s l b 0x05 p ∧ u = s.landed l p ∧ p.payload.length = 32 ∧ u.syncParent = some l.val) ∧
    (∃ l : Fin 24, ∃ b : Bytes, ∃ p : Packet, ∃ s : State, ∃ u : State, Delivers s l b 0x05 p ∧ u = s.landed l p ∧ p.payload.length = 32 ∧ u.syncParent ≠ some l.val ∧ (u.children ++ u.backupChildren).contains l.val = true) ∧
    (∃ s : State, ∃ l, s.syncParent = some l) ∧
    (∃ s : State, s.syncParent = none) :=
  ⟨⟨0, (mkPk 5 0 0 0 (zeros 32)).bytes, mkPk 5 0 0 0 (zeros 32), upL (tk (fun t => { t with tree := some 0x001F0000#32 })), _, delivers_of (by decide +kernel), rfl, by decide +kernel, by decide +kernel⟩,
   ⟨0, (mkPk 5 0 0 0 (zeros 32)).bytes, mkPk 5 0 0 0 (zeros 32), (upL r0).setRegN Reg.TCK_CHILD 1, _, delivers_of (by decide +kernel), rfl, by decide +kernel, by decide +kernel, by decide +kernel⟩,
   ⟨tk (fun t => { t with tree := some 0x001F0000#32 }), 0, by decide +kernel⟩,
   ⟨r0, by decide +kernel⟩⟩

theorem test_witness_FailoverCompletes :
    ∃ c : Fin 16, ∃ s : State, (s.hasp c).phase = .withheld ∧ (s.fabric.expects.any (fun x => x.ctx == c.val && x.kind == 1) = true) ∧ s.streamsDone c [1] = true :=
  ⟨0, let s := hs (fun h => { h with phase := .withheld }); { s with fabric := { s.fabric with expects := [⟨1, 0, ⟨0, 4, 0, 0⟩, 0, []⟩] } }, by decide +kernel, by decide +kernel, by decide +kernel⟩

theorem test_witness_TileRecordsComplete :
    (∃ u : Fin 256, ∃ r : Bytes, ∃ s : State, Admits s u r (matLegal r) true (matReads r u ++ (matWrites r u))) ∧
    (∃ u : Fin 256, ∃ r : Bytes, ∃ s : State, Admits s u r (chainLegal r) true (chainReads r u ++ (chainWrites r u))) ∧
    (∃ u : Fin 256, ∃ r : Bytes, ∃ s : State, Admits s u r (redLegal 0 r) true (rowReads r u ++ (rowWrites r u 1))) ∧
    (∃ u : Fin 256, ∃ r : Bytes, ∃ s : State, Admits s u r (redLegal 1 r) true (rowReads r u ++ (rowWrites r u 1))) ∧
    (∃ u : Fin 256, ∃ r : Bytes, ∃ s : State, Admits s u r (redLegal 2 r) true (rowReads r u ++ (rowWrites r u 1))) ∧
    (∃ u : Fin 256, ∃ r : Bytes, ∃ s : State, Admits s u r (redLegal 3 r) true (rowReads r u ++ (rowWrites r u 1))) ∧
    (∃ u : Fin 256, ∃ r : Bytes, ∃ s : State, Admits s u r (redLegal 4 r) true (rowReads r u ++ (rowWrites r u 1))) ∧
    (∃ u : Fin 256, ∃ r : Bytes, ∃ s : State, Admits s u r (smLegal false r) true (smReads r u ++ (rowWrites r u (u32 r 36)))) ∧
    (∃ u : Fin 256, ∃ r : Bytes, ∃ s : State, Admits s u r (smLegal true r) true (smReads r u ++ (rowWrites r u (u32 r 36)))) ∧
    (∃ u : Fin 256, ∃ r : Bytes, ∃ s : State, Admits s u r (nmLegal false r) true (nmReads r u ++ (rowWrites r u (u32 r 36)))) ∧
    (∃ u : Fin 256, ∃ r : Bytes, ∃ s : State, Admits s u r (nmLegal true r) true (nmReads r u ++ (rowWrites r u (u32 r 36)))) ∧
    (∃ u : Fin 256, ∃ r : Bytes, ∃ s : State, Admits s u r (rlLegal r) true (rlReads r u ++ (rlWrites r u))) ∧
    (∃ u : Fin 256, ∃ r : Bytes, ∃ s : State, Admits s u r (gsLegal 0 r) true ((gsIdx r u ++ gsTable r u) ++ (gsLocal r u))) ∧
    (∃ u : Fin 256, ∃ r : Bytes, ∃ s : State, Admits s u r (gsLegal 1 r) true ((gsIdx r u ++ gsLocal r u) ++ (gsTable r u))) ∧
    (∃ u : Fin 256, ∃ r : Bytes, ∃ s : State, Admits s u r (gsLegal 2 r) true ((gsIdx r u ++ gsLocal r u ++ gsTable r u) ++ (gsTable r u))) ∧
    (∃ u : Fin 256, ∃ r : Bytes, ∃ s : State, Admits s u r (qzLegal false r) true (qzPlain r u ++ (qzPlanes r u))) ∧
    (∃ u : Fin 256, ∃ r : Bytes, ∃ s : State, Admits s u r (qzLegal true r) true (qzPlanes r u ++ (qzPlain r u))) :=
  ⟨⟨0, mkRec 128 [(0, 1), (1, 1), (5, 1), (20, 64), (24, 128), (36, 1), (38, 1), (40, 1), (44, 1), (46, 1), (47, 1)], unitSt 0 [(0, 1), (1, 1), (5, 1), (20, 64), (24, 128), (36, 1), (38, 1), (40, 1), (44, 1), (46, 1), (47, 1)], admits_of (by decide +kernel)⟩,
   ⟨0, mkRec 128 [(0, 2), (1, 1), (5, 1), (28, 64), (36, 1), (40, 17), (44, 1), (64, 7)], unitSt 0 [(0, 2), (1, 1), (5, 1), (28, 64), (36, 1), (40, 17), (44, 1), (64, 7)], admits_of (by decide +kernel)⟩,
   ⟨0, mkRec 128 [(0, 3), (1, 1), (5, 1), (20, 64), (36, 1), (40, 1)], unitSt 0 [(0, 3), (1, 1), (5, 1), (20, 64), (36, 1), (40, 1)], admits_of (by decide +kernel)⟩,
   ⟨0, mkRec 128 [(0, 3), (1, 1), (5, 1), (20, 64), (35, 1), (36, 1), (40, 1)], unitSt 0 [(0, 3), (1, 1), (5, 1), (20, 64), (35, 1), (36, 1), (40, 1)], admits_of (by decide +kernel)⟩,
   ⟨0, mkRec 128 [(0, 3), (1, 1), (5, 1), (20, 64), (35, 2), (36, 1), (40, 1)], unitSt 0 [(0, 3), (1, 1), (5, 1), (20, 64), (35, 2), (36, 1), (40, 1)], admits_of (by decide +kernel)⟩,
   ⟨0, mkRec 128 [(0, 3), (1, 1), (5, 1), (20, 64), (35, 3), (36, 1), (40, 1)], unitSt 0 [(0, 3), (1, 1), (5, 1), (20, 64), (35, 3), (36, 1), (40, 1)], admits_of (by decide +kernel)⟩,
   ⟨0, mkRec 128 [(0, 3), (1, 1), (5, 1), (20, 64), (35, 4), (36, 1), (40, 1)], unitSt 0 [(0, 3), (1, 1), (5, 1), (20, 64), (35, 4), (36, 1), (40, 1)], admits_of (by decide +kernel)⟩,
   ⟨0, mkRec 128 [(0, 4), (1, 1), (5, 1), (20, 64), (36, 1), (40, 1)], unitSt 0 [(0, 4), (1, 1), (5, 1), (20, 64), (36, 1), (40, 1)], admits_of (by decide +kernel)⟩,
   ⟨0, mkRec 128 [(0, 4), (1, 1), (5, 1), (20, 64), (35, 1), (36, 1), (40, 1)], unitSt 0 [(0, 4), (1, 1), (5, 1), (20, 64), (35, 1), (36, 1), (40, 1)], admits_of (by decide +kernel)⟩,
   ⟨0, mkRec 128 [(0, 5), (1, 1), (5, 1), (20, 64), (36, 1), (40, 1)], unitSt 0 [(0, 5), (1, 1), (5, 1), (20, 64), (36, 1), (40, 1)], admits_of (by decide +kernel)⟩,
   ⟨0, mkRec 128 [(0, 5), (1, 1), (5, 1), (20, 64), (35, 1), (36, 1), (40, 1)], unitSt 0 [(0, 5), (1, 1), (5, 1), (20, 64), (35, 1), (36, 1), (40, 1)], admits_of (by decide +kernel)⟩,
   ⟨0, mkRec 64 [(0, 6), (5, 1), (20, 64), (26, 228), (28, 1), (30, 1), (32, 1), (34, 1)], unitSt 0 [(0, 6), (5, 1), (20, 64), (26, 228), (28, 1), (30, 1), (32, 1), (34, 1)], admits_of (by decide +kernel)⟩,
   ⟨0, mkRec 64 [(0, 10), (5, 1), (28, 64), (32, 4), (36, 1), (40, 1), (44, 4)], unitSt 0 [(0, 10), (5, 1), (28, 64), (32, 4), (36, 1), (40, 1), (44, 4)], admits_of (by decide +kernel)⟩,
   ⟨0, mkRec 64 [(0, 10), (5, 1), (16, 1), (28, 64), (32, 4), (36, 1), (40, 1), (44, 4)], unitSt 0 [(0, 10), (5, 1), (16, 1), (28, 64), (32, 4), (36, 1), (40, 1), (44, 4)], admits_of (by decide +kernel)⟩,
   ⟨0, mkRec 64 [(0, 10), (5, 1), (16, 2), (28, 64), (32, 4), (36, 1), (40, 1), (44, 4)], unitSt 0 [(0, 10), (5, 1), (16, 2), (28, 64), (32, 4), (36, 1), (40, 1), (44, 4)], admits_of (by decide +kernel)⟩,
   ⟨0, mkRec 128 [(0, 11), (1, 1), (5, 1), (20, 64), (29, 3), (32, 1), (36, 1)], unitSt 0 [(0, 11), (1, 1), (5, 1), (20, 64), (29, 3), (32, 1), (36, 1)], admits_of (by decide +kernel)⟩,
   ⟨0, mkRec 128 [(0, 11), (1, 1), (5, 1), (20, 64), (29, 3), (30, 1), (32, 1), (36, 1)], unitSt 0 [(0, 11), (1, 1), (5, 1), (20, 64), (29, 3), (30, 1), (32, 1), (36, 1)], admits_of (by decide +kernel)⟩⟩

theorem test_witness_WindowAndAttentionRecordsComplete :
    (∃ u : Fin 256, ∃ r : Bytes, ∃ s : State, Admits s u r (swLegal 0 r) true (swReads r u ++ (swWrites r u))) ∧
    (∃ u : Fin 256, ∃ r : Bytes, ∃ s : State, Admits s u r (swLegal 1 r) true (swReads r u ++ (swWrites r u))) ∧
    (∃ u : Fin 256, ∃ r : Bytes, ∃ s : State, Admits s u r (swLegal 2 r) true (swReads r u ++ (swWrites r u))) ∧
    (∃ u : Fin 256, ∃ r : Bytes, ∃ s : State, Admits s u r (swLegal 3 r) true (swReads r u ++ (swWrites r u))) ∧
    (∃ u : Fin 256, ∃ r : Bytes, ∃ s : State, Admits s u r (swLegal 4 r) true (swReads r u ++ (swWrites r u))) ∧
    (∃ u : Fin 256, ∃ r : Bytes, ∃ s : State, Admits s u r (atLegal 0 r) true (s.atReads (s.runCtx (recCtx r) u r) r ++ (s.atOuts (s.runCtx (recCtx r) u r) r))) ∧
    (∃ u : Fin 256, ∃ r : Bytes, ∃ s : State, Admits s u r (atLegal 1 r) true (s.atReads (s.runCtx (recCtx r) u r) r ++ (s.atOuts (s.runCtx (recCtx r) u r) r))) ∧
    (∃ u : Fin 256, ∃ r : Bytes, ∃ s : State, Admits s u r (atLegal 2 r) true (s.atReads (s.runCtx (recCtx r) u r) r ++ (s.atOuts (s.runCtx (recCtx r) u r) r))) ∧
    (∃ u : Fin 256, ∃ r : Bytes, ∃ s : State, Admits s u r (mgLegal r) true (mgReads r u ++ (mgWrites r u))) :=
  ⟨⟨0, mkRec 128 [(0, 7), (1, 1), (5, 1), (18, 1), (19, 1), (20, 1), (21, 17), (22, 17), (23, 17), (26, 1), (33, 2), (37, 4), (44, 1), (46, 1), (48, 1), (50, 1), (52, 1), (54, 1), (56, 1), (64, 4), (76, 4), (90, 128), (91, 63)], unitSt 0 [(0, 7), (1, 1), (5, 1), (18, 1), (19, 1), (20, 1), (21, 17), (22, 17), (23, 17), (26, 1), (33, 2), (37, 4), (44, 1), (46, 1), (48, 1), (50, 1), (52, 1), (54, 1), (56, 1), (64, 4), (76, 4), (90, 128), (91, 63)], admits_of (by decide +kernel)⟩,
   ⟨0, mkRec 128 [(0, 7), (1, 1), (5, 1), (16, 1), (21, 17), (22, 17), (23, 17), (26, 1), (37, 4), (44, 1), (46, 1), (48, 1), (50, 1), (52, 1), (54, 1), (56, 1), (64, 4), (76, 4), (90, 128), (91, 63)], unitSt 0 [(0, 7), (1, 1), (5, 1), (16, 1), (21, 17), (22, 17), (23, 17), (26, 1), (37, 4), (44, 1), (46, 1), (48, 1), (50, 1), (52, 1), (54, 1), (56, 1), (64, 4), (76, 4), (90, 128), (91, 63)], admits_of (by decide +kernel)⟩,
   ⟨0, mkRec 128 [(0, 7), (1, 1), (5, 1), (16, 2), (21, 17), (22, 17), (23, 17), (26, 1), (37, 4), (44, 1), (46, 1), (48, 1), (50, 1), (52, 1), (54, 1), (56, 1), (64, 4), (76, 4), (90, 128), (91, 63)], unitSt 0 [(0, 7), (1, 1), (5, 1), (16, 2), (21, 17), (22, 17), (23, 17), (26, 1), (37, 4), (44, 1), (46, 1), (48, 1), (50, 1), (52, 1), (54, 1), (56, 1), (64, 4), (76, 4), (90, 128), (91, 63)], admits_of (by decide +kernel)⟩,
   ⟨0, mkRec 128 [(0, 7), (1, 1), (5, 1), (16, 3), (21, 17), (22, 17), (23, 17), (26, 1), (37, 4), (44, 1), (46, 1), (48, 1), (50, 1), (52, 1), (54, 1), (56, 1), (64, 4), (76, 4), (90, 128), (91, 63)], unitSt 0 [(0, 7), (1, 1), (5, 1), (16, 3), (21, 17), (22, 17), (23, 17), (26, 1), (37, 4), (44, 1), (46, 1), (48, 1), (50, 1), (52, 1), (54, 1), (56, 1), (64, 4), (76, 4), (90, 128), (91, 63)], admits_of (by decide +kernel)⟩,
   ⟨0, mkRec 128 [(0, 7), (1, 1), (5, 1), (16, 4), (21, 17), (22, 17), (23, 17), (26, 1), (37, 4), (44, 1), (46, 1), (48, 1), (50, 1), (52, 1), (54, 1), (56, 1), (64, 4), (76, 4), (90, 128), (91, 63)], unitSt 0 [(0, 7), (1, 1), (5, 1), (16, 4), (21, 17), (22, 17), (23, 17), (26, 1), (37, 4), (44, 1), (46, 1), (48, 1), (50, 1), (52, 1), (54, 1), (56, 1), (64, 4), (76, 4), (90, 128), (91, 63)], admits_of (by decide +kernel)⟩,
   ⟨0, mkRec 128 [(0, 8), (1, 1), (5, 1), (17, 1), (18, 1), (21, 6), (24, 1), (26, 1)], unitSt 0 [(0, 8), (1, 1), (5, 1), (17, 1), (18, 1), (21, 6), (24, 1), (26, 1)], admits_of (by decide +kernel)⟩,
   ⟨0, mkRec 128 [(0, 8), (1, 1), (5, 1), (16, 1), (17, 1), (18, 1), (21, 6), (24, 1), (26, 1)], unitSt 0 [(0, 8), (1, 1), (5, 1), (16, 1), (17, 1), (18, 1), (21, 6), (24, 1), (26, 1)], admits_of (by decide +kernel)⟩,
   ⟨0, mkRec 128 [(0, 8), (1, 1), (5, 1), (16, 2), (18, 1), (21, 6), (24, 1), (26, 1)], unitSt 0 [(0, 8), (1, 1), (5, 1), (16, 2), (18, 1), (21, 6), (24, 1), (26, 1)], admits_of (by decide +kernel)⟩,
   ⟨0, mkRec 128 [(0, 9), (1, 1), (5, 1), (17, 1), (19, 6), (20, 1), (22, 1)], unitSt 0 [(0, 9), (1, 1), (5, 1), (17, 1), (19, 6), (20, 1), (22, 1)], admits_of (by decide +kernel)⟩⟩

theorem test_witness_TransferAndCheckerRecordsComplete :
    (∃ u : Fin 256, ∃ r : Bytes, ∃ s : State, (Admits s u r (sendLegal r) true (sendReads r u ++ (if sendBinds r then [] else sendWrites r)))) ∧
    (∃ u : Fin 256, ∃ r : Bytes, ∃ s : State, Admits s u r (recvLegal 0 r) true ([⟨2, 0, xfStage r, xfBytes r⟩, recvDst r u])) ∧
    (∃ u : Fin 256, ∃ r : Bytes, ∃ s : State, Admits s u r (recvLegal 1 r) true ([⟨2, 0, xfStage r, xfBytes r⟩, recvDst r u])) ∧
    (∃ u : Fin 256, ∃ r : Bytes, ∃ s : State, Admits s u r (recvLegal 2 r) true ([⟨2, 0, xfStage r, xfBytes r⟩, recvDst r u])) ∧
    (∃ w : Fin 16, ∃ r : Bytes, ∃ s : State, Admits s (256 + w) r (dmFields r && !recNext r) true (dmRegion r w (s.frameArg (recCtx r)) false ++ dmRegion r w (s.frameArg (recCtx r)) true)) ∧
    (∃ w : Fin 16, ∃ r : Bytes, ∃ l : Ledger, ∃ p : Region × Region, ∃ s : State, s.entryOf (recCtx r) r w = some l ∧ p = s.nextMove (recCtx r) r l ∧ Admits s (256 + w) r (dmFields r && recNext r && dmSpace r false == 3 && decide (dmSpace r true ≤ 1)) true [p.1, p.2]) ∧
    (∃ u : Fin 256, ∃ r : Bytes, ∃ s : State, Admits s u r (checkLegal 0 r) true [⟨0, u, u32 r 20, 8⟩]) ∧
    (∃ u : Fin 256, ∃ r : Bytes, ∃ s : State, Admits s u r (checkLegal 1 r) true [⟨0, u, u32 r 20, 8⟩]) :=
  ⟨⟨0, mkRec 64 [(0, 12), (5, 1), (32, 4)], unitSt 0 [(0, 12), (5, 1), (32, 4)], admits_of (by decide +kernel)⟩,
   ⟨0, mkRec 64 [(0, 13), (5, 1), (32, 4)], unitSt 0 [(0, 13), (5, 1), (32, 4)], admits_of (by decide +kernel)⟩,
   ⟨0, mkRec 64 [(0, 13), (5, 1), (17, 1), (32, 4)], unitSt 0 [(0, 13), (5, 1), (17, 1), (32, 4)], admits_of (by decide +kernel)⟩,
   ⟨0, mkRec 64 [(0, 13), (5, 1), (17, 2), (32, 4)], unitSt 0 [(0, 13), (5, 1), (17, 2), (32, 4)], admits_of (by decide +kernel)⟩,
   ⟨0, mkRec 64 [(0, 14), (5, 1), (17, 1), (32, 4), (36, 1)], unitSt 256 [(0, 14), (5, 1), (17, 1), (32, 4), (36, 1)], admits_of (by decide +kernel)⟩,
   ⟨0, mkRec 64 [(0, 14), (1, 16), (5, 1), (16, 3), (17, 1), (27, 128), (32, 4), (36, 1), (56, 1)], ⟨4, 1, 256, 0, 0x8000, 128, 1, 0⟩, _, unitSt 256 [(0, 14), (1, 16), (5, 1), (16, 3), (17, 1), (27, 128), (32, 4), (36, 1), (56, 1)], by decide +kernel, rfl, admits_of (by decide +kernel)⟩,
   ⟨0, mkRec 64 [(0, 16), (5, 1)], unitSt 0 [(0, 16), (5, 1)], admits_of (by decide +kernel)⟩,
   ⟨0, mkRec 64 [(0, 16), (5, 1), (16, 1)], unitSt 0 [(0, 16), (5, 1), (16, 1)], admits_of (by decide +kernel)⟩⟩

theorem test_witness_UpdateRecordsComplete :
    (∃ w : Fin 16, ∃ r : Bytes, ∃ env : RunEnv, ∃ s : State, ∃ t : State, ∃ q : UpCtx, ∃ rd : List Region, ∃ wr : List Region, q = s.upCtx (recCtx r) w r ∧ rd = upGregion r w (upCount r) :: s.elemOuts q r (q.x - 1) ++ s.upCommon q r ∧ wr = s.elemOuts q r q.x ∧ Admits s (272 + w) r (upLegal 0x20 r) true (rd ++ wr) ∧ t = s.issued (272 + w) r env.late ∧ (t.escapeBytes env.errs.dram).blocksOk q r = true) ∧
    (∃ w : Fin 16, ∃ r : Bytes, ∃ env : RunEnv, ∃ s : State, ∃ t : State, ∃ q : UpCtx, ∃ rd : List Region, ∃ wr : List Region, q = s.upCtx (recCtx r) w r ∧ rd = upGregion r w (upCount r) :: s.upCommon q r ∧ wr = [] ∧ Admits s (272 + w) r (upLegal 0x21 r) true (rd ++ wr) ∧ t = s.issued (272 + w) r env.late ∧ (t.escapeBytes env.errs.dram).blocksOk q r = true) ∧
    (∃ w : Fin 16, ∃ r : Bytes, ∃ env : RunEnv, ∃ s : State, ∃ t : State, ∃ q : UpCtx, ∃ rd : List Region, ∃ wr : List Region, q = s.upCtx (recCtx r) w r ∧ rd = [] ∧ wr = [⟨2, 0, u32 r 68, 8⟩] ∧ Admits s (272 + w) r (upLegal 0x22 r) true (rd ++ wr) ∧ t = s.issued (272 + w) r env.late ∧ (t.escapeBytes env.errs.dram).blocksOk q r = true) ∧
    (∃ w : Fin 16, ∃ r : Bytes, ∃ env : RunEnv, ∃ s : State, ∃ t : State, ∃ q : UpCtx, ∃ rd : List Region, ∃ wr : List Region, q = s.upCtx (recCtx r) w r ∧ rd = s.upCommon q r ∧ wr = [s.lsRegion q r q.x] ∧ Admits s (272 + w) r (upLegal 0x23 r) true (rd ++ wr) ∧ t = s.issued (272 + w) r env.late ∧ (t.escapeBytes env.errs.dram).blocksOk q r = true) ∧
    (∃ w : Fin 16, ∃ r : Bytes, ∃ env : RunEnv, ∃ s : State, ∃ t : State, ∃ q : UpCtx, ∃ rd : List Region, ∃ wr : List Region, q = s.upCtx (recCtx r) w r ∧ (rd = s.upCommon q r ++ (if s.skips q r then carryRegions r w (q.x - 1) else [])) ∧ (wr = (if s.skips q r then carryRegions r w q.x else [])) ∧ Admits s (272 + w) r (upLegal 0x24 r) true (rd ++ wr) ∧ t = s.issued (272 + w) r env.late ∧ (t.escapeBytes env.errs.dram).blocksOk q r = true) ∧
    (∃ w : Fin 16, ∃ r : Bytes, ∃ env : RunEnv, ∃ s : State, ∃ t : State, ∃ q : UpCtx, ∃ rd : List Region, ∃ wr : List Region, q = s.upCtx (recCtx r) w r ∧ rd = upGregion r w (upM r * upN r) :: orthoOuts r w (q.x - 1) ++ s.upCommon q r ∧ wr = orthoOuts r w q.x ∧ Admits s (272 + w) r (upLegal 0x25 r) true (rd ++ wr) ∧ t = s.issued (272 + w) r env.late ∧ (t.escapeBytes env.errs.dram).blocksOk q r = true) ∧
    (∃ w : Fin 16, ∃ r : Bytes, ∃ env : RunEnv, ∃ s : State, ∃ t : State, ∃ q : UpCtx, ∃ rd : List Region, ∃ wr : List Region, q = s.upCtx (recCtx r) w r ∧ rd = upGregion r w (upM r * upN r) :: kstatOuts r w (q.x - 1) ++ s.upCommon q r ∧ wr = kstatOuts r w q.x ∧ Admits s (272 + w) r (upLegal 0x26 r) true (rd ++ wr) ∧ t = s.issued (272 + w) r env.late ∧ (t.escapeBytes env.errs.dram).blocksOk q r = true) ∧
    (∃ w : Fin 16, ∃ r : Bytes, ∃ env : RunEnv, ∃ s : State, ∃ t : State, ∃ q : UpCtx, ∃ rd : List Region, ∃ wr : List Region, q = s.upCtx (recCtx r) w r ∧ rd = ⟨upSpace r, upUnit w (upSpace r), upHalf r 24 (q.x - 1), upM r * upM r * 4⟩ :: krootOuts r w (q.x - 1) ++ s.upCommon q r ∧ wr = krootOuts r w q.x ∧ Admits s (272 + w) r (upLegal 0x27 r) true (rd ++ wr) ∧ t = s.issued (272 + w) r env.late ∧ (t.escapeBytes env.errs.dram).blocksOk q r = true) ∧
    (∃ w : Fin 16, ∃ r : Bytes, ∃ env : RunEnv, ∃ s : State, ∃ t : State, ∃ q : UpCtx, ∃ rd : List Region, ∃ wr : List Region, q = s.upCtx (recCtx r) w r ∧ rd = upGregion r w (upM r * upN r) :: kstatOuts r w (q.x - 1) ++ kapplyOuts r w (q.x - 1) ++ s.upCommon q r ∧ wr = kapplyOuts r w q.x ∧ Admits s (272 + w) r (upLegal 0x28 r) true (rd ++ wr) ∧ t = s.issued (272 + w) r env.late ∧ (t.escapeBytes env.errs.dram).blocksOk q r = true) ∧
    (∃ w : Fin 16, ∃ r : Bytes, ∃ env : RunEnv, ∃ s : State, ∃ t : State, ∃ q : UpCtx, ∃ rd : List Region, ∃ wr : List Region, q = s.upCtx (recCtx r) w r ∧ rd = ⟨1, w, u32 r 92, u32 r 96 * 4⟩ :: upGregion r w (u32 r 96 * upCount r) :: ((s.vlistGood q r).map (fun p => s.slotRegions q r p.2 (s.slotCur q r p.2))).flatten ++ s.upCommon q r ∧ wr = s.variantOuts q r ∧ Admits s (272 + w) r (upLegal 0x29 r) true (rd ++ wr) ∧ t = s.issued (272 + w) r env.late ∧ (t.escapeBytes env.errs.dram).blocksOk q r = true) :=
  ⟨⟨0, mkRec 128 [(0, 32), (1, 1), (5, 1), (16, 17), (21, 32), (25, 1), (28, 4), (29, 1), (32, 8), (33, 1), (36, 12), (37, 1), (40, 1), (48, 1), (60, 64), (64, 16), (65, 1)], e0, unitSt 272 [(0, 32), (1, 1), (5, 1), (16, 17), (21, 32), (25, 1), (28, 4), (29, 1), (32, 8), (33, 1), (36, 12), (37, 1), (40, 1), (48, 1), (60, 64), (64, 16), (65, 1)], _, _, _, _, rfl, rfl, rfl, admits_of (by decide +kernel), rfl, by decide +kernel⟩,
   ⟨0, mkRec 128 [(0, 33), (1, 1), (5, 1), (16, 17), (21, 32), (40, 1), (48, 1), (64, 16), (65, 1)], e0, unitSt 272 [(0, 33), (1, 1), (5, 1), (16, 17), (21, 32), (40, 1), (48, 1), (64, 16), (65, 1)], _, _, _, _, rfl, rfl, rfl, admits_of (by decide +kernel), rfl, by decide +kernel⟩,
   ⟨0, mkRec 128 [(0, 34), (1, 1), (5, 1)], e0, unitSt 272 [(0, 34), (1, 1), (5, 1)], _, _, _, _, rfl, rfl, rfl, admits_of (by decide +kernel), rfl, by decide +kernel⟩,
   ⟨0, mkRec 128 [(0, 35), (1, 1), (5, 1), (16, 1), (64, 16), (65, 1)], e0, unitSt 272 [(0, 35), (1, 1), (5, 1), (16, 1), (64, 16), (65, 1)], _, _, _, _, rfl, rfl, rfl, admits_of (by decide +kernel), rfl, by decide +kernel⟩,
   ⟨0, mkRec 128 [(0, 36), (1, 1), (5, 1), (16, 1), (25, 1), (32, 8), (33, 1), (40, 1), (48, 1), (52, 32), (64, 16), (65, 1)], e0, unitSt 272 [(0, 36), (1, 1), (5, 1), (16, 1), (25, 1), (32, 8), (33, 1), (40, 1), (48, 1), (52, 32), (64, 16), (65, 1)], _, _, _, _, rfl, rfl, rfl, admits_of (by decide +kernel), rfl, by decide +kernel⟩,
   ⟨0, mkRec 128 [(0, 37), (1, 1), (5, 1), (16, 17), (21, 32), (25, 1), (28, 4), (29, 1), (32, 8), (33, 1), (36, 12), (37, 1), (44, 1), (46, 1), (48, 1), (60, 64), (64, 16), (65, 1), (76, 64)], e0, unitSt 272 [(0, 37), (1, 1), (5, 1), (16, 17), (21, 32), (25, 1), (28, 4), (29, 1), (32, 8), (33, 1), (36, 12), (37, 1), (44, 1), (46, 1), (48, 1), (60, 64), (64, 16), (65, 1), (76, 64)], _, _, _, _, rfl, rfl, rfl, admits_of (by decide +kernel), rfl, by decide +kernel⟩,
   ⟨0, mkRec 128 [(0, 38), (1, 1), (5, 1), (16, 17), (21, 32), (44, 1), (46, 1), (48, 1), (64, 16), (65, 1), (76, 64), (80, 24), (81, 1), (84, 28), (85, 1)], e0, unitSt 272 [(0, 38), (1, 1), (5, 1), (16, 17), (21, 32), (44, 1), (46, 1), (48, 1), (64, 16), (65, 1), (76, 64), (80, 24), (81, 1), (84, 28), (85, 1)], _, _, _, _, rfl, rfl, rfl, admits_of (by decide +kernel), rfl, by decide +kernel⟩,
   ⟨0, mkRec 128 [(0, 39), (1, 1), (5, 1), (16, 1), (28, 4), (29, 1), (44, 1), (46, 1), (48, 1), (76, 64)], e0, unitSt 272 [(0, 39), (1, 1), (5, 1), (16, 1), (28, 4), (29, 1), (44, 1), (46, 1), (48, 1), (76, 64)], _, _, _, _, rfl, rfl, rfl, admits_of (by decide +kernel), rfl, by decide +kernel⟩,
   ⟨0, mkRec 128 [(0, 40), (1, 1), (5, 1), (16, 17), (21, 32), (25, 1), (28, 4), (29, 1), (44, 1), (46, 1), (48, 1), (60, 64), (64, 16), (65, 1), (76, 64), (80, 24), (81, 1), (84, 28), (85, 1)], e0, unitSt 272 [(0, 40), (1, 1), (5, 1), (16, 17), (21, 32), (25, 1), (28, 4), (29, 1), (44, 1), (46, 1), (48, 1), (60, 64), (64, 16), (65, 1), (76, 64), (80, 24), (81, 1), (84, 28), (85, 1)], _, _, _, _, rfl, rfl, rfl, admits_of (by decide +kernel), rfl, by decide +kernel⟩,
   ⟨0, mkRec 128 [(0, 41), (1, 1), (5, 1), (16, 17), (21, 32), (25, 1), (28, 4), (29, 1), (32, 8), (33, 1), (36, 12), (37, 1), (40, 1), (48, 1), (60, 64), (64, 16), (65, 1), (92, 40), (93, 35), (96, 1)], e0, unitSt 272 [(0, 41), (1, 1), (5, 1), (16, 17), (21, 32), (25, 1), (28, 4), (29, 1), (32, 8), (33, 1), (36, 12), (37, 1), (40, 1), (48, 1), (60, 64), (64, 16), (65, 1), (92, 40), (93, 35), (96, 1)], _, _, _, _, rfl, rfl, rfl, admits_of (by decide +kernel), rfl, by decide +kernel⟩⟩

theorem test_witness_BoltRecordsComplete :
    (∃ u : Fin 288, ∃ r : Bytes, ∃ s : State, Admits s u r (boltLegal 0 r) (s.boltReach (recCtx r) 0 (boltNo r)) []) ∧
    (∃ u : Fin 288, ∃ r : Bytes, ∃ s : State, Admits s u r (boltLegal 1 r) (s.boltReach (recCtx r) 1 (boltNo r)) []) ∧
    (∃ u : Fin 288, ∃ r : Bytes, ∃ s : State, Admits s u r (boltLegal 2 r) (s.boltReach (recCtx r) 2 (boltNo r)) []) ∧
    (∃ u : Fin 288, ∃ o : OpenRec, ∃ rest : List OpenRec, ∃ s : State, (s.unit u).queue = o :: rest ∧ s.unsatisfied u o = true) :=
  ⟨⟨0, mkRec 64 [(0, 15), (5, 1), (20, 1)], unitSt 0 [(0, 15), (5, 1), (20, 1)], admits_of (by decide +kernel)⟩,
   ⟨0, mkRec 64 [(0, 15), (5, 1), (16, 1), (20, 1)], unitSt 0 [(0, 15), (5, 1), (16, 1), (20, 1)], admits_of (by decide +kernel)⟩,
   ⟨0, mkRec 64 [(0, 15), (5, 1), (16, 2), (20, 1)], unitSt 0 [(0, 15), (5, 1), (16, 2), (20, 1)], admits_of (by decide +kernel)⟩,
   ⟨0, ⟨mkRec 64 [(0, 15), (20, 1)], 0, 0, 0, [], [], true⟩, [], { (r0.modUnit 0 (fun x => { x with queue := [⟨mkRec 64 [(0, 15), (20, 1)], 0, 0, 0, [], [], true⟩] })) with bolts := [(0, { waits := [⟨0, 1, none, 0, 0⟩] })] }, by decide +kernel, by decide +kernel⟩⟩

theorem test_witness_BoltRule :
    (∃ s : State, ∃ b : Nat, (s.bolt b).waits = []) ∧
    (∃ s : State, ∃ b : Nat, ∃ a, (s.bolt b).waits = [] ∧ a ≠ b) ∧
    (∃ s : State, ∃ b : Nat, ∃ v : W32, (s.bolt b).waits = [] ∧ 0xFFFFFFFF < (s.bolt b).count.toNat + v.toNat) ∧
    (∃ s : State, ∃ b : Nat, ∃ v : W32, (s.bolt b).waits = [] ∧ (s.bolt b).count.toNat + v.toNat ≤ 0xFFFFFFFF) ∧
    (∃ s : State, ∃ b : Nat, ∃ w : Wait, (s.bolt b).waits = [] ∧ w.amount ≤ (s.bolt b).count.toNat) ∧
    (∃ s : State, ∃ b : Nat, ∃ w : Wait, ∃ a, (s.bolt b).waits = [] ∧ w.amount ≤ (s.bolt b).count.toNat ∧ a ≠ b) ∧
    (∃ s : State, ∃ b : Nat, ∃ w : Wait, (s.bolt b).waits = [] ∧ (s.bolt b).count.toNat < w.amount) ∧
    (∃ s : State, ∃ b : Nat, ∃ w : Wait, ∃ a, (s.bolt b).waits = [] ∧ (s.bolt b).count.toNat < w.amount ∧ a ≠ b) :=
  ⟨⟨r0, 0, by decide +kernel⟩,
   ⟨r0, 0, 1, by decide +kernel, by decide +kernel⟩,
   ⟨{ r0 with bolts := [(0, { count := 0xFFFFFFFF#32 })] }, 0, 1, by decide +kernel, by decide +kernel⟩,
   ⟨r0, 0, 0xFFFFFFFF#32, by decide +kernel, by decide +kernel⟩,
   ⟨r0, 0, ⟨0, 0, none, 0, 0⟩, by decide +kernel, by decide +kernel⟩,
   ⟨r0, 0, ⟨0, 0, none, 0, 0⟩, 1, by decide +kernel, by decide +kernel, by decide +kernel⟩,
   ⟨r0, 0, ⟨0, 1, none, 0, 0⟩, by decide +kernel, by decide +kernel⟩,
   ⟨r0, 0, ⟨0, 1, none, 0, 0⟩, 1, by decide +kernel, by decide +kernel, by decide +kernel⟩⟩

theorem test_witness_BoltQueueRule :
    ∃ l : List Wait, ∃ k, ∃ w, w ∈ (l.drop k).head? :=
  ⟨[⟨0, 1, none, 0, 0⟩], 0, ⟨0, 1, none, 0, 0⟩, by decide⟩

theorem test_witness_RecordRetires :
    (∃ u : Fin 288, ∃ o : OpenRec, ∃ rest : List OpenRec, ∃ s : State, (s.unit u).queue = o :: rest ∧ s.unsatisfied u o = false ∧ o.gen ≠ (s.hasp o.ctx).gen) ∧
    (∃ u : Fin 288, ∃ o : OpenRec, ∃ rest : List OpenRec, ∃ s : State, (s.unit u).queue = o :: rest ∧ s.unsatisfied u o = false ∧ o.gen = (s.hasp o.ctx).gen) :=
  ⟨⟨0, ⟨[], 0, 1, 0, [], [], false⟩, [], r0.modUnit 0 (fun x => { x with queue := [⟨[], 0, 1, 0, [], [], false⟩] }), by decide +kernel, by decide +kernel, by decide +kernel⟩,
   ⟨0, ⟨[], 0, 0, 0, [], [], false⟩, [], r0.modUnit 0 (fun x => { x with queue := [⟨[], 0, 0, 0, [], [], false⟩] }), by decide +kernel, by decide +kernel, by decide +kernel⟩⟩

theorem test_witness_RecordOutsideRunTick :
    (∃ u : Nat, ∃ r : Bytes, ∃ s : State, (s.issues (s.selected u) = false ∨ s.wardOut u = true ∨ s.seqNext (s.selected u) u ≠ some r)) ∧
    (∃ u : Nat, ∃ r : Bytes, ∃ s : State, s.issues (s.selected u) = true ∧ s.wardOut u = false ∧ s.seqNext (s.selected u) u = some r ∧ recCtx r ≠ s.selected u) ∧
    (∃ u : Nat, ∃ r : Bytes, ∃ legal : Bool, ∃ regions : List Region, ∃ s : State, s.issues (s.selected u) = true ∧ s.wardOut u = false ∧ s.seqNext (s.selected u) u = some r ∧ recCtx r = s.selected u ∧ (headLegal r u && legal && regionsFit regions) = false) ∧
    (∃ u : Nat, ∃ r : Bytes, ∃ legal : Bool, ∃ reach : Bool, ∃ regions : List Region, ∃ s : State, s.issues (s.selected u) = true ∧ s.wardOut u = false ∧ s.seqNext (s.selected u) u = some r ∧ recCtx r = s.selected u ∧ (headLegal r u && legal && regionsFit regions) = true ∧ (reach = false ∨ ∃ g ∈ regions, s.inPart (recCtx r) g.space g.addr g.len = false)) :=
  ⟨⟨0, zeros 64, r0, by decide +kernel⟩,
   ⟨0, mkRec 64 [(0, 16), (5, 1), (8, 1)], unitSt 0 [(0, 16), (5, 1), (8, 1)], by decide +kernel, by decide +kernel, by decide +kernel, by decide +kernel⟩,
   ⟨0, mkRec 64 [(0, 16), (5, 1)], false, [], unitSt 0 [(0, 16), (5, 1)], by decide +kernel, by decide +kernel, by decide +kernel, by decide +kernel, by decide +kernel⟩,
   ⟨0, mkRec 64 [(0, 16), (5, 1)], true, false, [], unitSt 0 [(0, 16), (5, 1)], by decide +kernel, by decide +kernel, by decide +kernel, by decide +kernel, by decide +kernel, by decide +kernel⟩⟩

theorem test_witness_RecordFrame :
    ∃ c : Instr, ∃ s : State, ∃ t : State, isRecord c = true ∧ exec c s = .next t :=
  ⟨.boltSet 0 (mkRec 64 [(0, 15), (5, 1), (16, 2), (20, 1)]) false, unitSt 0 [(0, 15), (5, 1), (16, 2), (20, 1)], _, by decide +kernel, next_of (by decide +kernel)⟩

theorem test_witness_RecordStoresItsGroups :
    (∃ r : Bytes, ∃ o : RunOut, (recShadow r = true ∨ o.malformed = true)) ∧
    (∃ r : Bytes, ∃ o : RunOut, recShadow r = false ∧ o.malformed = false) :=
  ⟨⟨zeros 64, { groups := [], malformed := true }, by decide +kernel⟩,
   ⟨zeros 64, { groups := [] }, by decide +kernel, by decide +kernel⟩⟩

theorem test_witness_RecordWriteFrame :
    (∃ c : Nat, ∃ sp : Nat, ∃ a : Nat, ∃ b : Bytes, ∃ s : State, ∃ x, (∀ i < b.length, s.devAddr c sp (a + i) ≠ some x) ∧ (x < (s.partition c sp).1 + a ∨ (s.partition c sp).1 + a + b.length ≤ x)) ∧
    (∃ sp : Nat, ∃ sp', sp < 5 ∧ sp' < 5 ∧ sp' ≠ sp) ∧
    (∃ c : Nat, ∃ sp : Nat, ∃ s : State, sp ≠ 3 ∧ s.lateWrites c = false) :=
  ⟨⟨0, 3, 0, [1], r0, 1, by decide +kernel, by decide +kernel⟩,
   ⟨4, 3, by decide +kernel, by decide +kernel, by decide +kernel⟩,
   ⟨0, 4, r0, by decide +kernel, by decide +kernel⟩⟩

theorem test_witness_MemoryWritesKeepForm :
    ∃ s : State, s.memoryOk = true :=
  ⟨r0, by decide +kernel⟩

theorem test_witness_PacketCommandsComplete :
    (∃ l : Fin 24, ∃ b : Bytes, ∃ p : Packet, ∃ k : Nat, ∃ x : RxRes, ∃ s : State, ∃ u : State, Delivers s l b 0x01 p ∧ u = s.landed l p ∧ u.rxByPair p.ctx (p.arg % 2 ^ 32) = some (k, x) ∧ mirrorResv k (p.arg % 2 ^ 32) = false ∧ u.schedOk p.ctx k (p.arg / 2 ^ 32) x p = true) ∧
    (∃ l : Fin 24, ∃ b : Bytes, ∃ p : Packet, ∃ s : State, ∃ u : State, Delivers s l b 0x10 p ∧ u = s.landed l p ∧ p.payload ≠ [] ∧ u.spotOk p.ctx (argSpot p.arg) p.payload.length true = true ∧ ¬((argSpot p.arg).place = 0 ∧ (argSpot p.arg).space = 1 ∧ u.wardGone (argSpot p.arg).unit = true)) ∧
    (∃ l : Fin 24, ∃ b : Bytes, ∃ errs : ReadErrs, ∃ p : Packet, ∃ n : Nat, ∃ s : State, ∃ u : State, Delivers s l b 0x11 p ∧ u = s.landed l p ∧ p.payload.length = 4 ∧ n = u32 p.payload 0 ∧ 0 < n ∧ n ≤ 4096 ∧ u.spotOk p.ctx (argSpot p.arg) n false = true ∧ ¬((argSpot p.arg).place = 0 ∧ (argSpot p.arg).space = 1 ∧ u.wardGone (argSpot p.arg).unit = true) ∧ p.ackReq = true ∧ (u.readFails errs = true ∨ u.readsPoison p.ctx [⟨(argSpot p.arg).space, (argSpot p.arg).unit, (argSpot p.arg).addr, n⟩] = true)) ∧
    (∃ l : Fin 24, ∃ b : Bytes, ∃ errs : ReadErrs, ∃ p : Packet, ∃ n : Nat, ∃ s : State, ∃ u : State, Delivers s l b 0x11 p ∧ u = s.landed l p ∧ p.payload.length = 4 ∧ n = u32 p.payload 0 ∧ 0 < n ∧ n ≤ 4096 ∧ u.spotOk p.ctx (argSpot p.arg) n false = true ∧ ¬((argSpot p.arg).place = 0 ∧ (argSpot p.arg).space = 1 ∧ u.wardGone (argSpot p.arg).unit = true) ∧ p.ackReq = true ∧ u.readFails errs = false ∧ u.readsPoison p.ctx [⟨(argSpot p.arg).space, (argSpot p.arg).unit, (argSpot p.arg).addr, n⟩] = false) ∧
    (∃ l : Fin 24, ∃ b : Bytes, ∃ p : Packet, ∃ r : Request, ∃ s : State, ∃ u : State, Delivers s l b 0x12 p ∧ u = s.landed l p ∧ u.requestOf p = some r ∧ r.packet.opcode = 0x11) ∧
    (∃ l : Fin 24, ∃ b : Bytes, ∃ p : Packet, ∃ r : Request, ∃ s : State, ∃ u : State, Delivers s l b 0x13 p ∧ u = s.landed l p ∧ byteAt b 0 ≠ 0x21 ∧ u.requestOf p = some r) ∧
    (∃ l : Fin 24, ∃ b : Bytes, ∃ p : Packet, ∃ r : Request, ∃ s : State, ∃ u : State, Delivers s l b 0x14 p ∧ u = s.landed l p ∧ p.payload.length = 4 ∧ byteAt p.payload 0 ≤ 11 ∧ zeroAt p.payload 2 2 = true ∧ u.requestOf p = some r) ∧
    (∃ l : Fin 24, ∃ b : Bytes, ∃ p : Packet, ∃ s : State, ∃ u : State, s.linkTakes l b = true ∧ packetOk b = true ∧ p = parsePacket b ∧ u = s.landed l p ∧ u.stale p = false ∧ p.routed = true ∧ p.dst ≠ u.addr) ∧
    (∃ i : Nat, ∃ w : Waiting, ∃ s : State, s.fabric.buffer[i]? = some w ∧ 2 ≤ w.boundaries) ∧
    (∃ l : Fin 24, ∃ b : Bytes, ∃ p : Packet, ∃ s : State, ∃ u : State, s.linkTakes l b = true ∧ packetOk b = true ∧ p = parsePacket b ∧ u = s.landed l p ∧ u.stale p = false ∧ p.opcode = 0x20 ∧ p.payloadOk = true ∧ pathOk p.payload = true ∧ p.hops ≤ byteAt p.payload 0 ∧ 0 < p.hops) :=
  ⟨⟨0, (mkPk 1 0 0 7 ([1])).bytes, mkPk 1 0 0 7 ([1]), 0, ⟨0, 0, 7, 0, 1, []⟩, (let s := (upL (((runSt tinyImage).setRegN Reg.FAB_GEOM 0x20202).modCtx 0 (fun x => { x with home := [(0, 0), (1, 1)], hasp := { x.hasp with stepEpoch := 0 } }))).modLink 0 (fun k => { k with rx := [⟨0, 0, 7, 0, 1, []⟩] }); { s with fabric := { s.fabric with inForce := { place := [(0, 0), (1, 1)], version := 1 } } }), _, delivers_of (by decide +kernel), rfl, by decide +kernel, by decide +kernel, by decide +kernel⟩,
   ⟨0, (mkPk 16 0 0 4294901761 ([1])).bytes, mkPk 16 0 0 4294901761 ([1]), upL ((r0.modCtx 0 (fun x => { x with adm := .keyed })).setRegN (Reg.CTX_WS 0) 65536), _, delivers_of (by decide +kernel), rfl, by decide +kernel, by decide +kernel, by decide +kernel⟩,
   ⟨0, (mkPk 17 1 0 1 (toLe 4 4096)).bytes, ⟨[⟨1, 0, true⟩], [], []⟩, mkPk 17 1 0 1 (toLe 4 4096), _, upL ((r0.modCtx 0 (fun x => { x with adm := .keyed })).setRegN (Reg.CTX_WS 0) 65536), _, delivers_of (by decide +kernel), rfl, by decide +kernel, rfl, by decide +kernel, by decide +kernel, by decide +kernel, by decide +kernel, by decide +kernel, by decide +kernel⟩,
   ⟨0, (mkPk 17 1 0 1 (toLe 4 4096)).bytes, ⟨[], [], []⟩, mkPk 17 1 0 1 (toLe 4 4096), _, upL ((r0.modCtx 0 (fun x => { x with adm := .keyed })).setRegN (Reg.CTX_WS 0) 65536), _, delivers_of (by decide +kernel), rfl, by decide +kernel, rfl, by decide +kernel, by decide +kernel, by decide +kernel, by decide +kernel, by decide +kernel, by decide +kernel, by decide +kernel⟩,
   ⟨0, (mkPk 18 32 0 1 ([])).bytes, mkPk 18 32 0 1 ([]), ⟨0, { mkPk 0x11 0 0 0 [] with dst := 1 }, 0, 0, none⟩, withReq (upL r0) ⟨0, { mkPk 0x11 0 0 0 [] with dst := 1 }, 0, 0, none⟩, _, delivers_of (by decide +kernel), rfl, by decide +kernel, by decide +kernel⟩,
   ⟨0, (mkPk 19 32 0 0 ([])).bytes, mkPk 19 32 0 0 ([]), ⟨0, { mkPk 0x11 0 0 0 [] with dst := 1 }, 0, 0, none⟩, withReq (upL r0) ⟨0, { mkPk 0x11 0 0 0 [] with dst := 1 }, 0, 0, none⟩, _, delivers_of (by decide +kernel), rfl, by decide +kernel, by decide +kernel⟩,
   ⟨0, (mkPk 20 32 0 0 ([11, 0, 0, 0])).bytes, mkPk 20 32 0 0 ([11, 0, 0, 0]), ⟨0, { mkPk 0x11 0 0 0 [] with dst := 1 }, 0, 0, none⟩, withReq (upL r0) ⟨0, { mkPk 0x11 0 0 0 [] with dst := 1 }, 0, 0, none⟩, _, delivers_of (by decide +kernel), rfl, by decide +kernel, by decide +kernel, by decide +kernel, by decide +kernel⟩,
   ⟨0, ({ mkPk 0x10 0 0 1 [1] with dst := 5 } : Packet).bytes, _, upL r0, _, by decide +kernel, by decide +kernel, rfl, rfl, by decide +kernel, by decide +kernel, by decide +kernel⟩,
   ⟨0, ⟨0, 0, mkPk 0x10 0 0 1 [1], 2⟩, { r0 with fabric := { r0.fabric with buffer := [⟨0, 0, mkPk 0x10 0 0 1 [1], 2⟩] } }, by decide +kernel, by decide +kernel⟩,
   ⟨0, (mkPk 0x20 0 0 0 (mkRec 64 [(0, 24), (1, 1)])).bytes, _, upL r0, _, by decide +kernel, by decide +kernel, rfl, rfl, by decide +kernel, by decide +kernel, by decide +kernel, by decide +kernel, by decide +kernel, by decide +kernel⟩⟩

theorem test_witness_PacketsRefused :
    (∃ l : Fin 24, ∃ b : Bytes, ∃ p : Packet, ∃ s : State, ∃ u : State, Delivers s l b 0x10 p ∧ u = s.landed l p ∧ p.payload ≠ [] ∧ u.spotOk p.ctx (argSpot p.arg) p.payload.length true = false) ∧
    (∃ l : Fin 24, ∃ b : Bytes, ∃ p : Packet, ∃ s : State, Delivers s l b 0x11 p ∧ (p.payload.length ≠ 4 ∨ u32 p.payload 0 = 0 ∨ 4096 < u32 p.payload 0)) ∧
    ((∃ l : Fin 24, ∃ b : Bytes, ∃ s : State, s.linkTakes l b = false) ∧ ∃ l : Fin 24, ∃ b : Bytes, ∃ s : State, s.linkTakes l b = true ∧ packetOk b = false) :=
  ⟨⟨0, (mkPk 16 0 0 1 ([1])).bytes, mkPk 16 0 0 1 ([1]), upL r0, _, delivers_of (by decide +kernel), rfl, by decide +kernel, by decide +kernel⟩,
   ⟨0, (mkPk 17 0 0 1 (toLe 4 4097)).bytes, mkPk 17 0 0 1 (toLe 4 4097), upL r0, delivers_of (by decide +kernel), by decide +kernel⟩,
   ⟨⟨0, [], r0, by decide +kernel⟩, ⟨0, zeros 31, upL r0, by decide +kernel, by decide +kernel⟩⟩⟩

theorem test_witness_ReservationCommandsComplete :
    (∃ l : Fin 24, ∃ c : Fin 16, ∃ i : Nat, ∃ r : Resv, ∃ b : Bound, ∃ s : State, (s.hasp c).run = true ∧ (s.frameResvs c l true)[i]? = some r ∧ mirrorResv l r.pair = false ∧ s.canCarry c l = true ∧ (s.link l).bound.find? (fun b => b.ctx == c.val && b.idx == i) = some b) ∧
    (∃ l : Fin 24, ∃ c : Fin 16, ∃ i : Nat, ∃ r : Resv, ∃ s : State, (s.hasp c).run = true ∧ (s.frameResvs c l true)[i]? = some r ∧ mirrorResv l r.pair = true) ∧
    (∃ l : Fin 24, ∃ c : Fin 16, ∃ i : Nat, ∃ r : Resv, ∃ s : State, (s.hasp c).run = true ∧ (s.frameResvs c l true)[i]? = some r ∧ mirrorResv l r.pair = false ∧ (s.canCarry c l = false ∨ (s.link l).bound.find? (fun b => b.ctx == c.val && b.idx == i) = none)) ∧
    (∃ l : Fin 24, ∃ c : Fin 16, ∃ i : Nat, ∃ r : Resv, ∃ s : State, (s.hasp c).run = true ∧ (s.frameResvs c l true)[i]? = some r ∧ bit r.pair 31 = true) ∧
    (∃ l : Fin 24, ∃ c : Fin 16, ∃ i : Nat, ∃ r : Resv, ∃ s : State, (s.hasp c).run = true ∧ (s.frameResvs c l false)[i]? = some r ∧ mirrorResv l r.pair = true ∧ s.mirrorCarriage c l = 0) ∧
    (∃ l : Fin 24, ∃ b : Bytes, ∃ g : Bytes, ∃ p : Packet, ∃ m : Mirrored, ∃ s : State, ∃ u : State, Delivers s l b 0x18 p ∧ u = s.landed l p ∧ g = p.payload ∧ g.length = 16 ∧ u16 g 0 = 2 ∧ byteAt g 2 < 16 ∧ byteAt g 3 = 0 ∧ zeroAt g 10 2 = true ∧ u32 g 4 ≠ 0xFFFFFFFF ∧ (u.ctx (byteAt g 2)).twin.inflight.find? (fun m => m.pair == u32 g 4) = some m) ∧
    (∃ c : Fin 16, ∃ pair : Nat, ∃ m : Mirrored, ∃ s : State, (s.ctx c).twin.inflight.find? (fun m => m.pair == pair) = some m ∧ m.sentTick + 1 ≤ s.tick.now) ∧
    (∃ seq : Nat, ∃ r : Request, ∃ s : State, s.fabric.requests.find? (fun r => r.seq == seq) = some r ∧ r.cmd = none ∧ r.sentTick + bits (s.regN Reg.FAB_BE_CTRL) 11 8 ≤ s.tick.now ∧ r.tries < s.regN Reg.FAB_BE_CTRL % 16) ∧
    (∃ seq : Nat, ∃ r : Request, ∃ s : State, s.fabric.requests.find? (fun r => r.seq == seq) = some r ∧ r.cmd = none ∧ r.sentTick + bits (s.regN Reg.FAB_BE_CTRL) 11 8 ≤ s.tick.now ∧ s.regN Reg.FAB_BE_CTRL % 16 ≤ r.tries) ∧
    (∃ seq : Nat, ∃ r : Request, ∃ s : State, s.fabric.requests.find? (fun r => r.seq == seq) = some r ∧ r.cmd.isSome = true ∧ r.sentTick + bits (s.regN Reg.FAB_BE_CTRL) 11 8 * (s.regN Reg.FAB_BE_CTRL % 16 + 1) ≤ s.tick.now) :=
  ⟨⟨0, 0, 0, ⟨0, 1, 1, 7⟩, ⟨0, 0, 0, 0⟩, (upL (runSt (imgResv 0 7))).modLink 0 (fun k => { k with bound := [⟨0, 0, 0, 0⟩] }), by decide +kernel, by decide +kernel, by decide +kernel, by decide +kernel, by decide +kernel⟩,
   ⟨19, 0, 0, ⟨0, 1, 1, 1073741824⟩, runSt (imgResv 38 0x40000000), by decide +kernel, by decide +kernel, by decide +kernel⟩,
   ⟨0, 0, 0, ⟨0, 1, 1, 7⟩, runSt (imgResv 0 7), by decide +kernel, by decide +kernel, by decide +kernel, by decide +kernel⟩,
   ⟨0, 0, 0, ⟨0, 1, 1, 2147483648⟩, runSt (imgResv 0 0x80000000), by decide +kernel, by decide +kernel, by decide +kernel⟩,
   ⟨20, 0, 0, ⟨0, 1, 1, 1073741824⟩, (runSt (imgResv 41 0x40000000)).modCtx 0 (fun x => { x with twin := { x.twin with path := 0 } }), by decide +kernel, by decide +kernel, by decide +kernel, by decide +kernel⟩,
   ⟨0, (mkPk 24 0 0 0 (mkRec 16 [(0, 2)])).bytes, _, mkPk 24 0 0 0 (mkRec 16 [(0, 2)]), ⟨0, 0, [], 0⟩, (upL r0).modCtx 0 (fun x => { x with twin := { x.twin with inflight := [⟨0, 0, [], 0⟩] } }), _, delivers_of (by decide +kernel), rfl, rfl, by decide +kernel, by decide +kernel, by decide +kernel, by decide +kernel, by decide +kernel, by decide +kernel, by decide +kernel⟩,
   ⟨0, 0, ⟨0, 0, [], 0⟩, (tk (fun t => { t with now := 1 })).modCtx 0 (fun x => { x with twin := { x.twin with inflight := [⟨0, 0, [], 0⟩] } }), by decide +kernel, by decide +kernel⟩,
   ⟨0, ⟨0, mkPk 0x10 0 0 1 [1], 0, 0, none⟩, withReq (tk (fun t => { t with now := 2 })) ⟨0, mkPk 0x10 0 0 1 [1], 0, 0, none⟩, by decide +kernel, by decide +kernel, by decide +kernel, by decide +kernel⟩,
   ⟨0, ⟨0, mkPk 0x10 0 0 1 [1], 0, 3, none⟩, withReq (tk (fun t => { t with now := 2 })) ⟨0, mkPk 0x10 0 0 1 [1], 0, 3, none⟩, by decide +kernel, by decide +kernel, by decide +kernel, by decide +kernel⟩,
   ⟨0, rqCmd, withReq (tk (fun t => { t with now := 8 })) rqCmd, by decide +kernel, by decide +kernel, by decide +kernel⟩⟩

theorem test_witness_LinkCommandsComplete :
    ((∃ l : Fin 24, ∃ f d : Nat, f = 0 ∧ (if l.val < 7 then 608 else 1536) < d) ∧ (∃ f : Nat, f = 1) ∧ ∃ f : Nat, 1 < f) ∧
    (∃ l : Fin 24, ∃ d : Nat, d ≤ (if l.val < 7 then 608 else 1536)) ∧
    (∃ l : Fin 24, ∃ b : Bytes, ∃ r : Bytes, ∃ p : Packet, ∃ s : State, Delivers s l b 0x07 p ∧ r = p.payload ∧ recordOk r = true) ∧
    (∃ l : Fin 24, ∃ b : Bytes, ∃ g : Bytes, ∃ p : Packet, ∃ s : State, Delivers s l b 0x06 p ∧ g = p.payload ∧ g.length = 36) :=
  ⟨⟨⟨7, 0, 1537, rfl, by decide +kernel⟩, ⟨1, rfl⟩, ⟨2, by decide⟩⟩,
   ⟨6, 608, by decide +kernel⟩,
   ⟨0, (mkPk 7 0 0 0 (zeros 32)).bytes, _, mkPk 7 0 0 0 (zeros 32), upL r0, delivers_of (by decide +kernel), rfl, by decide +kernel⟩,
   ⟨0, (mkPk 6 0 0 0 (zeros 36)).bytes, _, mkPk 6 0 0 0 (zeros 36), upL r0, delivers_of (by decide +kernel), rfl, by decide +kernel⟩⟩

theorem test_witness_FabricManagerCommandsComplete :
    (∃ l : Fin 24, ∃ b : Bytes, ∃ now : Nat, ∃ m : FmMsg, ∃ s : State, ∃ w : State, Manages s w l b now m ∧ w.fmAccepts m = true ∧ fmSub m = 1 ∧ fmShape m 2 = true ∧ u16 (fmArgs m) 0 ≠ 0xFFFF ∧ addrOk (u16 (fmArgs m) 0) = true) ∧
    (∃ l : Fin 24, ∃ b : Bytes, ∃ now : Nat, ∃ m : FmMsg, ∃ s : State, ∃ w : State, Manages s w l b now m ∧ w.fmAccepts m = true ∧ fmSub m = 2 ∧ fmShape m 0 = true) ∧
    (∃ l : Fin 24, ∃ b : Bytes, ∃ now : Nat, ∃ m : FmMsg, ∃ s : State, ∃ w : State, ∃ u : State, Manages s w l b now m ∧ w.fmAccepts m = true ∧ u = w.fmNote m ∧ fmSub m = 3 ∧ (u.fmTableWrite m).2.1 = 0) ∧
    (∃ l : Fin 24, ∃ b : Bytes, ∃ now : Nat, ∃ m : FmMsg, ∃ s : State, ∃ w : State, ∃ u : State, Manages s w l b now m ∧ w.fmAccepts m = true ∧ u = w.fmNote m ∧ fmSub m = 4 ∧ fmShape m 8 = true ∧ zeroAt (fmArgs m) 2 2 = true ∧ u.standbyNamed = false ∧ u.fabric.standby.crc = u32 (fmArgs m) 4) ∧
    (∃ l : Fin 24, ∃ b : Bytes, ∃ now : Nat, ∃ m : FmMsg, ∃ s : State, ∃ w : State, Manages s w l b now m ∧ w.fmAccepts m = true ∧ fmSub m = 5 ∧ fmShape m 8 = true ∧ u32 (fmArgs m) 0 < 0x01000000) ∧
    (∃ l : Fin 24, ∃ b : Bytes, ∃ now : Nat, ∃ m : FmMsg, ∃ s : State, ∃ w : State, ∃ u : State, Manages s w l b now m ∧ w.fmAccepts m = true ∧ u = w.fmNote m ∧ fmSub m = 6 ∧ fmShape m 4 = true ∧ (u.remoteRead (u32 (fmArgs m) 0)).2.1 = 0) ∧
    (∃ l : Fin 24, ∃ b : Bytes, ∃ now : Nat, ∃ m : FmMsg, ∃ s : State, ∃ w : State, ∃ u : State, Manages s w l b now m ∧ w.fmAccepts m = true ∧ u = w.fmNote m ∧ fmSub m = 7 ∧ fmShape m 14 = true ∧ u.tick.now + 4 < u64 (fmArgs m) 4 ∧ u.fabric.standby.sealed = true ∧ u.fabric.standby.version = u16 (fmArgs m) 12 ∧ u.reg Reg.FAB_GEOM ≠ 0#32 ∧ (u.clk.holdover = false ∨ u.clk.aOk = true ∨ u.clk.bOk = true)) ∧
    (∃ l : Fin 24, ∃ b : Bytes, ∃ now : Nat, ∃ m : FmMsg, ∃ s : State, ∃ w : State, ∃ u : State, Manages s w l b now m ∧ w.fmAccepts m = true ∧ u = w.fmNote m ∧ fmSub m = 8 ∧ fmShape m 1 = true ∧ byteAt (fmArgs m) 0 < 16 ∧ (u.hasp (byteAt (fmArgs m) 0)).phase = .withheld ∧ u.tick.master = true) ∧
    (∃ l : Fin 24, ∃ b : Bytes, ∃ now : Nat, ∃ m : FmMsg, ∃ s : State, ∃ w : State, ∃ u : State, Manages s w l b now m ∧ w.fmAccepts m = true ∧ u = w.fmNote m ∧ fmSub m = 9 ∧ fmShape m 1 = true ∧ u.resetCode (byteAt (fmArgs m) 0) = 0) :=
  ⟨⟨0, (fmPk (fmBody 1 (toLe 2 0x7F8F))).bytes, 0, fmMsg (fmBody 1 (toLe 2 0x7F8F)), upL sK, _, fm_manages _ _ (by rw [fmBody_length]; decide) (by decide +kernel) (by decide +kernel) (by decide +kernel), fmBody_accepted _ _ _ rfl (by decide +kernel) rfl, by decide +kernel, by rw [fmShape, fmBody_args]; decide +kernel, by rw [fmBody_args]; decide +kernel, by rw [fmBody_args]; decide +kernel⟩,
   ⟨0, (fmPk (fmBody 2 ([]))).bytes, 0, fmMsg (fmBody 2 ([])), upL sK, _, fm_manages _ _ (by rw [fmBody_length]; decide) (by decide +kernel) (by decide +kernel) (by decide +kernel), fmBody_accepted _ _ _ rfl (by decide +kernel) rfl, by decide +kernel, by rw [fmShape, fmBody_args]; decide +kernel⟩,
   ⟨0, (fmPk (fmBody 3 (zeros 12))).bytes, 0, fmMsg (fmBody 3 (zeros 12)), upL sK, _, _, fm_manages _ _ (by rw [fmBody_length]; decide) (by decide +kernel) (by decide +kernel) (by decide +kernel), fmBody_accepted _ _ _ rfl (by decide +kernel) rfl, rfl, by decide +kernel, by simp only [State.fmTableWrite, fmBody_args]; decide +kernel⟩,
   ⟨0, (fmPk (fmBody 4 (zeros 4 ++ toLe 4 sK.fabric.standby.crc))).bytes, 0, fmMsg (fmBody 4 (zeros 4 ++ toLe 4 sK.fabric.standby.crc)), upL sK, _, _, fm_manages _ _ (by rw [fmBody_length]; simp [zeros]) (by decide +kernel) (by decide +kernel) (by decide +kernel), fmBody_accepted _ _ _ rfl (by decide +kernel) rfl, rfl, by rfl, by rw [fmShape, fmBody_args]; simp [zeros]; decide +kernel, by rw [fmBody_args]; exact zeroAt_skip _, by rfl, by rw [fmBody_args]; exact (u32_skip _ (bank_crc_lt _)).symm⟩,
   ⟨0, (fmPk (fmBody 5 (toLe 4 0xFFFFFC ++ zeros 4))).bytes, 0, fmMsg (fmBody 5 (toLe 4 0xFFFFFC ++ zeros 4)), upL sK, _, fm_manages _ _ (by rw [fmBody_length]; decide) (by decide +kernel) (by decide +kernel) (by decide +kernel), fmBody_accepted _ _ _ rfl (by decide +kernel) rfl, by decide +kernel, by rw [fmShape, fmBody_args]; decide +kernel, by rw [fmBody_args]; decide +kernel⟩,
   ⟨0, (fmPk (fmBody 6 (toLe 4 0xFFFFFC))).bytes, 0, fmMsg (fmBody 6 (toLe 4 0xFFFFFC)), upL sK, _, _, fm_manages _ _ (by rw [fmBody_length]; decide) (by decide +kernel) (by decide +kernel) (by decide +kernel), fmBody_accepted _ _ _ rfl (by decide +kernel) rfl, rfl, by decide +kernel, by rw [fmShape, fmBody_args]; decide +kernel, by rw [fmBody_args]; decide +kernel⟩,
   ⟨0, (fmPk (fmBody 7 (zeros 4 ++ toLe 8 5 ++ toLe 2 7))).bytes, 0, fmMsg (fmBody 7 (zeros 4 ++ toLe 8 5 ++ toLe 2 7)), upL (({ sK with fabric := { sK.fabric with standby := { sK.fabric.standby with sealed := true, version := 7 } } } : State).setRegN Reg.FAB_GEOM 0x10101), _, _, fm_manages _ _ (by rw [fmBody_length]; decide) (by decide +kernel) (by decide +kernel) (by decide +kernel), fmBody_accepted _ _ _ rfl (by decide +kernel) rfl, rfl, by decide +kernel, by rw [fmShape, fmBody_args]; decide +kernel, by rw [fmBody_args]; decide +kernel, by decide +kernel, by rw [fmBody_args]; decide +kernel, by decide +kernel, by decide +kernel⟩,
   ⟨0, (fmPk (fmBody 8 ([15]))).bytes, 0, fmMsg (fmBody 8 ([15])), upL ((sK.modHasp 15 (fun h => { h with phase := .withheld })).modTick (fun t => { t with master := true })), _, _, fm_manages _ _ (by rw [fmBody_length]; decide) (by decide +kernel) (by decide +kernel) (by decide +kernel), fmBody_accepted _ _ _ rfl (by decide +kernel) rfl, rfl, by decide +kernel, by rw [fmShape, fmBody_args]; decide +kernel, by rw [fmBody_args]; decide +kernel, by rw [fmBody_args]; decide +kernel, by decide +kernel⟩,
   ⟨0, (fmPk (fmBody 9 ([1]))).bytes, 0, fmMsg (fmBody 9 ([1])), upL sK, _, _, fm_manages _ _ (by rw [fmBody_length]; decide) (by decide +kernel) (by decide +kernel) (by decide +kernel), fmBody_accepted _ _ _ rfl (by decide +kernel) rfl, rfl, by decide +kernel, by rw [fmShape, fmBody_args]; decide +kernel, by rw [fmBody_args]; decide +kernel⟩⟩

theorem test_witness_FabricManagerNeedsKey :
    (∃ l : Fin 24, ∃ b : Bytes, ∃ now : Nat, ∃ m : FmMsg, ∃ s : State, ∃ u : State, Manages s u l b now m ∧ u.mgmt.fabricKey = none ∧ m.src ≠ u.addr) ∧
    (∃ l : Fin 24, ∃ b : Bytes, ∃ now : Nat, ∃ m : FmMsg, ∃ s : State, ∃ u : State, Manages s u l b now m ∧ u.mgmt.fabricKey = none ∧ fmSub m = 1) ∧
    (∃ l : Fin 24, ∃ b : Bytes, ∃ now : Nat, ∃ m : FmMsg, ∃ s : State, ∃ u : State, Manages s u l b now m ∧ u.mgmt.fabricKey = none ∧ fmSub m = 2) ∧
    (∃ l : Fin 24, ∃ b : Bytes, ∃ now : Nat, ∃ m : FmMsg, ∃ s : State, ∃ u : State, Manages s u l b now m ∧ u.mgmt.fabricKey = none ∧ fmSub m = 3) ∧
    (∃ l : Fin 24, ∃ b : Bytes, ∃ now : Nat, ∃ m : FmMsg, ∃ s : State, ∃ u : State, Manages s u l b now m ∧ u.mgmt.fabricKey = none ∧ fmSub m = 4) ∧
    (∃ l : Fin 24, ∃ b : Bytes, ∃ now : Nat, ∃ m : FmMsg, ∃ s : State, ∃ u : State, Manages s u l b now m ∧ u.mgmt.fabricKey = none ∧ fmSub m = 5) ∧
    (∃ l : Fin 24, ∃ b : Bytes, ∃ now : Nat, ∃ m : FmMsg, ∃ s : State, ∃ u : State, Manages s u l b now m ∧ u.mgmt.fabricKey = none ∧ fmSub m = 6) ∧
    (∃ l : Fin 24, ∃ b : Bytes, ∃ now : Nat, ∃ m : FmMsg, ∃ s : State, ∃ u : State, Manages s u l b now m ∧ u.mgmt.fabricKey = none ∧ fmSub m = 7) ∧
    (∃ l : Fin 24, ∃ b : Bytes, ∃ now : Nat, ∃ m : FmMsg, ∃ s : State, ∃ u : State, Manages s u l b now m ∧ u.mgmt.fabricKey = none ∧ fmSub m = 8) ∧
    (∃ l : Fin 24, ∃ b : Bytes, ∃ now : Nat, ∃ m : FmMsg, ∃ s : State, ∃ u : State, Manages s u l b now m ∧ u.mgmt.fabricKey = none ∧ fmSub m = 9) :=
  ⟨⟨0, (fmPk (fmBody 2 ([]))).bytes, 0, fmMsg (fmBody 2 ([])), upL r0, _, fm_manages _ _ (by rw [fmBody_length]; decide) (by decide +kernel) (by decide +kernel) (by decide +kernel), by decide +kernel, by decide +kernel⟩,
   ⟨0, (fmPk (fmBody 1 ([]))).bytes, 0, fmMsg (fmBody 1 ([])), upL r0, _, fm_manages _ _ (by rw [fmBody_length]; decide) (by decide +kernel) (by decide +kernel) (by decide +kernel), by decide +kernel, by decide +kernel⟩,
   ⟨0, (fmPk (fmBody 2 ([]))).bytes, 0, fmMsg (fmBody 2 ([])), upL r0, _, fm_manages _ _ (by rw [fmBody_length]; decide) (by decide +kernel) (by decide +kernel) (by decide +kernel), by decide +kernel, by decide +kernel⟩,
   ⟨0, (fmPk (fmBody 3 ([]))).bytes, 0, fmMsg (fmBody 3 ([])), upL r0, _, fm_manages _ _ (by rw [fmBody_length]; decide) (by decide +kernel) (by decide +kernel) (by decide +kernel), by decide +kernel, by decide +kernel⟩,
   ⟨0, (fmPk (fmBody 4 ([]))).bytes, 0, fmMsg (fmBody 4 ([])), upL r0, _, fm_manages _ _ (by rw [fmBody_length]; decide) (by decide +kernel) (by decide +kernel) (by decide +kernel), by decide +kernel, by decide +kernel⟩,
   ⟨0, (fmPk (fmBody 5 ([]))).bytes, 0, fmMsg (fmBody 5 ([])), upL r0, _, fm_manages _ _ (by rw [fmBody_length]; decide) (by decide +kernel) (by decide +kernel) (by decide +kernel), by decide +kernel, by decide +kernel⟩,
   ⟨0, (fmPk (fmBody 6 ([]))).bytes, 0, fmMsg (fmBody 6 ([])), upL r0, _, fm_manages _ _ (by rw [fmBody_length]; decide) (by decide +kernel) (by decide +kernel) (by decide +kernel), by decide +kernel, by decide +kernel⟩,
   ⟨0, (fmPk (fmBody 7 ([]))).bytes, 0, fmMsg (fmBody 7 ([])), upL r0, _, fm_manages _ _ (by rw [fmBody_length]; decide) (by decide +kernel) (by decide +kernel) (by decide +kernel), by decide +kernel, by decide +kernel⟩,
   ⟨0, (fmPk (fmBody 8 ([]))).bytes, 0, fmMsg (fmBody 8 ([])), upL r0, _, fm_manages _ _ (by rw [fmBody_length]; decide) (by decide +kernel) (by decide +kernel) (by decide +kernel), by decide +kernel, by decide +kernel⟩,
   ⟨0, (fmPk (fmBody 9 ([]))).bytes, 0, fmMsg (fmBody 9 ([])), upL r0, _, fm_manages _ _ (by rw [fmBody_length]; decide) (by decide +kernel) (by decide +kernel) (by decide +kernel), by decide +kernel, by decide +kernel⟩⟩

theorem test_witness_AgedPacketRule :
    (∃ i : Nat, ∃ w : Waiting, ∃ s : State, ∃ u : State, s.fabric.buffer[i]? = some w ∧ 2 ≤ w.boundaries ∧ u = ({ s with fabric := { s.fabric with buffer := s.fabric.buffer.eraseIdx i } } : State).setReg Reg.FAB_DROP_AGED (satInc (s.reg Reg.FAB_DROP_AGED)) ∧ w.packet.ackReq = false) ∧
    (∃ i : Nat, ∃ w : Waiting, ∃ s : State, ∃ u : State, s.fabric.buffer[i]? = some w ∧ 2 ≤ w.boundaries ∧ u = ({ s with fabric := { s.fabric with buffer := s.fabric.buffer.eraseIdx i } } : State).setReg Reg.FAB_DROP_AGED (satInc (s.reg Reg.FAB_DROP_AGED)) ∧ w.packet.ackReq = true) ∧
    (∃ i : Nat, ∃ w : Waiting, ∃ s : State, s.fabric.buffer[i]? = some w ∧ w.boundaries < 2) :=
  ⟨⟨0, ⟨0, 0, mkPk 0x10 0 0 1 [1], 2⟩, { r0 with fabric := { r0.fabric with buffer := [⟨0, 0, mkPk 0x10 0 0 1 [1], 2⟩] } }, _, by decide +kernel, by decide +kernel, rfl, by decide +kernel⟩,
   ⟨0, ⟨0, 0, mkPk 0x10 1 0 1 [1], 2⟩, { r0 with fabric := { r0.fabric with buffer := [⟨0, 0, mkPk 0x10 1 0 1 [1], 2⟩] } }, _, by decide +kernel, by decide +kernel, rfl, by decide +kernel⟩,
   ⟨0, ⟨0, 0, mkPk 0x10 0 0 1 [1], 1⟩, { r0 with fabric := { r0.fabric with buffer := [⟨0, 0, mkPk 0x10 0 0 1 [1], 1⟩] } }, by decide +kernel, by decide +kernel⟩⟩

theorem test_witness_HaspCopyCommandsComplete :
    (∃ c : Fin 16, ∃ s : State, (s.hasp c).copyPending = true ∧ ¬((s.hasp c).under = .restoring ∧ (s.hasp c).restoreDone = false) ∧ s.pwr.beHeld = false) ∧
    (∃ c : Fin 16, ∃ s : State, (s.hasp c).under = .restoring ∧ (s.hasp c).restoreDone = false ∧ (s.hasp c).missing = false ∧ s.pwr.beHeld = false) ∧
    (∃ c : Fin 16, ∃ s : State, (s.hasp c).under = .restoring ∧ (s.hasp c).restoreDone = false ∧ s.pwr.beHeld = false) ∧
    (∃ c : Fin 16, ∃ slot : Nat, ∃ layer : Nat, ∃ idx : Nat, ∃ errs : ReadErrs, ∃ a : PageId × Nat × BitVec 16, ∃ s : State, (s.kv c).outgoing.contains ⟨slot, layer, idx⟩ = true ∧ (s.kv c).arena.find? (fun a => a.1 == ⟨slot, layer, idx⟩) = some a ∧ s.pwr.beHeld = false ∧ (s.readFails errs || s.sourcePoison c 3 (s.pageAddr c ((s.kv c).pageNo ⟨slot, layer, idx⟩)) (s.regN (Reg.MEM_KV_PAGE_BYTES c))) = true) ∧
    (∃ c : Fin 16, ∃ slot : Nat, ∃ layer : Nat, ∃ idx : Nat, ∃ errs : ReadErrs, ∃ a : PageId × Nat × BitVec 16, ∃ s : State, (s.kv c).outgoing.contains ⟨slot, layer, idx⟩ = true ∧ (s.kv c).arena.find? (fun a => a.1 == ⟨slot, layer, idx⟩) = some a ∧ s.pwr.beHeld = false ∧ (s.readFails errs || s.sourcePoison c 3 (s.pageAddr c ((s.kv c).pageNo ⟨slot, layer, idx⟩)) (s.regN (Reg.MEM_KV_PAGE_BYTES c))) = false) ∧
    (∃ c : Fin 16, ∃ slot : Nat, ∃ layer : Nat, ∃ idx : Nat, ∃ page : Bytes, ∃ s : State, ∃ u : State, (s.kv c).incoming.contains ⟨slot, layer, idx⟩ = true ∧ s.pwr.beHeld = false ∧ u = s.account c 7 page.length ∧ u.pageGood c ⟨slot, layer, idx⟩ page = false) ∧
    (∃ c : Fin 16, ∃ slot : Nat, ∃ layer : Nat, ∃ idx : Nat, ∃ page : Bytes, ∃ s : State, ∃ u : State, (s.kv c).incoming.contains ⟨slot, layer, idx⟩ = true ∧ s.pwr.beHeld = false ∧ u = s.account c 7 page.length ∧ u.pageGood c ⟨slot, layer, idx⟩ page = true) ∧
    (∃ s : State, s.pwr.beHeld = true) :=
  ⟨⟨0, hs (fun h => { h with copyPending := true }), by decide +kernel, by decide +kernel, by decide +kernel⟩,
   ⟨0, hs (fun h => { h with phase := .restoring }), by decide +kernel, by decide +kernel, by decide +kernel, by decide +kernel⟩,
   ⟨0, hs (fun h => { h with phase := .restoring }), by decide +kernel, by decide +kernel, by decide +kernel⟩,
   ⟨0, 0, 0, 0, ⟨[⟨1, 0, true⟩], [], []⟩, (⟨0, 0, 0⟩, 0, 0), r0.modKv 0 (fun k => { k with outgoing := [⟨0, 0, 0⟩], arena := [(⟨0, 0, 0⟩, 0, 0)] }), by decide +kernel, by decide +kernel, by decide +kernel, by decide +kernel⟩,
   ⟨0, 0, 0, 0, ⟨[], [], []⟩, (⟨0, 0, 0⟩, 0, 0), r0.modKv 0 (fun k => { k with outgoing := [⟨0, 0, 0⟩], arena := [(⟨0, 0, 0⟩, 0, 0)] }), by decide +kernel, by decide +kernel, by decide +kernel, by decide +kernel⟩,
   ⟨0, 0, 0, 0, [], r0.modKv 0 (fun k => { k with incoming := [⟨0, 0, 0⟩] }), _, by decide +kernel, by decide +kernel, rfl, by decide +kernel⟩,
   ⟨0, 0, 0, 0, ((r0.modKv 0 (fun k => { k with incoming := [⟨0, 0, 0⟩] })).account 0 7 64).pageTrailer 0 ⟨0, 0, 0⟩ 0 [], r0.modKv 0 (fun k => { k with incoming := [⟨0, 0, 0⟩] }), _, by decide +kernel, by decide +kernel, rfl, by decide +kernel⟩,
   ⟨{ r0 with pwr := { r0.pwr with beHeld := true } }, by decide +kernel⟩⟩

theorem test_witness_ReleaseRule :
    (∃ c : Fin 16, ∃ s : State, (s.ctx c).adm = .keyed ∧ s.loaded c = false) ∧
    (∃ c : Fin 16, ∃ s : State, ¬((s.ctx c).adm = .keyed ∧ s.loaded c = false)) ∧
    (∃ c : Fin 16, ∃ s : State, (s.ctx c).adm = .free ∨ (s.ctx c).adm = .zeroing) :=
  ⟨⟨0, cx (fun x => { x with adm := .keyed }), by decide +kernel, by decide +kernel⟩,
   ⟨0, r0, by decide +kernel⟩,
   ⟨0, cx (fun x => { x with adm := .zeroing }), by decide +kernel⟩⟩

theorem test_witness_ContextCommandsComplete :
    (∃ c : Fin 16, ∃ s : State, s.held c = false ∧ s.admission c = none) ∧
    (∃ c : Fin 16, ∃ r : Nat × Nat, ∃ s : State, s.held c = false ∧ s.admission c = some r) ∧
    (∃ c : Fin 16, ∃ s : State, s.held c = true) ∧
    (∃ c : Fin 16, ∃ s : State, (s.ctx c).adm = .zeroing ∧ s.pwr.beHeld = false) ∧
    (∃ c : Fin 16, ∃ s : State, (s.ctx c).adm = .keyed ∧ s.loaded c = false ∧ (s.ctxFn c = 0 ∨ (s.ring (s.ctxFn c)).run = .disabled)) ∧
    (∃ c : Fin 16, ∃ s : State, (s.ctx c).perm.state < 2) ∧
    (∃ c : Fin 16, ∃ s : State, 2 ≤ (s.ctx c).perm.state) ∧
    (∃ s : State, s.tick.master = true) ∧
    (∃ s : State, (∀ c, c < 16 → s.seatOf c = none) ∧ s.pwr.rung ≤ 1) :=
  ⟨⟨0, r0.setRegN (Reg.CTX_WARDS 0) 1, by decide +kernel, by decide +kernel⟩,
   ⟨0, (1, 7), r0.setRegN (Reg.CTX_TS 0) 96, by decide +kernel, by decide +kernel⟩,
   ⟨0, cx (fun x => { x with adm := .zeroing }), by decide +kernel⟩,
   ⟨0, cx (fun x => { x with adm := .zeroing }), by decide +kernel, by decide +kernel⟩,
   ⟨0, cx (fun x => { x with adm := .keyed }), by decide +kernel, by decide +kernel, by decide +kernel⟩,
   ⟨0, cx (fun x => { x with perm := { x.perm with state := 1 } }), by decide +kernel⟩,
   ⟨0, cx (fun x => { x with perm := { x.perm with state := 2 } }), by decide +kernel⟩,
   ⟨tk (fun t => { t with master := true }), by decide +kernel⟩,
   ⟨r0, by decide +kernel, by decide +kernel⟩⟩

theorem test_witness_CheckerCommandsComplete :
    (∃ l : Fin 24, ∃ b : Bytes, ∃ g : Bytes, ∃ p : Packet, ∃ s : State, ∃ u : State, Delivers s l b 0x18 p ∧ u = s.landed l p ∧ g = p.payload ∧ u16 g 0 = 4 ∧ permanenceOk g = true ∧ u.tick.master = true) ∧
    (∃ l : Fin 24, ∃ b : Bytes, ∃ g : Bytes, ∃ p : Packet, ∃ s : State, ∃ u : State, Delivers s l b 0x18 p ∧ u = s.landed l p ∧ g = p.payload ∧ u16 g 0 = 4 ∧ permanenceOk g = true ∧ u.tick.master = false) ∧
    (∃ s : State, s.chk.corrections.filter (fun p => p.2 != 0) = []) ∧
    (∃ s : State, 7 * s.opt.histSize ≤ 8 * 64 * s.chk.history.length) ∧
    (∃ s : State, 8 * 64 * s.chk.history.length < 7 * s.opt.histSize) :=
  ⟨⟨0, (mkPk 24 0 0 0 (mkRec 12 [(0, 4), (6, 11)])).bytes, _, mkPk 24 0 0 0 (mkRec 12 [(0, 4), (6, 11)]), upL (tk (fun t => { t with master := true })), _, delivers_of (by decide +kernel), rfl, rfl, by decide +kernel, by decide +kernel, by decide +kernel⟩,
   ⟨0, (mkPk 24 0 0 0 (mkRec 12 [(0, 4), (6, 1)])).bytes, _, mkPk 24 0 0 0 (mkRec 12 [(0, 4), (6, 1)]), upL r0, _, delivers_of (by decide +kernel), rfl, rfl, by decide +kernel, by decide +kernel, by decide +kernel⟩,
   ⟨r0, by decide +kernel⟩,
   ⟨r0, by decide +kernel⟩,
   ⟨{ r0 with opt := { r0.opt with histSize := 1 } }, by decide +kernel⟩⟩

theorem test_witness_StorageCommandsComplete :
    (∃ block : Nat, ∃ e : Nat × Bytes, ∃ rest : List (Nat × Bytes), ∃ s : State, s.flash.cache = e :: rest ∧ s.flash.busy = true ∧ e.1 = block) ∧
    (∃ block : Nat, ∃ s : State, ((if Config.qlcNand then 20000 else 100000) ≤ tget (fun _ => 0) s.flash.reads block) ∧ s.inhibited = false ∧ s.pwr.beHeld = false) ∧
    (∃ s : State, s.pwr.beHeld = false) ∧
    (∃ row : Nat, ∃ s : State, s.stack.scheduled.contains row = true ∧ s.stack.switching.contains row = false ∧ s.recordRunning = false ∧ s.stack.copied.contains (rowVault row) = false ∧ s.pwr.beHeld = false ∧ s.sparesLeft (row / 4096) ≠ 0) ∧
    (∃ row : Nat, ∃ s : State, s.stack.scheduled.contains row = true ∧ s.stack.switching.contains row = false ∧ s.recordRunning = false ∧ s.stack.copied.contains (rowVault row) = false ∧ s.pwr.beHeld = false ∧ s.sparesLeft (row / 4096) = 0) ∧
    (∃ s : State, s.pwr.beHeld = true) ∧
    (∃ readings : List Nat, ∃ s : State, s.rst.tripHold = false ∧ (∀ t ∈ layerReadings readings, t < 105)) :=
  ⟨⟨0, (0, []), [], { r0 with flash := { r0.flash with cache := [(0, [])], busy := true } }, by decide +kernel, by decide +kernel, by decide +kernel⟩,
   ⟨0, { r0 with flash := { r0.flash with reads := [(0, 100000)] } }, (by show (if Config.qlcNand then 20000 else 100000) ≤ 100000; split <;> decide), by decide +kernel, by decide +kernel⟩,
   ⟨r0, by decide +kernel⟩,
   ⟨0, { r0 with stack := { r0.stack with scheduled := [0] } }, by decide +kernel, by decide +kernel, by decide +kernel, by decide +kernel, by decide +kernel, by decide +kernel⟩,
   ⟨0, { r0 with stack := { r0.stack with scheduled := [0], spares := [(0, 0)] } }, by decide +kernel, by decide +kernel, by decide +kernel, by decide +kernel, by decide +kernel, by decide +kernel⟩,
   ⟨{ r0 with pwr := { r0.pwr with beHeld := true } }, by decide +kernel⟩,
   ⟨[104], r0, by decide +kernel, by decide +kernel⟩⟩

theorem test_witness_MediaCommandsComplete :
    (∃ c : Fin 16, ∃ s : State, s.ingests c = true ∧ s.media.switching = false ∧ s.ingSource c = 0 ∧ (s.ing c).pausedReading = false ∧ s.flash.mount = 2 ∧ s.shardCount c ≠ 0) ∧
    (∃ c : Fin 16, ∃ r : IngRecord, ∃ s : State, (s.ing c).reading.find? (fun r => !r.decoded) = some r ∧ r.pics ≠ 0) ∧
    (∃ c : Fin 16, ∃ ns : Nat, ∃ r : IngRecord, ∃ s : State, ∃ u : State, (s.ing c).reading.find? (fun r => !r.decoded) = some r ∧ u = s.account c 3 ns ∧ r.pics = 0 ∧ recordOf (u.keepsVariants c) r.frame = none) ∧
    (∃ c : Fin 16, ∃ items : List ItemSource, ∃ ns : Nat, ∃ r : IngRecord, ∃ s : State, ∃ u : State, (s.ing c).reading.find? (fun r => !r.decoded) = some r ∧ u = s.account c 3 ns ∧ r.pics = 0 ∧ ∃ m, ∃ l, recordOf (u.keepsVariants c) r.frame = some m ∧ u.decodeItems c m.items items = .ok l) ∧
    (∃ c : Fin 16, ∃ items : List ItemSource, ∃ ns : Nat, ∃ r : IngRecord, ∃ s : State, ∃ u : State, (s.ing c).reading.find? (fun r => !r.decoded) = some r ∧ u = s.account c 3 ns ∧ r.pics = 0 ∧ ∃ m, ∃ e, recordOf (u.keepsVariants c) r.frame = some m ∧ u.decodeItems c m.items items = .error e) ∧
    (∃ c : Fin 16, ∃ s : State, (s.hasp c).run = true ∧ (s.hasp c).stepOpen = true ∧ (s.ctx c).perm.state < 2 ∧ (s.hasp c).stepTick = s.batchTick c) ∧
    (∃ c : Fin 16, ∃ v : Nat, ∃ f : Nat, ∃ s : State, s.adpFrame c v = some f ∧ (s.adp c).writeBacks.head? = some v ∧ s.pwr.beHeld = false) ∧
    (∃ c : Fin 16, ∃ v : Nat, ∃ f : Nat, ∃ named : Nat, ∃ rest : List (Nat × Nat), ∃ s : State, (s.adp c).writeBacks = [] ∧ (s.adp c).fills = (v, named) :: rest ∧ s.fillFrame c = some f ∧ s.pwr.beHeld = false) ∧
    (∃ e : Fin 4, ∃ p : LivePic, ∃ s : State, (s.engine e).current = some p) ∧
    (∃ e : Fin 4, ∃ j : Nat × Nat, ∃ s : State, (s.engine e).current = none ∧ (s.engine e).job = some j) ∧
    (∃ st : Fin 64, ∃ p : LivePic, ∃ l : List LivePic, ∃ s : State, (s.stream st).waiting = p :: l) ∧
    (∃ st : Fin 64, ∃ v : W32, ∃ s : State, (s.hasp (v.toNat % 16)).phase = .stopped ∧ bit (s.regN (Reg.MED_LIVE_CTRL st)) 31 = false ∧ bit (liveCtrl v.toNat).1 31 = false) ∧
    (∃ st : Fin 64, ∃ v : W32, ∃ s : State, (s.hasp (v.toNat % 16)).phase = .stopped ∧ bit (s.regN (Reg.MED_LIVE_CTRL st)) 31 = false ∧ ∃ t : State, t = (((((s.setRegN (Reg.MED_LIVE_CTRL st) (liveCtrl v.toNat).1).eventIf (liveCtrl v.toNat).2 Reg.MED_FE_EVENT 6).dropWaiting st).releaseStream st).modLive st (fun _ => {})).setPool st [] ∧ bit (liveCtrl v.toNat).1 31 = true ∧ (t.admitStream st 2).2 = true) ∧
    (∃ st : Fin 64, ∃ v : W32, ∃ s : State, (s.hasp (v.toNat % 16)).phase = .stopped ∧ bit (s.regN (Reg.MED_LIVE_CTRL st)) 31 = false ∧ ∃ t : State, t = (((((s.setRegN (Reg.MED_LIVE_CTRL st) (liveCtrl v.toNat).1).eventIf (liveCtrl v.toNat).2 Reg.MED_FE_EVENT 6).dropWaiting st).releaseStream st).modLive st (fun _ => {})).setPool st [] ∧ bit (liveCtrl v.toNat).1 31 = true ∧ (t.admitStream st 2).2 = false) ∧
    (∃ q : Nat × Nat × Nat, ∃ l : List (Nat × Nat × Nat), ∃ s : State, ∃ v : State, v = marksGo s.media.archQueue s ∧ v.media.archQueue = q :: l) ∧
    (∃ s : State, s.media.switching = true ∧ s.mediaBusy = false ∧ ∃ t : State, ∃ u : State, t = s.answerGone.modMedia (fun m => { m with switching := false }) ∧ u = (t.setRegN Reg.MED_FW_GEN ((t.regN Reg.MED_FW_GEN + 1) % 256)).event Reg.MED_FE_EVENT 2 ∧ u.mgmt.verified.find? (fun p => p.1 == 2) = none) ∧
    (∃ s : State, s.media.switching = true ∧ s.mediaBusy = false ∧ ∃ t : State, ∃ u : State, t = s.answerGone.modMedia (fun m => { m with switching := false }) ∧ u = (t.setRegN Reg.MED_FW_GEN ((t.regN Reg.MED_FW_GEN + 1) % 256)).event Reg.MED_FE_EVENT 2 ∧ ∃ q, u.mgmt.verified.find? (fun p => p.1 == 2) = some q) :=
  ⟨⟨0, ({ (r0.modHasp 0 (fun h => { h with loaded := true })) with flash := { r0.flash with mount := 2 }, stores := { r0.stores with lpddr := [(60, 1#8)] } } : State), by decide +kernel, by decide +kernel, by decide +kernel, by decide +kernel, by decide +kernel, by decide +kernel⟩,
   ⟨0, { frame := [0xA3, 0x00, 0x01, 0x01, 0x00, 0x03, 0x80], pics := 1 }, r0.modIng 0 (fun g => { g with reading := [{ frame := [0xA3, 0x00, 0x01, 0x01, 0x00, 0x03, 0x80], pics := 1 }] }), by decide +kernel, by decide +kernel⟩,
   ⟨0, 0, { frame := [] }, r0.modIng 0 (fun g => { g with reading := [{ frame := [] }] }), _, by decide +kernel, rfl, by decide +kernel, by decide +kernel⟩,
   ⟨0, [], 0, { frame := [0xA3, 0x00, 0x01, 0x01, 0x00, 0x03, 0x80] }, r0.modIng 0 (fun g => { g with reading := [{ frame := [0xA3, 0x00, 0x01, 0x01, 0x00, 0x03, 0x80] }] }), _, by decide +kernel, rfl, by decide +kernel, ⟨0, none, []⟩, [], by decide +kernel, by decide +kernel⟩,
   ⟨0, [], 0, { frame := [0xA3, 0x00, 0x01, 0x01, 0x00, 0x03, 0x81, 0xA3, 0x00, 0x00, 0x01, 0x00, 0x02, 0x61, 0x61] }, { (r0.modIng 0 (fun g => { g with reading := [{ frame := [0xA3, 0x00, 0x01, 0x01, 0x00, 0x03, 0x81, 0xA3, 0x00, 0x00, 0x01, 0x00, 0x02, 0x61, 0x61] }] })) with stores := { r0.stores with lpddr := [(196, 1#8)] } }, _, by decide +kernel, rfl, by decide +kernel, ⟨0, none, [⟨0, 0, [0x61], [], 0, 0⟩]⟩, 0x21, by decide +kernel, by decide +kernel⟩,
   ⟨0, hs (fun h => { h with run := true, stepOpen := true }), by decide +kernel, by decide +kernel, by decide +kernel, by decide +kernel⟩,
   ⟨0, 0, 0, r0.modAdp 0 (fun a => { a with frames := [{ variant := some 0 }], writeBacks := [0] }), by decide +kernel, by decide +kernel, by decide +kernel⟩,
   ⟨0, 0, 0, 0, [], (r0.modAdp 0 (fun a => { a with frames := [{}], fills := [(0, 0)] })).setRegN (Reg.MEM_ADP_FRAMES 0) 1, by decide +kernel, by decide +kernel, by decide +kernel, by decide +kernel⟩,
   ⟨0, ⟨0, 0, 0, false, false, (0, ⟨0, 0, 0, 0, 0, [], false⟩), 0⟩, r0.modEngine 0 (fun x => { x with current := some ⟨0, 0, 0, false, false, (0, ⟨0, 0, 0, 0, 0, [], false⟩), 0⟩ }), by decide +kernel⟩,
   ⟨0, (0, 0), r0.modEngine 0 (fun x => { x with job := some (0, 0) }), by decide +kernel, by decide +kernel⟩,
   ⟨0, ⟨0, 0, 0, false, false, (0, ⟨0, 0, 0, 0, 0, [], false⟩), 0⟩, [], r0.modLive 0 (fun v => { v with waiting := [⟨0, 0, 0, false, false, (0, ⟨0, 0, 0, 0, 0, [], false⟩), 0⟩] }), by decide +kernel⟩,
   ⟨0, 0, r0, by decide +kernel, by decide +kernel, by decide +kernel⟩,
   ⟨0, 0x80000000#32, r0.setRegN (Reg.MED_ENG_RESERVE 3) 2000, by decide +kernel, by decide +kernel, _, rfl, by decide +kernel, by decide +kernel⟩,
   ⟨0, 0x80000000#32, r0.modMedia (fun m => { m with engines := [(0, { service := 2 }), (1, { service := 2 }), (2, { service := 2 }), (3, { service := 2 })] }), by decide +kernel, by decide +kernel, _, rfl, by decide +kernel, by decide +kernel⟩,
   ⟨(0, 0, 0), [], r0.modMedia (fun m => { m with archQueue := [(0, 0, 0)] }), _, rfl, by decide +kernel⟩,
   ⟨r0.modMedia (fun m => { m with switching := true }), by decide +kernel, by decide +kernel, _, _, rfl, rfl, by decide +kernel⟩,
   ⟨({ (r0.modMedia (fun m => { m with switching := true })) with mgmt := { r0.mgmt with verified := [(2, [])] } } : State), by decide +kernel, by decide +kernel, _, _, rfl, rfl, (2, []), by decide +kernel⟩⟩

theorem test_witness_RingCommandsComplete :
    (∃ fn : Fin 17, ∃ s : State, s.rst.hostReset = false ∧ s.rst.returning.contains 18 = false ∧ (s.ring fn).run = .starting) ∧
    (∃ fn : Fin 17, ∃ w : RingWords, ∃ s : State, s.rst.hostReset = false ∧ s.rst.returning.contains 18 = false ∧ (s.ring fn).run = .running ∧ (s.ring fn).head ≤ w.cmdTail ∧ w.cmdTail ≤ (s.ring fn).head + (s.ringSizes fn).1) ∧
    (∃ fn : Fin 17, ∃ w : RingWords, ∃ s : State, s.rst.hostReset = false ∧ s.rst.returning.contains 18 = false ∧ (s.ring fn).run = .running ∧ (w.cmdTail < (s.ring fn).head ∨ (s.ring fn).head + (s.ringSizes fn).1 < w.cmdTail)) ∧
    (∃ fn : Fin 17, ∃ s : State, ((s.ring fn).run = .disabled ∨ (s.ring fn).run = .error)) ∧
    (∃ fn : Fin 17, ∃ s : State, ∃ u : State, (s.ring fn).run = .disabled ∧ s.rst.hostReset = false ∧ u = s.setRegN (Reg.RING_CTRL fn) 1 ∧ (fn.val = 0 ∨ u.fnCtx fn ≠ none) ∧ (∀ p ∈ [(Reg.RING_CB_LO fn, 64), (Reg.RING_CMD_LO fn, 4096), (Reg.RING_CPL_LO fn, 4096), (Reg.RING_EVT_LO fn, 4096)], u.regN p.1 % p.2 = 0) ∧ 10 ≤ bits (u.regN (Reg.RING_SIZES fn)) 4 0 ∧ bits (u.regN (Reg.RING_SIZES fn)) 4 0 ≤ 20 ∧ 6 ≤ bits (u.regN (Reg.RING_SIZES fn)) 12 8 ∧ bits (u.regN (Reg.RING_SIZES fn)) 12 8 ≤ 20 ∧ 10 ≤ bits (u.regN (Reg.RING_SIZES fn)) 20 16 ∧ bits (u.regN (Reg.RING_SIZES fn)) 20 16 ≤ 20) ∧
    (∃ fn : Fin 17, ∃ s : State, (s.ring fn).run ≠ .disabled) ∧
    (∃ fn : Fin 17, ∃ s : State, (s.ring fn).unsignalled0 ≠ 0) ∧
    (∃ fn : Fin 17, ∃ s : State, (s.ring fn).unsignalled1 ≠ 0) ∧
    (∃ fn : Fin 17, fn.val ≠ 0) ∧
    (∃ s : State, s.rst.hostReset = false) :=
  ⟨⟨0, r0.modRing 0 (fun r => { r with run := .starting }), by decide +kernel, by decide +kernel, by decide +kernel⟩,
   ⟨0, ⟨1024, 0, 0, 0, 0, 0⟩, r0.modRing 0 (fun r => { r with run := .running }), by decide +kernel, by decide +kernel, by decide +kernel, by decide +kernel, by decide +kernel⟩,
   ⟨0, ⟨2 ^ 32, 0, 0, 0, 0, 0⟩, r0.modRing 0 (fun r => { r with run := .running }), by decide +kernel, by decide +kernel, by decide +kernel, by decide +kernel⟩,
   ⟨0, r0, by decide +kernel⟩,
   ⟨0, r0.setRegN (Reg.RING_SIZES 0) 0x000A060A, _, by decide +kernel, by decide +kernel, rfl, by decide +kernel, by decide +kernel, by decide +kernel, by decide +kernel, by decide +kernel, by decide +kernel, by decide +kernel, by decide +kernel⟩,
   ⟨16, r0.modRing 16 (fun r => { r with run := .error }), by decide +kernel⟩,
   ⟨0, r0.modRing 0 (fun r => { r with unsignalled0 := 1 }), by decide +kernel⟩,
   ⟨0, r0.modRing 0 (fun r => { r with unsignalled1 := 1 }), by decide +kernel⟩,
   ⟨1, by decide +kernel⟩,
   ⟨r0, by decide +kernel⟩⟩

theorem test_witness_AdminCommandsComplete :
    (∃ fn : Fin 17, ∃ cmd : HostCmd, ∃ s : State, ∃ u : State, s.takeCmd fn 1 cmd = some u) ∧
    (∃ cmd : HostCmd, ∃ s : State, ∃ u : State, s.takeCmd 0 2 cmd = some u ∧ cmd.payload ≠ [] ∧ cmd.payload.length ≤ 4096 ∧ bit cmd.arg2 0 = false) ∧
    (∃ cmd : HostCmd, ∃ s : State, ∃ u : State, s.takeCmd 0 3 cmd = some u ∧ cmd.arg0 < 4 ∧ tokTableOk cmd.payload = true ∧ u.mediaGone = false ∧ u.tokNamed cmd.arg0 = false) ∧
    (∃ cmd : HostCmd, ∃ s : State, ∃ u : State, s.takeCmd 0 4 cmd = some u ∧ u.flash.mount = 2 ∧ cmd.payload ≠ [] ∧ cmd.payload.length % 4096 = 0 ∧ cmd.arg0 + cmd.payload.length / 4096 ≤ u.flashBlocks ∧ u.flashRefusal = 0) ∧
    (∃ cmd : HostCmd, ∃ s : State, ∃ u : State, s.takeCmd 0 5 cmd = some u ∧ u.flash.mount = 2 ∧ 0 < cmd.arg1 ∧ cmd.arg1 ≤ 16384 ∧ cmd.arg0 + cmd.arg1 ≤ u.flashBlocks ∧ ∃ t : State, t = u.countReads ((List.range cmd.arg1).map (fun i => cmd.arg0 + i)) ∧ t.flashLost ((List.range cmd.arg1).map (fun i => cmd.arg0 + i)) = false) ∧
    (∃ cmd : HostCmd, ∃ s : State, ∃ u : State, s.takeCmd 0 5 cmd = some u ∧ u.flash.mount = 2 ∧ 0 < cmd.arg1 ∧ cmd.arg1 ≤ 16384 ∧ cmd.arg0 + cmd.arg1 ≤ u.flashBlocks ∧ ∃ t : State, t = u.countReads ((List.range cmd.arg1).map (fun i => cmd.arg0 + i)) ∧ t.flashLost ((List.range cmd.arg1).map (fun i => cmd.arg0 + i)) = true) ∧
    (∃ cmd : HostCmd, ∃ s : State, ∃ u : State, s.takeCmd 0 6 cmd = some u ∧ u.flash.mount = 2 ∧ cmd.arg0 + cmd.arg1 ≤ u.flashBlocks) ∧
    (∃ cmd : HostCmd, ∃ s : State, ∃ u : State, s.takeCmd 0 7 cmd = some u ∧ u.flash.mount = 2 ∧ u.flash.cache = []) ∧
    (∃ cmd : HostCmd, ∃ s : State, ∃ u : State, s.takeCmd 0 7 cmd = some u ∧ u.flash.mount = 2 ∧ u.flash.cache ≠ []) ∧
    (∃ cmd : HostCmd, ∃ s : State, ∃ u : State, s.takeCmd 0 8 cmd = some u ∧ u.flash.mount = 2 ∧ u.anyLoaded = false ∧ u.inhibited = false) ∧
    (∃ cmd : HostCmd, ∃ s : State, ∃ u : State, s.takeCmd 0 6 cmd = some u ∧ u.flash.mount < 2) ∧
    (∃ cmd : HostCmd, ∃ s : State, ∃ u : State, s.takeCmd 0 6 cmd = some u ∧ u.flash.mount = 3) :=
  ⟨⟨0, ⟨0, 0, 0, 0, 0, [], false⟩, r0, _, some_of (by decide +kernel)⟩,
   ⟨⟨0, 0, 0, 0, 0, [1], false⟩, r0, _, some_of (by decide +kernel), by decide +kernel, by decide +kernel, by decide +kernel⟩,
   ⟨⟨0, 3, 0, 0, 0, (let b := mkRec 1088 [(0, 0x49), (1, 0x4B), (2, 0x54), (3, 0x4B)]; patch b 60 (toLe 4 (crc32c b))), false⟩, r0, _, some_of (by decide +kernel), by decide +kernel, by decide +kernel, by decide +kernel, by decide +kernel⟩,
   ⟨⟨0, 0, 0, 0, 0, zeros 4096, false⟩, (({ r0 with flash := { r0.flash with mount := 2 } } : State).setRegN Reg.MEM_LP_FLCACHE 0x00100000), _, rfl, by decide +kernel, zeros_ne 4095, by decide +kernel, by have := flash_fits (({ r0 with flash := { r0.flash with mount := 2 } } : State).setRegN Reg.MEM_LP_FLCACHE 0x00100000) (by decide +kernel); exact Nat.le_trans (by decide +kernel) this, by decide +kernel⟩,
   ⟨⟨0, 0, 1, 0, 0, [], false⟩, ({ r0 with flash := { r0.flash with mount := 2 } } : State), _, rfl, by decide +kernel, by decide +kernel, by decide +kernel, flash_fits _ rfl, _, rfl, by decide +kernel⟩,
   ⟨⟨0, 0, 1, 0, 0, [], false⟩, ({ r0 with flash := { r0.flash with mount := 2, lost := [0] } } : State), _, rfl, by decide +kernel, by decide +kernel, by decide +kernel, flash_fits _ rfl, _, rfl, by decide +kernel⟩,
   ⟨⟨0, 0, 1, 0, 0, [], false⟩, ({ r0 with flash := { r0.flash with mount := 2 } } : State), _, rfl, by decide +kernel, flash_fits _ rfl⟩,
   ⟨⟨0, 0, 0, 0, 0, [], false⟩, ({ r0 with flash := { r0.flash with mount := 2 } } : State), _, some_of (by decide +kernel), by decide +kernel, by decide +kernel⟩,
   ⟨⟨0, 0, 0, 0, 0, [], false⟩, ({ r0 with flash := { r0.flash with mount := 2, cache := [(0, [])] } } : State), _, some_of (by decide +kernel), by decide +kernel, by decide +kernel⟩,
   ⟨⟨0, 0, 0, 0, 0, [], false⟩, ({ r0 with flash := { r0.flash with mount := 2 } } : State), _, some_of (by decide +kernel), by decide +kernel, by decide +kernel, by decide +kernel⟩,
   ⟨⟨0, 0, 0, 0, 0, [], false⟩, r0, _, some_of (by decide +kernel), by decide +kernel⟩,
   ⟨⟨0, 0, 0, 0, 0, [], false⟩, ({ r0 with flash := { r0.flash with mount := 3 } } : State), _, some_of (by decide +kernel), by decide +kernel⟩⟩

theorem test_witness_ContextRingCommandsComplete :
    (∃ fn : Fin 17, ∃ cmd : HostCmd, ∃ c : Nat, ∃ s : State, ∃ u : State, u.fnCtx fn = some c ∧ s.takeCmd fn 0x10 cmd = some u ∧ (u.ctx c).adm = .keyed ∧ (u.hasp c).phase = .stopped ∧ (u.hasp c).loaded = false ∧ cmd.arg0 % 2097152 = 0 ∧ u.planCheck c cmd.arg0 cmd.payload = none) ∧
    (∃ fn : Fin 17, ∃ cmd : HostCmd, ∃ c : Nat, ∃ s : State, ∃ u : State, u.fnCtx fn = some c ∧ s.takeCmd fn 0x10 cmd = some u ∧ (u.ctx c).adm = .keyed ∧ (u.hasp c).phase = .stopped ∧ (u.hasp c).loaded = false ∧ cmd.arg0 % 2097152 = 0 ∧ ∃ f, u.planCheck c cmd.arg0 cmd.payload = some f) ∧
    (∃ fn : Fin 17, ∃ cmd : HostCmd, ∃ c : Nat, ∃ s : State, ∃ u : State, u.fnCtx fn = some c ∧ s.takeCmd fn 0x11 cmd = some u ∧ (u.hasp c).loaded = true ∧ (u.hasp c).loadCmd = none ∧ (u.hasp c).phase = .stopped ∧ (u.hasp c).startAt = none ∧ u.tick.now + 4 ≤ cmd.arg0 ∧ u.rulesOk c (planView (u.ctx c).image) = true ∧ u.coverBad c (planView (u.ctx c).image) = none ∧ (∀ i, i < imgVariants (u.ctx c).image → u.batchTick c < imgVoteTick (u.ctx c).image i) ∧ u.matchBad c (planView (u.ctx c).image) = none) ∧
    (∃ fn : Fin 17, ∃ cmd : HostCmd, ∃ c : Nat, ∃ s : State, ∃ u : State, u.fnCtx fn = some c ∧ s.takeCmd fn 0x12 cmd = some u ∧ (u.hasp c).phase = .stopped) ∧
    (∃ fn : Fin 17, ∃ cmd : HostCmd, ∃ c : Nat, ∃ s : State, ∃ u : State, u.fnCtx fn = some c ∧ s.takeCmd fn 0x12 cmd = some u ∧ (u.hasp c).phase ≠ .stopped ∧ (u.hasp c).phase ≠ .halted) ∧
    (∃ fn : Fin 17, ∃ cmd : HostCmd, ∃ c : Nat, ∃ s : State, ∃ u : State, u.fnCtx fn = some c ∧ s.takeCmd fn 0x13 cmd = some u ∧ cmd.arg0 ≤ (u.hasp c).shown) ∧
    (∃ fn : Fin 17, ∃ cmd : HostCmd, ∃ c : Nat, ∃ s : State, ∃ u : State, u.fnCtx fn = some c ∧ s.takeCmd fn 0x13 cmd = some u ∧ (u.hasp c).shown < cmd.arg0 ∧ (u.hasp c).phase ≠ .halted) ∧
    (∃ fn : Fin 17, ∃ cmd : HostCmd, ∃ c : Nat, ∃ s : State, ∃ u : State, u.fnCtx fn = some c ∧ s.takeCmd fn 0x14 cmd = some u ∧ cmd.arg0 % 16 = 4 ∧ 0 < cmd.arg2 ∧ cmd.arg2 ≤ 16777216 ∧ bit cmd.arg3 0 = false ∧ (u.ctx c).adm = .keyed ∧ u.inPart c 4 cmd.arg1 cmd.arg2 = true ∧ u.meetsArena c 4 cmd.arg1 cmd.arg2 = false) ∧
    (∃ fn : Fin 17, ∃ cmd : HostCmd, ∃ c : Nat, ∃ s : State, ∃ u : State, u.fnCtx fn = some c ∧ s.takeCmd fn 0x15 cmd = some u ∧ cmd.arg0 = 4 ∧ cmd.payload ≠ [] ∧ (u.hasp c).phase = .stopped ∧ (u.ctx c).adm = .keyed ∧ u.inPart c 4 cmd.arg1 cmd.payload.length = true) ∧
    (∃ fn : Fin 17, ∃ cmd : HostCmd, ∃ c : Nat, ∃ s : State, ∃ u : State, u.fnCtx fn = some c ∧ s.takeCmd fn 0x16 cmd = some u ∧ cmd.arg0 % 4 = 1 ∧ u.ownBolt c (cmd.arg1 % 65536) = true) ∧
    (∃ fn : Fin 17, ∃ cmd : HostCmd, ∃ c : Nat, ∃ s : State, ∃ u : State, u.fnCtx fn = some c ∧ s.takeCmd fn 0x16 cmd = some u ∧ cmd.arg0 % 4 = 2 ∧ u.ownBolt c (cmd.arg1 % 65536) = true) ∧
    (∃ fn : Fin 17, ∃ cmd : HostCmd, ∃ c : Nat, ∃ s : State, ∃ u : State, u.fnCtx fn = some c ∧ s.takeCmd fn 0x20 cmd = some u ∧ u.mediaGone = false ∧ u.ingests c = true ∧ u.ingSource c = 1 ∧ ∃ scans, ∃ r, u.frameCheck c cmd.payload scans = .ok r) ∧
    (∃ fn : Fin 17, ∃ cmd : HostCmd, ∃ c : Nat, ∃ s : State, ∃ u : State, u.fnCtx fn = some c ∧ s.takeCmd fn 0x21 cmd = some u ∧ cmd.arg0 < 64 ∧ u.liveCtx cmd.arg0 = c ∧ u.mediaGone = false ∧ (u.stream cmd.arg0).status = 1 ∧ (u.stream cmd.arg0).skipping = false ∧ ∃ w, ∃ h, ∃ rap, ∃ rasl, ((u.stream cmd.arg0).dropRasl = false ∨ rasl = false ∨ rap = true) ∧ w ≤ (u.liveGeom cmd.arg0).1 ∧ h ≤ (u.liveGeom cmd.arg0).2 ∧ 8 * cmd.payload.length ≤ u.regN (Reg.MED_LIVE_MAXBITS cmd.arg0)) ∧
    (∃ fn : Fin 17, ∃ cmd : HostCmd, ∃ c : Nat, ∃ s : State, ∃ u : State, u.fnCtx fn = some c ∧ s.takeCmd fn 0x22 cmd = some u ∧ cmd.arg0 < 64 ∧ u.regN (Reg.MED_SENS_CTRL cmd.arg0) % 16 = c ∧ u.mediaGone = false ∧ bit (u.regN (Reg.MED_SENS_CTRL cmd.arg0)) 31 = true ∧ (tget (fun _ => {}) u.media.sensors cmd.arg0).openFrame = false) :=
  ⟨⟨1, ⟨0, 0x1E00000, 0, 0, 0, tinyImage, false⟩, 0, planSt, planSt, by decide +kernel, rfl, by decide +kernel, by decide +kernel, by decide +kernel, by decide +kernel, by decide +kernel⟩,
   ⟨1, ⟨0, 0, 0, 0, 0, zeros 64, false⟩, 0, planSt, planSt, by decide +kernel, rfl, by decide +kernel, by decide +kernel, by decide +kernel, by decide +kernel, ⟨1, 0, 0, 0⟩, by decide +kernel⟩,
   ⟨1, ⟨0, 4, 0, 0, 0, [], false⟩, 0, vf.modCtx 0 (fun x => { x with image := tinyImage, hasp := { x.hasp with loaded := true } }), vf.modCtx 0 (fun x => { x with image := tinyImage, hasp := { x.hasp with loaded := true } }), by decide +kernel, rfl, by decide +kernel, by decide +kernel, by decide +kernel, by decide +kernel, by decide +kernel, by decide +kernel, by decide +kernel, by decide +kernel, by decide +kernel⟩,
   ⟨1, ⟨0, 0, 0, 0, 0, [], false⟩, 0, vf, vf, by decide +kernel, rfl, by decide +kernel⟩,
   ⟨1, ⟨0, 0, 0, 0, 0, [], false⟩, 0, vf.modHasp 0 (fun h => { h with phase := .running }), vf.modHasp 0 (fun h => { h with phase := .running }), by decide +kernel, rfl, by decide +kernel, by decide +kernel⟩,
   ⟨1, ⟨0, 0, 0, 0, 0, [], false⟩, 0, vf, vf, by decide +kernel, rfl, by decide +kernel⟩,
   ⟨1, ⟨0, 1, 0, 0, 0, [], false⟩, 0, vf, vf, by decide +kernel, rfl, by decide +kernel, by decide +kernel⟩,
   ⟨1, ⟨0, 4, 0, 16777216, 0, [], false⟩, 0, vf.setRegN (Reg.CTX_LP_SIZE 0) 8, vf.setRegN (Reg.CTX_LP_SIZE 0) 8, by decide +kernel, rfl, by decide +kernel, by decide +kernel, by decide +kernel, by decide +kernel, by decide +kernel, by decide +kernel, by decide +kernel⟩,
   ⟨1, ⟨0, 4, 0, 0, 0, [1], false⟩, 0, vf.setRegN (Reg.CTX_LP_SIZE 0) 8, vf.setRegN (Reg.CTX_LP_SIZE 0) 8, by decide +kernel, rfl, by decide +kernel, by decide +kernel, by decide +kernel, by decide +kernel, by decide +kernel⟩,
   ⟨1, ⟨0, 1, 0, 0, 0, [], false⟩, 0, vf.setRegN (Reg.CTX_BOLTS 0) 0x00010000, vf.setRegN (Reg.CTX_BOLTS 0) 0x00010000, by decide +kernel, rfl, by decide +kernel, by decide +kernel⟩,
   ⟨1, ⟨0, 2, 0, 0, 0, [], false⟩, 0, vf.setRegN (Reg.CTX_BOLTS 0) 0x00010000, vf.setRegN (Reg.CTX_BOLTS 0) 0x00010000, by decide +kernel, rfl, by decide +kernel, by decide +kernel⟩,
   ⟨1, ⟨0, 0, 0, 0, 0, (toLe 4 7 ++ toLe 4 (crc32c ([0xA3, 0x00, 0x01, 0x01, 0x00, 0x03, 0x80] : Bytes)) ++ [0xA3, 0x00, 0x01, 0x01, 0x00, 0x03, 0x80] ++ zeros 1), false⟩, 0, (vf.modHasp 0 (fun h => { h with loaded := true })).setRegN (Reg.MED_ING_CTRL 0) 1, (vf.modHasp 0 (fun h => { h with loaded := true })).setRegN (Reg.MED_ING_CTRL 0) 1, by decide +kernel, rfl, by decide +kernel, by decide +kernel, by decide +kernel, [], ([0xA3, 0x00, 0x01, 0x01, 0x00, 0x03, 0x80], ⟨0, none, []⟩), by decide +kernel⟩,
   ⟨1, ⟨0, 63, 0, 0, 0, [], false⟩, 0, vf.modLive 63 (fun v => { v with status := 1 }), vf.modLive 63 (fun v => { v with status := 1 }), by decide +kernel, rfl, by decide +kernel, by decide +kernel, by decide +kernel, by decide +kernel, by decide +kernel, 0, 0, false, false, by decide +kernel, by decide +kernel, by decide +kernel, by decide +kernel⟩,
   ⟨1, ⟨0, 63, 0, 0, 0, [], false⟩, 0, vf.setRegN (Reg.MED_SENS_CTRL 63) 0x80000000, vf.setRegN (Reg.MED_SENS_CTRL 63) 0x80000000, by decide +kernel, rfl, by decide +kernel, by decide +kernel, by decide +kernel, by decide +kernel, by decide +kernel⟩⟩

theorem test_witness_RingOfTheWrongKind :
    (∃ fn : Fin 17, ∃ cmd : HostCmd, ∃ s : State, ∃ u : State, fn.val ≠ 0 ∧ s.takeCmd fn 2 cmd = some u) ∧
    (∃ fn : Fin 17, ∃ cmd : HostCmd, ∃ s : State, ∃ u : State, fn.val ≠ 0 ∧ s.takeCmd fn 3 cmd = some u) ∧
    (∃ fn : Fin 17, ∃ cmd : HostCmd, ∃ s : State, ∃ u : State, fn.val ≠ 0 ∧ s.takeCmd fn 4 cmd = some u) ∧
    (∃ fn : Fin 17, ∃ cmd : HostCmd, ∃ s : State, ∃ u : State, fn.val ≠ 0 ∧ s.takeCmd fn 5 cmd = some u) ∧
    (∃ fn : Fin 17, ∃ cmd : HostCmd, ∃ s : State, ∃ u : State, fn.val ≠ 0 ∧ s.takeCmd fn 6 cmd = some u) ∧
    (∃ fn : Fin 17, ∃ cmd : HostCmd, ∃ s : State, ∃ u : State, fn.val ≠ 0 ∧ s.takeCmd fn 7 cmd = some u) ∧
    (∃ fn : Fin 17, ∃ cmd : HostCmd, ∃ s : State, ∃ u : State, fn.val ≠ 0 ∧ s.takeCmd fn 8 cmd = some u) ∧
    (∃ fn : Fin 17, ∃ cmd : HostCmd, ∃ s : State, ∃ u : State, u.fnCtx fn = none ∧ s.takeCmd fn 0x10 cmd = some u) ∧
    (∃ fn : Fin 17, ∃ cmd : HostCmd, ∃ s : State, ∃ u : State, u.fnCtx fn = none ∧ s.takeCmd fn 0x11 cmd = some u) ∧
    (∃ fn : Fin 17, ∃ cmd : HostCmd, ∃ s : State, ∃ u : State, u.fnCtx fn = none ∧ s.takeCmd fn 0x12 cmd = some u) ∧
    (∃ fn : Fin 17, ∃ cmd : HostCmd, ∃ s : State, ∃ u : State, u.fnCtx fn = none ∧ s.takeCmd fn 0x13 cmd = some u) ∧
    (∃ fn : Fin 17, ∃ cmd : HostCmd, ∃ s : State, ∃ u : State, u.fnCtx fn = none ∧ s.takeCmd fn 0x14 cmd = some u) ∧
    (∃ fn : Fin 17, ∃ cmd : HostCmd, ∃ s : State, ∃ u : State, u.fnCtx fn = none ∧ s.takeCmd fn 0x15 cmd = some u) ∧
    (∃ fn : Fin 17, ∃ cmd : HostCmd, ∃ s : State, ∃ u : State, u.fnCtx fn = none ∧ s.takeCmd fn 0x20 cmd = some u) ∧
    (∃ fn : Fin 17, ∃ cmd : HostCmd, ∃ s : State, ∃ u : State, u.fnCtx fn = none ∧ s.takeCmd fn 0x16 cmd = some u) ∧
    (∃ fn : Fin 17, ∃ cmd : HostCmd, ∃ s : State, ∃ u : State, u.fnCtx fn = none ∧ s.takeCmd fn 0x21 cmd = some u) ∧
    (∃ fn : Fin 17, ∃ cmd : HostCmd, ∃ s : State, ∃ u : State, u.fnCtx fn = none ∧ s.takeCmd fn 0x22 cmd = some u) :=
  ⟨⟨16, ⟨0, 0, 0, 0, 0, [], false⟩, r0, _, by decide +kernel, some_of (by decide +kernel)⟩,
   ⟨16, ⟨0, 0, 0, 0, 0, [], false⟩, r0, _, by decide +kernel, some_of (by decide +kernel)⟩,
   ⟨16, ⟨0, 0, 0, 0, 0, [], false⟩, r0, _, by decide +kernel, some_of (by decide +kernel)⟩,
   ⟨16, ⟨0, 0, 0, 0, 0, [], false⟩, r0, _, by decide +kernel, some_of (by decide +kernel)⟩,
   ⟨16, ⟨0, 0, 0, 0, 0, [], false⟩, r0, _, by decide +kernel, some_of (by decide +kernel)⟩,
   ⟨16, ⟨0, 0, 0, 0, 0, [], false⟩, r0, _, by decide +kernel, some_of (by decide +kernel)⟩,
   ⟨16, ⟨0, 0, 0, 0, 0, [], false⟩, r0, _, by decide +kernel, some_of (by decide +kernel)⟩,
   ⟨16, ⟨0, 0, 0, 0, 0, [], false⟩, r0, r0, by decide +kernel, by decide +kernel⟩,
   ⟨0, ⟨0, 0, 0, 0, 0, [], false⟩, r0, r0, by decide +kernel, by decide +kernel⟩,
   ⟨16, ⟨0, 0, 0, 0, 0, [], false⟩, r0, r0, by decide +kernel, by decide +kernel⟩,
   ⟨0, ⟨0, 0, 0, 0, 0, [], false⟩, r0, r0, by decide +kernel, by decide +kernel⟩,
   ⟨16, ⟨0, 0, 0, 0, 0, [], false⟩, r0, r0, by decide +kernel, by decide +kernel⟩,
   ⟨0, ⟨0, 0, 0, 0, 0, [], false⟩, r0, r0, by decide +kernel, by decide +kernel⟩,
   ⟨16, ⟨0, 0, 0, 0, 0, [], false⟩, r0, r0, by decide +kernel, by decide +kernel⟩,
   ⟨0, ⟨0, 0, 0, 0, 0, [], false⟩, r0, r0, by decide +kernel, by decide +kernel⟩,
   ⟨16, ⟨0, 0, 0, 0, 0, [], false⟩, r0, r0, by decide +kernel, by decide +kernel⟩,
   ⟨0, ⟨0, 0, 0, 0, 0, [], false⟩, r0, r0, by decide +kernel, by decide +kernel⟩⟩

theorem test_witness_ResetCommandsComplete :
    (∃ s : State, s.rst.active = false) ∧
    (∃ s : State, s.mgmt.restarting = false) ∧
    (∃ s : State, s.mgmt.restarting = true) ∧
    (∃ v : W32, ∃ s : State, v.toNat / 65536 = 0xA5C3 ∧ scopeOk (v.toNat % 256) = true ∧ (v.toNat % 256 % 4 = 3 → s.wardResetOk (v.toNat % 256 / 4) = true)) ∧
    (∃ v : W32, ∃ s : State, v.toNat / 65536 = 0xA5C3 ∧ scopeOk (v.toNat % 256) = true ∧ v.toNat % 256 % 4 = 3 ∧ s.wardResetOk (v.toNat % 256 / 4) = false) ∧
    (∃ v : W32, (v.toNat / 65536 ≠ 0xA5C3 ∨ scopeOk (v.toNat % 256) = false)) ∧
    (∃ s : State, s.rst.active = true ∧ s.rst.tripHold = false ∧ s.rst.driven = true) ∧
    (∃ s : State, s.rst.active = true ∧ s.rst.external = true) ∧
    (∃ s : State, s.rst.active = false ∧ s.rst.failed = false ∧ s.rst.phase = 1) ∧
    (∃ s : State, s.rst.active = false ∧ s.rst.failed = false ∧ s.rst.phase = 2) ∧
    (∃ s : State, s.rst.active = false ∧ s.rst.failed = false ∧ s.rst.phase = 3) ∧
    (∃ s : State, s.rst.active = false ∧ s.rst.failed = false ∧ s.rst.phase = 4) ∧
    (∃ s : State, s.rst.active = false ∧ s.rst.failed = false ∧ s.rst.phase = 5) ∧
    (∃ s : State, s.rst.active = false ∧ s.rst.failed = false ∧ s.rst.phase = 6) ∧
    (∃ s : State, s.rst.active = false ∧ s.rst.failed = false ∧ s.rst.phase = 7) ∧
    (∃ s : State, s.rst.active = false ∧ s.rst.failed = false ∧ s.rst.phase = 8) ∧
    (∃ s : State, s.rst.active = false ∧ s.rst.failed = false ∧ s.rst.phase = 9 ∧ s.rst.holdLinks = false) ∧
    (∃ s : State, s.rst.active = false ∧ s.rst.failed = false ∧ 0 < s.rst.phase ∧ s.rst.phase < 7) ∧
    (∃ w : Fin 16, ∃ s : State, s.rst.wardBusy.contains w.val = true) :=
  ⟨⟨r0, by decide +kernel⟩,
   ⟨r0, by decide +kernel⟩,
   ⟨{ r0 with mgmt := { r0.mgmt with restarting := true } }, by decide +kernel⟩,
   ⟨0xA5C3003F#32, r0, by decide +kernel, by decide +kernel, by decide +kernel⟩,
   ⟨0xA5C3003F#32, hs (fun h => { h with loaded := true }), by decide +kernel, by decide +kernel, by decide +kernel, by decide +kernel⟩,
   ⟨0xA5C30005#32, by decide +kernel⟩,
   ⟨{ r0 with rst := { r0.rst with active := true, driven := true } }, by decide +kernel, by decide +kernel, by decide +kernel⟩,
   ⟨{ r0 with rst := { r0.rst with active := true, external := true } }, by decide +kernel, by decide +kernel⟩,
   ⟨{ r0 with rst := { r0.rst with phase := 1 } }, by decide +kernel, by decide +kernel, by decide +kernel⟩,
   ⟨{ r0 with rst := { r0.rst with phase := 2 } }, by decide +kernel, by decide +kernel, by decide +kernel⟩,
   ⟨{ r0 with rst := { r0.rst with phase := 3 } }, by decide +kernel, by decide +kernel, by decide +kernel⟩,
   ⟨{ r0 with rst := { r0.rst with phase := 4 } }, by decide +kernel, by decide +kernel, by decide +kernel⟩,
   ⟨{ r0 with rst := { r0.rst with phase := 5 } }, by decide +kernel, by decide +kernel, by decide +kernel⟩,
   ⟨{ r0 with rst := { r0.rst with phase := 6 } }, by decide +kernel, by decide +kernel, by decide +kernel⟩,
   ⟨{ r0 with rst := { r0.rst with phase := 7 } }, by decide +kernel, by decide +kernel, by decide +kernel⟩,
   ⟨{ r0 with rst := { r0.rst with phase := 8 } }, by decide +kernel, by decide +kernel, by decide +kernel⟩,
   ⟨{ r0 with rst := { r0.rst with phase := 9 } }, by decide +kernel, by decide +kernel, by decide +kernel, by decide +kernel⟩,
   ⟨{ r0 with rst := { r0.rst with phase := 6 } }, by decide +kernel, by decide +kernel, by decide +kernel, by decide +kernel⟩,
   ⟨15, { r0 with rst := { r0.rst with wardBusy := [15] } }, by decide +kernel⟩⟩

theorem test_witness_ResetCauseRule :
    (∃ c : Instr, ∃ s : State, ∃ t : State, ∃ i : Nat, (∃ now, c = .resetNAssert now ∨ c = .watchdogExpiry now ∨ c = .fatalEscalation now ∨ c = .pllLockTimeout now ∨ c = .railUndervolt now ∨ (∃ v, c = .rstCmd v now) ∨ (∃ mv, c = .vinSample mv now) ∨ (∃ l, c = .dieTempSample l now ∨ c = .stackTempSample l now) ∨ (∃ b, c = .stretchExpiry now b) ∨ c = .perstAssert ∨ (∃ fn, c = .functionLevelReset fn ∨ c = .d3hotEntry fn) ∨ (∃ w, c = .wardResetComplete w)) ∧ exec c s = .next t ∧ (s.reg Reg.RST_CAUSE).getLsbD i = true) ∧
    (∃ i : Nat, ∃ s : State, (s.reg Reg.RST_CAUSE).getLsbD i = true) :=
  ⟨⟨.perstAssert, r0, _, 0, by simp, next_of (by decide +kernel), by decide +kernel⟩,
   ⟨0, r0, by decide +kernel⟩⟩

theorem test_witness_ClockCommandsComplete :
    (∃ r : RefClk, ∃ good : Bool, ∃ s : State, (good = (if r = .a then s.clk.aOk else s.clk.bOk)) ∧ good = false) ∧
    (∃ r : RefClk, ∃ n : Nat, ∃ good : Bool, ∃ s : State, (n = (if r = .a then 0 else 1)) ∧ (good = (if r = .a then s.clk.aOk else s.clk.bOk)) ∧ good = true ∧ (s.clk.source ≠ n ∨ s.clk.holdover = true)) ∧
    (∃ r : RefClk, ∃ n : Nat, ∃ good : Bool, ∃ other : Bool, ∃ s : State, (n = (if r = .a then 0 else 1)) ∧ (good = (if r = .a then s.clk.aOk else s.clk.bOk)) ∧ (other = (if r = .a then s.clk.bOk else s.clk.aOk)) ∧ good = true ∧ s.clk.source = n ∧ s.clk.holdover = false ∧ other = true) ∧
    (∃ r : RefClk, ∃ n : Nat, ∃ good : Bool, ∃ other : Bool, ∃ s : State, (n = (if r = .a then 0 else 1)) ∧ (good = (if r = .a then s.clk.aOk else s.clk.bOk)) ∧ (other = (if r = .a then s.clk.bOk else s.clk.aOk)) ∧ good = true ∧ s.clk.source = n ∧ s.clk.holdover = false ∧ other = false ∧ (s.rst.active = true ∨ s.rst.phase < 10)) ∧
    (∃ r : RefClk, ∃ n : Nat, ∃ good : Bool, ∃ other : Bool, ∃ s : State, (n = (if r = .a then 0 else 1)) ∧ (good = (if r = .a then s.clk.aOk else s.clk.bOk)) ∧ (other = (if r = .a then s.clk.bOk else s.clk.aOk)) ∧ good = true ∧ s.clk.source = n ∧ s.clk.holdover = false ∧ other = false ∧ s.rst.active = false ∧ 10 ≤ s.rst.phase) ∧
    (∃ s : State, s.clk.holdover = false) ∧
    (∃ s : State, s.clk.holdover = true) ∧
    (∃ v : W32, ∃ s : State, ((if v.toNat % 2 = 0 then s.clk.aOk else s.clk.bOk) = true) ∧ s.clk.source ≠ v.toNat % 2) ∧
    (∃ v : W32, ∃ s : State, ((if v.toNat % 2 = 0 then s.clk.aOk else s.clk.bOk) = true) ∧ s.clk.source = v.toNat % 2) ∧
    (∃ v : W32, ∃ s : State, ((if v.toNat % 2 = 0 then s.clk.aOk else s.clk.bOk) = false)) ∧
    (∃ s : State, s.clk.holdover = true ∧ s.clk.holdStop = false) ∧
    (∃ s : State, (s.clk.holdover = false ∨ s.clk.holdStop = true)) :=
  ⟨⟨.b, _, { r0 with clk := { r0.clk with bOk := false } }, rfl, rfl⟩,
   ⟨.b, _, _, { r0 with clk := { r0.clk with bOk := true } }, rfl, rfl, rfl, by decide +kernel⟩,
   ⟨.a, _, _, _, { r0 with clk := { r0.clk with aOk := true, bOk := true } }, rfl, rfl, rfl, rfl, by decide +kernel, by decide +kernel, rfl⟩,
   ⟨.a, _, _, _, { r0 with clk := { r0.clk with aOk := true, bOk := false } }, rfl, rfl, rfl, rfl, by decide +kernel, by decide +kernel, rfl, by decide +kernel⟩,
   ⟨.a, _, _, _, { r0 with clk := { r0.clk with aOk := true, bOk := false }, rst := { r0.rst with phase := 10 } }, rfl, rfl, rfl, rfl, by decide +kernel, by decide +kernel, rfl, by decide +kernel, by decide +kernel⟩,
   ⟨r0, by decide +kernel⟩,
   ⟨{ r0 with clk := { r0.clk with holdover := true } }, by decide +kernel⟩,
   ⟨0xFFFFFFFF#32, { r0 with clk := { r0.clk with bOk := true } }, by decide +kernel, by decide +kernel⟩,
   ⟨0, { r0 with clk := { r0.clk with aOk := true } }, by decide +kernel, by decide +kernel⟩,
   ⟨0, { r0 with clk := { r0.clk with aOk := false } }, by decide +kernel⟩,
   ⟨{ r0 with clk := { r0.clk with holdover := true } }, by decide +kernel, by decide +kernel⟩,
   ⟨r0, by decide +kernel⟩⟩

theorem test_witness_PowerCommandsComplete :
    (∃ (mv : Nat) (s u : State), u = (s.setRegN Reg.PWR_VIN (min 65535 (mv * (s.regN Reg.PWR_VIN_RATIO % 65536) / 1000 / 10))).modPwr (fun p => { p with samples := (s.pwr.samples ++ [mv * (s.regN Reg.PWR_VIN_RATIO % 65536) / 1000]).drop ((s.pwr.samples ++ [mv * (s.regN Reg.PWR_VIN_RATIO % 65536) / 1000]).length - 4) }) ∧ u.pwr.samples.length < 4) ∧
    (∃ (mv : Nat) (s u : State), u = (s.setRegN Reg.PWR_VIN (min 65535 (mv * (s.regN Reg.PWR_VIN_RATIO % 65536) / 1000 / 10))).modPwr (fun p => { p with samples := (s.pwr.samples ++ [mv * (s.regN Reg.PWR_VIN_RATIO % 65536) / 1000]).drop ((s.pwr.samples ++ [mv * (s.regN Reg.PWR_VIN_RATIO % 65536) / 1000]).length - 4) }) ∧ 4 ≤ u.pwr.samples.length ∧ u.vinStage u.vinMean = 4) ∧
    (∃ (mv : Nat) (s u : State), u = (s.setRegN Reg.PWR_VIN (min 65535 (mv * (s.regN Reg.PWR_VIN_RATIO % 65536) / 1000 / 10))).modPwr (fun p => { p with samples := (s.pwr.samples ++ [mv * (s.regN Reg.PWR_VIN_RATIO % 65536) / 1000]).drop ((s.pwr.samples ++ [mv * (s.regN Reg.PWR_VIN_RATIO % 65536) / 1000]).length - 4) }) ∧ 4 ≤ u.pwr.samples.length ∧ u.vinStage u.vinMean ≠ 4) ∧
    (∃ g : Nat, ∃ s : State, s.pwr.stage = g ∧ 0 < g ∧ g ≤ 3 ∧ (if g = 3 then s.vinThresholds.2.2.1 else if g = 2 then s.vinThresholds.2.1 else s.vinThresholds.1) + 1000 ≤ s.vinMean) ∧
    (∃ s : State, s.rst.phase = 1 ∧ s.rst.active = false) ∧
    (∃ s : State, s.pwr.railEn = true) ∧
    (∃ s : State, s.pwr.railEn = false) ∧
    (∃ s : State, s.pwr.shed = false) ∧
    (∃ m : Nat, ∃ s : State, s.cap < m) ∧
    (∃ s : State, s.rst.tripHold = false) ∧
    (∃ l : List Nat, ∃ s : State, s.rst.tripHold = false ∧ (hottestOf (l.take 72)).1 < 105) ∧
    (∃ l : List Nat, ∃ s : State, s.rst.tripHold = false ∧ 115 ≤ (hottestOf (l.take 72)).1) :=
  ⟨⟨0, { r0 with pwr := { r0.pwr with samples := [] } }, _, rfl, by decide +kernel⟩,
   ⟨0, { r0 with pwr := { r0.pwr with samples := [0, 0, 0] } }, _, rfl, by decide +kernel, by decide +kernel⟩,
   ⟨60000, { r0 with pwr := { r0.pwr with samples := [60000, 60000, 60000] } }, _, rfl, by decide +kernel, by decide +kernel⟩,
   ⟨3, { r0 with pwr := { r0.pwr with stage := 3, samples := [60000] } }, by decide +kernel, by decide +kernel, by decide +kernel, by decide +kernel⟩,
   ⟨{ r0 with rst := { r0.rst with phase := 1 } }, by decide +kernel, by decide +kernel⟩,
   ⟨{ r0 with pwr := { r0.pwr with railEn := true } }, by decide +kernel⟩,
   ⟨r0, by decide +kernel⟩,
   ⟨r0, by decide +kernel⟩,
   ⟨1000000, r0, by decide +kernel⟩,
   ⟨r0, by decide +kernel⟩,
   ⟨[104], r0, by decide +kernel, by decide +kernel⟩,
   ⟨[115], r0, by decide +kernel, by decide +kernel⟩⟩

theorem test_witness_EndpointAndSessionCommandsComplete :
    (∃ s : State, ∃ eid, s.mgmt.restarting = false ∧ 0 < eid ∧ eid < 255) ∧
    (∃ s : State, ∃ eid, s.mgmt.restarting = false ∧ 0 < eid ∧ eid < 255 ∧ s.vdmUp = true) ∧
    (∃ s : State, ∃ vdm, s.mgmt.restarting = false ∧ (vdm = true → s.vdmUp = true)) ∧
    (∃ s : State, ∃ vdm, ∃ n, s.mgmt.restarting = false ∧ (vdm = true → s.vdmUp = true) ∧ mctpTypes.contains n = true) ∧
    (∃ s : State, s.mgmt.restarting = false) ∧
    (∃ s : State, s.mgmt.restarting = false ∧ s.mgmt.negotiated = true) ∧
    (∃ s : State, ∃ offset, s.mgmt.restarting = false ∧ s.mgmt.negotiated = true ∧ offset ≤ Config.certChain.length) ∧
    (∃ s : State, ∃ n, s.mgmt.restarting = false ∧ s.mgmt.negotiated = true ∧ 0 < n ∧ n ≤ 5) ∧
    (∃ s : State, ∃ id, s.mgmt.restarting = false ∧ s.mgmt.negotiated = true ∧ (s.mgmt.sessions.any (fun p => p.1 == id) = false) ∧ s.mgmt.sessions.length < 4) ∧
    (∃ s : State, ∃ n, s.mgmt.restarting = false ∧ (s.mgmt.sessions.any (fun p => p.1 == n && p.2 == false)) = true) ∧
    (∃ s : State, ∃ n, s.mgmt.restarting = false ∧ (s.mgmt.sessions.any (fun p => p.1 == n && p.2 == true)) = true) :=
  ⟨⟨r0, 254, by decide +kernel, by decide +kernel, by decide +kernel⟩,
   ⟨r0, 1, by decide +kernel, by decide +kernel, by decide +kernel, by decide +kernel⟩,
   ⟨r0, true, by decide +kernel, by decide +kernel⟩,
   ⟨r0, true, 0x7F, by decide +kernel, by decide +kernel, by decide +kernel⟩,
   ⟨r0, by decide +kernel⟩,
   ⟨({ r0 with mgmt := { r0.mgmt with sessions := [(1, true)], negotiated := true } } : State), by decide +kernel, by decide +kernel⟩,
   ⟨({ r0 with mgmt := { r0.mgmt with sessions := [(1, true)], negotiated := true } } : State), 0, by decide +kernel, by decide +kernel, by decide +kernel⟩,
   ⟨({ r0 with mgmt := { r0.mgmt with sessions := [(1, true)], negotiated := true } } : State), 5, by decide +kernel, by decide +kernel, by decide +kernel, by decide +kernel⟩,
   ⟨({ r0 with mgmt := { r0.mgmt with sessions := [(1, true)], negotiated := true } } : State), 0, by decide +kernel, by decide +kernel, by decide +kernel, by decide +kernel⟩,
   ⟨({ r0 with mgmt := { r0.mgmt with sessions := [(1, false)], negotiated := true } } : State), 1, by decide +kernel, by decide +kernel⟩,
   ⟨({ r0 with mgmt := { r0.mgmt with sessions := [(1, true)], negotiated := true } } : State), 1, by decide +kernel, by decide +kernel⟩⟩

theorem test_witness_SebaleyCommandsComplete :
    (∃ s : State, s.mgmt.restarting = false) ∧
    (∃ s : State, ∃ off, s.mgmt.restarting = false ∧ off < 0x01000000) ∧
    (∃ s : State, ∃ kind, ∃ unit, s.mgmt.restarting = false ∧ unitNamed kind unit = true) ∧
    (∃ s : State, ∃ kind, ∃ unit, s.mgmt.restarting = false ∧ unitNamed kind unit = false) ∧
    (∃ s : State, ∃ n, s.mgmt.restarting = false ∧ 0 < n ∧ n ≤ 16) ∧
    (∃ s : State, ∃ n, s.mgmt.restarting = false ∧ 4096 < n) ∧
    (∃ s : State, ∃ c, ∃ n, s.mgmt.restarting = false ∧ n ≤ 4096 ∧ (c = 0 ∨ 0x0A < c)) ∧
    (∃ s : State, ∃ q, ∃ off, s.mgmt.restarting = false ∧ s.inSession q = true ∧ off < 0x01000000) ∧
    (∃ s : State, ∃ q, ∃ n, s.mgmt.restarting = false ∧ s.inSession q = true ∧ n ≤ 4) ∧
    (∃ s : State, ∃ q, ∃ b, s.mgmt.restarting = false ∧ s.inSession q = true ∧ s.resetCode b = 0) ∧
    (∃ s : State, ∃ q, ∃ unit, s.mgmt.restarting = false ∧ s.inSession q = true ∧ unitNamed 1 unit = true) ∧
    (∃ s : State, ∃ q, ∃ unit, s.mgmt.restarting = false ∧ s.inSession q = true ∧ unitNamed 1 unit = true ∧ s.unitClass 1 unit < 4 ∧ (s.tileMap (unit % 16)).spare = none) ∧
    (∃ s : State, ∃ q, ∃ unit, s.mgmt.restarting = false ∧ s.inSession q = true ∧ unitNamed 1 unit = true ∧ 4 ≤ s.unitClass 1 unit) ∧
    (∃ s : State, ∃ q, ∃ kind, ∃ unit, s.mgmt.restarting = false ∧ s.inSession q = true ∧ unitNamed kind unit = true) ∧
    (∃ s : State, ∃ q, s.mgmt.restarting = false ∧ s.inSession q = true) ∧
    (∃ s : State, ∃ q, ∃ b : Bytes, s.mgmt.restarting = false ∧ s.inSession q = true ∧ b.length = 32) :=
  ⟨⟨r0, by decide +kernel⟩,
   ⟨r0, 0xFFFFFF, by decide +kernel, by decide +kernel⟩,
   ⟨r0, 1, 4111, by decide +kernel, by decide +kernel⟩,
   ⟨r0, 1, 4352, by decide +kernel, by decide +kernel⟩,
   ⟨r0, 16, by decide +kernel, by decide +kernel, by decide +kernel⟩,
   ⟨r0, 4097, by decide +kernel, by decide +kernel⟩,
   ⟨r0, 0x0B, 4096, by decide +kernel, by decide +kernel, by decide +kernel⟩,
   ⟨({ r0 with mgmt := { r0.mgmt with sessions := [(1, true)], negotiated := true } } : State), some 1, 0xFFFFFF, by decide +kernel, by decide +kernel, by decide +kernel⟩,
   ⟨({ r0 with mgmt := { r0.mgmt with sessions := [(1, true)], negotiated := true } } : State), some 1, 4, by decide +kernel, by decide +kernel, by decide +kernel⟩,
   ⟨({ r0 with mgmt := { r0.mgmt with sessions := [(1, true)], negotiated := true } } : State), some 1, 63, by decide +kernel, by decide +kernel, by decide +kernel⟩,
   ⟨({ r0 with mgmt := { r0.mgmt with sessions := [(1, true)], negotiated := true } } : State), some 1, 4111, by decide +kernel, by decide +kernel, by decide +kernel⟩,
   ⟨({ ({ r0 with mgmt := { r0.mgmt with sessions := [(1, true)], negotiated := true } } : State) with chk := { r0.chk with maps := [(0, ⟨List.range 16, none, [], none⟩)] } } : State), some 1, 0, by decide +kernel, by decide +kernel, by decide +kernel, by decide +kernel, by decide +kernel⟩,
   ⟨({ ({ r0 with mgmt := { r0.mgmt with sessions := [(1, true)], negotiated := true } } : State) with chk := { r0.chk with classes := [(unitKey 1 0, 4)] } } : State), some 1, 0, by decide +kernel, by decide +kernel, by decide +kernel, by decide +kernel⟩,
   ⟨({ r0 with mgmt := { r0.mgmt with sessions := [(1, true)], negotiated := true } } : State), some 1, 8, 255, by decide +kernel, by decide +kernel, by decide +kernel⟩,
   ⟨({ r0 with mgmt := { r0.mgmt with sessions := [(1, true)], negotiated := true } } : State), some 1, by decide +kernel, by decide +kernel⟩,
   ⟨({ r0 with mgmt := { r0.mgmt with sessions := [(1, true)], negotiated := true } } : State), some 1, zeros 32, by decide +kernel, by decide +kernel, by decide +kernel⟩⟩

theorem test_witness_FirmwareAndTelemetryCommandsComplete :
    (∃ s : State, s.mgmt.restarting = false ∧ ∃ q, ∃ n, s.inSession q = true ∧ s.mgmt.update = none ∧ 0 < n ∧ n ≤ 3) ∧
    (∃ s : State, s.mgmt.restarting = false ∧ ∃ n, ∃ image, ∃ pub, s.mgmt.update = some n ∧ imageAllowed n image pub = true) ∧
    (∃ s : State, s.mgmt.restarting = false ∧ ∃ n, ∃ image, ∃ pub, s.mgmt.update = some n ∧ imageAllowed n image pub = false) ∧
    (∃ s : State, s.mgmt.restarting = false ∧ ∃ n, ∃ e, s.mgmt.update = some n ∧ s.mgmt.ready = true ∧ s.mgmt.verified.find? (fun p => p.1 == n) = some e) ∧
    (∃ s : State, s.mgmt.restarting = false ∧ ∃ n, 0 < n ∧ n ≤ 70 ∧ n ≠ 7) ∧
    (∃ s : State, s.mgmt.restarting = true) :=
  ⟨⟨({ r0 with mgmt := { r0.mgmt with sessions := [(1, true)], negotiated := true } } : State), by decide +kernel, some 1, 3, by decide +kernel, by decide +kernel, by decide +kernel, by decide +kernel⟩,
   ⟨({ r0 with mgmt := { r0.mgmt with update := some 3 } } : State), by decide +kernel, 3, zeros 4096, [], by decide +kernel, by decide +kernel⟩,
   ⟨({ r0 with mgmt := { r0.mgmt with update := some 3 } } : State), by decide +kernel, 3, [], [], by decide +kernel, by decide +kernel⟩,
   ⟨({ r0 with mgmt := { r0.mgmt with update := some 3, verified := [(3, [])], ready := true } } : State), by decide +kernel, 3, (3, []), by decide +kernel, by decide +kernel, by decide +kernel⟩,
   ⟨r0, by decide +kernel, 8, by decide +kernel, by decide +kernel, by decide +kernel⟩,
   ⟨({ r0 with mgmt := { r0.mgmt with restarting := true } } : State), by decide +kernel⟩⟩

theorem test_witness_SecuredCommandsNeedSession :
    ∃ q : Option Nat, ∃ s : State, s.mgmt.restarting = false ∧ s.inSession q = false :=
  ⟨none, r0, by decide +kernel, by decide +kernel⟩

theorem test_witness_SilentWhileRestarting :
    ∃ s : State, s.mgmt.restarting = true :=
  ⟨{ r0 with mgmt := { r0.mgmt with restarting := true } }, by decide +kernel⟩

theorem test_witness_RegisterAccessCompletes :
    (∃ fn : Fin 17, ∃ off : Nat, accessOk (regAddr fn off) 4 = true) ∧
    (∃ fn : Fin 17, ∃ off : Nat, ∃ s : State, ∃ t : State, accessOk (regAddr fn off) 8 = true ∧ t = (s.readReg (regAddr fn off)).2) ∧
    (∃ fn : Fin 17, ∃ off : Nat, ∃ n : Nat, accessOk (regAddr fn off) n = false) :=
  ⟨⟨0, 0xFFFFFC, by decide +kernel⟩,
   ⟨16, 0x10, r0, _, by decide +kernel, rfl⟩,
   ⟨0, 2, 4, by decide +kernel⟩⟩

theorem test_witness_JtagCommandsComplete :
    (∃ s : State, s.rst.active = true) ∧
    (∃ s : State, s.rst.active = false) :=
  ⟨⟨{ r0 with rst := { r0.rst with active := true } }, by decide +kernel⟩,
   ⟨r0, by decide +kernel⟩⟩

theorem test_witness_RegisterKindsRule :
    (∃ fn : Fin 17, ∃ off : Nat, off % 4 = 0 ∧ (regRow (regAddr fn off) = none ∨ ∃ r, regRow (regAddr fn off) = some r ∧ r.acc = .ro)) ∧
    (∃ off : Nat, debugBlock off = true) ∧
    (∃ fn : Fin 17, ∃ off : Nat, ∃ r : RegRow, off % 4 = 0 ∧ regRow (regAddr fn off) = some r ∧ r.acc = .w1c) :=
  ⟨⟨0, 0, by decide +kernel, Or.inr ⟨_, rfl, by decide +kernel⟩⟩,
   ⟨0xFFFFFF, by decide +kernel⟩,
   ⟨0, Reg.TCK_EVENT, _, by decide +kernel, rfl, by decide +kernel⟩⟩

theorem test_witness_ManagementFrame :
    (∃ c : Instr, ∃ s : State, ∃ t : State, ((∃ v, c = .getEndpointId v ∨ c = .getMessageTypeSupport v ∨ c = .getVendorDefinedMessageSupport v) ∨ c = .getCapabilities ∨ c = .getDigests ∨ c = .getInfo ∨ (∃ a b d, c = .getCertificate a b d) ∨ (∃ n, c = .getMeasurements n ∨ c = .heartbeat n ∨ c = .getPdr n) ∨ (∃ a b, c = .unitRead a b ∨ c = .histRead a b)) ∧ exec c s = .next t) ∧
    (∃ c : Instr, ∃ s : State, ∃ t : State, ((∃ v n, c = .setEndpointId v n ∨ c = .getMctpVersionSupport v n) ∨ c = .getVersion ∨ (∃ a b d e, c = .negotiateAlgorithms a b d e) ∨ (∃ a l, c = .challenge a l) ∨ (∃ n, c = .keyExchange n ∨ c = .keyUpdate n ∨ c = .endSession n ∨ c = .setEventReceiver n) ∨ (∃ n b, c = .finish n b) ∨ (∃ q n, c = .setTime q n ∨ c = .requestUpdate q n) ∨ (∃ q, c = .debugUnlock q) ∨ (∃ q l, c = .setFabricKey q l) ∨ (∃ n a b, c = .firmwareVerify n a b) ∨ (∃ a b n, c = .unsupportedMessage a b n)) ∧ exec c s = .next t) ∧
    (∃ c : Instr, ∃ s : State, ∃ t : State, (∃ q k u, c = .unitRequestFence q k u ∨ c = .unitRequestRestore q k u ∨ c = .unitRequestClearClass q k u) ∧ exec c s = .next t) ∧
    (∃ n : Nat, ∃ s : State, ∃ t : State, exec (.getSensorReading n) s = .next t) :=
  ⟨⟨.getDigests, r0, _, by simp, next_of (by decide +kernel)⟩,
   ⟨.getVersion, r0, _, by simp, next_of (by decide +kernel)⟩,
   ⟨.unitRequestFence none 1 0, r0, _, ⟨_, _, _, .inl rfl⟩, next_of (by decide +kernel)⟩,
   ⟨1, r0, _, next_of (by decide +kernel)⟩⟩

theorem test_witness_RegisterCommandsFrame :
    (∃ v : W32, ∃ s : State, ∃ t : State, exec (.clkSelect v) s = .next t ∧ ∃ a, a ≠ Reg.CLK_CTRL ∧ a ≠ Reg.CLK_EVENT) ∧
    (∃ c : Instr, ∃ s : State, ∃ t : State, (c = .shedAssert ∨ c = .shedRelease) ∧ exec c s = .next t ∧ ∃ a, a ≠ Reg.PWR_CAP_NOW ∧ a ≠ Reg.PWR_EVENT) ∧
    (∃ c : Instr, ∃ l : Fin 24, ∃ s : State, ∃ t : State, (c = .linkDown l ∨ (∃ f d n, c = .linkTrainingDone l f d n) ∨ (∃ b, c = .hello l b) ∨ c = .codewordUncorrectable l) ∧ exec c s = .next t ∧ ∃ k, k ≠ l.val) ∧
    (∃ c : Instr, ∃ l : Fin 24, ∃ s : State, ∃ t : State, (c = .linkDown l ∨ (∃ f d n, c = .linkTrainingDone l f d n) ∨ (∃ b, c = .hello l b) ∨ c = .codewordUncorrectable l) ∧ exec c s = .next t ∧ ∃ a, a ≠ Reg.FAB_LINK_DELAY l ∧ a ≠ Reg.FAB_LINK_UE l ∧ a ≠ Reg.FAB_EVENT ∧ a ≠ Reg.FAB_DROP_CRC ∧ a ≠ Reg.FAB_DROP_STALE) ∧
    (∃ c : Instr, ∃ fn : Fin 17, ∃ s : State, ∃ t : State, (c = .ringEnable fn ∨ c = .ringDisable fn ∨ ∃ v, c = .irqTimer fn v) ∧ exec c s = .next t ∧ ∃ g, g ≠ fn.val) ∧
    (∃ c : Fin 16, ∃ v : W32, ∃ s : State, ∃ t : State, exec (.fabPermAtWrite c v) s = .next t ∧ ∃ d, d ≠ c.val) ∧
    (∃ c : Fin 16, ∃ v : W32, ∃ s : State, ∃ t : State, exec (.fabPermAtWrite c v) s = .next t ∧ ∃ a, a ≠ Reg.FAB_PERM_AT c ∧ a ≠ Reg.FAB_PERM_EVENT c) ∧
    (∃ v : W32, ∃ s : State, ∃ t : State, exec (.ctxSelectHiWrite v) s = .next t ∧ ∃ a, a ≠ Reg.CTX_SELECT_HI) :=
  ⟨⟨0, r0, _, next_of (by decide +kernel), 0, by decide +kernel, by decide +kernel⟩,
   ⟨.shedAssert, r0, _, .inl rfl, next_of (by decide +kernel), 0, by decide +kernel, by decide +kernel⟩,
   ⟨.linkDown 0, 0, r0, _, .inl rfl, next_of (by decide +kernel), 1, by decide +kernel⟩,
   ⟨.linkDown 0, 0, r0, _, .inl rfl, next_of (by decide +kernel), 0, by decide +kernel, by decide +kernel, by decide +kernel, by decide +kernel, by decide +kernel⟩,
   ⟨.ringDisable 0, 0, r0, _, .inr (.inl rfl), next_of (by decide +kernel), 1, by decide +kernel⟩,
   ⟨0, 0, r0, _, next_of (by decide +kernel), 1, by decide +kernel⟩,
   ⟨0, 0, r0, _, next_of (by decide +kernel), 0, by decide +kernel, by decide +kernel⟩,
   ⟨0, r0, _, next_of (by decide +kernel), 0, by decide +kernel⟩⟩

end Sys2Proof.Tests
end

section
/-! The ageing of packets in the switch buffer (R335, O34): what one packet's age decides, what the answer to it is, and what a tick boundary adds. -/

namespace Sys2Proof.Machine

/-! The answer to a discarded packet (R315, R316). -/

theorem State.answerError_of_ackReq {q : Packet} (h : q.ackReq = true) (s : State) (code : Nat) :
    s.answerError q code = s.answer q 0x14 (toLe 1 code ++ toLe 1 q.opcode ++ zeros 2) := if_pos h

theorem State.answerError_of_not_ackReq {q : Packet} (h : q.ackReq = false) (s : State) (code : Nat) : s.answerError q code = s :=
  if_neg (Bool.not_eq_true _ ▸ h)

/-! A packet's age decides (R335). -/

/-- The packet at `idx` leaves the buffer and is counted in FAB_DROP_AGED, before any answer to it is sent. -/
def State.dropAged (s : State) (idx : Nat) : State :=
  ({ s with fabric := { s.fabric with buffer := s.fabric.buffer.eraseIdx idx } } : State).count Reg.FAB_DROP_AGED

/-- The count is that of the state before the packet left: the buffer is apart from the registers. -/
theorem State.dropAged_eq_setReg (s : State) (idx : Nat) :
    s.dropAged idx = ({ s with fabric := { s.fabric with buffer := s.fabric.buffer.eraseIdx idx } } : State).setReg Reg.FAB_DROP_AGED
      (satInc (s.reg Reg.FAB_DROP_AGED)) := rfl

theorem execPacketAged_of_boundaries_lt {idx : Nat} {w : Waiting} {s : State} (hw : s.fabric.buffer[idx]? = some w) (hage : w.boundaries < 2) :
    execPacketAged idx s = .next s := by
  simp only [execPacketAged, hw, if_pos hage]

theorem execPacketAged_of_le_boundaries {idx : Nat} {w : Waiting} {s : State} (hw : s.fabric.buffer[idx]? = some w) (hage : 2 ≤ w.boundaries) :
    execPacketAged idx s = .next ((s.dropAged idx).answerError w.packet 9) := by
  simp only [execPacketAged, hw, if_neg (Nat.not_lt.mpr hage), State.dropAged]

/-! What a tick boundary adds (R334, R335). -/

theorem State.over_fabric {α : Type} (s : State) (l : List α) (f : State → α → State) (h : ∀ s x, (f s x).fabric = s.fabric) :
    (s.over l f).fabric = s.fabric :=
  List.foldlRecOn (motive := fun t => t.fabric = s.fabric) l f rfl fun t ht x _ => (h t x).trans ht

/-- The pass over the links changes their credits and no packet, so the boundary meets the buffer as it stood. -/
theorem State.expireCredits_buffer (s : State) (env : BoundaryEnv) :
    (s.expireCredits env).fabric.buffer = s.fabric.buffer.map (fun w => { w with boundaries := w.boundaries + 1 }) := by
  simp only [State.expireCredits]
  rw [State.over_fabric _ _ _ fun t l => State.modLink_fabric t l _]

/-- Settles O34: a packet's age picks the branch of PACKET_AGED, its ACKREQ the answer, and the boundary ages the whole buffer. -/
theorem agedPacketRule : Obligations.AgedPacketRule := by
  refine ⟨fun i w s u hw hage hu => ?_, fun i w s hw hage => ?_, fun env s => s.expireCredits_buffer env⟩
  · have hdrop : exec (.packetAged i) s = .next (u.answerError w.packet 9) := by
      rw [exec_packetAged, execPacketAged_of_le_boundaries hw hage, State.dropAged_eq_setReg, hu]
    refine ⟨fun hquiet => ?_, fun hack => ?_⟩
    · rw [hdrop, State.answerError_of_not_ackReq hquiet]
    · rw [hdrop, State.answerError_of_ackReq hack]
  · rw [exec_packetAged, execPacketAged_of_boundaries_lt hw hage]

end Sys2Proof.Machine
end

section
/-! The release of a context (R385, R509, O36): when RELEASE is accepted, what it then does to the context and its VF ring set, and what it does when it is ignored. -/

namespace Sys2Proof.Machine

/-- Context `c` becomes FREE, whatever becomes of its ring set (R385). -/
def State.freeCtx (s : State) (c : Nat) : State := s.modCtx c (fun x => { x with adm := .free })

theorem State.adm_freeCtx (s : State) (c : Nat) : ((s.freeCtx c).ctx c).adm = .free :=
  congrArg Ctx.adm (State.ctx_modCtx_self ..)

/-- A ring set that enters ERROR leaves every context as it was: contexts are apart from rings and registers. -/
@[simp] theorem State.ctx_ringError (s : State) (fn reason c : Nat) : (s.ringError fn reason).ctx c = s.ctx c := by
  simp only [State.ctx, State.ringError, State.event_ctxs, State.modRing_ctxs]

/-- R385 accepts the command; freeing the context leaves the rings apart, so the ring set as it stood decides. That of the context's VF, unless it is disabled, enters ERROR with NO_CONTEXT (R509). -/
theorem execRelease_of_keyed {c : Fin 16} {s : State} (hkeyed : (s.ctx c).adm = .keyed) (hload : s.loaded c = false) :
    execRelease c s = .next (if s.ctxFn c ≠ 0 ∧ (s.ring (s.ctxFn c)).run ≠ .disabled
      then (s.freeCtx c).ringError (s.ctxFn c) 4 else s.freeCtx c) := by
  have haccept : (s.ctx c).adm = .keyed ∧ (!s.loaded c) = true := ⟨hkeyed, by rw [hload, Bool.not_false]⟩
  exact if_pos haccept

/-- R385 ignores the command and sets IGNORED. -/
theorem execRelease_of_not_keyed_unloaded {c : Fin 16} {s : State} (h : ¬((s.ctx c).adm = .keyed ∧ s.loaded c = false)) :
    execRelease c s = .next (s.event (Reg.CTX_EVENT c) 2) := by
  rw [← Bool.not_eq_true'] at h
  exact if_neg h

/-- Settles O36: the state of the context and its plan pick the branch of RELEASE; FREE and ZEROING are not KEYED. -/
theorem releaseRule : Obligations.ReleaseRule := by
  simp only [Obligations.ReleaseRule, exec_release]
  refine ⟨fun c s hkeyed hload => ⟨_, execRelease_of_keyed hkeyed hload, ?_⟩,
    fun c s h => execRelease_of_not_keyed_unloaded h, fun c s h => execRelease_of_not_keyed_unloaded fun ⟨hkeyed, _⟩ => ?_⟩
  · split
    · rw [State.ctx_ringError, State.adm_freeCtx]
    · exact s.adm_freeCtx c
  · rcases h with hfree | hzeroing
    · simp [hfree] at hkeyed
    · simp [hzeroing] at hkeyed

end Sys2Proof.Machine
end

section
/-! RST_CAUSE under the resets (R535 to R546, R563, O46): which operations leave its set bits set, from the updates of single registers up to the reset of each scope, and what each command that can begin a reset then does to it. -/

namespace Sys2Proof.Machine

/-! Registers that a reset drops (R538, R533). -/

/-- What is dropped by its number alone leaves the values at every other number. -/
theorem tget_filter_key {α : Type} {d : Nat → α} {keep : Nat → Bool} {n : Nat} (hn : keep n = true) (t : Tbl α) :
    tget d (t.filter (fun p => keep p.1)) n = tget d t n := by
  induction t with
  | nil => rfl
  | cons p t ih =>
    obtain ⟨k, v⟩ := p
    cases hk : keep k with
    | true => rw [List.filter_cons, if_pos hk, tget_cons, tget_cons, ih]
    | false =>
      have hne : n ≠ k := fun e => by rw [e, hk] at hn; contradiction
      rw [List.filter_cons, if_neg (Bool.not_eq_true _ ▸ hk), tget_cons, if_neg hne, ih]

/-- The ring sets lie above the reset and clock registers, the admin set first (R534). -/
theorem le_ringBase (fn : Nat) : 0x00100000 ≤ ringBase fn := by
  unfold ringBase
  split <;> omega

/-! Set bits of RST_CAUSE stay set. -/

/-- Every bit of RST_CAUSE that is set in `s` is set in `t` (R563). -/
structure CauseKept (s t : State) : Prop where
  stays : ∀ i, (s.reg Reg.RST_CAUSE).getLsbD i = true → (t.reg Reg.RST_CAUSE).getLsbD i = true

namespace CauseKept

variable {s t u : State}

theorem refl (s : State) : CauseKept s s := ⟨fun _ h => h⟩

theorem trans (h : CauseKept s t) (h' : CauseKept t u) : CauseKept s u := ⟨fun i hi => h'.stays i (h.stays i hi)⟩

theorem of_reg_eq (h : t.reg Reg.RST_CAUSE = s.reg Reg.RST_CAUSE) : CauseKept s t := ⟨fun i hi => by rwa [h]⟩

/-- Whatever else differs, equal registers hold equal causes. -/
theorem of_regs_eq (h : CauseKept s t) (hregs : u.regs = t.regs) : CauseKept s u := h.trans (of_reg_eq (by rw [State.reg, State.reg, hregs]))

/-- Registers dropped by their numbers, RST_CAUSE not among them. -/
theorem of_regs_filter (h : CauseKept s t) {keep : Nat → Bool} (hkeep : keep Reg.RST_CAUSE = true) (hregs : u.regs = t.regs.filter (fun p => keep p.1)) :
    CauseKept s u :=
  h.trans (of_reg_eq (by rw [State.reg, State.reg, hregs, tget_filter_key hkeep]))

theorem ite {c : Prop} [Decidable c] (ht : CauseKept s t) (hu : CauseKept s u) : CauseKept s (if c then t else u) := by
  split
  · exact ht
  · exact hu

theorem overList {α : Type} {f : State → α → State} (h : CauseKept s t) (l : List α) (hf : ∀ u x, CauseKept u (f u x)) : CauseKept s (t.over l f) :=
  List.foldlRecOn (motive := CauseKept s) l f h fun u hu x _ => hu.trans (hf u x)

theorem setReg (h : CauseKept s t) {off : Nat} (hoff : Reg.RST_CAUSE ≠ off) (v : W32) : CauseKept s (t.setReg off v) :=
  h.trans (of_reg_eq (t.reg_setReg_ne v hoff))

theorem setRegN (h : CauseKept s t) {off : Nat} (hoff : Reg.RST_CAUSE ≠ off) (v : Nat) : CauseKept s (t.setRegN off v) := h.setReg hoff _

theorem count (h : CauseKept s t) {off : Nat} (hoff : Reg.RST_CAUSE ≠ off) : CauseKept s (t.count off) := h.setReg hoff _

/-- An event only sets a bit, of RST_CAUSE or of another register (R10). -/
theorem event (h : CauseKept s t) (off i : Nat) : CauseKept s (t.event off i) := by
  refine ⟨fun j hj => ?_⟩
  rw [State.reg_event]
  split
  · next hoff => rw [← hoff, BitVec.getLsbD_or, h.stays j hj, Bool.true_or]
  · exact h.stays j hj

theorem eventIf (h : CauseKept s t) (b : Bool) (off i : Nat) : CauseKept s (t.eventIf b off i) := ite (h.event off i) h

theorem events (h : CauseKept s t) (off : Nat) (l : List Nat) : CauseKept s (t.over l (fun s i => s.event off i)) := h.overList l fun u i => (refl u).event off i

theorem emit (h : CauseKept s t) (o : Out) : CauseKept s (t.emit o) := h.of_regs_eq rfl

theorem modPwr (h : CauseKept s t) (f : Power → Power) : CauseKept s (t.modPwr f) := h.of_regs_eq rfl

theorem modRing (h : CauseKept s t) (fn : Nat) (f : Ring → Ring) : CauseKept s (t.modRing fn f) := h.of_regs_eq rfl

theorem setRst (h : CauseKept s t) (r : Reset) : CauseKept s { t with rst := r } := h.of_regs_eq rfl

theorem setMedia (h : CauseKept s t) (m : Media) : CauseKept s { t with media := m } := h.of_regs_eq rfl

theorem setStack (h : CauseKept s t) (m : Stack) : CauseKept s { t with stack := m } := h.of_regs_eq rfl

theorem returnLater (h : CauseKept s t) (unit : Nat) : CauseKept s (t.returnLater unit) := h.of_regs_eq rfl

theorem platformEvent (h : CauseKept s t) (n data : Nat) : CauseKept s (t.platformEvent n data) := by
  unfold State.platformEvent
  split
  · exact h.emit _
  · exact h

/-! Power and temperature. -/

theorem showCap (h : CauseKept s t) : CauseKept s t.showCap := by
  have hcap : Reg.RST_CAUSE ≠ Reg.PWR_CAP_NOW := by decide
  unfold State.showCap
  exact ((h.setRegN hcap _).eventIf _ _ _).modPwr _

theorem enterStage (h : CauseKept s t) (g : Nat) : CauseKept s (t.enterStage g) :=
  ite h ((((h.eventIf _ _ _).eventIf _ _ _).eventIf _ _ _).modPwr _).showCap

theorem setClocks (h : CauseKept s t) (window : Bool) : CauseKept s (t.setClocks window) :=
  h.overList _ fun u _ => ite ((refl u).setRegN (by unfold Reg.RST_CAUSE Reg.TCK_WARD_CLK; omega) _) (refl u)

theorem chooseVolts (h : CauseKept s t) : CauseKept s t.chooseVolts := ite h ((h.modPwr _).emit _)

theorem showTemp (h : CauseKept s t) : CauseKept s t.showTemp := h.setRegN (by decide) _

theorem showLayers (h : CauseKept s t) : CauseKept s t.showLayers :=
  h.overList _ fun u _ => (refl u).setRegN (by unfold Reg.RST_CAUSE Reg.MEM_STK_TEMP; omega) _

theorem coolDown (h : CauseKept s t) : CauseKept s t.coolDown := ite (emit (h.setRst _) _) h

/-! The host interface (R531, R533). -/

theorem loseEvent (h : CauseKept s t) (fn : Nat) : CauseKept s (t.loseEvent fn) :=
  (h.count (by have := le_ringBase fn; unfold Reg.RST_CAUSE Reg.RING_EVT_LOST; omega)).event _ _

theorem holdEntry (h : CauseKept s t) (fn : Nat) (e : RingEntry) : CauseKept s (t.holdEntry fn e) := by
  unfold State.holdEntry
  refine ite (h.modRing _ _) ?_
  dsimp only
  split
  · exact (h.modRing _ _).loseEvent _
  · exact h.modRing _ _

theorem disableRing (h : CauseKept s t) (fn : Nat) : CauseKept s (t.disableRing fn) := (h.modRing _ _).overList _ fun u e => (refl u).holdEntry fn e

theorem clearRingRegs (h : CauseKept s t) (fn : Nat) : CauseKept s (t.clearRingRegs fn) :=
  have houtside : Reg.RST_CAUSE < ringBase fn ∨ ringBase fn + 0x8000 ≤ Reg.RST_CAUSE := .inl (Nat.lt_of_lt_of_le (by decide) (le_ringBase fn))
  h.of_regs_filter (keep := fun off => decide (off < ringBase fn ∨ ringBase fn + 0x8000 ≤ off)) (decide_eq_true houtside) rfl

theorem dropOpenMedia (h : CauseKept s t) (fn : Nat) : CauseKept s (t.dropOpenMedia fn) := by
  unfold State.dropOpenMedia
  refine (h.overList _ fun u x => ?live).overList _ fun u st => ?sensor
  case live => exact ite ((refl u).count (by unfold Reg.RST_CAUSE Reg.MED_LIVE_DROPPED; omega)) (refl u)
  case sensor =>
    dsimp only
    split
    · exact ite (((refl u).setMedia _).count (by unfold Reg.RST_CAUSE Reg.MED_SENS_DROPPED; omega)) (refl u)
    · exact refl u

theorem resetRing (h : CauseKept s t) (fn : Nat) : CauseKept s (t.resetRing fn) := ((h.dropOpenMedia fn).disableRing fn).clearRingRegs fn

theorem resetHost (h : CauseKept s t) : CauseKept s t.resetHost :=
  (h.overList _ fun u fn => (refl u).resetRing fn).overList _ fun u _ => (refl u).of_regs_eq rfl

/-! The resets of each scope (R535 to R538). -/

theorem countAssertion (h : CauseKept s t) (now : Nat) : CauseKept s (t.countAssertion now) :=
  ((h.count (by decide)).eventIf _ _ _).setRst _

/-- RST_CAUSE is among the registers that a cold or device reset keeps (R538). -/
theorem clearDevice (h : CauseKept s t) (cold keepStack keepLp : Bool) : CauseKept s (t.clearDevice cold keepStack keepLp) :=
  h.of_regs_filter (keep := keptReg cold) rfl rfl

theorem beginReset (h : CauseKept s t) (cause : List Nat) (cold trip : Bool) (now : Nat) : CauseKept s (t.beginReset cause cold trip now) := by
  unfold State.beginReset
  extract_lets s1 s2 retains keepStack keepLp asked r s3 lp s4 s5 s6
  have hcaused : CauseKept s s2 := ((h.events _ _).countAssertion now).eventIf _ _ _
  have hcleared : CauseKept s s4 := (hcaused.clearDevice cold keepStack keepLp).of_regs_eq rfl
  have hdriven : CauseKept s s5 := ite hcleared (hcleared.emit _)
  have htripped : CauseKept s s6 := ite (hdriven.emit _) hdriven
  exact ite htripped (htripped.platformEvent _ _)

theorem hostScope (h : CauseKept s t) : CauseKept s t.hostScope := ((h.resetHost.setRegN (by decide) _).returnLater _).setRst _

theorem resetScope (h : CauseKept s t) (scope : Nat) (cause : List Nat) (now : Nat) : CauseKept s (t.resetScope scope cause now) := by
  unfold State.resetScope
  split
  · exact h.beginReset ..
  · exact h.beginReset ..
  · exact h.hostScope.events _ _
  · exact (h.setRst _).events _ _

end CauseKept

/-! The commands. -/

/-- Wherever a command that was taken in `s` ends, every bit of RST_CAUSE set in `s` is still set. -/
def OutcomeKeepsCause (s : State) (o : Host.Outcome State Fault Refusal) : Prop := ∀ t, o = .next t → CauseKept s t

namespace OutcomeKeepsCause

theorem next {s t : State} (h : CauseKept s t) : OutcomeKeepsCause s (.next t) := fun _ e => Host.Outcome.next.inj e ▸ h

theorem ite {s : State} {o o' : Host.Outcome State Fault Refusal} {c : Prop} [Decidable c] (h : OutcomeKeepsCause s o) (h' : OutcomeKeepsCause s o') :
    OutcomeKeepsCause s (if c then o else o') := by
  split
  · exact h
  · exact h'

variable (s : State) (now : Nat)

/-- A command that is ignored. -/
theorem ignored : OutcomeKeepsCause s (.next s) := next (.refl s)

theorem resetNAssert : OutcomeKeepsCause s (execResetNAssert now s) := ite (ignored s) (next ((CauseKept.refl s).beginReset ..))

theorem watchdogExpiry : OutcomeKeepsCause s (execWatchdogExpiry now s) := ite (ignored s) (next ((CauseKept.refl s).beginReset ..))

theorem fatalEscalation : OutcomeKeepsCause s (execFatalEscalation now s) := next ((CauseKept.refl s).beginReset ..)

theorem pllLockTimeout : OutcomeKeepsCause s (execPllLockTimeout now s) := next ((CauseKept.refl s).beginReset ..)

theorem railUndervolt : OutcomeKeepsCause s (execRailUndervolt now s) := ite (next ((CauseKept.refl s).beginReset ..)) (ignored s)

theorem rstCmd (v : W32) : OutcomeKeepsCause s (execRstCmd v now s) :=
  have hs := CauseKept.refl s
  ite (next (hs.event ..)) (ite (next (hs.event ..)) (next (hs.resetScope ..)))

theorem vinSample (mv : Nat) : OutcomeKeepsCause s (execVinSample mv now s) := by
  unfold execVinSample
  extract_lets bus samples shown stage
  have hshown : CauseKept s shown := ((CauseKept.refl s).setRegN (by decide) _).modPwr _
  exact ite (next hshown) (ite (next (hshown.beginReset ..)) (next (hshown.enterStage _)))

/-- Below the trip a sample throttles at most, which lowers clocks and the core voltage (R582, R583). -/
theorem dieTempSample (readings : List Nat) : OutcomeKeepsCause s (execDieTempSample readings now s) := by
  unfold execDieTempSample
  extract_lets hot shown tripped first more reported throttled
  have hshown : CauseKept s shown := ((CauseKept.refl s).modPwr _).showTemp
  have htripped : CauseKept s tripped := hshown.beginReset ..
  have hthrottled : CauseKept s throttled := (hshown.eventIf _ _ _).modPwr _
  exact ite (next hshown.coolDown) (ite (next (htripped.modPwr _).showTemp) (ite (next (hthrottled.setClocks _).chooseVolts) (next (hshown.modPwr _))))

theorem stackTempSample (readings : List Nat) : OutcomeKeepsCause s (execStackTempSample readings now s) := by
  unfold execStackTempSample
  extract_lets layers stack read shown tripped
  have hread : CauseKept s read := (CauseKept.refl s).setStack _
  have hshown : CauseKept s shown := hread.showLayers.showTemp
  have htripped : CauseKept s tripped := hshown.beginReset ..
  exact ite (next hshown.coolDown) (ite (next (htripped.setStack _).showLayers.showTemp) (next hshown))

/-- A pin that stays low when the stretch ends is a cause of its own (R541). -/
theorem stretchExpiry (pinHigh : Bool) : OutcomeKeepsCause s (execStretchExpiry now pinHigh s) :=
  have hreleased := (CauseKept.refl s).emit (.pin 0 true)
  ite (ignored s) (ite (next (hreleased.setRst _)) (next ((hreleased.setRst _).event _ _)))

theorem perstAssert : OutcomeKeepsCause s (execPerstAssert s) :=
  ite (ignored s) (next (((((CauseKept.refl s).resetHost.event _ _).setRegN (by decide) _).returnLater _).setRst _))

theorem functionLevelReset (fn : Fin 17) : OutcomeKeepsCause s (execFunctionLevelReset fn s) :=
  have hone (u : State) (f : Nat) : CauseKept u ((u.disableRing f).clearRingRegs f) := ((CauseKept.refl u).disableRing f).clearRingRegs f
  ite (next ((CauseKept.refl s).overList _ hone)) (next (hone s fn))

theorem d3hotEntry (fn : Fin 17) : OutcomeKeepsCause s (execD3hotEntry fn s) := next ((CauseKept.refl s).resetRing fn)

/-- The end of a ward reset writes no register (R552). -/
theorem wardResetComplete (w : Fin 16) : OutcomeKeepsCause s (execWardResetComplete w s) := ite (ignored s) (next ((CauseKept.refl s).of_regs_eq rfl))

end OutcomeKeepsCause

/-- POWER_ON drops every register value, so RST_CAUSE holds its reset value: POR alone (R563). -/
theorem execPowerOn_cause (s : State) : ∃ t, execPowerOn s = .next t ∧ t.reg Reg.RST_CAUSE = 1#32 :=
  have hpor : regReset Reg.RST_CAUSE = 1#32 := by decide
  ⟨_, rfl, hpor⟩

/-- Settles O46: POWER_ON lists no register, and each of the other commands keeps the causes by its own lemma. -/
theorem resetCauseRule : Obligations.ResetCauseRule := by
  refine ⟨execPowerOn_cause, fun c s t i hc ht => ?_, fun scope now i cause s => (CauseKept.refl s).resetScope scope cause now |>.stays i⟩
  suffices hkeeps : OutcomeKeepsCause s (exec c s) from (hkeeps t ht).stays i
  obtain ⟨now, rfl | rfl | rfl | rfl | rfl | ⟨v, rfl⟩ | ⟨mv, rfl⟩ | ⟨l, rfl | rfl⟩ | ⟨b, rfl⟩ | rfl | ⟨fn, rfl | rfl⟩ | ⟨w, rfl⟩⟩ := hc
  · exact .resetNAssert s now
  · exact .watchdogExpiry s now
  · exact .fatalEscalation s now
  · exact .pllLockTimeout s now
  · exact .railUndervolt s now
  · exact .rstCmd s now v
  · exact .vinSample s now mv
  · exact .dieTempSample s now l
  · exact .stackTempSample s now l
  · exact .stretchExpiry s now b
  · exact .perstAssert s
  · exact .functionLevelReset s fn
  · exact .d3hotEntry s fn
  · exact .wardResetComplete s w

end Sys2Proof.Machine
end

section
/-! The step and the state after reset (R593, R612, O1, O2, O4, O6). -/

namespace Sys2Proof.Machine

theorem step_of_pending_cons {s : State} {c : Instr} {q : List Instr} (h : s.pending = c :: q) : step s = exec c { s with pending := q } := by
  rw [step, h]

theorem step_of_pending_nil {s : State} (h : s.pending = []) : step s = .next s := by
  rw [step, h]

/-- Settles O1. -/
theorem stepRunsFront : Obligations.StepRunsFront := fun _ _ _ => step_of_pending_cons

/-- Settles O2. -/
theorem stepIdlesOnEmptyQueue : Obligations.StepIdlesOnEmptyQueue := fun _ => step_of_pending_nil

/-- Settles O6: no session is open after reset. -/
theorem resetSessions : Obligations.ResetSessions := rfl

/-- Settles O4: no register has been written at reset, so each reads its own row of the register map. -/
theorem resetRegisterValues : Obligations.ResetRegisterValues := by
  have hcontext : ∀ c : Fin 16, (State.reset.readReg (Reg.HSP_DURABLE_KEEP c)).1 = 2#32 ∧ (State.reset.readReg (Reg.FAB_LATE_CTRL c)).1 = 1#32 ∧
      (State.reset.readReg (Reg.TCK_SEED c)).1 = 0#32 := by decide
  exact ⟨rfl, rfl, rfl, rfl, rfl, rfl, rfl, rfl, rfl, rfl, rfl, rfl, rfl, rfl, rfl, rfl, hcontext⟩

end Sys2Proof.Machine
end

section
/-! The management controller under every command (R593, R594, R597, R613): what a command can do to the open sessions, the fabric key and the debug lock (O7, O8, O9). -/

namespace Sys2Proof.Machine

/-! What keeps within what was held. -/

theorem Mgmt.within_of_fields {a b : Mgmt} (hsessions : a.sessions.length ≤ b.sessions.length) (hkey : a.fabricKey = b.fabricKey) (hdebug : a.debug = b.debug) :
    a.Within b := ⟨hsessions, .inl hkey, fun h => hdebug ▸ h⟩

theorem Mgmt.within_ite {p : Prop} [Decidable p] {s t : State} {b : Mgmt} (hs : s.mgmt.Within b) (ht : t.mgmt.Within b) :
    (if p then s else t).mgmt.Within b := by
  split
  · exact hs
  · exact ht

theorem Mgmt.within_iteElse {p : Prop} [Decidable p] {a b c : Mgmt} (ha : a.Within c) (hb : b.Within c) : (if p then a else b).Within c := by
  split
  · exact ha
  · exact hb

/-- An answer outside a restart of the controller; during one nothing happens (R601). -/
theorem Mgmt.within_of_answers {s t : State} {f : State → State} (h : s.answers f = .next t) (hf : (f s).mgmt.Within s.mgmt) : t.mgmt.Within s.mgmt := by
  obtain rfl | rfl := s.answers_next f t h
  · exact Mgmt.within_refl _
  · exact hf

theorem Mgmt.within_of_secured {s t : State} {q : Option Nat} {code : Nat} {f : State → State} (h : s.secured q code f = .next t) (hf : (f s).mgmt.Within s.mgmt) :
    t.mgmt.Within s.mgmt :=
  Mgmt.within_of_answers h (Mgmt.within_ite hf (Mgmt.within_refl _))

theorem Mgmt.within_of_onSession {s t : State} {id : Nat} {established : Bool} {f : State → State} (h : s.onSession id established f = .next t)
    (hf : (f s).mgmt.Within s.mgmt) : t.mgmt.Within s.mgmt :=
  Mgmt.within_of_answers h (Mgmt.within_ite hf (Mgmt.within_refl _))

theorem State.dropSession_within (s : State) (id : Nat) : (s.dropSession id).mgmt.Within s.mgmt :=
  Mgmt.within_of_fields (List.length_filter_le ..) rfl rfl

/-! The commands that write the state of the controller and neither open a session, nor set the key, nor unlock (R589 to R601). -/

theorem execUnitClassHourly_within {now : Nat} {s t : State} (h : execUnitClassHourly now s = .next t) : t.mgmt.Within s.mgmt := by
  obtain rfl := Host.Outcome.next.inj h
  refine Mgmt.within_trans (Mgmt.within_of_eq ((over_mgmt _ _ _ fun u p => u.reclass_mgmt ..).trans (over_mgmt _ _ _ fun u p => ?_)))
    (Mgmt.within_of_fields (Nat.le_refl _) rfl rfl)
  exact State.putRecord_mgmt ..

theorem execMediaFwSwitchDone_within {s t : State} (h : execMediaFwSwitchDone s = .next t) : t.mgmt.Within s.mgmt := by
  unfold execMediaFwSwitchDone at h
  extract_lets gone raised m used at h
  have hraised : raised.mgmt = s.mgmt := (State.event_mgmt ..).trans ((State.setRegN_mgmt ..).trans ((State.modMedia_mgmt ..).trans s.answerGone_mgmt))
  clear_value raised
  have hused : used.mgmt.Within s.mgmt := by
    rw [← hraised]
    unfold used
    split
    · exact Mgmt.within_of_fields (Nat.le_refl _) rfl rfl
    · exact Mgmt.within_refl _
  clear_value used
  split at h
  · exact Host.Outcome.next.inj h ▸ Mgmt.within_refl _
  · obtain rfl := Host.Outcome.next.inj h
    rw [State.feedEngines_mgmt]
    exact Mgmt.within_ite hused hused

theorem execPowerOn_within {s t : State} (h : execPowerOn s = .next t) : t.mgmt.Within s.mgmt := by
  obtain rfl := Host.Outcome.next.inj h
  exact ⟨Nat.zero_le _, .inr rfl, fun hdebug => nomatch hdebug⟩

theorem execSetEndpointId_within {vdm : Bool} {eid : Nat} {s t : State} (h : execSetEndpointId vdm eid s = .next t) : t.mgmt.Within s.mgmt := by
  unfold execSetEndpointId State.onBinding at h
  split at h
  · exact Host.Outcome.next.inj h ▸ Mgmt.within_refl _
  · refine Mgmt.within_of_answers h (Mgmt.within_ite (Mgmt.within_refl _) ?_)
    cases vdm <;> exact Mgmt.within_of_fields (Nat.le_refl _) rfl rfl

theorem execFinish_within {id : Nat} {ok : Bool} {s t : State} (h : execFinish id ok s = .next t) : t.mgmt.Within s.mgmt :=
  Mgmt.within_of_onSession h (Mgmt.within_ite (Mgmt.within_of_fields (Nat.le_of_eq (List.length_map ..)) rfl rfl) (s.dropSession_within id))

theorem execFirmwareActivate_within {n : Nat} {s t : State} (h : execFirmwareActivate n s = .next t) : t.mgmt.Within s.mgmt := by
  have hclosed : (s.setUpdate none).mgmt.Within s.mgmt := Mgmt.within_of_fields (Nat.le_refl _) rfl rfl
  refine Mgmt.within_of_answers h ?_
  split
  · exact Mgmt.within_ite (Mgmt.within_refl _) (Mgmt.within_ite (Mgmt.within_of_fields (Nat.le_refl _) rfl rfl) (Mgmt.within_ite hclosed hclosed))
  · exact Mgmt.within_refl _
  · exact Mgmt.within_refl _

theorem execMgmtRestartDone_within {s t : State} (h : execMgmtRestartDone s = .next t) : t.mgmt.Within s.mgmt := by
  unfold execMgmtRestartDone at h
  extract_lets m use restarted flushed at h
  have hrestarted : restarted.mgmt.Within s.mgmt := Mgmt.within_of_fields (Nat.zero_le _) rfl rfl
  split at h
  · exact Host.Outcome.next.inj h ▸ Mgmt.within_refl _
  · obtain rfl := Host.Outcome.next.inj h
    rw [State.compareMaps_mgmt]
    exact Mgmt.within_ite hrestarted hrestarted

theorem execFirmwareVerify_within {n : Nat} {image pub : Bytes} {s t : State} (h : execFirmwareVerify n image pub s = .next t) : t.mgmt.Within s.mgmt := by
  refine Mgmt.within_of_answers h (Mgmt.within_ite (Mgmt.within_refl _) (Mgmt.within_ite (Mgmt.within_of_fields (Nat.le_refl _) rfl rfl) ?_))
  rw [State.platformEvent_mgmt]
  exact Mgmt.within_of_fields (Nat.le_refl _) rfl rfl

theorem execRequestUpdate_within {q : Option Nat} {n : Nat} {s t : State} (h : execRequestUpdate q n s = .next t) : t.mgmt.Within s.mgmt :=
  have hs := Mgmt.within_refl s.mgmt
  Mgmt.within_of_answers h (Mgmt.within_ite hs (Mgmt.within_ite hs (Mgmt.within_ite hs (Mgmt.within_of_fields (Nat.le_refl _) rfl rfl))))

theorem execUnsupportedMessage_within {ty code len : Nat} {s t : State} (h : execUnsupportedMessage ty code len s = .next t) : t.mgmt.Within s.mgmt :=
  have hs := Mgmt.within_refl s.mgmt
  Mgmt.within_of_answers h (Mgmt.within_ite (Mgmt.within_of_fields (Nat.le_refl _) rfl rfl) (Mgmt.within_ite hs (Mgmt.within_ite hs hs)))

theorem execNegotiateAlgorithms_within {a b c d : Bool} {s t : State} (h : execNegotiateAlgorithms a b c d s = .next t) : t.mgmt.Within s.mgmt :=
  Mgmt.within_of_answers h (Mgmt.within_ite (Mgmt.within_of_fields (Nat.le_refl _) rfl rfl) (Mgmt.within_refl _))

theorem execGetVersion_within {s t : State} (h : execGetVersion s = .next t) : t.mgmt.Within s.mgmt :=
  Mgmt.within_of_answers h (Mgmt.within_of_fields (Nat.le_refl _) rfl rfl)

theorem execKeyUpdate_within {id : Nat} {s t : State} (h : execKeyUpdate id s = .next t) : t.mgmt.Within s.mgmt :=
  Mgmt.within_of_onSession h (Mgmt.within_of_fields (Nat.le_refl _) rfl rfl)

theorem execEndSession_within {id : Nat} {s t : State} (h : execEndSession id s = .next t) : t.mgmt.Within s.mgmt :=
  Mgmt.within_of_onSession h (s.dropSession_within id)

theorem execSetTime_within {q : Option Nat} {n : Nat} {s t : State} (h : execSetTime q n s = .next t) : t.mgmt.Within s.mgmt :=
  Mgmt.within_of_secured h (Mgmt.within_of_fields (Nat.le_refl _) rfl rfl)

theorem execSetEventReceiver_within {eid : Nat} {s t : State} (h : execSetEventReceiver eid s = .next t) : t.mgmt.Within s.mgmt :=
  Mgmt.within_of_answers h (Mgmt.within_of_fields (Nat.le_refl _) rfl rfl)

/-! The three commands that do more. -/

/-- What a command does to the open sessions, the fabric key and the debug lock: it keeps within what was held; or KEY_EXCHANGE opens a session where fewer than four
are open; or SET_FABRIC_KEY sets a key, or DEBUG_UNLOCK unlocks, inside an established session. -/
inductive MgmtStep (c : Instr) (s t : State) : Prop
  | within (h : t.mgmt.Within s.mgmt)
  | opened (id : Nat) (hroom : s.mgmt.sessions.length < 4) (h : t.mgmt = { s.mgmt with sessions := s.mgmt.sessions ++ [(id, false)] })
  | keyed (q : Option Nat) (k : Bytes) (hc : c = .setFabricKey q k) (hq : s.inSession q = true) (hk : k.length = 32) (h : t.mgmt = { s.mgmt with fabricKey := some k })
  | unlocked (q : Option Nat) (hc : c = .debugUnlock q) (hq : s.inSession q = true) (h : t.mgmt = { s.mgmt with debug := true })

theorem MgmtStep.of_eq {c : Instr} {s t : State} (h : t.mgmt = s.mgmt) : MgmtStep c s t := .within (Mgmt.within_of_eq h)

theorem MgmtStep.of_kept {c : Instr} {s t : State} (h : MgmtKept s t) : MgmtStep c s t := .within h.within

theorem execKeyExchange_mgmtStep {id : Nat} {s t : State} (h : execKeyExchange id s = .next t) : MgmtStep (.keyExchange id) s t := by
  unfold execKeyExchange State.afterNegotiation at h
  obtain rfl | rfl := s.answers_next _ t h
  · exact .of_eq rfl
  · dsimp only
    split
    · split
      · exact .of_eq rfl
      · split
        · exact .of_eq rfl
        · next hroom => exact .opened id (Nat.lt_of_not_le hroom) rfl
    · exact .of_eq rfl

theorem execSetFabricKey_mgmtStep {q : Option Nat} {k : Bytes} {s t : State} (h : execSetFabricKey q k s = .next t) : MgmtStep (.setFabricKey q k) s t := by
  obtain rfl | ⟨hq, rfl⟩ | ⟨_, rfl⟩ := s.secured_next q 10 _ t h
  · exact .of_eq rfl
  · dsimp only
    split
    · exact .of_eq rfl
    · next hk => exact .keyed q k rfl hq (Decidable.not_not.mp hk) rfl
  · exact .of_eq rfl

theorem execDebugUnlock_mgmtStep {q : Option Nat} {s t : State} (h : execDebugUnlock q s = .next t) : MgmtStep (.debugUnlock q) s t := by
  obtain rfl | rfl := s.answers_next _ t h
  · exact .of_eq rfl
  · dsimp only
    split
    · next hq => exact .unlocked q rfl hq rfl
    · exact .of_eq rfl

/-- Every command, by what it leaves of the controller's state: its own lemma says which case holds. -/
theorem exec_mgmtStep {c : Instr} {s t : State} (h : exec c s = .next t) : MgmtStep c s t :=
  match c, h with
  | .tickBoundary .., h => .of_eq (execTickBoundary_mgmt (h := h) ..)
  | .tickPacket .., h => .of_eq (execTickPacket_mgmt (h := h) ..)
  | .reply .., h => .of_eq (execReply_mgmt (h := h) ..)
  | .childReplyTimeout .., h => .of_eq (execChildReplyTimeout_mgmt (h := h) ..)
  | .silence .., h => .of_eq (execSilence_mgmt (h := h) ..)
  | .presenceNotice .., h => .of_eq (execPresenceNotice_mgmt (h := h) ..)
  | .tstate .., h => .of_eq (execTstate_mgmt (h := h) ..)
  | .deputyTakeover, h => .of_eq (execDeputyTakeover_mgmt (h := h) ..)
  | .tsync .., h => .of_eq (execTsync_mgmt (h := h) ..)
  | .offsetMeasure .., h => .of_eq (execOffsetMeasure_mgmt (h := h) ..)
  | .adriftLimit, h => .of_eq (execAdriftLimit_mgmt (h := h) ..)
  | .voteNotice .., h => .of_eq (execVoteNotice_mgmt (h := h) ..)
  | .voteDeadline .., h => .of_eq (execVoteDeadline_mgmt (h := h) ..)
  | .firstFrameCopyDone .., h => .of_eq (execFirstFrameCopyDone_mgmt (h := h) ..)
  | .commitDeadline .., h => .of_eq (execCommitDeadline_mgmt (h := h) ..)
  | .restoreCopyDone .., h => .of_eq (execRestoreCopyDone_mgmt (h := h) ..)
  | .swapPageSent .., h => .of_eq (execSwapPageSent_mgmt (h := h) ..)
  | .swapInPage .., h => .of_eq (execSwapInPage_mgmt (h := h) ..)
  | .stackTempSample .., h => .of_kept (execStackTempSample_kept (h := h) ..)
  | .permuteLimit .., h => .of_eq (execPermuteLimit_mgmt (h := h) ..)
  | .failoverStreamComplete .., h => .of_eq (execFailoverStreamComplete_mgmt (h := h) ..)
  | .deathDeclared .., h => .of_eq (execDeathDeclared_mgmt (h := h) ..)
  | .matmul .., h => .of_eq (execMatmul_mgmt (h := h) ..)
  | .elementwiseChain .., h => .of_eq (execElementwiseChain_mgmt (h := h) ..)
  | .reductionSum .., h => .of_eq (execReductionSum_mgmt (h := h) ..)
  | .reductionMax .., h => .of_eq (execReductionMax_mgmt (h := h) ..)
  | .reductionMin .., h => .of_eq (execReductionMin_mgmt (h := h) ..)
  | .reductionSumsq .., h => .of_eq (execReductionSumsq_mgmt (h := h) ..)
  | .reductionMean .., h => .of_eq (execReductionMean_mgmt (h := h) ..)
  | .softmax .., h => .of_eq (execSoftmax_mgmt (h := h) ..)
  | .logSoftmax .., h => .of_eq (execLogSoftmax_mgmt (h := h) ..)
  | .layerNorm .., h => .of_eq (execLayerNorm_mgmt (h := h) ..)
  | .rmsNorm .., h => .of_eq (execRmsNorm_mgmt (h := h) ..)
  | .relayout .., h => .of_eq (execRelayout_mgmt (h := h) ..)
  | .gather .., h => .of_eq (execGather_mgmt (h := h) ..)
  | .scatter .., h => .of_eq (execScatter_mgmt (h := h) ..)
  | .scatterAdd .., h => .of_eq (execScatterAdd_mgmt (h := h) ..)
  | .quantise .., h => .of_eq (execQuantise_mgmt (h := h) ..)
  | .dequantise .., h => .of_eq (execDequantise_mgmt (h := h) ..)
  | .send .., h => .of_eq (execSend_mgmt (h := h) ..)
  | .receiveCopy .., h => .of_eq (execReceiveCopy_mgmt (h := h) ..)
  | .receiveAdd .., h => .of_eq (execReceiveAdd_mgmt (h := h) ..)
  | .receiveMax .., h => .of_eq (execReceiveMax_mgmt (h := h) ..)
  | .dmaMove .., h => .of_eq (execDmaMove_mgmt (h := h) ..)
  | .nextVariantMove .., h => .of_eq (execNextVariantMove_mgmt (h := h) ..)
  | .boltWait .., h => .of_eq (execBoltWait_mgmt (h := h) ..)
  | .boltAdd .., h => .of_eq (execBoltAdd_mgmt (h := h) ..)
  | .boltSet .., h => .of_eq (execBoltSet_mgmt (h := h) ..)
  | .boltWaitTimeout .., h => .of_eq (execBoltWaitTimeout_mgmt (h := h) ..)
  | .checkerExport .., h => .of_eq (execCheckerExport_mgmt (h := h) ..)
  | .checkerCompare .., h => .of_eq (execCheckerCompare_mgmt (h := h) ..)
  | .convolution .., h => .of_eq (execConvolution_mgmt (h := h) ..)
  | .maxPool .., h => .of_eq (execMaxPool_mgmt (h := h) ..)
  | .averagePool .., h => .of_eq (execAveragePool_mgmt (h := h) ..)
  | .bilinearResize .., h => .of_eq (execBilinearResize_mgmt (h := h) ..)
  | .nearestResize .., h => .of_eq (execNearestResize_mgmt (h := h) ..)
  | .attentionFwd .., h => .of_eq (execAttentionFwd_mgmt (h := h) ..)
  | .attentionBwd .., h => .of_eq (execAttentionBwd_mgmt (h := h) ..)
  | .attentionAppend .., h => .of_eq (execAttentionAppend_mgmt (h := h) ..)
  | .attentionMerge .., h => .of_eq (execAttentionMerge_mgmt (h := h) ..)
  | .elem .., h => .of_eq (execElem_mgmt (h := h) ..)
  | .norm .., h => .of_eq (execNorm_mgmt (h := h) ..)
  | .fuse .., h => .of_eq (execFuse_mgmt (h := h) ..)
  | .scale .., h => .of_eq (execScale_mgmt (h := h) ..)
  | .carry .., h => .of_eq (execCarry_mgmt (h := h) ..)
  | .ortho .., h => .of_eq (execOrtho_mgmt (h := h) ..)
  | .kstat .., h => .of_eq (execKstat_mgmt (h := h) ..)
  | .kroot .., h => .of_eq (execKroot_mgmt (h := h) ..)
  | .kapply .., h => .of_eq (execKapply_mgmt (h := h) ..)
  | .variant .., h => .of_eq (execVariant_mgmt (h := h) ..)
  | .recordRetire .., h => .of_eq (execRecordRetire_mgmt (h := h) ..)
  | .reservationStart .., h => .of_eq (execReservationStart_mgmt (h := h) ..)
  | .reservationEnd .., h => .of_eq (execReservationEnd_mgmt (h := h) ..)
  | .mirrorAck .., h => .of_eq (execMirrorAck_mgmt (h := h) ..)
  | .mirrorAckTimeout .., h => .of_eq (execMirrorAckTimeout_mgmt (h := h) ..)
  | .sched .., h => .of_eq (execSched_mgmt (h := h) ..)
  | .packetForward .., h => .of_eq (execPacketForward_mgmt (h := h) ..)
  | .packetAged .., h => .of_eq (execPacketAged_mgmt (h := h) ..)
  | .credit .., h => .of_eq (execCredit_mgmt (h := h) ..)
  | .hello .., h => .of_eq (execHello_mgmt (h := h) ..)
  | .helloTimer, h => .of_eq (execHelloTimer_mgmt (h := h) ..)
  | .write .., h => .of_eq (execWrite_mgmt (h := h) ..)
  | .read .., h => .of_eq (execRead_mgmt (h := h) ..)
  | .readData .., h => .of_eq (execReadData_mgmt (h := h) ..)
  | .ack .., h => .of_eq (execAck_mgmt (h := h) ..)
  | .error .., h => .of_eq (execError_mgmt (h := h) ..)
  | .requestTimeout .., h => .of_eq (execRequestTimeout_mgmt (h := h) ..)
  | .probe .., h => .of_kept (execProbe_kept (h := h) ..)
  | .linkTrainingDone .., h => .of_eq (execLinkTrainingDone_mgmt (h := h) ..)
  | .linkDown .., h => .of_eq (execLinkDown_mgmt (h := h) ..)
  | .codewordUncorrectable .., h => .of_eq (execCodewordUncorrectable_mgmt (h := h) ..)
  | .fabPermAtWrite .., h => .of_eq (execFabPermAtWrite_mgmt (h := h) ..)
  | .key .., h => .of_eq (execKey_mgmt (h := h) ..)
  | .release .., h => .of_eq (execRelease_mgmt (h := h) ..)
  | .zeroingComplete .., h => .of_eq (execZeroingComplete_mgmt (h := h) ..)
  | .ctxSelectHiWrite .., h => .of_eq (execCtxSelectHiWrite_mgmt (h := h) ..)
  | .ctxBoltValWrite .., h => .of_eq (execCtxBoltValWrite_mgmt (h := h) ..)
  | .ctxBoltAddWrite .., h => .of_eq (execCtxBoltAddWrite_mgmt (h := h) ..)
  | .hspEvictWrite .., h => .of_eq (execHspEvictWrite_mgmt (h := h) ..)
  | .hspFoVersionWrite .., h => .of_eq (execHspFoVersionWrite_mgmt (h := h) ..)
  | .enrol, h => .of_eq (execEnrol_mgmt (h := h) ..)
  | .permanenceNotice .., h => .of_eq (execPermanenceNotice_mgmt (h := h) ..)
  | .sweepComplete .., h => .of_eq (execSweepComplete_mgmt (h := h) ..)
  | .unitClassHourly .., h => .within (execUnitClassHourly_within h)
  | .historyCompact, h => .of_eq (execHistoryCompact_mgmt (h := h) ..)
  | .recordIngest .., h => .of_eq (execRecordIngest_mgmt (h := h) ..)
  | .recordDecoded .., h => .of_eq (execRecordDecoded_mgmt (h := h) ..)
  | .batchDeadline .., h => .of_eq (execBatchDeadline_mgmt (h := h) ..)
  | .adapterTransferDone .., h => .of_eq (execAdapterTransferDone_mgmt (h := h) ..)
  | .pictureDecoded .., h => .of_eq (execPictureDecoded_mgmt (h := h) ..)
  | .decodeTimeout .., h => .of_eq (execDecodeTimeout_mgmt (h := h) ..)
  | .livePictureLate .., h => .of_eq (execLivePictureLate_mgmt (h := h) ..)
  | .liveStreamEnable .., h => .of_eq (execLiveStreamEnable_mgmt (h := h) ..)
  | .archiveEncodeDone .., h => .of_eq (execArchiveEncodeDone_mgmt (h := h) ..)
  | .mediaFwSwitchDone, h => .within (execMediaFwSwitchDone_within h)
  | .nandProgramDone .., h => .of_eq (execNandProgramDone_mgmt (h := h) ..)
  | .readDisturbRelocate .., h => .of_eq (execReadDisturbRelocate_mgmt (h := h) ..)
  | .scrubRead row _, h => .of_eq (execScrubRead_mgmt (_row := row) (h := h) ..)
  | .rowRemap .., h => .of_eq (execRowRemap_mgmt (h := h) ..)
  | .ringPoll .., h => .of_eq (execRingPoll_mgmt (h := h) ..)
  | .nop .., h => .of_eq (execNop_mgmt (h := h) ..)
  | .fmCmd .., h => .of_eq (execFmCmd_mgmt (h := h) ..)
  | .tokLoad .., h => .of_eq (execTokLoad_mgmt (h := h) ..)
  | .flashWrite .., h => .of_eq (execFlashWrite_mgmt (h := h) ..)
  | .flashRead .., h => .of_eq (execFlashRead_mgmt (h := h) ..)
  | .flashTrim .., h => .of_eq (execFlashTrim_mgmt (h := h) ..)
  | .flashFlush .., h => .of_eq (execFlashFlush_mgmt (h := h) ..)
  | .flashFormat .., h => .of_eq (execFlashFormat_mgmt (h := h) ..)
  | .planLoad .., h => .of_eq (execPlanLoad_mgmt (h := h) ..)
  | .planStart .., h => .of_eq (execPlanStart_mgmt (h := h) ..)
  | .planUnload .., h => .of_eq (execPlanUnload_mgmt (h := h) ..)
  | .waitEpoch .., h => .of_eq (execWaitEpoch_mgmt (h := h) ..)
  | .stateRead .., h => .of_eq (execStateRead_mgmt (h := h) ..)
  | .stateWrite .., h => .of_eq (execStateWrite_mgmt (h := h) ..)
  | .ringBoltAdd .., h => .of_eq (execRingBoltAdd_mgmt (h := h) ..)
  | .ringBoltSet .., h => .of_eq (execRingBoltSet_mgmt (h := h) ..)
  | .record .., h => .of_eq (execRecord_mgmt (h := h) ..)
  | .live .., h => .of_eq (execLive_mgmt (h := h) ..)
  | .sensor .., h => .of_eq (execSensor_mgmt (h := h) ..)
  | .ringEnable .., h => .of_eq (execRingEnable_mgmt (h := h) ..)
  | .ringDisable .., h => .of_eq (execRingDisable_mgmt (h := h) ..)
  | .irqTimer .., h => .of_eq (execIrqTimer_mgmt (h := h) ..)
  | .functionLevelReset .., h => .of_eq (execFunctionLevelReset_mgmt (h := h) ..)
  | .perstAssert, h => .of_eq (execPerstAssert_mgmt (h := h) ..)
  | .d3hotEntry .., h => .of_eq (execD3hotEntry_mgmt (h := h) ..)
  | .powerOn, h => .within (execPowerOn_within h)
  | .resetNAssert .., h => .of_kept (execResetNAssert_kept (h := h) ..)
  | .stretchExpiry .., h => .of_eq (execStretchExpiry_mgmt (h := h) ..)
  | .resetHeld, h => .of_eq (execResetHeld_mgmt (h := h) ..)
  | .rstCmd .., h => .of_kept (execRstCmd_kept (h := h) ..)
  | .watchdogExpiry .., h => .of_kept (execWatchdogExpiry_kept (h := h) ..)
  | .fatalEscalation .., h => .of_kept (execFatalEscalation_kept (h := h) ..)
  | .pllLockTimeout .., h => .of_kept (execPllLockTimeout_kept (h := h) ..)
  | .bringupPhaseComplete .., h => .of_eq (execBringupPhaseComplete_mgmt (h := h) ..)
  | .wardResetComplete .., h => .of_eq (execWardResetComplete_mgmt (h := h) ..)
  | .refclkFail .., h => .of_eq (execRefclkFail_mgmt (h := h) ..)
  | .refclkRecover .., h => .of_eq (execRefclkRecover_mgmt (h := h) ..)
  | .clkSelect .., h => .of_eq (execClkSelect_mgmt (h := h) ..)
  | .holdoverLimit, h => .of_eq (execHoldoverLimit_mgmt (h := h) ..)
  | .pcieRefclkFail, h => .of_eq (execPcieRefclkFail_mgmt (h := h) ..)
  | .pwrLadderWrite .., h => .of_kept (execPwrLadderWrite_kept (h := h) ..)
  | .vinSample .., h => .of_kept (execVinSample_kept (h := h) ..)
  | .supplyStageRecover, h => .of_eq (execSupplyStageRecover_mgmt (h := h) ..)
  | .railTimeout, h => .of_eq (execRailTimeout_mgmt (h := h) ..)
  | .railUndervolt .., h => .of_kept (execRailUndervolt_kept (h := h) ..)
  | .shedAssert, h => .of_eq (execShedAssert_mgmt (h := h) ..)
  | .shedRelease, h => .of_eq (execShedRelease_mgmt (h := h) ..)
  | .governorTick .., h => .of_eq (execGovernorTick_mgmt (h := h) ..)
  | .dieTempSample .., h => .of_kept (execDieTempSample_kept (h := h) ..)
  | .setEndpointId .., h => .within (execSetEndpointId_within h)
  | .getEndpointId .., h => .of_eq (execGetEndpointId_mgmt (h := h) ..)
  | .getMctpVersionSupport .., h => .of_eq (execGetMctpVersionSupport_mgmt (h := h) ..)
  | .getMessageTypeSupport .., h => .of_eq (execGetMessageTypeSupport_mgmt (h := h) ..)
  | .getVendorDefinedMessageSupport .., h => .of_eq (execGetVendorDefinedMessageSupport_mgmt (h := h) ..)
  | .getVersion, h => .within (execGetVersion_within h)
  | .getCapabilities, h => .of_eq (execGetCapabilities_mgmt (h := h) ..)
  | .negotiateAlgorithms .., h => .within (execNegotiateAlgorithms_within h)
  | .getDigests, h => .of_eq (execGetDigests_mgmt (h := h) ..)
  | .getCertificate .., h => .of_eq (execGetCertificate_mgmt (h := h) ..)
  | .challenge .., h => .of_eq (execChallenge_mgmt (h := h) ..)
  | .getMeasurements .., h => .of_eq (execGetMeasurements_mgmt (h := h) ..)
  | .keyExchange .., h => execKeyExchange_mgmtStep h
  | .finish .., h => .within (execFinish_within h)
  | .heartbeat .., h => .of_eq (execHeartbeat_mgmt (h := h) ..)
  | .keyUpdate .., h => .within (execKeyUpdate_within h)
  | .endSession .., h => .within (execEndSession_within h)
  | .getInfo, h => .of_eq (execGetInfo_mgmt (h := h) ..)
  | .mgmtRegRead .., h => .of_eq (execMgmtRegRead_mgmt (h := h) ..)
  | .mgmtRegWrite .., h => .of_kept (execMgmtRegWrite_kept (h := h) ..)
  | .ladder .., h => .of_kept (execLadder_kept (h := h) ..)
  | .mgmtReset .., h => .of_kept (execMgmtReset_kept (h := h) ..)
  | .unitRead .., h => .of_eq (execUnitRead_mgmt (h := h) ..)
  | .unitRequestFence .., h => .of_eq (execUnitRequestFence_mgmt (h := h) ..)
  | .unitRequestRestore .., h => .of_eq (execUnitRequestRestore_mgmt (h := h) ..)
  | .unitRequestClearClass .., h => .of_eq (execUnitRequestClearClass_mgmt (h := h) ..)
  | .histRead .., h => .of_eq (execHistRead_mgmt (h := h) ..)
  | .setTime .., h => .within (execSetTime_within h)
  | .setFabricKey .., h => execSetFabricKey_mgmtStep h
  | .requestUpdate .., h => .within (execRequestUpdate_within h)
  | .firmwareVerify .., h => .within (execFirmwareVerify_within h)
  | .firmwareActivate .., h => .within (execFirmwareActivate_within h)
  | .mgmtRestartDone, h => .within (execMgmtRestartDone_within h)
  | .getPdr .., h => .of_eq (execGetPdr_mgmt (h := h) ..)
  | .getSensorReading .., h => .of_eq (execGetSensorReading_mgmt (h := h) ..)
  | .setEventReceiver .., h => .within (execSetEventReceiver_within h)
  | .loWordRead .., h => .of_eq (execLoWordRead_mgmt (h := h) ..)
  | .accSnapEpochRead .., h => .of_eq (execAccSnapEpochRead_mgmt (h := h) ..)
  | .pwrFcastTickLoRead, h => .of_eq (execPwrFcastTickLoRead_mgmt (h := h) ..)
  | .registerWrite .., h => .of_kept (execRegisterWrite_kept (h := h) ..)
  | .jtagBypass n, h => .of_eq (execJtagBypass_mgmt (_instr := n) (h := h) ..)
  | .jtagIdcode, h => .of_eq (execJtagIdcode_mgmt (h := h) ..)
  | .jtagSamplePreload, h => .of_eq (execJtagSamplePreload_mgmt (h := h) ..)
  | .jtagExtest .., h => .of_eq (execJtagExtest_mgmt (h := h) ..)
  | .resetNRelease, h => .of_eq (execResetNRelease_mgmt (h := h) ..)
  | .perstRelease, h => .of_eq (execPerstRelease_mgmt (h := h) ..)
  | .rebuildComplete .., h => .of_eq (execRebuildComplete_mgmt (h := h) ..)
  | .linkHoldEnd, h => .of_eq (execLinkHoldEnd_mgmt (h := h) ..)
  | .debugUnlock .., h => execDebugUnlock_mgmtStep h
  | .unsupportedMessage .., h => .within (execUnsupportedMessage_within h)
  | .assign .., h | .neighbours .., h | .tableWrite .., h | .tableSeal .., h | .fmRegWrite .., h | .fmRegRead .., h | .tickStart .., h | .resume .., h | .fmReset .., h => .of_kept (s.fmRow_kept (h := h) ..)

/-- Settles O7: KEY_EXCHANGE opens a session only where fewer than four are open, and no other command adds one. -/
theorem sessionsStayBounded : Obligations.SessionsStayBounded := by
  intro s t hs h
  simp only [State.sessionsOk, decide_eq_true_eq] at hs ⊢
  cases hpending : s.pending with
  | nil => rw [step_of_pending_nil hpending] at h; exact Host.Outcome.next.inj h ▸ hs
  | cons c q =>
    rw [step_of_pending_cons hpending] at h
    cases exec_mgmtStep h with
    | within h => exact h.1.trans hs
    | opened id hroom h => rw [h, List.length_append]; exact hroom
    | keyed q k hc hq hk h => rw [h]; exact hs
    | unlocked q hc hq h => rw [h]; exact hs

/-- Settles O8. -/
theorem fabricKeyRule : Obligations.FabricKeyRule := by
  intro c s t h
  cases exec_mgmtStep h with
  | within h => exact h.2.1.imp_right .inl
  | opened id hroom h => exact .inl (by rw [h])
  | keyed q k hc hq hk h => exact .inr (.inr ⟨q, k, hc, hq, hk, by rw [h]⟩)
  | unlocked q hc hq h => exact .inl (by rw [h])

/-- Settles O9. -/
theorem debugLockRule : Obligations.DebugLockRule := by
  intro c s t h hdebug
  cases exec_mgmtStep h with
  | within h => exact .inl (h.2.2 hdebug)
  | opened id hroom h => rw [h] at hdebug; exact .inl hdebug
  | keyed q k hc hq hk h => rw [h] at hdebug; exact .inl hdebug
  | unlocked q hc hq h => exact .inr ⟨q, hc, hq⟩

end Sys2Proof.Machine
end

section
/-! Every command completes (R7, O3): the shared steps answer a next state whatever their operands, and so does each command's own choice of branches. -/

namespace Sys2Proof.Machine

/-- An outcome that is a next state: no fault and no refusal. -/
def IsNext (o : Host.Outcome State Fault Refusal) : Prop := ∃ t, o = .next t

theorem IsNext.next (t : State) : IsNext (.next t) := ⟨t, rfl⟩

theorem IsNext.ite {p : Prop} [Decidable p] {o o' : Host.Outcome State Fault Refusal} (h : IsNext o) (h' : IsNext o') : IsNext (if p then o else o') := by
  split
  · exact h
  · exact h'

/-! The shared steps. -/

theorem issue_isNext (u : Nat) (r : Bytes) (env : RunEnv) (legal : Bool) (reads writes : List Region) (out : State → RunCtx → RunOut) (s : State) :
    IsNext (issue u r env legal reads writes out s) :=
  .ite (.next _) (.next _)

theorem State.adminCmd_isNext (s : State) (fn opcode : Nat) (cmd : HostCmd) (f : State → State) : IsNext (s.adminCmd fn opcode cmd f) := by
  unfold State.adminCmd
  split
  · exact .next _
  · exact .ite (.next _) (.next _)

theorem State.vfCmd_isNext (s : State) (fn opcode : Nat) (cmd : HostCmd) (f : Nat → State → State) : IsNext (s.vfCmd fn opcode cmd f) := by
  unfold State.vfCmd
  split
  · exact .next _
  · split <;> exact .next _

theorem execNextVariantMove_isNext (w : Fin 16) (r : Bytes) (env : RunEnv) (s : State) : IsNext (execNextVariantMove w r env s) := by
  unfold execNextVariantMove
  dsimp only
  split
  · exact issue_isNext ..
  · exact issue_isNext ..

theorem exec_isNext (c : Instr) (s : State) : IsNext (exec c s) :=
  match c with
  | .tickPacket .. | .reply .. | .silence .. | .presenceNotice .. | .tstate .. | .tsync .. | .offsetMeasure .. | .adriftLimit | .voteNotice ..
  | .failoverStreamComplete .. | .deathDeclared .. | .mirrorAck .. | .sched .. | .credit .. | .hello .. | .helloTimer | .write .. | .read ..
  | .readData .. | .error .. | .assign .. | .neighbours .. | .tableWrite .. | .tableSeal .. | .fmRegWrite .. | .fmRegRead .. | .tickStart ..
  | .resume .. | .fmReset .. | .linkTrainingDone .. | .linkDown .. | .codewordUncorrectable .. | .ctxSelectHiWrite .. | .ctxBoltValWrite ..
  | .ctxBoltAddWrite .. | .hspFoVersionWrite .. | .permanenceNotice .. | .unitClassHourly .. | .scrubRead .. | .ringDisable .. | .d3hotEntry ..
  | .powerOn | .fatalEscalation .. | .pllLockTimeout .. | .pcieRefclkFail | .pwrLadderWrite .. | .shedRelease | .governorTick .. | .loWordRead ..
  | .accSnapEpochRead .. | .pwrFcastTickLoRead | .registerWrite .. | .jtagBypass .. | .jtagIdcode | .jtagSamplePreload | .perstRelease
  | .rebuildComplete .. | .linkHoldEnd =>
    .next _
  -- A record is taken or left (R26, R166).
  | .matmul .. | .elementwiseChain .. | .reductionSum .. | .reductionMax .. | .reductionMin .. | .reductionSumsq .. | .reductionMean .. | .softmax ..
  | .logSoftmax .. | .layerNorm .. | .rmsNorm .. | .relayout .. | .gather .. | .scatter .. | .scatterAdd .. | .quantise .. | .dequantise ..
  | .send .. | .receiveCopy .. | .receiveAdd .. | .receiveMax .. | .dmaMove .. | .boltWait .. | .boltAdd .. | .boltSet .. | .checkerExport ..
  | .checkerCompare .. | .convolution .. | .maxPool .. | .averagePool .. | .bilinearResize .. | .nearestResize .. | .attentionFwd ..
  | .attentionBwd .. | .attentionAppend .. | .attentionMerge .. | .elem .. | .norm .. | .fuse .. | .scale .. | .carry .. | .ortho .. | .kstat ..
  | .kroot .. | .kapply .. | .variant .. =>
    .ite (.next _) (.next _)
  -- A request is answered unless the controller restarts (R601).
  | .getVersion | .getCapabilities | .negotiateAlgorithms .. | .getInfo | .mgmtRegRead .. | .unitRead .. | .histRead .. | .requestUpdate ..
  | .firmwareVerify .. | .firmwareActivate .. | .getPdr .. | .getSensorReading .. | .setEventReceiver .. | .debugUnlock .. | .unsupportedMessage ..
  | .mgmtRegWrite .. | .ladder .. | .mgmtReset .. | .unitRequestFence .. | .unitRequestRestore .. | .unitRequestClearClass .. | .setTime ..
  | .setFabricKey .. | .finish .. | .heartbeat .. | .keyUpdate .. | .endSession .. | .getDigests | .getCertificate .. | .challenge ..
  | .getMeasurements .. | .keyExchange .. =>
    .ite (.next _) (.next _)
  | .setEndpointId .. | .getEndpointId .. | .getMctpVersionSupport .. | .getMessageTypeSupport .. | .getVendorDefinedMessageSupport .. =>
    .ite (.next _) (.ite (.next _) (.next _))
  | .fmCmd .. | .tokLoad .. | .flashWrite .. | .flashRead .. | .flashTrim .. | .flashFlush .. | .flashFormat .. =>
    s.adminCmd_isNext ..
  | .planLoad .. | .planStart .. | .planUnload .. | .waitEpoch .. | .stateRead .. | .stateWrite .. | .ringBoltAdd .. | .ringBoltSet .. | .record ..
  | .live .. | .sensor .. =>
    s.vfCmd_isNext ..
  | .tickBoundary .. | .childReplyTimeout .. | .deputyTakeover | .voteDeadline .. | .commitDeadline .. | .permuteLimit .. | .fabPermAtWrite ..
  | .release .. | .zeroingComplete .. | .hspEvictWrite .. | .enrol | .sweepComplete .. | .historyCompact | .recordIngest .. | .batchDeadline ..
  | .readDisturbRelocate .. | .mediaFwSwitchDone | .irqTimer .. | .functionLevelReset .. | .perstAssert | .resetNAssert .. | .resetHeld
  | .watchdogExpiry .. | .wardResetComplete .. | .holdoverLimit | .supplyStageRecover | .railTimeout | .railUndervolt .. | .shedAssert
  | .jtagExtest .. | .resetNRelease | .ack .. | .mgmtRestartDone =>
    .ite (.next _) (.next _)
  | .stackTempSample .. | .rstCmd .. | .clkSelect .. | .vinSample .. | .swapInPage .. | .stretchExpiry .. =>
    .ite (.next _) (.ite (.next _) (.next _))
  | .restoreCopyDone .. | .rowRemap .. | .dieTempSample .. =>
    .ite (.next _) (.ite (.next _) (.ite (.next _) (.next _)))
  | .nextVariantMove .. => execNextVariantMove_isNext ..
  -- What these find in the state picks among their branches, each of which is a next state.
  | .firstFrameCopyDone .. | .swapPageSent .. | .boltWaitTimeout .. | .recordRetire .. | .reservationStart .. | .reservationEnd ..
  | .mirrorAckTimeout .. | .packetForward .. | .packetAged .. | .requestTimeout .. | .probe .. | .key .. | .recordDecoded ..
  | .adapterTransferDone .. | .pictureDecoded .. | .decodeTimeout .. | .livePictureLate .. | .liveStreamEnable .. | .archiveEncodeDone ..
  | .nandProgramDone .. | .ringPoll .. | .nop .. | .ringEnable .. | .bringupPhaseComplete .. | .refclkFail .. | .refclkRecover .. => by
    simp only [exec_firstFrameCopyDone, execFirstFrameCopyDone, exec_swapPageSent, execSwapPageSent, exec_boltWaitTimeout, execBoltWaitTimeout,
      exec_recordRetire, execRecordRetire, exec_reservationStart, execReservationStart, exec_reservationEnd, execReservationEnd,
      exec_mirrorAckTimeout, execMirrorAckTimeout, exec_packetForward, execPacketForward, exec_packetAged, execPacketAged, exec_requestTimeout,
      execRequestTimeout, exec_probe, execProbe, exec_key, execKey, exec_recordDecoded, execRecordDecoded, exec_adapterTransferDone,
      execAdapterTransferDone, exec_pictureDecoded, execPictureDecoded, exec_decodeTimeout, execDecodeTimeout, exec_livePictureLate,
      execLivePictureLate, exec_liveStreamEnable, execLiveStreamEnable, exec_archiveEncodeDone, execArchiveEncodeDone, exec_nandProgramDone,
      execNandProgramDone, exec_ringPoll, execRingPoll, exec_nop, execNop, exec_ringEnable, execRingEnable, exec_bringupPhaseComplete,
      execBringupPhaseComplete, exec_refclkFail, execRefclkFail, exec_refclkRecover, execRefclkRecover]
    repeat' split
    all_goals exact .next _

/-- Settles O3. -/
theorem everyCommandCompletes : Obligations.EveryCommandCompletes := exec_isNext

end Sys2Proof.Machine
end

section
/-! Bolts (R394 to R398, O20, O21): what serving the queue pays, and what set, add and wait do to a bolt on which no wait is queued. -/

namespace Sys2Proof.Machine

/-! Serving the queue from its head (R397). -/

theorem serveWaits_nil (shared : Bool) (n : W32) : serveWaits shared n [] = (n, [], []) := rfl

theorem serveWaits_cons_of_lt {shared : Bool} {n : W32} {w : Wait} (h : n.toNat < w.amount) (l : List Wait) :
    serveWaits shared n (w :: l) = (n, w :: l, []) := by
  rw [serveWaits, if_neg (Nat.not_le.mpr h)]

/-- A wait that the count covers is paid and leaves the queue, whether or not the bolt is shared. -/
theorem serveWaits_cons_of_le {shared : Bool} {n : W32} {w : Wait} (h : w.amount ≤ n.toNat) (l : List Wait) :
    (serveWaits shared n (w :: l)).1 = (serveWaits shared (n - BitVec.ofNat 32 w.amount) l).1 ∧
      (serveWaits shared n (w :: l)).2.1 = (serveWaits shared (n - BitVec.ofNat 32 w.amount) l).2.1 := by
  rw [serveWaits, if_pos h]
  exact ⟨rfl, rfl⟩

/-- What the count covers is subtracted without a borrow. -/
theorem toNat_sub_ofNat_of_le {n : W32} {a : Nat} (h : a ≤ n.toNat) : (n - BitVec.ofNat 32 a).toNat = n.toNat - a := by
  bv_omega

/-- Settles O21, by induction on the queue: a wait that the count covers adds one to the waits served and its amount to what is paid; the first that it does not cover
ends the service. -/
theorem boltQueueRule : Obligations.BoltQueueRule := by
  intro shared n l
  induction l generalizing n with
  | nil => exact ⟨0, Nat.le_refl _, rfl, rfl, fun w hw => nomatch hw⟩
  | cons w l ih =>
    by_cases hle : w.amount ≤ n.toNat
    · obtain ⟨k, hk, hleft, hpaid, hnext⟩ := ih (n - BitVec.ofNat 32 w.amount)
      obtain ⟨hcount, hwaits⟩ := serveWaits_cons_of_le (shared := shared) hle l
      refine ⟨k + 1, Nat.succ_le_succ hk, hwaits.trans hleft, ?_, ?_⟩
      · rw [toNat_sub_ofNat_of_le hle] at hpaid
        rw [hcount, List.take_succ_cons, List.map_cons, List.sum_cons]
        omega
      · rw [hcount]
        exact hnext
    · have hlt := Nat.lt_of_not_le hle
      rw [serveWaits_cons_of_lt hlt]
      refine ⟨0, Nat.zero_le _, rfl, rfl, fun v hv => ?_⟩
      obtain rfl : w = v := by simpa using hv
      exact hlt

/-! One bolt with no wait queued (R395). -/

variable {s : State} {x : Bolt} {b : Nat}

theorem Bolt.serve_count_of_nil (h : x.waits = []) (shared : Bool) : (x.serve shared).count = x.count := by
  rw [Bolt.serve, h, serveWaits_nil]

theorem Bolt.serve_waits_of_nil (h : x.waits = []) (shared : Bool) : (x.serve shared).waits = [] := by
  rw [Bolt.serve, h, serveWaits_nil]

/-- The only wait of a bolt is paid where the count covers it. -/
theorem Bolt.serve_of_covered {w : Wait} (h : x.waits = [w]) (hle : w.amount ≤ x.count.toNat) (shared : Bool) :
    (x.serve shared).count.toNat = x.count.toNat - w.amount ∧ (x.serve shared).waits = [] := by
  obtain ⟨hcount, hwaits⟩ := serveWaits_cons_of_le (shared := shared) hle []
  rw [serveWaits_nil] at hcount hwaits
  rw [Bolt.serve, h]
  exact ⟨(congrArg BitVec.toNat hcount).trans (toNat_sub_ofNat_of_le hle), hwaits⟩

theorem Bolt.serve_of_uncovered {w : Wait} (h : x.waits = [w]) (hlt : x.count.toNat < w.amount) (shared : Bool) :
    (x.serve shared).count = x.count ∧ (x.serve shared).waits = [w] := by
  rw [Bolt.serve, h, serveWaits_cons_of_lt hlt]
  exact ⟨rfl, rfl⟩

theorem State.boltSet_same (h : (s.bolt b).waits = []) (v : W32) :
    ((s.boltSet b v).bolt b).count = v ∧ ((s.boltSet b v).bolt b).waits = [] := by
  rw [State.boltSet, State.bolt_setBolt_self]
  exact ⟨Bolt.serve_count_of_nil (x := { s.bolt b with count := v }) h _, Bolt.serve_waits_of_nil (x := { s.bolt b with count := v }) h _⟩

theorem State.bolt_eventIf (c : Bool) (off i a : Nat) : (s.eventIf c off i).bolt a = s.bolt a := by
  rw [State.bolt, State.eventIf_bolts, State.bolt]

theorem State.boltAdd_count (h : (s.bolt b).waits = []) (c : Nat) (v : W32) :
    ((s.boltAdd c b v).bolt b).count.toNat = min ((s.bolt b).count.toNat + v.toNat) 0xFFFFFFFF := by
  rw [State.boltAdd, State.bolt_eventIf, State.bolt_setBolt_self, Bolt.serve_count_of_nil, BitVec.toNat_ofNat]
  · omega
  · exact h

theorem State.boltAdd_bolt_ne (c : Nat) (v : W32) {a : Nat} (h : a ≠ b) : (s.boltAdd c b v).bolt a = s.bolt a :=
  (State.bolt_eventIf _ _ _ a).trans (State.bolt_setBolt_ne s b _ h)

/-- An add that saturates sets BOLT_SAT (bit 4) of the requester's CTX_EVENT. -/
theorem State.boltAdd_reg_of_saturated {c : Nat} {v : W32} (h : 0xFFFFFFFF < (s.bolt b).count.toNat + v.toNat) :
    (s.boltAdd c b v).reg (Reg.CTX_EVENT c) = s.reg (Reg.CTX_EVENT c) ||| 0x10#32 := by
  rw [State.boltAdd, decide_eq_true h, State.eventIf_true, State.reg_event, if_pos rfl]
  rfl

theorem State.boltAdd_regs_of_le {c : Nat} {v : W32} (h : (s.bolt b).count.toNat + v.toNat ≤ 0xFFFFFFFF) : (s.boltAdd c b v).regs = s.regs := by
  rw [State.boltAdd, decide_eq_false (Nat.not_lt.mpr h), State.eventIf_false]
  rfl

theorem State.boltWait_covered (h : (s.bolt b).waits = []) {w : Wait} (hle : w.amount ≤ (s.bolt b).count.toNat) :
    ((s.boltWait b w).bolt b).count.toNat = (s.bolt b).count.toNat - w.amount ∧ ((s.boltWait b w).bolt b).waits = [] := by
  rw [State.boltWait, State.bolt_setBolt_self]
  exact Bolt.serve_of_covered (x := { s.bolt b with waits := (s.bolt b).waits ++ [w] }) (congrArg (· ++ [w]) h) hle _

theorem State.boltWait_uncovered (h : (s.bolt b).waits = []) {w : Wait} (hlt : (s.bolt b).count.toNat < w.amount) :
    ((s.boltWait b w).bolt b).count = (s.bolt b).count ∧ ((s.boltWait b w).bolt b).waits = [w] := by
  rw [State.boltWait, State.bolt_setBolt_self]
  exact Bolt.serve_of_uncovered (x := { s.bolt b with waits := (s.bolt b).waits ++ [w] }) (congrArg (· ++ [w]) h) hlt _

/-- Settles O20: the set, the add and the wait one after another; every one of them writes the one bolt that it names. -/
theorem boltRule : Obligations.BoltRule := by
  intro s b h
  refine ⟨fun v => ?_, fun c v => ?_, fun w hle => ?_, fun w hlt => ?_⟩
  · obtain ⟨hcount, hwaits⟩ := State.boltSet_same h v
    exact ⟨hcount, hwaits, fun a ha => State.bolt_setBolt_ne _ b _ ha⟩
  · exact ⟨State.boltAdd_count h c v, State.boltAdd_reg_of_saturated, State.boltAdd_regs_of_le, fun a ha => State.boltAdd_bolt_ne c v ha⟩
  · obtain ⟨hcount, hwaits⟩ := State.boltWait_covered h hle
    exact ⟨hcount, hwaits, fun a ha => State.bolt_setBolt_ne _ b _ ha⟩
  · obtain ⟨hcount, hwaits⟩ := State.boltWait_uncovered h hlt
    exact ⟨hcount, hwaits, fun a ha => State.bolt_setBolt_ne _ b _ ha⟩

end Sys2Proof.Machine
end

section
/-! What no record changes (O24): each record's own law of Laws/Record, collected over the records. -/

namespace Sys2Proof.Machine

/-- A record leaves the parts outside the execution machinery as they were. -/
theorem exec_rest_of_isRecord {c : Instr} {s t : State} (hr : isRecord c = true) (h : exec c s = .next t) : t.rest = s.rest := by
  cases c with
  | matmul => exact execMatmul_rest _ _ _ _ _ h
  | elementwiseChain => exact execElementwiseChain_rest _ _ _ _ _ h
  | reductionSum => exact execReductionSum_rest _ _ _ _ _ h
  | reductionMax => exact execReductionMax_rest _ _ _ _ _ h
  | reductionMin => exact execReductionMin_rest _ _ _ _ _ h
  | reductionSumsq => exact execReductionSumsq_rest _ _ _ _ _ h
  | reductionMean => exact execReductionMean_rest _ _ _ _ _ h
  | softmax => exact execSoftmax_rest _ _ _ _ _ h
  | logSoftmax => exact execLogSoftmax_rest _ _ _ _ _ h
  | layerNorm => exact execLayerNorm_rest _ _ _ _ _ h
  | rmsNorm => exact execRmsNorm_rest _ _ _ _ _ h
  | relayout => exact execRelayout_rest _ _ _ _ _ h
  | gather => exact execGather_rest _ _ _ _ _ h
  | scatter => exact execScatter_rest _ _ _ _ _ h
  | scatterAdd => exact execScatterAdd_rest _ _ _ _ _ h
  | quantise => exact execQuantise_rest _ _ _ _ _ h
  | dequantise => exact execDequantise_rest _ _ _ _ _ h
  | send => exact execSend_rest _ _ _ _ _ h
  | receiveCopy => exact execReceiveCopy_rest _ _ _ _ _ h
  | receiveAdd => exact execReceiveAdd_rest _ _ _ _ _ h
  | receiveMax => exact execReceiveMax_rest _ _ _ _ _ h
  | dmaMove => exact execDmaMove_rest _ _ _ _ _ h
  | nextVariantMove => exact execNextVariantMove_rest _ _ _ _ _ h
  | boltWait => exact execBoltWait_rest _ _ _ _ _ h
  | boltAdd => exact execBoltAdd_rest _ _ _ _ _ h
  | boltSet => exact execBoltSet_rest _ _ _ _ _ h
  | checkerExport => exact execCheckerExport_rest _ _ _ _ _ h
  | checkerCompare => exact execCheckerCompare_rest _ _ _ _ _ h
  | convolution => exact execConvolution_rest _ _ _ _ _ h
  | maxPool => exact execMaxPool_rest _ _ _ _ _ h
  | averagePool => exact execAveragePool_rest _ _ _ _ _ h
  | bilinearResize => exact execBilinearResize_rest _ _ _ _ _ h
  | nearestResize => exact execNearestResize_rest _ _ _ _ _ h
  | attentionFwd => exact execAttentionFwd_rest _ _ _ _ _ h
  | attentionBwd => exact execAttentionBwd_rest _ _ _ _ _ h
  | attentionAppend => exact execAttentionAppend_rest _ _ _ _ _ h
  | attentionMerge => exact execAttentionMerge_rest _ _ _ _ _ h
  | elem => exact execElem_rest _ _ _ _ _ h
  | norm => exact execNorm_rest _ _ _ _ _ h
  | fuse => exact execFuse_rest _ _ _ _ _ h
  | scale => exact execScale_rest _ _ _ _ _ h
  | carry => exact execCarry_rest _ _ _ _ _ h
  | ortho => exact execOrtho_rest _ _ _ _ _ h
  | kstat => exact execKstat_rest _ _ _ _ _ h
  | kroot => exact execKroot_rest _ _ _ _ _ h
  | kapply => exact execKapply_rest _ _ _ _ _ h
  | variant => exact execVariant_rest _ _ _ _ _ h
  | _ => exact absurd hr Bool.false_ne_true

/-- Settles O24: the nine parts are the components of `State.rest`. -/
theorem recordFrame : Obligations.RecordFrame := by
  intro c s t hr h
  have hrest := exec_rest_of_isRecord hr h
  simp only [State.rest, Prod.mk.injEq] at hrest
  obtain ⟨hlatches, hlp, hflash, hopt, hrst, hclk, hpwr, hmgmt, hpending⟩ := hrest
  exact ⟨hrst, hclk, hpwr, hopt, hflash, hlp, hmgmt, hlatches, hpending⟩

end Sys2Proof.Machine
end

section
/-! What a record stores (O25), and that every write keeps the memories in their canonical form (O27). -/

namespace Sys2Proof.Machine

/-! The memories after a record's run. -/

/-- The state in which a record's writes are made: its digest folded and the errors of its reads taken. -/
def State.beforeWrites (s : State) (c u : Nat) (r : Bytes) (env : RunEnv) (reads outs : List Region) (o : RunOut) : State :=
  (if recDigest r then s.modUnit u (fun x => { x with digests := tput x.digests (recDslot r) (digestOf (o.groups.map foldedBytes).flatten) }) else s).readFaults c env.errs
    reads outs

theorem State.beforeWrites_stores (s : State) (c u : Nat) (r : Bytes) (env : RunEnv) (reads outs : List Region) (o : RunOut) :
    (s.beforeWrites c u r env reads outs o).stores = s.stores :=
  (State.readFaults_stores _ _ _ _ _).trans (ite_stores (State.modUnit_stores _ _ _) rfl)

/-- After the writes a run accounts, counts and reports, and stores nothing more. -/
theorem State.afterRun_stores (s : State) (c u : Nat) (r : Bytes) (env : RunEnv) (reads outs : List Region) (o : RunOut) :
    (s.afterRun c u r env reads outs o).stores =
      (if recShadow r ∨ o.malformed then s.beforeWrites c u r env reads (if recShadow r then [] else outs) o
        else (s.beforeWrites c u r env reads (if recShadow r then [] else outs) o).over o.groups.flatten (fun s w => s.wr c w.space w.unit w.addr w.data)).stores := by
  have hrange (v : State) (n : Nat) (id : Nat) : (v.over (List.range n) (fun s _ => (s.count Reg.TCK_RANGE).opFault c u id 0x01)).stores = v.stores :=
    over_stores v _ _ (fun t _ => (State.opFault_stores (t.count Reg.TCK_RANGE) c u id 1).trans rfl)
  simp only [State.afterRun, State.modUnit_stores, apply_ite State.stores, State.sumMismatch_stores, State.sramFaults_stores, State.postEvent_stores, State.event_stores,
    State.markAll_stores, State.opFault_stores, hrange, State.account_stores, ite_self, State.beforeWrites]

/-- Settles O25, by what a run stores: the writes are skipped under SHADOW and for malformed parameters, and are the only ones. -/
theorem recordStoresItsGroups : Obligations.RecordStoresItsGroups := by
  intro c u r env reads outs o s
  refine ⟨fun h => ?_, fun hshadow hok => ⟨s.beforeWrites c u r env reads outs o, rfl, ?_⟩⟩
  · rw [State.afterRun_stores, if_pos h, State.beforeWrites_stores]
  · rw [State.afterRun_stores, if_neg (by simp [hshadow, hok]), if_neg (by simp [hshadow])]

/-! The canonical form of the memories. -/

/-- Every memory of a table is in canonical form. -/
abbrev tableOk (t : Tbl Mem) : Bool := t.all (fun p => Memory.wf p.2)

theorem wf_of_tableOk {t : Tbl Mem} (h : tableOk t = true) (n : Nat) : Memory.wf (tget (fun _ => []) t n) = true := by
  induction t with
  | nil => exact Memory_wf_nil
  | cons p t ih =>
    obtain ⟨hp, ht⟩ := Bool.and_eq_true_iff.mp h
    rw [tget]
    split
    · exact hp
    · exact ih ht

theorem tableOk_tput {t : Tbl Mem} (h : tableOk t = true) (n : Nat) {m : Mem} (hm : Memory.wf m = true) : tableOk (tput t n m) = true :=
  List.all_eq_true.mpr fun _ hp => (mem_tput hp).elim (fun e => e ▸ hm) (List.all_eq_true.mp h _)

theorem State.memoryOk_iff {s : State} : s.memoryOk = true ↔ tableOk s.stores.tiles = true ∧ tableOk s.stores.wards = true ∧ Memory.wf s.stores.staging = true ∧
    Memory.wf s.stores.dram = true ∧ Memory.wf s.stores.lpddr = true ∧ Memory.wf s.stores.spi = true := by
  simp only [State.memoryOk, Bool.and_eq_true, and_assoc]

/-- Every store of a state in canonical form is in canonical form. -/
theorem State.wf_store {s : State} (h : s.memoryOk = true) (sp u : Nat) : Memory.wf (s.store sp u) = true := by
  obtain ⟨htiles, hwards, hstaging, hdram, hlpddr, -⟩ := State.memoryOk_iff.mp h
  unfold State.store
  split
  · exact wf_of_tableOk htiles _
  · exact wf_of_tableOk hwards _
  · exact hstaging
  · exact hdram
  · exact hlpddr

theorem State.memoryOk_setStore {s : State} (h : s.memoryOk = true) (sp u : Nat) {m : Mem} (hm : Memory.wf m = true) : (s.setStore sp u m).memoryOk = true := by
  obtain ⟨htiles, hwards, hstaging, hdram, hlpddr, hspi⟩ := State.memoryOk_iff.mp h
  unfold State.setStore
  split <;> apply State.memoryOk_iff.mpr
  · exact ⟨tableOk_tput htiles _ hm, hwards, hstaging, hdram, hlpddr, hspi⟩
  · exact ⟨htiles, tableOk_tput hwards _ hm, hstaging, hdram, hlpddr, hspi⟩
  · exact ⟨htiles, hwards, hm, hdram, hlpddr, hspi⟩
  · exact ⟨htiles, hwards, hstaging, hm, hlpddr, hspi⟩
  · exact ⟨htiles, hwards, hstaging, hdram, hm, hspi⟩

/-- Bytes written one at a time, each where an address map sends it, if anywhere, keep the canonical form. -/
theorem wf_foldl_mset (g : Nat → Option Nat) (l : List (Nat × Byte)) {m : Mem} (h : Memory.wf m = true) :
    Memory.wf (l.foldl (fun m p => match g p.1 with | some d => mset m d p.2 | none => m) m) = true := by
  induction l generalizing m with
  | nil => exact h
  | cons p l ih =>
    rw [List.foldl_cons]
    cases g p.1 with
    | none => exact ih h
    | some d => exact ih (wf_mset d p.2 h)

theorem State.memoryOk_wrRaw {s : State} (h : s.memoryOk = true) (c sp u a : Nat) (b : Bytes) : (s.wrRaw c sp u a b).memoryOk = true := by
  unfold State.wrRaw
  split
  · obtain ⟨htiles, hwards, hstaging, hdram, hlpddr, hspi⟩ := State.memoryOk_iff.mp h
    exact State.memoryOk_iff.mpr ⟨htiles, hwards, hstaging, wf_foldl_mset (fun i => s.devAddr c 3 (a + i)) _ hdram, hlpddr, hspi⟩
  · exact State.memoryOk_setStore h sp u (wf_mwrite _ b (State.wf_store h sp u))

/-- A guarded write stores what the plain one does, or only marks poison. -/
theorem State.memoryOk_wr {s : State} (h : s.memoryOk = true) (c sp u a : Nat) (b : Bytes) : (s.wr c sp u a b).memoryOk = true := by
  unfold State.wr
  split
  · exact h
  · split
    · exact h
    · exact State.memoryOk_wrRaw h c sp u a b

/-- Settles O27: both kinds of write, by the rules of a store. -/
theorem memoryWritesKeepForm : Obligations.MemoryWritesKeepForm :=
  fun c sp u a b _ h => ⟨State.memoryOk_wr h c sp u a b, State.memoryOk_wrRaw h c sp u a b⟩

end Sys2Proof.Machine
end

section
/-! What a write does by the kind of its register (R608, R609, R613, O56). -/

namespace Sys2Proof.Machine

/-! One write through a BAR. -/

theorem regWrite_of_none {s : State} {off : Nat} (h : regRow off = none) (v : W32) (now : Nat) : s.regWrite off v now = s := by
  rw [State.regWrite, h]

theorem regWrite_of_ro {s : State} {off : Nat} {r : RegRow} (h : regRow off = some r) (hr : r.acc = .ro) (v : W32) (now : Nat) : s.regWrite off v now = s := by
  simp only [State.regWrite, h, hr]

theorem regWrite_of_w1c {s : State} {off : Nat} {r : RegRow} (h : regRow off = some r) (hr : r.acc = .w1c) (v : W32) (now : Nat) :
    s.regWrite off v now = s.clearBits r off v := by
  simp only [State.regWrite, h, hr]

/-- Both BARs keep the alignment of an offset: the bases of the ring blocks are multiples of 4. -/
theorem regAddr_mod_four {off : Nat} (h : off % 4 = 0) (fn : Nat) : regAddr fn off % 4 = 0 := by
  unfold regAddr ringBase
  split
  · omega
  · omega

theorem accessOk_word {off : Nat} (h : off % 4 = 0) : accessOk off 4 = true := by
  simp [accessOk, h]

theorem barWrite_word {s : State} {fn off : Nat} (h : accessOk (regAddr fn off) 4 = true) (v now : Nat) :
    s.barWrite fn off 4 v now = s.regWrite (regAddr fn off) (BitVec.ofNat 32 v) now := by
  rw [State.barWrite, h, Bool.not_true, if_neg Bool.false_ne_true, if_pos rfl]

/-- An event register loses the bits written as 1 that it has; the side effect on a permute's torn flag (R369) writes no register. -/
theorem reg_clearBits (s : State) (r : RegRow) (off : Nat) (v : W32) (a : Nat) :
    (s.clearBits r off v).reg a = if a = off then s.reg off &&& ~~~(v &&& BitVec.ofNat 32 r.mask) else s.reg a := by
  have hregs : (s.clearBits r off v).regs = (s.setReg off (s.reg off &&& ~~~(v &&& BitVec.ofNat 32 r.mask))).regs := by
    unfold State.clearBits
    split
    · split <;> rfl
    · rfl
  rw [State.reg, hregs]
  exact State.reg_setReg _ _ _ _

/-! The debug block holds no register. -/

/-- A row whose registers all lie below the debug block, or all above it. -/
def RegRow.offDebug (r : RegRow) : Bool := decide (r.base + r.stride * (r.count - 1) < 0x00C00000) || decide (0x01000000 ≤ r.base)

theorem RegRow.bounds_of_holds {r : RegRow} {off : Nat} (h : r.holds off = true) : r.base ≤ off ∧ off ≤ r.base + r.stride * (r.count - 1) := by
  unfold RegRow.holds at h
  split at h
  · rw [beq_iff_eq] at h
    exact ⟨h.le, h ▸ Nat.le_add_right _ _⟩
  · simp only [Bool.and_eq_true, decide_eq_true_eq, beq_iff_eq] at h
    obtain ⟨⟨hbase, hmod⟩, hdiv⟩ := h
    have hoff : off - r.base = r.stride * ((off - r.base) / r.stride) := (Nat.mul_div_cancel' (Nat.dvd_of_mod_eq_zero hmod)).symm
    have hle : r.stride * ((off - r.base) / r.stride) ≤ r.stride * (r.count - 1) := Nat.mul_le_mul_left _ (Nat.le_sub_one_of_lt hdiv)
    exact ⟨hbase, by omega⟩

theorem regMap_offDebug : regMap.all RegRow.offDebug = true := by decide +kernel

theorem regRow_of_debugBlock {off : Nat} (h : debugBlock off = true) : regRow off = none := by
  obtain ⟨hlow, hhigh⟩ := of_decide_eq_true h
  refine List.find?_eq_none.mpr fun r hr hholds => ?_
  obtain ⟨hbase, hlast⟩ := RegRow.bounds_of_holds hholds
  rcases Bool.or_eq_true_iff.mp (List.all_eq_true.mp regMap_offDebug r hr) with hbelow | habove
  · have := of_decide_eq_true hbelow; omega
  · have := of_decide_eq_true habove; omega

/-- Settles O56: a word write is one register write, which the kind of the register's row decides; the debug block has no row. -/
theorem registerKindsRule : Obligations.RegisterKindsRule := by
  refine ⟨fun fn off v now s hoff hrow => ?_, fun off => regRow_of_debugBlock, fun fn off v now r s hoff hrow hacc => ?_⟩
  · rw [exec_registerWrite, execRegisterWrite, barWrite_word (accessOk_word (regAddr_mod_four hoff fn))]
    rcases hrow with hnone | ⟨r, hrow, hro⟩
    · rw [regWrite_of_none hnone]
    · rw [regWrite_of_ro hrow hro]
  · refine ⟨_, rfl, fun a => ?_⟩
    rw [barWrite_word (accessOk_word (regAddr_mod_four hoff fn)), regWrite_of_w1c hrow hacc, reg_clearBits]
    split
    · next heq => rw [heq]
    · rfl

end Sys2Proof.Machine
end

section
/-! What management requests leave alone (R585 to R601, O57). -/

namespace Sys2Proof.Machine

/-! How a request is answered: whatever holds of the state before it and of the state that its body makes holds of the next state. -/

theorem keeps_ite {P : State → Prop} {p : Prop} [Decidable p] {a b : State} (ha : P a) (hb : P b) : P (if p then a else b) := by
  split
  · exact ha
  · exact hb

section
variable {P : State → Prop} {s t : State} {f : State → State}

theorem keeps_answers (h : s.answers f = .next t) (hs : P s) (hf : P (f s)) : P t := by
  obtain rfl | rfl := s.answers_next f t h
  · exact hs
  · exact hf

theorem keeps_onBinding {vdm : Bool} (h : s.onBinding vdm f = .next t) (hs : P s) (hf : P (f s)) : P t := by
  unfold State.onBinding at h
  split at h
  · exact Host.Outcome.next.inj h ▸ hs
  · exact keeps_answers h hs hf

theorem keeps_afterNegotiation (h : s.afterNegotiation f = .next t) (hs : P s) (herror : P (s.emit (.spdmError 0x04))) (hf : P (f s)) : P t :=
  keeps_answers h hs (keeps_ite hf herror)

theorem keeps_onSession {n : Nat} {b : Bool} (h : s.onSession n b f = .next t) (hs : P s) (herror : P (s.emit (.spdmError 0x02))) (hf : P (f s)) : P t :=
  keeps_answers h hs (keeps_ite hf herror)

theorem keeps_secured {q : Option Nat} {code : Nat} (h : s.secured q code f = .next t) (hs : P s) (herror : P (s.mgmtReply code 6 [])) (hf : P (f s)) : P t :=
  keeps_answers h hs (keeps_ite hf herror)

end

/-! Requests that only ask. -/

/-- The state as it was but for what the device sends. -/
def SendsOnly (s t : State) : Prop := t = { s with out := t.out }

theorem sendsOnly_refl (s : State) : SendsOnly s s := rfl
theorem sendsOnly_emit (s : State) (o : Out) : SendsOnly s (s.emit o) := rfl
theorem sendsOnly_mgmtReply (s : State) (code status : Nat) (data : Bytes) : SendsOnly s (s.mgmtReply code status data) := rfl

section
variable {s t : State}

theorem execGetEndpointId_sendsOnly {v : Bool} (h : execGetEndpointId v s = .next t) : SendsOnly s t :=
  keeps_onBinding h (sendsOnly_refl s) (sendsOnly_emit s _)

theorem execGetMessageTypeSupport_sendsOnly {v : Bool} (h : execGetMessageTypeSupport v s = .next t) : SendsOnly s t :=
  keeps_onBinding h (sendsOnly_refl s) (sendsOnly_emit s _)

theorem execGetVendorDefinedMessageSupport_sendsOnly {v : Bool} (h : execGetVendorDefinedMessageSupport v s = .next t) : SendsOnly s t :=
  keeps_onBinding h (sendsOnly_refl s) (sendsOnly_emit s _)

theorem execGetCapabilities_sendsOnly (h : execGetCapabilities s = .next t) : SendsOnly s t :=
  keeps_answers h (sendsOnly_refl s) (sendsOnly_emit s _)

theorem execGetDigests_sendsOnly (h : execGetDigests s = .next t) : SendsOnly s t :=
  keeps_afterNegotiation h (sendsOnly_refl s) (sendsOnly_emit s _) (sendsOnly_emit s _)

theorem execGetInfo_sendsOnly (h : execGetInfo s = .next t) : SendsOnly s t :=
  keeps_answers h (sendsOnly_refl s) (sendsOnly_mgmtReply s ..)

theorem execGetCertificate_sendsOnly {a b d : Nat} (h : execGetCertificate a b d s = .next t) : SendsOnly s t :=
  keeps_afterNegotiation h (sendsOnly_refl s) (sendsOnly_emit s _) (keeps_ite (sendsOnly_emit s _) (sendsOnly_emit s _))

theorem execGetMeasurements_sendsOnly {n : Nat} (h : execGetMeasurements n s = .next t) : SendsOnly s t :=
  keeps_afterNegotiation h (sendsOnly_refl s) (sendsOnly_emit s _)
    (keeps_ite (sendsOnly_emit s _) (keeps_ite (sendsOnly_emit s _) (keeps_ite (sendsOnly_emit s _) (sendsOnly_emit s _))))

theorem execHeartbeat_sendsOnly {n : Nat} (h : execHeartbeat n s = .next t) : SendsOnly s t :=
  keeps_onSession h (sendsOnly_refl s) (sendsOnly_emit s _) (sendsOnly_emit s _)

theorem execGetPdr_sendsOnly {n : Nat} (h : execGetPdr n s = .next t) : SendsOnly s t :=
  keeps_answers h (sendsOnly_refl s) (keeps_ite (sendsOnly_emit s _) (sendsOnly_emit s _))

theorem execUnitRead_sendsOnly {a b : Nat} (h : execUnitRead a b s = .next t) : SendsOnly s t :=
  keeps_answers h (sendsOnly_refl s) (keeps_ite (sendsOnly_mgmtReply s ..) (sendsOnly_mgmtReply s ..))

theorem execHistRead_sendsOnly {a b : Nat} (h : execHistRead a b s = .next t) : SendsOnly s t :=
  keeps_answers h (sendsOnly_refl s) (keeps_ite (sendsOnly_mgmtReply s ..) (sendsOnly_mgmtReply s ..))

end

/-! Requests that set something of the management controller. -/

/-- The state as it was but for the controller, what the device sends and the counter of free values. -/
def ControllerOnly (s t : State) : Prop := t = { s with mgmt := t.mgmt, out := t.out, fresh := t.fresh }

theorem controllerOnly_refl (s : State) : ControllerOnly s s := rfl
theorem controllerOnly_emit {s t : State} (h : ControllerOnly s t) (o : Out) : ControllerOnly s (t.emit o) := by
  rw [ControllerOnly, h]
  rfl
theorem controllerOnly_setMgmt {s t : State} (h : ControllerOnly s t) (m : Mgmt) : ControllerOnly s { t with mgmt := m } := by
  rw [ControllerOnly, h]
theorem controllerOnly_set (s : State) (m : Mgmt) : ControllerOnly s { s with mgmt := m } := controllerOnly_setMgmt (controllerOnly_refl s) m
theorem controllerOnly_error (s : State) (o : Out) : ControllerOnly s (s.emit o) := rfl
theorem controllerOnly_drawBytes (s : State) (n : Nat) : ControllerOnly s (s.drawBytes n).2 := rfl
theorem controllerOnly_platformEvent {s t : State} (h : ControllerOnly s t) (n data : Nat) : ControllerOnly s (t.platformEvent n data) := by
  unfold State.platformEvent
  split
  · exact controllerOnly_emit h _
  · exact h

section
variable {s t : State}

theorem execSetEndpointId_controllerOnly {v : Bool} {n : Nat} (h : execSetEndpointId v n s = .next t) : ControllerOnly s t :=
  keeps_onBinding h (controllerOnly_refl s) (keeps_ite (controllerOnly_error s _) (controllerOnly_emit (controllerOnly_set s _) _))

theorem execGetMctpVersionSupport_controllerOnly {v : Bool} {n : Nat} (h : execGetMctpVersionSupport v n s = .next t) : ControllerOnly s t :=
  keeps_onBinding h (controllerOnly_refl s) (keeps_ite (controllerOnly_error s _) (controllerOnly_emit (controllerOnly_drawBytes s 4) _))

theorem execGetVersion_controllerOnly (h : execGetVersion s = .next t) : ControllerOnly s t :=
  keeps_answers h (controllerOnly_refl s) (controllerOnly_emit (controllerOnly_set s _) _)

theorem execNegotiateAlgorithms_controllerOnly {a b d e : Bool} (h : execNegotiateAlgorithms a b d e s = .next t) : ControllerOnly s t :=
  keeps_answers h (controllerOnly_refl s) (keeps_ite (controllerOnly_emit (controllerOnly_set s _) _) (controllerOnly_error s _))

theorem execChallenge_controllerOnly {n : Nat} {l : Bytes} (h : execChallenge n l s = .next t) : ControllerOnly s t :=
  keeps_afterNegotiation h (controllerOnly_refl s) (controllerOnly_error s _)
    (keeps_ite (controllerOnly_error s _) (controllerOnly_emit (controllerOnly_drawBytes s 32) _))

theorem execKeyExchange_controllerOnly {n : Nat} (h : execKeyExchange n s = .next t) : ControllerOnly s t :=
  keeps_afterNegotiation h (controllerOnly_refl s) (controllerOnly_error s _)
    (keeps_ite (controllerOnly_error s _) (keeps_ite (controllerOnly_error s _) (controllerOnly_emit (controllerOnly_setMgmt (controllerOnly_drawBytes s 98) _) _)))

theorem execKeyUpdate_controllerOnly {n : Nat} (h : execKeyUpdate n s = .next t) : ControllerOnly s t :=
  keeps_onSession h (controllerOnly_refl s) (controllerOnly_error s _) (controllerOnly_emit (controllerOnly_set s _) _)

theorem execEndSession_controllerOnly {n : Nat} (h : execEndSession n s = .next t) : ControllerOnly s t :=
  keeps_onSession h (controllerOnly_refl s) (controllerOnly_error s _) (controllerOnly_emit (controllerOnly_set s _) _)

theorem execSetEventReceiver_controllerOnly {n : Nat} (h : execSetEventReceiver n s = .next t) : ControllerOnly s t :=
  keeps_answers h (controllerOnly_refl s) (controllerOnly_emit (controllerOnly_set s _) _)

theorem execFinish_controllerOnly {n : Nat} {b : Bool} (h : execFinish n b s = .next t) : ControllerOnly s t :=
  keeps_onSession h (controllerOnly_refl s) (controllerOnly_error s _)
    (keeps_ite (controllerOnly_emit (controllerOnly_set s _) _) (controllerOnly_emit (controllerOnly_set s _) _))

theorem execSetTime_controllerOnly {q : Option Nat} {n : Nat} (h : execSetTime q n s = .next t) : ControllerOnly s t :=
  keeps_secured h (controllerOnly_refl s) (controllerOnly_error s _) (controllerOnly_emit (controllerOnly_set s _) _)

theorem execRequestUpdate_controllerOnly {q : Option Nat} {n : Nat} (h : execRequestUpdate q n s = .next t) : ControllerOnly s t :=
  keeps_answers h (controllerOnly_refl s) (keeps_ite (controllerOnly_error s _) (keeps_ite (controllerOnly_error s _)
    (keeps_ite (controllerOnly_error s _) (controllerOnly_emit (controllerOnly_set s _) _))))

theorem execDebugUnlock_controllerOnly {q : Option Nat} (h : execDebugUnlock q s = .next t) : ControllerOnly s t :=
  keeps_answers h (controllerOnly_refl s) (keeps_ite (controllerOnly_set s _) (controllerOnly_refl s))

theorem execSetFabricKey_controllerOnly {q : Option Nat} {l : Bytes} (h : execSetFabricKey q l s = .next t) : ControllerOnly s t :=
  keeps_secured h (controllerOnly_refl s) (controllerOnly_error s _) (keeps_ite (controllerOnly_error s _) rfl)

theorem execFirmwareVerify_controllerOnly {n : Nat} {a b : Bytes} (h : execFirmwareVerify n a b s = .next t) : ControllerOnly s t :=
  keeps_answers h (controllerOnly_refl s) (keeps_ite (controllerOnly_refl s) (keeps_ite (controllerOnly_emit (controllerOnly_set s _) _)
    (controllerOnly_platformEvent (controllerOnly_emit (controllerOnly_set s _) _) 6 6)))

theorem execUnsupportedMessage_controllerOnly {a b n : Nat} (h : execUnsupportedMessage a b n s = .next t) : ControllerOnly s t :=
  keeps_answers h (controllerOnly_refl s) (keeps_ite (controllerOnly_set s _) (keeps_ite (controllerOnly_error s _)
    (keeps_ite (controllerOnly_error s _) (controllerOnly_refl s))))

end

/-! Unit requests. -/

/-- The state as it was but for the pending actions on units and what the device sends. -/
def ActionsOnly (s t : State) : Prop := t = { s with chk := { s.chk with actions := t.chk.actions }, out := t.out }

theorem actionsOnly_refl (s : State) : ActionsOnly s s := rfl
theorem actionsOnly_refusal (s : State) (status : Nat) : ActionsOnly s (s.mgmtReply 7 status []) := rfl
theorem actionsOnly_enterAction (s : State) (kind unit action : Nat) : ActionsOnly s ((s.enterAction kind unit action).mgmtReply 7 0 []) := rfl

section
variable {s t : State} {q : Option Nat} {k u : Nat}

theorem execUnitRequestFence_actionsOnly (h : execUnitRequestFence q k u s = .next t) : ActionsOnly s t :=
  keeps_secured h (actionsOnly_refl s) (actionsOnly_refusal s 6) (keeps_ite (actionsOnly_refusal s 7) (actionsOnly_enterAction s k u 1))

theorem execUnitRequestRestore_actionsOnly (h : execUnitRequestRestore q k u s = .next t) : ActionsOnly s t :=
  keeps_secured h (actionsOnly_refl s) (actionsOnly_refusal s 6)
    (keeps_ite (actionsOnly_refusal s 7) (keeps_ite (actionsOnly_refusal s 8) (actionsOnly_enterAction s k u 2)))

theorem execUnitRequestClearClass_actionsOnly (h : execUnitRequestClearClass q k u s = .next t) : ActionsOnly s t :=
  keeps_secured h (actionsOnly_refl s) (actionsOnly_refusal s 6) (keeps_ite (actionsOnly_refusal s 7) (actionsOnly_enterAction s k u 3))

end

/-! Sensor readings. -/

/-- The state as it was but for the latched forecast and what the device sends. -/
def ForecastOnly (s t : State) : Prop :=
  t = { s with pwr := { s.pwr with latchedFc := t.pwr.latchedFc, latchedTick := t.pwr.latchedTick, latchedMean := t.pwr.latchedMean }, out := t.out }

theorem forecastOnly_latch (s : State) (p : Prop) [Decidable p] : ForecastOnly s (if p then s.latchForecast else s) := keeps_ite rfl rfl

theorem forecastOnly_emit {s t : State} (h : ForecastOnly s t) (o : Out) : ForecastOnly s (t.emit o) := by
  rw [ForecastOnly, h]
  rfl

theorem execGetSensorReading_forecastOnly {n : Nat} {s t : State} (h : execGetSensorReading n s = .next t) : ForecastOnly s t :=
  keeps_answers h rfl (keeps_ite rfl (forecastOnly_emit (forecastOnly_latch s (n = 7)) _))

/-- Settles O57: each group of requests, command by command. -/
theorem managementFrame : Obligations.ManagementFrame := by
  refine ⟨?_, ?_, ?_, fun n s t => execGetSensorReading_forecastOnly⟩
  · rintro c s t (⟨v, rfl | rfl | rfl⟩ | rfl | rfl | rfl | ⟨a, b, d, rfl⟩ | ⟨n, rfl | rfl | rfl⟩ | ⟨a, b, rfl | rfl⟩) h
    · exact execGetEndpointId_sendsOnly h
    · exact execGetMessageTypeSupport_sendsOnly h
    · exact execGetVendorDefinedMessageSupport_sendsOnly h
    · exact execGetCapabilities_sendsOnly h
    · exact execGetDigests_sendsOnly h
    · exact execGetInfo_sendsOnly h
    · exact execGetCertificate_sendsOnly h
    · exact execGetMeasurements_sendsOnly h
    · exact execHeartbeat_sendsOnly h
    · exact execGetPdr_sendsOnly h
    · exact execUnitRead_sendsOnly h
    · exact execHistRead_sendsOnly h
  · rintro c s t (⟨v, n, rfl | rfl⟩ | rfl | ⟨a, b, d, e, rfl⟩ | ⟨a, l, rfl⟩ | ⟨n, rfl | rfl | rfl | rfl⟩ | ⟨n, b, rfl⟩ | ⟨q, n, rfl | rfl⟩ | ⟨q, rfl⟩ | ⟨q, l, rfl⟩ |
      ⟨n, a, b, rfl⟩ | ⟨a, b, n, rfl⟩) h
    · exact execSetEndpointId_controllerOnly h
    · exact execGetMctpVersionSupport_controllerOnly h
    · exact execGetVersion_controllerOnly h
    · exact execNegotiateAlgorithms_controllerOnly h
    · exact execChallenge_controllerOnly h
    · exact execKeyExchange_controllerOnly h
    · exact execKeyUpdate_controllerOnly h
    · exact execEndSession_controllerOnly h
    · exact execSetEventReceiver_controllerOnly h
    · exact execFinish_controllerOnly h
    · exact execSetTime_controllerOnly h
    · exact execRequestUpdate_controllerOnly h
    · exact execDebugUnlock_controllerOnly h
    · exact execSetFabricKey_controllerOnly h
    · exact execFirmwareVerify_controllerOnly h
    · exact execUnsupportedMessage_controllerOnly h
  · rintro c s t ⟨q, k, u, rfl | rfl | rfl⟩ h
    · exact execUnitRequestFence_actionsOnly h
    · exact execUnitRequestRestore_actionsOnly h
    · exact execUnitRequestClearClass_actionsOnly h

end Sys2Proof.Machine
end

section
/-! What clock, shed, link, ring and selector commands leave alone (O58). -/

namespace Sys2Proof.Machine

/-! Clock selection and SHED. -/

theorem reg_event_ne {s : State} {off a : Nat} (h : a ≠ off) (i : Nat) : (s.event off i).reg a = s.reg a := State.reg_setReg_ne _ _ h

/-- Whatever next state an outcome answers, `P` holds of it. -/
def Keeps (P : State → Prop) (o : Host.Outcome State Fault Refusal) : Prop := ∀ t, o = .next t → P t

theorem Keeps.next {P : State → Prop} {s : State} (h : P s) : Keeps P (.next s) := fun _ e => Host.Outcome.next.inj e ▸ h

theorem Keeps.ite {P : State → Prop} {p : Prop} [Decidable p] {a b : Host.Outcome State Fault Refusal} (ha : Keeps P a) (hb : Keeps P b) :
    Keeps P (if p then a else b) := by
  split
  · exact ha
  · exact hb

/-- The state as it was but for the source of the clock, CLK_CTRL and CLK_EVENT. -/
def ClockOnly (s t : State) : Prop :=
  t = { s with regs := t.regs, clk := { s.clk with source := t.clk.source } } ∧ ∀ a, a ≠ Reg.CLK_CTRL → a ≠ Reg.CLK_EVENT → t.reg a = s.reg a

theorem execClkSelect_clockOnly (v : W32) (s : State) : Keeps (ClockOnly s) (execClkSelect v s) := by
  have hctrl {a : Nat} (h : a ≠ Reg.CLK_CTRL) : (s.setRegN Reg.CLK_CTRL (v.toNat % 2)).reg a = s.reg a := State.reg_setReg_ne _ _ h
  refine .ite (.next ⟨rfl, fun a ha hevent => ?_⟩) (.ite (.next ⟨rfl, fun a ha _ => hctrl ha⟩) (.next ⟨rfl, fun a ha hevent => ?_⟩))
  · exact (reg_event_ne hevent 6).trans (hctrl ha)
  · exact (reg_event_ne hevent 2).trans (hctrl ha)

/-- The state as it was but for the shed state, PWR_CAP_NOW and PWR_EVENT. -/
def ShedOnly (s t : State) : Prop :=
  t = { s with regs := t.regs, pwr := { s.pwr with shed := t.pwr.shed, capLow := t.pwr.capLow } } ∧ ∀ a, a ≠ Reg.PWR_CAP_NOW → a ≠ Reg.PWR_EVENT → t.reg a = s.reg a

namespace ShedOnly
variable {s t : State}

theorem refl (s : State) : ShedOnly s s := ⟨rfl, fun _ _ _ => rfl⟩

theorem setReg (h : ShedOnly s t) {off : Nat} (hoff : off = Reg.PWR_CAP_NOW ∨ off = Reg.PWR_EVENT) (v : W32) : ShedOnly s (t.setReg off v) := by
  obtain ⟨hstate, hregs⟩ := h
  refine ⟨?_, fun a hcap hevent => (State.reg_setReg_ne _ v ?_).trans (hregs a hcap hevent)⟩
  · rw [hstate]
    rfl
  · rcases hoff with rfl | rfl
    · exact hcap
    · exact hevent

theorem setShed (h : ShedOnly s t) (b : Bool) : ShedOnly s (t.modPwr (fun p => { p with shed := b })) := by
  obtain ⟨hstate, hregs⟩ := h
  refine ⟨?_, hregs⟩
  rw [hstate]
  rfl

theorem setCapLow (h : ShedOnly s t) (b : Bool) : ShedOnly s (t.modPwr (fun p => { p with capLow := b })) := by
  obtain ⟨hstate, hregs⟩ := h
  refine ⟨?_, hregs⟩
  rw [hstate]
  rfl

theorem showCap (h : ShedOnly s t) : ShedOnly s t.showCap := by
  have hcap : ShedOnly s (t.setRegN Reg.PWR_CAP_NOW (t.rawCap.2 * 65536 + max 400 t.rawCap.1)) := h.setReg (.inl rfl) _
  refine ShedOnly.setCapLow ?_ _
  unfold State.eventIf
  split
  · exact hcap.setReg (.inr rfl) _
  · exact hcap

end ShedOnly

theorem execShedAssert_shedOnly (s : State) : Keeps (ShedOnly s) (execShedAssert s) :=
  .ite (.next (.refl s)) (.next (((ShedOnly.refl s).setShed true).setReg (.inr rfl) _).showCap)

theorem execShedRelease_shedOnly (s : State) : Keeps (ShedOnly s) (execShedRelease s) :=
  .next ((ShedOnly.refl s).setShed false).showCap

/-! Links. -/

/-- The registers that a link's commands may write: its delay, its uncorrectable count, the fabric's events and the two drop counts. -/
def linkRegs (l : Nat) : List Nat := [Reg.FAB_LINK_DELAY l, Reg.FAB_LINK_UE l, Reg.FAB_EVENT, Reg.FAB_DROP_CRC, Reg.FAB_DROP_STALE]

/-- The state as it was but for link `l`, its registers and what the device sends. -/
def LinkOnly (l : Nat) (s t : State) : Prop :=
  t = { s with regs := t.regs, links := t.links, out := t.out } ∧ (∀ k, k ≠ l → t.link k = s.link k) ∧ ∀ a ∉ linkRegs l, t.reg a = s.reg a

namespace LinkOnly
variable {l : Nat} {s t : State}

theorem refl (s : State) : LinkOnly l s s := ⟨rfl, fun _ _ => rfl, fun _ _ => rfl⟩

theorem setReg (h : LinkOnly l s t) {off : Nat} (hoff : off ∈ linkRegs l) (v : W32) : LinkOnly l s (t.setReg off v) := by
  obtain ⟨hstate, hlinks, hregs⟩ := h
  refine ⟨?_, hlinks, fun a ha => (State.reg_setReg_ne _ v (ne_of_mem_of_not_mem hoff ha).symm).trans (hregs a ha)⟩
  rw [hstate]
  rfl

theorem count (h : LinkOnly l s t) {off : Nat} (hoff : off ∈ linkRegs l) : LinkOnly l s (t.count off) := h.setReg hoff _

theorem event (h : LinkOnly l s t) (i : Nat) : LinkOnly l s (t.event Reg.FAB_EVENT i) := h.setReg (by simp [linkRegs]) _

theorem eventIf (h : LinkOnly l s t) (b : Bool) (i : Nat) : LinkOnly l s (t.eventIf b Reg.FAB_EVENT i) := by
  unfold State.eventIf
  split
  · exact h.event i
  · exact h

theorem modLink (h : LinkOnly l s t) (f : Link → Link) : LinkOnly l s (t.modLink l f) := by
  obtain ⟨hstate, hlinks, hregs⟩ := h
  refine ⟨?_, fun k hk => (State.link_modLink_ne t l f hk).trans (hlinks k hk), hregs⟩
  rw [hstate]
  rfl

theorem emit (h : LinkOnly l s t) (o : Out) : LinkOnly l s (t.emit o) := by
  obtain ⟨hstate, hlinks, hregs⟩ := h
  refine ⟨?_, hlinks, hregs⟩
  rw [hstate]
  rfl

theorem ite {p : Prop} [Decidable p] {u : State} (h : LinkOnly l s t) (hu : LinkOnly l s u) : LinkOnly l s (if p then t else u) := by
  split
  · exact h
  · exact hu

theorem landed (h : LinkOnly l s t) (p : Packet) : LinkOnly l s (t.landed l p) := h.ite (h.modLink _)

theorem sendSync (h : LinkOnly l s t) (t1 t2 t3 t4 : Int) : LinkOnly l s (t.sendSync l t1 t2 t3 t4) := (h.emit _).ite h

theorem accept (h : LinkOnly l s t) (b : Bytes) : LinkOnly l s (t.accept l b).1 := by
  unfold State.accept
  split
  · exact h
  · split
    · exact h.count (by simp [linkRegs])
    · dsimp only
      split
      · exact (h.landed _).count (by simp [linkRegs])
      · exact h.landed _

theorem takePacket (h : LinkOnly l s t) (b : Bytes) (op : Nat) {f : Packet → State → State} (hf : ∀ p u, LinkOnly l s u → LinkOnly l s (f p u)) :
    LinkOnly l s (t.takePacket l b op f) := by
  have haccept := h.accept b
  unfold State.takePacket
  split
  · next heq =>
    rw [heq] at haccept
    exact haccept
  · next heq =>
    rw [heq] at haccept
    exact haccept.ite ((haccept.count (by simp [linkRegs])).ite (hf _ _ haccept))

end LinkOnly

section
variable (l : Fin 24) (s : State)

theorem execLinkDown_linkOnly : Keeps (LinkOnly l s) (execLinkDown l s) := .next (((LinkOnly.refl s).modLink _).event 4)

theorem execLinkTrainingDone_linkOnly (failure delay16 : Nat) (sent : Int) : Keeps (LinkOnly l s) (execLinkTrainingDone l failure delay16 sent s) := by
  unfold execLinkTrainingDone
  extract_lets k late reason trained delayed
  have htrained : LinkOnly l s trained := (LinkOnly.refl s).modLink _
  have hdelayed : LinkOnly l s delayed := (htrained.setReg (by simp [linkRegs, k]) _).ite htrained
  exact .next ((hdelayed.sendSync 0 0 sent 0).ite hdelayed)

theorem execHello_linkOnly (b : Bytes) : Keeps (LinkOnly l s) (execHello l b s) := by
  refine .next ((LinkOnly.refl s).takePacket b 0x07 fun p u hu => ?_)
  exact (hu.count (by simp [linkRegs])).ite (((hu.modLink _).eventIf _ 2).eventIf _ 3)

theorem execCodewordUncorrectable_linkOnly : Keeps (LinkOnly l s) (execCodewordUncorrectable l s) :=
  .next ((LinkOnly.refl s).count (by simp [linkRegs]))

end

/-! Ring sets. -/

/-- The state as it was but for ring set `fn`, registers and what the device sends. -/
def RingOnly (fn : Nat) (s t : State) : Prop := t = { s with regs := t.regs, rings := t.rings, out := t.out } ∧ ∀ g, g ≠ fn → t.ring g = s.ring g

namespace RingOnly
variable {fn : Nat} {s t : State}

theorem refl (s : State) : RingOnly fn s s := ⟨rfl, fun _ _ => rfl⟩

theorem setReg (h : RingOnly fn s t) (off : Nat) (v : W32) : RingOnly fn s (t.setReg off v) := by
  obtain ⟨hstate, hrings⟩ := h
  refine ⟨?_, hrings⟩
  rw [hstate]
  rfl

theorem emit (h : RingOnly fn s t) (o : Out) : RingOnly fn s (t.emit o) := by
  obtain ⟨hstate, hrings⟩ := h
  refine ⟨?_, hrings⟩
  rw [hstate]
  rfl

theorem modRing (h : RingOnly fn s t) (f : Ring → Ring) : RingOnly fn s (t.modRing fn f) := by
  obtain ⟨hstate, hrings⟩ := h
  refine ⟨?_, fun g hg => (State.ring_modRing_ne t fn f hg).trans (hrings g hg)⟩
  rw [hstate]
  rfl

theorem ite {p : Prop} [Decidable p] {u : State} (h : RingOnly fn s t) (hu : RingOnly fn s u) : RingOnly fn s (if p then t else u) := by
  split
  · exact h
  · exact hu

theorem ringError (h : RingOnly fn s t) (reason : Nat) : RingOnly fn s (t.ringError fn reason) := (h.modRing _).setReg _ _

theorem signal (h : RingOnly fn s t) (v : Nat) : RingOnly fn s (t.signal fn v) := (h.setReg _ _).ite (h.emit _)

theorem loseEvent (h : RingOnly fn s t) : RingOnly fn s (t.loseEvent fn) := (h.setReg _ _).setReg _ _

theorem holdEntry (h : RingOnly fn s t) (e : RingEntry) : RingOnly fn s (t.holdEntry fn e) := by
  unfold State.holdEntry
  extract_lets r dropped
  refine (h.modRing _).ite ?_
  split
  · exact (h.modRing _).loseEvent
  · exact h.modRing _

theorem holdEntries (h : RingOnly fn s t) (l : List RingEntry) : RingOnly fn s (t.over l (fun u e => u.holdEntry fn e)) := by
  induction l generalizing t with
  | nil => exact h
  | cons e l ih => exact ih (h.holdEntry e)

theorem disableRing (h : RingOnly fn s t) : RingOnly fn s (t.disableRing fn) := (h.modRing _).holdEntries _

end RingOnly

section
variable (fn : Fin 17) (s : State)

theorem execRingEnable_ringOnly : Keeps (RingOnly fn s) (execRingEnable fn s) := by
  have hctrl : RingOnly fn s (s.setRegN (Reg.RING_CTRL fn) 1) := (RingOnly.refl s).setReg _ _
  exact .ite (.next (.refl s)) (.ite (.next (hctrl.ringError 4)) (.ite (.next (hctrl.modRing _)) (.next (hctrl.ringError 1))))

theorem execRingDisable_ringOnly : Keeps (RingOnly fn s) (execRingDisable fn s) :=
  .next (RingOnly.disableRing ((RingOnly.refl s).setReg _ _))

theorem execIrqTimer_ringOnly (v : Fin 2) : Keeps (RingOnly fn s) (execIrqTimer fn v s) :=
  .ite (.next (.refl s)) (.next (((RingOnly.refl s).modRing _).signal v))

end

/-! Permutes and the selector. -/

theorem execFabPermAtWrite_frame {c : Fin 16} {v : W32} {s t : State} (h : execFabPermAtWrite c v s = .next t) :
    t = { s with regs := t.regs, ctxs := t.ctxs } ∧ (∀ d, d ≠ c.val → t.ctx d = s.ctx d) ∧
      ∀ a, a ≠ Reg.FAB_PERM_AT c → a ≠ Reg.FAB_PERM_EVENT c → t.reg a = s.reg a := by
  unfold execFabPermAtWrite at h
  dsimp only at h
  split at h
  · obtain rfl := Host.Outcome.next.inj h
    exact ⟨rfl, fun _ _ => rfl, fun a _ hevent => reg_event_ne hevent 5⟩
  · obtain rfl := Host.Outcome.next.inj h
    exact ⟨rfl, fun d hd => State.ctx_modCtx_ne _ _ _ hd, fun a hat _ => State.reg_setReg_ne _ v hat⟩

theorem execCtxSelectHiWrite_sets {v : W32} {s t : State} (h : execCtxSelectHiWrite v s = .next t) :
    ∃ w : W64, t = (s.setReg Reg.CTX_SELECT_HI v).modTick (fun k => { k with select := w }) := by
  unfold execCtxSelectHiWrite at h
  exact ⟨_, (Host.Outcome.next.inj h).symm⟩

theorem execCtxSelectHiWrite_frame {v : W32} {s t : State} (h : execCtxSelectHiWrite v s = .next t) :
    t = { s with regs := t.regs, tick := { s.tick with select := t.tick.select } } ∧ ∀ a, a ≠ Reg.CTX_SELECT_HI → t.reg a = s.reg a := by
  obtain ⟨w, rfl⟩ := execCtxSelectHiWrite_sets h
  exact ⟨rfl, fun a ha => State.reg_setReg_ne _ v ha⟩

/-- Settles O58: command by command, each by what the state operations that it makes leave alone. -/
theorem registerCommandsFrame : Obligations.RegisterCommandsFrame := by
  refine ⟨fun v s t => execClkSelect_clockOnly v s t, ?_, ?_, ?_, fun c v s t => execFabPermAtWrite_frame, fun v s t => execCtxSelectHiWrite_frame⟩
  · rintro c s t (rfl | rfl) h
    · exact execShedAssert_shedOnly s t h
    · exact execShedRelease_shedOnly s t h
  · intro c l s t hc h
    have hlink : LinkOnly l s t := by
      rcases hc with rfl | ⟨f, d, n, rfl⟩ | ⟨b, rfl⟩ | rfl
      · exact execLinkDown_linkOnly l s t h
      · exact execLinkTrainingDone_linkOnly l s f d n t h
      · exact execHello_linkOnly l s b t h
      · exact execCodewordUncorrectable_linkOnly l s t h
    obtain ⟨hstate, hlinks, hregs⟩ := hlink
    refine ⟨hstate, hlinks, fun a hdelay hue hevent hcrc hstale => hregs a ?_⟩
    simp only [linkRegs, List.mem_cons, List.not_mem_nil, or_false, not_or]
    exact ⟨hdelay, hue, hevent, hcrc, hstale⟩
  · rintro c fn s t (rfl | rfl | ⟨v, rfl⟩) h
    · exact execRingEnable_ringOnly fn s t h
    · exact execRingDisable_ringOnly fn s t h
    · exact execIrqTimer_ringOnly fn s v t h

end Sys2Proof.Machine
end

section
/-! The tick's packets, notices and deadlines (chapters 1, 2, 11, 13; O10, O11, O12, O13, O14). -/

namespace Sys2Proof.Machine

/-! A packet that is delivered does what its command's body does, on the state in which it has landed. -/

section
variable {s t u : State} {l : Nat} {b : Bytes} {op ty : Nat} {p : Packet}

theorem next_takePacket {f : Packet → State → State} (h : Delivers s l b op p) (hu : u = s.landed l p) (hf : f p u = t) :
    Host.Outcome.next (ρ := Refusal) (φ := Fault) (s.takePacket l b op f) = .next t := by
  rw [takePacket_delivers f h, ← hu, hf]

theorem next_takeMsg {f : Bytes → State → State} (h : Delivers s l b 0x18 p) (hu : u = s.landed l p) (hty : u16 p.payload 0 = ty) (hf : f p.payload u = t) :
    Host.Outcome.next (ρ := Refusal) (φ := Fault) (s.takeMsg l b ty f) = .next t := by
  rw [takeMsg_delivers f h hty, ← hu, hf]

end

/-! Tick packets (R20 to R25, R28). -/

/-- A packet for a tick to come, of which none is held yet, goes on to the children and is used. -/
theorem takeTick_first {u v : State} {l : Option Nat} {b : Bytes} (hrun : u.tick.run ≠ .stopped) (hfirst : u.tick.firstTick ≤ u.tick.now) (hok : tickPacketOk b = true)
    (hterm : u.tick.term ≤ pkTerm b) (hnow : u.tick.now < pkTick b) (hnone : u.tick.packets.find? (fun q => q.1 == pkTick b) = none)
    (hv : v = (if l = some u.parent ∧ pkTick b = u.tick.now + 2 then u.modTick (fun t => { t with primaryCopy := true }) else u)) :
    u.takeTick l b = ((v.forwardTick b).usePacket b).tryReply false := by
  unfold State.takeTick
  extract_lets t k v' w
  have hw : w = (v.forwardTick b).usePacket b := by
    unfold w
    rw [hnone, hv]
  rw [if_neg (by simp [t, hrun, hok]; omega), if_neg (Nat.not_le.mpr hnow), hw]

/-- The first copy of a packet whose tick has begun is only sent on. -/
theorem takeTick_passed {u : State} {l : Option Nat} {b : Bytes} (hrun : u.tick.run ≠ .stopped) (hfirst : u.tick.firstTick ≤ u.tick.now) (hok : tickPacketOk b = true)
    (hterm : u.tick.term ≤ pkTerm b) (hnow : pkTick b ≤ u.tick.now) (hpassed : u.tick.passed.contains (pkTick b) = false)
    (hnone : u.tick.packets.any (fun q => q.1 == pkTick b) = false) :
    u.takeTick l b = (u.forwardTick b).modTick (fun t => { t with passed := pkTick b :: t.passed }) := by
  unfold State.takeTick
  extract_lets t k
  rw [if_neg (by simp [t, hrun, hok]; omega), if_pos hnow, if_neg]
  rw [hpassed, hnone]
  simp

/-- A child's first valid reply for the current reply tick is merged (R26). -/
theorem execReply_merges {s u : State} {l : Fin 24} {b : Bytes} {p : Packet} (h : Delivers s l b 0x03 p) (hu : u = s.landed l p) (hok : replyOk p.payload = true)
    (hrun : u.tick.run ≠ .stopped) (hreplied : u.tick.replied = false) (htick : u64 p.payload 0 = u.tick.replyTick) (hheard : u.tick.heard.contains l.val = false)
    (hchild : (u.children ++ u.backupChildren).contains l.val = true) :
    exec (.reply l b) s = .next (({ u with tick := { u.tick with
      ready := u.tick.ready &&& u16 p.payload 8
      poison := u.tick.poison ||| u16 p.payload 10
      count := (u.tick.count + u32 p.payload 12) % 2 ^ 32
      flags := u.tick.flags ||| byteAt p.payload 16
      heard := u.tick.heard ++ [l.val] } } : State).tryReply false) := by
  refine next_takePacket h hu ?_
  dsimp only
  rw [hok, Bool.not_true, if_neg Bool.false_ne_true, if_neg (by simp only [hrun, hreplied, htick, hheard, hchild]; simp)]
  rfl

/-! Notices (R28, R36, R357). -/

section
variable {s u : State} {l : Fin 24} {b : Bytes} {p : Packet}

theorem execSilence_keeps (h : Delivers s l b 0x08 p) (hu : u = s.landed l p) (hlen : p.payload.length = 2) (hmaster : u.tick.master = true)
    (hnow : u.tick.now ≤ p.arg) :
    exec (.silence l b) s = .next { u with tick := { u.tick with silence := u.tick.silence ++ [(u16 p.payload 0, p.arg)] } } :=
  next_takePacket h hu ((if_neg (not_not.mpr hlen)).trans (if_pos ⟨hmaster, hnow⟩))

theorem execPresenceNotice_keeps (h : Delivers s l b 0x18 p) (hu : u = s.landed l p) (hlen : p.payload.length = 16) (hty : u16 p.payload 0 = 3)
    (hzero2 : zeroAt p.payload 2 2 = true) (hzero6 : zeroAt p.payload 6 2 = true) (hmaster : u.tick.master = true) (hnow : u.tick.now ≤ u64 p.payload 8) :
    exec (.presenceNotice l b) s = .next { u with tick := { u.tick with presence := u.tick.presence ++ [(u16 p.payload 4, u64 p.payload 8)] } } :=
  next_takeMsg h hu hty ((if_neg (by simp [hlen, hzero2, hzero6])).trans (if_pos ⟨hmaster, hnow⟩))

theorem execVoteNotice_notes (h : Delivers s l b 0x18 p) (hu : u = s.landed l p) (hlen : p.payload.length = 16) (hty : u16 p.payload 0 = 1)
    (hctx : byteAt p.payload 2 < 16) (hzero : byteAt p.payload 3 = 0) (hmaster : u.tick.master = true) :
    exec (.voteNotice l b) s = .next (u.noteVote (byteAt p.payload 2) (u32 p.payload 4) (BitVec.ofNat 64 (u64 p.payload 8))) :=
  next_takeMsg h hu hty ((if_neg (by simp [voteNoticeOk, hlen, hty, hctx, hzero])).trans (if_pos hmaster))

/-- The deputy keeps the master's merged reply, votes, notices and selector, and takes the tick packet within. -/
theorem execTstate_keeps {vs ns : List Bytes} (h : Delivers s l b 0x04 p) (hu : u = s.landed l p) (hparse : parseMasterState p.payload = some (vs, ns))
    (hdeputy : u.tick.deputy = true) (hrun : u.tick.run ≠ .stopped) : ∃ v : State,
    v = (u.modTick (fun t => t.takeMerged u.oldestStep (u64 p.payload 0) (u16 p.payload 8) (u16 p.payload 10) (u32 p.payload 12) (byteAt p.payload 16))).over
      vs State.takeVoteNotice ∧
    exec (.tstate l b) s = .next (({ v with tick := { v.tick with notices := ns, select := BitVec.ofNat 64 (u64 p.payload 96) } } : State).takeTick none
      (slice p.payload 32 64)) := by
  refine ⟨_, rfl, next_takePacket h hu ?_⟩
  simp only [hparse]
  exact if_neg (by simp [hdeputy, hrun])

end

/-- Settles O10: each packet's delivery, and what its command does with it. -/
theorem tickPacketsComplete : Obligations.TickPacketsComplete := by
  refine ⟨fun l b p s u h hu hrun hfirst hok hterm => ⟨fun hnow hnone => ⟨_, rfl, ?_⟩, fun hnow hpassed hnone => ?_⟩, ?_, ?_, ?_, ?_, ?_⟩
  · exact next_takePacket h hu (takeTick_first hrun hfirst hok hterm hnow hnone rfl)
  · exact next_takePacket h hu (takeTick_passed hrun hfirst hok hterm hnow hpassed hnone)
  · exact fun _ _ _ _ _ => execReply_merges
  · exact fun _ _ _ _ _ => execSilence_keeps
  · exact fun _ _ _ _ _ => execPresenceNotice_keeps
  · exact fun _ _ _ _ _ => execVoteNotice_notes
  · exact fun _ _ _ _ _ _ _ => execTstate_keeps

/-- Settles O11: the vote's key decides whether it is held. -/
theorem noteVoteRule : Obligations.NoteVoteRule :=
  ⟨fun _ _ _ _ hheld => if_pos hheld, fun _ _ _ _ hnone => if_neg (Bool.eq_false_iff.mp hnone)⟩

/-! Deadlines (R30, R36, R92, R357, R369). -/

section
variable {s : State}

theorem execTickBoundary_begins {k : Nat} (env : BoundaryEnv) (h : s.tick.now < k) : ∃ u v : State,
    u = (if s.tick.run = .running ∨ s.tick.run = .adrift then s.endTick env else s) ∧
    v = ({ u with tick := { u.tick with
      now := k, timebase := u.boundaryTime k, tree := some (u.reg Reg.TCK_TREE)
      primarySilent := decide (s.tick.run = .running ∨ s.tick.run = .adrift) && !u.tick.primaryCopy, primaryCopy := false
      packets := u.tick.packets.filter (fun p => decide (k ≤ p.1))
      passed := (u.tick.packets.filter (fun p => decide (p.1 < k))).map (·.1) ++ (u.tick.passed.filter (fun p => decide (k ≤ p + 4))) } } : State).expireCredits env ∧
    exec (.tickBoundary k env) s = .next (if v.tick.run = .stopped then v.idleTick else v.beginTick) :=
  ⟨_, _, rfl, rfl, if_neg (Nat.not_le.mpr h)⟩

theorem execChildReplyTimeout_merges {l : Fin 24} (hrun : s.tick.run ≠ .stopped) (hreplied : s.tick.replied = false) (hheard : s.tick.heard.contains l.val = false)
    (hchild : s.children.contains l.val = true) : ∃ u v : State,
    u = ({ s with tick := { s.tick with ready := 0, heard := s.tick.heard ++ [l.val] } } : State).event Reg.TCK_EVENT 7 ∧
    v = u.sendRouted (u.mkPacket 0x08 0 u.masterAddr none u.tick.now 0 (toLe 2 ((u.recordAddr l).getD 0xFFFF))) ∧
    exec (.childReplyTimeout l) s = .next (v.tryReply (v.children.all v.tick.heard.contains)) :=
  ⟨_, _, rfl, rfl, if_neg (by simp only [hrun, hreplied, hheard, hchild]; decide)⟩

theorem execDeputyTakeover_composes (hdeputy : s.tick.deputy = true) (hrun : s.tick.run ≠ .stopped) (hfirst : s.tick.firstTick ≤ s.tick.now)
    (hnone : s.tick.packets.any (fun p => p.1 == s.tick.now + 2) = false) :
    exec .deputyTakeover s = .next (({ s with tick := { s.tick with
      master := true, deputy := false, term := max s.tick.term s.tick.seenTerm + 1, leader := some s.addr
      watch := some (s.masterAddr, s.tick.now + 2), mergedTick := none } } : State).compose (s.tick.now + 2) true true) :=
  if_neg (by simp only [hdeputy, hrun, hnone]; simp [hfirst])

theorem execAdriftLimit_stops (hrun : s.tick.run = .adrift) (hadrift : 3 ≤ s.tick.adriftRun) :
    exec .adriftLimit s = .next { s with tick := { s.tick with stopNext := true } } :=
  congrArg Host.Outcome.next (if_pos ⟨hrun, hadrift⟩)

theorem execVoteDeadline_notes {c : Fin 16} (hmaster : s.tick.master = true) (hloaded : s.loaded c = true) (hopen : (s.hasp c).stepOpen = true)
    (hperm : (s.ctx c).perm.state < 2) (hstep : s.stepLen c ≤ (s.hasp c).stepTick + 2) :
    exec (.voteDeadline c) s = .next (s.noteVote c (s.hasp c).stepEpoch 0xFFFFFFFFFFFFFFFF#64) :=
  if_neg (by simp only [hmaster, hloaded, hopen]; simp; omega)

theorem execCommitDeadline_notes {c : Fin 16} (hmaster : s.tick.master = true) (hloaded : s.loaded c = true) (hruns : (s.view c).runs = true)
    (hopen : (s.view c).stepOpen = true) (hepoch : (s.view c).stepEpoch = (s.view c).epoch + 2) (hindex : 2 ≤ (s.view c).index s.tick.now)
    (hannounced : s.announced c = false) :
    exec (.commitDeadline c) s = .next { s with tick := { s.tick with
      due := s.tick.due.filter (fun (x : Due) => x.ctx != c.val || (x.cmd != .rollback && x.cmd != .none)) ++
        [⟨c, (s.missedChoice s.tick.now c (s.view c)).cmd, (s.missedChoice s.tick.now c (s.view c)).arg, (s.missedChoice s.tick.now c (s.view c)).deadline⟩] } } :=
  if_neg (by simp only [hmaster, hloaded, hruns, hopen, hepoch, hannounced]; simp; omega)

theorem execPermuteLimit_notes {c : Fin 16} (hmaster : s.tick.master = true) (hperm : 2 ≤ (s.ctx c).perm.state)
    (hlimit : (s.ctx c).perm.startTick + s.regN (Reg.FAB_PERM_CTRL c) / 65536 ≤ s.tick.now)
    (hready : (bit s.tick.mergedReady c && decide ((s.hasp c).gate ≤ s.tick.mergedTick.getD 0)) = false) :
    exec (.permuteLimit c) s = .next { s with tick := { s.tick with
      due := s.tick.due.filter (fun d => d.ctx != c.val || d.cmd != .rollback) ++
        [⟨c, .rollback, (s.hasp c).epoch, (s.ctx c).perm.startTick + s.regN (Reg.FAB_PERM_CTRL c) / 65536⟩] } } :=
  if_neg (by simp only [hmaster, hready]; simp; omega)

theorem execDeathDeclared_declares {a : Nat} (hmaster : s.tick.master = true) (hsilent : 3 ≤ s.silent a) (halive : s.tick.dead.contains a = false) :
    exec (.deathDeclared a) s = .next (s.declareDead a) :=
  congrArg Host.Outcome.next (if_pos ⟨hmaster, hsilent, by rw [halive]; rfl⟩)

theorem execDeathDeclared_idles {a : Nat} (h : ¬(s.tick.master = true ∧ 3 ≤ s.silent a ∧ s.tick.dead.contains a = false)) :
    exec (.deathDeclared a) s = .next s :=
  congrArg Host.Outcome.next (if_neg fun ⟨hmaster, hsilent, halive⟩ => h ⟨hmaster, hsilent, by simpa using halive⟩)

end

/-- Settles O12, deadline by deadline. -/
theorem tickDeadlinesComplete : Obligations.TickDeadlinesComplete := by
  refine ⟨fun k env s h => if_pos h, fun k env s h => execTickBoundary_begins env h, ?_, ?_, ?_, fun s h => congrArg Host.Outcome.next (if_neg h), ?_, ?_, ?_, ?_⟩
  · exact fun _ _ => execChildReplyTimeout_merges
  · exact fun _ => execDeputyTakeover_composes
  · exact fun _ => execAdriftLimit_stops
  · exact fun _ _ => execVoteDeadline_notes
  · exact fun _ _ => execCommitDeadline_notes
  · exact fun _ _ => execPermuteLimit_notes
  · exact fun a s => ⟨fun ⟨hmaster, hsilent, halive⟩ => execDeathDeclared_declares hmaster hsilent halive, execDeathDeclared_idles⟩

/-! Offset measurements (R58, R59). -/

theorem State.measureOffset_eq (u : State) {t1 t2 t3 t4 o : Int} (ho : o = ((t2 - t1) - (t4 - t3)) / 2) :
    u.measureOffset t1 t2 t3 t4 = { u with tick := { u.tick with
      offsetNs := o
      offsetOk := decide (o.natAbs ≤ 655360)
      straggler := decide (655360 < o.natAbs ∧ o.natAbs ≤ 65536000) || (u.tick.straggler && decide (65536000 < o.natAbs))
      slew := if 65536000 < o.natAbs then 0 else o
      stepPending := if 65536000 < o.natAbs then some o else none } } := by
  unfold State.measureOffset
  rw [← ho]
  rfl

/-- Settles O13: who sent the TSYNC decides what becomes of it. -/
theorem offsetMeasureRule : Obligations.OffsetMeasureRule := by
  refine ⟨?_, ?_, fun sent s => ⟨fun l hparent => ?_, fun hparent => ?_⟩⟩
  · intro l b p t4 sent t1 t2 t3 o s u h hu hlen hparent ht1 ht2 ht3 ho
    refine next_takePacket h hu ((if_neg (not_not.mpr hlen)).trans ((if_pos hparent).trans ?_))
    rw [← State.measureOffset_eq u ho, ht1, ht2, ht3]
  · intro l b p arrival sent s u h hu hlen hparent hchild
    exact next_takePacket h hu ((if_neg (not_not.mpr hlen)).trans ((if_neg hparent).trans (if_pos hchild)))
  · rw [exec_offsetMeasure, execOffsetMeasure, hparent]
  · rw [exec_offsetMeasure, execOffsetMeasure, hparent]

/-! The streams of a failover. -/

/-- A plan image of one LEDGER region: kind 6 (the late ledger), 32 bytes at the base of the LPDDR partition. -/
def lateImage : Bytes := toLe 8 16 ++ toLe 8 1 ++ toLe 8 0x0406 ++ toLe 8 0 ++ toLe 8 32 ++ toLe 8 0

/-- Context 0 WITHHELD under the image of a late ledger that begins where its guard record does, with an armed guard (state 1) and one complete stream expected of it. -/
def lateOverGuard : State :=
  let s := State.reset.modCtx 0 (fun x =>
    { x with image := lateImage, twin := { x.twin with guard := { state := 1 } }, hasp := { x.hasp with phase := .withheld, epoch := 1 } })
  { (s.setRegN Reg.FAB_ADDR 0).setRegN Reg.MEM_LP_GUARD 0x10000 with
    fabric := { s.fabric with inForce := { place := [(100, 0)] }, expects := [⟨1, 0, ⟨1, 4, 0, 0⟩, 0, []⟩] } }

/-- How many committed late entries context 0 holds in an outcome. -/
def lateHeld : Host.Outcome State Fault Refusal → Nat
  | .next t => (t.ctx 0).lateCommitted.length
  | _ => 0

/-- Refutes O14: the device reads the late ledger as it was before the guard is settled, and the statement as it is after; where the guard's record lies in the ledger's
region, settling it writes the count of entries, and the two differ. -/
theorem not_failoverCompletes : ¬ Obligations.FailoverCompletes := by
  intro h
  obtain ⟨u, hu, hexec⟩ := h 0 lateOverGuard (by decide +kernel) (by decide +kernel) (by decide +kernel)
  have hdevice : lateHeld (exec (.failoverStreamComplete 0) lateOverGuard) = 0 := by decide +kernel
  have hclaim : lateHeld (.next { u with fabric := { u.fabric with expects := u.fabric.expects.filter (fun x => !(x.ctx == (0 : Fin 16).val && x.kind == 1)) } }) = 1 := by
    subst hu
    decide +kernel
  rw [hexec, hclaim] at hdevice
  exact absurd hdevice (by decide)

end Sys2Proof.Machine
end

section
/-! Records that their unit admits run, act and retire (chapters 4 to 7, 12, 14; O15 to O19, O22, O23). -/

namespace Sys2Proof.Machine

/-- A record with its own reads and writes that its unit admits answers the state after its run. -/
theorem issue_admits {u : Nat} {r : Bytes} {env : RunEnv} {legal : Bool} {reads writes : List Region} {out : State → RunCtx → RunOut} {s t : State}
    (h : Admits s u r legal true (reads ++ writes)) (ht : t = s.issued u r env.late) :
    issue u r env legal reads writes out s =
      .next (t.afterRun (recCtx r) u r env reads writes (out (t.escapeBytes env.errs.dram) (t.runCtx (recCtx r) u r))) :=
  ht ▸ issueG_admits h

/-- Settles O15: each of the records is issued with its own reads, writes and results. -/
theorem tileRecordsComplete : Obligations.TileRecordsComplete := by
  refine ⟨?_, ?_, ?_, ?_, ?_, ?_, ?_, ?_, ?_, ?_, ?_, ?_, ?_, ?_, ?_, ?_, ?_⟩
  · exact fun _ _ _ _ _ h ht => (exec_matmul ..).trans (issue_admits h ht)
  · exact fun _ _ _ _ _ h ht => (exec_elementwiseChain ..).trans (issue_admits h ht)
  · exact fun _ _ _ _ _ h ht => (exec_reductionSum ..).trans (issue_admits h ht)
  · exact fun _ _ _ _ _ h ht => (exec_reductionMax ..).trans (issue_admits h ht)
  · exact fun _ _ _ _ _ h ht => (exec_reductionMin ..).trans (issue_admits h ht)
  · exact fun _ _ _ _ _ h ht => (exec_reductionSumsq ..).trans (issue_admits h ht)
  · exact fun _ _ _ _ _ h ht => (exec_reductionMean ..).trans (issue_admits h ht)
  · exact fun _ _ _ _ _ h ht => (exec_softmax ..).trans (issue_admits h ht)
  · exact fun _ _ _ _ _ h ht => (exec_logSoftmax ..).trans (issue_admits h ht)
  · exact fun _ _ _ _ _ h ht => (exec_layerNorm ..).trans (issue_admits h ht)
  · exact fun _ _ _ _ _ h ht => (exec_rmsNorm ..).trans (issue_admits h ht)
  · exact fun _ _ _ _ _ h ht => (exec_relayout ..).trans (issue_admits h ht)
  · exact fun _ _ _ _ _ h ht => (exec_gather ..).trans (issue_admits h ht)
  · exact fun _ _ _ _ _ h ht => (exec_scatter ..).trans (issue_admits h ht)
  · exact fun _ _ _ _ _ h ht => (exec_scatterAdd ..).trans (issue_admits h ht)
  · exact fun _ _ _ _ _ h ht => (exec_quantise ..).trans (issue_admits h ht)
  · exact fun _ _ _ _ _ h ht => (exec_dequantise ..).trans (issue_admits h ht)

/-- Settles O16: each of the records is issued with its own reads, writes and results. -/
theorem windowAndAttentionRecordsComplete : Obligations.WindowAndAttentionRecordsComplete := by
  refine ⟨?_, ?_, ?_, ?_, ?_, ?_, ?_, ?_, ?_⟩
  · exact fun _ _ _ _ _ h ht => (exec_convolution ..).trans (issue_admits h ht)
  · exact fun _ _ _ _ _ h ht => (exec_maxPool ..).trans (issue_admits h ht)
  · exact fun _ _ _ _ _ h ht => (exec_averagePool ..).trans (issue_admits h ht)
  · exact fun _ _ _ _ _ h ht => (exec_bilinearResize ..).trans (issue_admits h ht)
  · exact fun _ _ _ _ _ h ht => (exec_nearestResize ..).trans (issue_admits h ht)
  · exact fun _ _ _ _ _ h ht => (exec_attentionFwd ..).trans (issue_admits h ht)
  · exact fun _ _ _ _ _ h ht => (exec_attentionBwd ..).trans (issue_admits h ht)
  · exact fun _ _ _ _ _ h ht => (exec_attentionAppend ..).trans (issue_admits h ht)
  · exact fun _ _ _ _ _ h ht => (exec_attentionMerge ..).trans (issue_admits h ht)

theorem issueReceive_admits {m u : Nat} {r : Bytes} {env : RunEnv} {s : State}
    (h : Admits s u r (recvLegal m r) true [⟨2, 0, xfStage r, xfBytes r⟩, recvDst r u]) :
    issueReceive m u r env s = .next ((s.issued u r env.late).runReceive (recCtx r) u r env) := by
  rw [issueReceive, issueG_admits h]

/-- Settles O17: the receives and the checker's records are issued with a body of their own; the next-variant move takes its regions from its ledger entry. -/
theorem transferAndCheckerRecordsComplete : Obligations.TransferAndCheckerRecordsComplete := by
  refine ⟨?_, ?_, ?_, ?_, ?_, ?_, ?_, ?_⟩
  · exact fun _ _ _ _ _ h ht => (exec_send ..).trans (issue_admits h ht)
  · exact fun _ _ _ _ h => (exec_receiveCopy ..).trans (issueReceive_admits h)
  · exact fun _ _ _ _ h => (exec_receiveAdd ..).trans (issueReceive_admits h)
  · exact fun _ _ _ _ h => (exec_receiveMax ..).trans (issueReceive_admits h)
  · exact fun _ _ _ _ _ h ht => (exec_dmaMove ..).trans (issue_admits h ht)
  · rintro w r env l p s t hentry rfl h ht
    rw [exec_nextVariantMove, execNextVariantMove, hentry]
    exact issue_admits h ht
  · rintro u r env s t h rfl
    rw [exec_checkerExport, execCheckerExport, issueG_admits h]
  · rintro u r env s t v h rfl rfl
    rw [exec_checkerCompare, execCheckerCompare, issueG_admits h]
    simp only [decide_eq_true_eq]

/-! Update records. -/

/-- An admitted update record whose parameter blocks are in order runs and brings about its verdict. -/
theorem issueUpdate_admits {cls w : Nat} {r : Bytes} {env : RunEnv} {reads outs : UpCtx → State → List Region} {run : UpCtx → State → RunOut}
    {post : UpCtx → State → State} {s t : State} {q : UpCtx} {rd wr : List Region} (hq : q = s.upCtx (recCtx r) w r) (hrd : rd = reads q s) (hwr : wr = outs q s)
    (h : Admits s (272 + w) r (upLegal cls r) true (rd ++ wr)) (ht : t = s.issued (272 + w) r env.late)
    (hblocks : (t.escapeBytes env.errs.dram).blocksOk q r = true) :
    issueUpdate cls w r env reads outs run post s =
      .next ((post q (t.afterRun (recCtx r) (272 + w) r env rd wr (run q (t.escapeBytes env.errs.dram)))).afterVerdict q r wr) := by
  subst hq hrd hwr ht
  rw [issueUpdate, issueG_admits h]
  dsimp only
  rw [if_pos hblocks]

/-- Settles O18: each of the records is issued with its own regions, run and aftermath. -/
theorem updateRecordsComplete : Obligations.UpdateRecordsComplete := by
  refine ⟨?_, ?_, ?_, ?_, ?_, ?_, ?_, ?_, ?_, ?_⟩
  · exact fun _ _ _ _ _ _ _ _ hq hrd hwr h ht hblocks => ⟨_, rfl, (exec_elem ..).trans (issueUpdate_admits hq hrd hwr h ht hblocks)⟩
  · exact fun _ _ _ _ _ _ _ _ hq hrd hwr h ht hblocks => ⟨_, rfl, (exec_norm ..).trans (issueUpdate_admits hq hrd hwr h ht hblocks)⟩
  · exact fun _ _ _ _ _ _ _ _ hq hrd hwr h ht hblocks => ⟨_, rfl, (exec_fuse ..).trans (issueUpdate_admits hq hrd hwr h ht hblocks)⟩
  · exact fun _ _ _ _ _ _ _ _ hq hrd hwr h ht hblocks => ⟨_, rfl, (exec_scale ..).trans (issueUpdate_admits hq hrd hwr h ht hblocks)⟩
  · exact fun _ _ _ _ _ _ _ _ hq hrd hwr h ht hblocks => ⟨_, rfl, (exec_carry ..).trans (issueUpdate_admits hq hrd hwr h ht hblocks)⟩
  · exact fun _ _ _ _ _ _ _ _ hq hrd hwr h ht hblocks => ⟨_, rfl, (exec_ortho ..).trans (issueUpdate_admits hq hrd hwr h ht hblocks)⟩
  · exact fun _ _ _ _ _ _ _ _ hq hrd hwr h ht hblocks => ⟨_, rfl, (exec_kstat ..).trans (issueUpdate_admits hq hrd hwr h ht hblocks)⟩
  · exact fun _ _ _ _ _ _ _ _ hq hrd hwr h ht hblocks => ⟨_, rfl, (exec_kroot ..).trans (issueUpdate_admits hq hrd hwr h ht hblocks)⟩
  · exact fun _ _ _ _ _ _ _ _ hq hrd hwr h ht hblocks => ⟨_, rfl, (exec_kapply ..).trans (issueUpdate_admits hq hrd hwr h ht hblocks)⟩
  · exact fun _ _ _ _ _ _ _ _ hq hrd hwr h ht hblocks => ⟨_, rfl, (exec_variant ..).trans (issueUpdate_admits hq hrd hwr h ht hblocks)⟩

/-! Bolt records, retirement, and what is refused. -/

theorem issueBolt_admits {op u : Nat} {r : Bytes} {late : Bool} {go : Nat → State → State} {s : State}
    (h : Admits s u r (boltLegal op r) (s.boltReach (recCtx r) op (boltNo r)) []) :
    issueBolt op u r late go s = .next ((go (recCtx r) (s.issued u r late)).begun (recCtx r) u r (op == 0)) := by
  rw [issueBolt, issueG_admits h]

/-- Settles O19: the three bolt records, and the wait that its tumbler's end leaves unsatisfied. -/
theorem boltRecordsComplete : Obligations.BoltRecordsComplete := by
  refine ⟨?_, ?_, ?_, fun u o rest s hqueue hunsat => ⟨_, rfl, ?_⟩⟩
  · exact fun _ _ _ _ h => (exec_boltWait ..).trans (issueBolt_admits h)
  · exact fun _ _ _ _ h => (exec_boltAdd ..).trans (issueBolt_admits h)
  · exact fun _ _ _ _ h => (exec_boltSet ..).trans (issueBolt_admits h)
  · simp only [exec_boltWaitTimeout, execBoltWaitTimeout, hqueue]
    exact if_pos hunsat

/-- Settles O22: the generation of the oldest record decides whether it retires or is discarded. -/
theorem recordRetires : Obligations.RecordRetires := by
  refine ⟨fun u tc o rest s hqueue hunsat hgen => ?_, fun u tc o rest s hqueue hunsat hgen => ⟨_, _, rfl, rfl, ?_⟩⟩
  · simp only [exec_recordRetire, execRecordRetire, hqueue]
    rw [if_neg (Bool.eq_false_iff.mp hunsat), if_pos hgen]
  · simp only [exec_recordRetire, execRecordRetire, hqueue]
    rw [if_neg (Bool.eq_false_iff.mp hunsat), if_neg (not_not.mpr hgen)]
    rfl

section
variable {u : Nat} {r : Bytes} {late legal reach : Bool} {regions : List Region} {go : Nat → State → State} {s : State}

theorem issueG_idles (h : s.issues (s.selected u) = false ∨ s.wardOut u = true ∨ s.seqNext (s.selected u) u ≠ some r) :
    issueG u r late legal reach regions go s = .next s :=
  if_pos (h.imp_left fun hissues => by rw [hissues]; rfl)

/-- A record that the sequencer hands out runs or is refused, by its context, its rules and its reach, in this order. -/
theorem issueG_handedOut (hissues : s.issues (s.selected u) = true) (hward : s.wardOut u = false) (hnext : s.seqNext (s.selected u) u = some r) :
    issueG u r late legal reach regions go s = .next (
      if recCtx r ≠ s.selected u then (s.takeRecord u r).ctxClash (recCtx r) u r
      else if !(headLegal r u && legal && regionsFit regions) then (s.takeRecord u r).refuseRecord (recCtx r) u r 0x07
      else if !(reach && regions.all (fun g => s.inPart (recCtx r) g.space g.addr g.len)) then (s.takeRecord u r).refuseRecord (recCtx r) u r 0x08
      else go (recCtx r) (s.issued u r late)) :=
  if_neg (by simp [hissues, hward, hnext])

theorem reach_and_inPart_eq_false (h : reach = false ∨ ∃ g ∈ regions, s.inPart (recCtx r) g.space g.addr g.len = false) :
    (reach && regions.all (fun g => s.inPart (recCtx r) g.space g.addr g.len)) = false := by
  rcases h with rfl | ⟨g, hg, hout⟩
  · rfl
  · exact Bool.and_eq_false_iff.mpr (.inr (List.all_eq_false.mpr ⟨g, hg, Bool.eq_false_iff.mp hout⟩))

end

/-- Settles O23, by the order in which a record is checked. -/
theorem recordOutsideRunTick : Obligations.RecordOutsideRunTick := by
  rintro u r late legal reach regions go s t rfl
  refine ⟨issueG_idles, fun hissues hward hnext => ⟨fun hctx => ?_, fun hctx hlegal => ?_, fun hctx hlegal hreach => ?_⟩⟩
  · rw [issueG_handedOut hissues hward hnext, if_pos hctx]
    rfl
  · rw [issueG_handedOut hissues hward hnext, if_neg (not_not.mpr hctx), hlegal, Bool.not_false, if_pos rfl]
    rfl
  · rw [issueG_handedOut hissues hward hnext, if_neg (not_not.mpr hctx), hlegal, Bool.not_true, if_neg Bool.false_ne_true, reach_and_inPart_eq_false hreach,
      Bool.not_false, if_pos rfl]
    rfl

end Sys2Proof.Machine
end

section
/-! Packets, reservations, mirror acknowledgements and request timers (chapters 10, 11, 13; O28, O29, O30). -/

namespace Sys2Proof.Machine

/-! Packets that arrive in order. -/

section
variable {s u : State} {l : Fin 24} {b : Bytes} {p : Packet}

theorem execSched_stores {k : Nat} {x : RxRes} (h : Delivers s l b 0x01 p) (hu : u = s.landed l p) (hpair : u.rxByPair p.ctx (p.arg % 2 ^ 32) = some (k, x))
    (hmirror : mirrorResv k (p.arg % 2 ^ 32) = false) (hok : u.schedOk p.ctx k (p.arg / 2 ^ 32) x p = true) :
    exec (.sched l b) s = .next ((u.wrRaw p.ctx 2 0 (x.stage + 4096 * (p.arg / 2 ^ 32)) p.payload).gotPacket k x (p.arg / 2 ^ 32)) := by
  refine next_takePacket h hu ?_
  simp only [hpair]
  rw [if_neg (Bool.eq_false_iff.mp hmirror), if_pos hok]

theorem execWrite_applies (h : Delivers s l b 0x10 p) (hu : u = s.landed l p) (hpayload : p.payload ≠ []) (hspot : u.spotOk p.ctx (argSpot p.arg) p.payload.length true = true)
    (hward : ¬((argSpot p.arg).place = 0 ∧ (argSpot p.arg).space = 1 ∧ u.wardGone (argSpot p.arg).unit = true)) :
    ∃ t : State, t = ((((u.spotWrite p.ctx (argSpot p.arg) 0 p.payload).countSpot p.ctx (argSpot p.arg) p.payload.length).noteArrival p.ctx (argSpot p.arg)
        p.payload.length).settleGuard p.ctx).moves p.ctx ∧
      exec (.write l b) s = .next (if p.ackReq then t.answer p 0x13 [] else t) :=
  ⟨_, rfl, next_takePacket h hu ((if_neg (List.length_eq_zero_iff.not.mpr hpayload)).trans ((if_neg (by rw [hspot]; decide)).trans (if_neg hward)))⟩

theorem execWrite_outside (h : Delivers s l b 0x10 p) (hu : u = s.landed l p) (hpayload : p.payload ≠ []) (hspot : u.spotOk p.ctx (argSpot p.arg) p.payload.length true = false) :
    exec (.write l b) s = .next (u.refuse p 8) :=
  next_takePacket h hu ((if_neg (List.length_eq_zero_iff.not.mpr hpayload)).trans (if_pos (by rw [hspot]; decide)))

theorem execRead_malformed {errs : ReadErrs} (h : Delivers s l b 0x11 p) (hu : u = s.landed l p) (hlen : p.payload.length ≠ 4 ∨ u32 p.payload 0 = 0 ∨ 4096 < u32 p.payload 0) :
    exec (.read l b errs) s = .next (u.refuse p 7) :=
  next_takePacket h hu (if_pos hlen)

/-- A READ that its context may make: what it counts, and its answer by whether an error keeps the bytes from it. -/
theorem execRead_answers {errs : ReadErrs} {n : Nat} (h : Delivers s l b 0x11 p) (hu : u = s.landed l p) (hlen : p.payload.length = 4) (hn : n = u32 p.payload 0) (hpos : 0 < n)
    (hmax : n ≤ 4096) (hspot : u.spotOk p.ctx (argSpot p.arg) n false = true)
    (hward : ¬((argSpot p.arg).place = 0 ∧ (argSpot p.arg).space = 1 ∧ u.wardGone (argSpot p.arg).unit = true)) (hack : p.ackReq = true) : ∃ t : State,
    t = ((u.noteErrs errs).eventIf (u.adpMiss p.ctx (argSpot p.arg).space (argSpot p.arg).addr n) (Reg.MEM_ADP_EVENT p.ctx) 1).countSpot p.ctx (argSpot p.arg) n ∧
    ((u.readFails errs = true ∨ u.readsPoison p.ctx [⟨(argSpot p.arg).space, (argSpot p.arg).unit, (argSpot p.arg).addr, n⟩] = true) →
      exec (.read l b errs) s = .next (t.answerError p 11)) ∧
    (u.readFails errs = false → u.readsPoison p.ctx [⟨(argSpot p.arg).space, (argSpot p.arg).unit, (argSpot p.arg).addr, n⟩] = false →
      exec (.read l b errs) s = .next (t.answer p 0x12 ((u.escapeBytes errs.dram).spotRead p.ctx (argSpot p.arg) 0 n))) := by
  subst hn
  have hmalformed : ¬(p.payload.length ≠ 4 ∨ u32 p.payload 0 = 0 ∨ 4096 < u32 p.payload 0) := by omega
  have houtside : ¬(!u.spotOk p.ctx (argSpot p.arg) (u32 p.payload 0) false) = true := by rw [hspot]; decide
  refine ⟨_, rfl, fun hbad => ?_, fun hfails hpoison => ?_⟩
  · exact next_takePacket h hu ((if_neg hmalformed).trans ((if_neg houtside).trans ((if_neg hward).trans ((if_pos (Bool.or_eq_true_iff.mpr hbad)).trans (if_pos hack)))))
  · have hgood : ¬(u.readFails errs || u.readsPoison p.ctx [⟨(argSpot p.arg).space, (argSpot p.arg).unit, (argSpot p.arg).addr, u32 p.payload 0⟩]) = true := by
      rw [hfails, hpoison]
      decide
    exact next_takePacket h hu ((if_neg hmalformed).trans ((if_neg houtside).trans ((if_neg hward).trans ((if_neg hgood).trans (if_pos hack)))))

theorem execReadData_ends {r : Request} (h : Delivers s l b 0x12 p) (hu : u = s.landed l p) (hreq : u.requestOf p = some r) (hop : r.packet.opcode = 0x11) :
    exec (.readData l b) s = .next { u with fabric := { u.fabric with requests := u.fabric.requests.filter (fun q => q.seq != r.seq) } } := by
  refine next_takePacket h hu ?_
  simp only [hreq]
  exact if_pos hop

/-- An ACK whose opcode is not that of a fabric-manager reply ends its request and counts for the stream that sent it. -/
theorem execAck_ends {errs : ReadErrs} {r : Request} (h : Delivers s l b 0x13 p) (hu : u = s.landed l p) (hop : byteAt b 0 ≠ 0x21) (hreq : u.requestOf p = some r) :
    exec (.ack l b errs) s =
      .next (({ u with fabric := { u.fabric with requests := u.fabric.requests.filter (fun q => q.seq != r.seq) } } : State).streamAcked errs r.seq
        r.packet.payload.length) := by
  refine (if_neg fun hreply => hop hreply.1).trans (next_takePacket h hu ?_)
  simp only [hreq]
  rfl

theorem execError_fails {r : Request} (h : Delivers s l b 0x14 p) (hu : u = s.landed l p) (hlen : p.payload.length = 4) (hcode : byteAt p.payload 0 ≤ 11)
    (hzero : zeroAt p.payload 2 2 = true) (hreq : u.requestOf p = some r) : exec (.error l b) s = .next (u.failRequest r (byteAt p.payload 0)) := by
  refine next_takePacket h hu ((if_neg ?_).trans ?_)
  · simp [hlen, hzero, hcode]
  · simp only [hreq]

end

/-! Packets on their way: forwarded, aged, probing. -/

section
variable {s u : State} {l : Fin 24} {b : Bytes} {p : Packet}

theorem accept_landed (htakes : s.linkTakes l b = true) (hok : packetOk b = true) (hp : p = parsePacket b) (hu : u = s.landed l p) (hstale : u.stale p = false) :
    s.accept l b = (u, some p) := by
  subst hp hu
  exact accept_ok htakes hok hstale

theorem execPacketForward_forwards (h : s.accept l b = (u, some p)) (hrouted : p.routed = true) (hdst : p.dst ≠ u.addr) :
    exec (.packetForward l b) s = .next (u.forward l p) := by
  simp only [exec_packetForward, execPacketForward, h]
  rw [if_pos (by simp [hrouted, hdst])]

theorem execProbe_sendsOn {now : Nat} (h : s.accept l b = (u, some p)) (hop : p.opcode = 0x20) (hpayload : p.payloadOk = true) (hpath : pathOk p.payload = true)
    (hhops : p.hops ≤ byteAt p.payload 0) (hpos : 0 < p.hops) : exec (.probe l b now) s = .next (u.sendProbe l p) := by
  simp only [exec_probe, execProbe, h]
  rw [if_neg (not_not.mpr hop), if_neg (by simp [hpayload, hpath, hhops]), if_pos hpos]

end

/-- Settles O28: each packet's delivery, and what its command does with it. -/
theorem packetCommandsComplete : Obligations.PacketCommandsComplete := by
  refine ⟨?_, ?_, ?_, ?_, ?_, ?_, ?_, ?_, ?_⟩
  · exact fun _ _ _ _ _ _ _ => execSched_stores
  · exact fun _ _ _ _ _ => execWrite_applies
  · exact fun _ _ _ _ _ _ _ => execRead_answers
  · exact fun _ _ _ _ _ _ => execReadData_ends
  · exact fun _ _ _ _ _ _ _ => execAck_ends
  · exact fun _ _ _ _ _ _ => execError_fails
  · exact fun _ _ _ _ _ htakes hok hp hu hstale => execPacketForward_forwards (accept_landed htakes hok hp hu hstale)
  · exact fun _ _ _ hwaiting hage => execPacketAged_of_le_boundaries hwaiting hage
  · exact fun _ _ _ _ _ _ htakes hok hp hu hstale => execProbe_sendsOn (accept_landed htakes hok hp hu hstale)

/-! Packets that are lost on arrival (R302, R316). -/

/-- Bytes that no command takes: the link carries none and nothing changes, or their header checks fail and they are counted. -/
def LostOn (s : State) (l : Nat) (b : Bytes) (v : State) : Prop :=
  s.linkTakes l b = false ∧ v = s ∨ s.linkTakes l b = true ∧ packetOk b = false ∧ v = s.count Reg.FAB_DROP_CRC

namespace LostOn
variable {s v : State} {l : Nat} {b : Bytes}

theorem takePacket (h : LostOn s l b v) (op : Nat) (f : Packet → State → State) : Host.Outcome.next (ρ := Refusal) (φ := Fault) (s.takePacket l b op f) = .next v := by
  rcases h with ⟨hdown, rfl⟩ | ⟨htakes, hbad, rfl⟩
  · rw [takePacket_down f hdown]
  · rw [takePacket_bad f htakes hbad]

theorem accept (h : LostOn s l b v) : s.accept l b = (v, none) := by
  rcases h with ⟨hdown, rfl⟩ | ⟨htakes, hbad, rfl⟩
  · exact accept_down hdown
  · exact accept_bad htakes hbad

theorem execProbe {l : Fin 24} (h : LostOn s l b v) (now : Nat) : exec (.probe l b now) s = .next v := by
  rw [exec_probe, Machine.execProbe, h.accept]

theorem execPacketForward {l : Fin 24} (h : LostOn s l b v) : exec (.packetForward l b) s = .next v := by
  rw [exec_packetForward, Machine.execPacketForward, h.accept]

theorem execAck {l : Fin 24} (h : LostOn s l b v) (errs : ReadErrs) : exec (.ack l b errs) s = .next v := by
  rw [exec_ack, Machine.execAck]
  split
  · exact h.takePacket ..
  · exact h.takePacket ..

end LostOn

/-- Settles O29: refusals by the order of a request's checks; a lost packet never reaches its command's body. -/
theorem packetsRefused : Obligations.PacketsRefused := by
  refine ⟨fun _ _ _ _ _ => execWrite_outside, fun _ _ _ _ _ _ => execRead_malformed, fun l b s v h => ?_⟩
  replace h : LostOn s l b v := h
  refine ⟨fun errs => ⟨h.takePacket .., h.execAck errs⟩, fun now => ⟨h.execProbe now, ?_⟩, fun _ _ => h.takePacket .., ?_⟩
  · exact ⟨h.takePacket .., h.takePacket .., h.takePacket .., h.takePacket .., h.takePacket .., h.takePacket .., h.takePacket .., h.takePacket .., h.takePacket ..⟩
  · exact ⟨h.takePacket .., h.takePacket .., h.takePacket .., h.takePacket .., h.execPacketForward, h.takePacket .., h.takePacket .., h.takePacket .., h.takePacket ..,
      h.takePacket .., h.takePacket .., h.takePacket .., h.takePacket .., h.takePacket ..⟩

/-! Reservations, mirror acknowledgements and request timers. -/

section
variable {s : State} {l : Fin 24} {c : Fin 16} {i : Nat} {r : Resv}

theorem execReservationStart_sends {b : Bound} (hrun : (s.hasp c).run = true) (hres : (s.frameResvs c l true)[i]? = some r) (hmirror : mirrorResv l r.pair = false)
    (hcarry : s.canCarry c l = true) (hbound : (s.link l).bound.find? (fun b => b.ctx == c.val && b.idx == i) = some b) :
    exec (.reservationStart l c i) s = .next ((s.sendPayload c l r.pair b).modLink l (fun k => { k with sent := k.sent ++ [(c.val, i)] })) := by
  simp only [exec_reservationStart, execReservationStart, hrun, if_true, hres, hmirror, Bool.false_eq_true, if_false, hcarry, hbound]

theorem execReservationStart_mirrors (hrun : (s.hasp c).run = true) (hres : (s.frameResvs c l true)[i]? = some r) (hmirror : mirrorResv l r.pair = true) :
    exec (.reservationStart l c i) s = .next (s.sendMirror c l r) := by
  simp only [exec_reservationStart, execReservationStart, hrun, if_true, hres, hmirror]

theorem execReservationStart_flags (hrun : (s.hasp c).run = true) (hres : (s.frameResvs c l true)[i]? = some r) (hmirror : mirrorResv l r.pair = false)
    (hnone : s.canCarry c l = false ∨ (s.link l).bound.find? (fun b => b.ctx == c.val && b.idx == i) = none) :
    exec (.reservationStart l c i) s = .next (s.flag 1) := by
  have hbound : (if s.canCarry c l then (s.link l).bound.find? (fun b => b.ctx == c.val && b.idx == i) else none) = none := by
    rcases hnone with hcarry | hbound
    · rw [hcarry]; rfl
    · rw [hbound, ite_self]
  simp only [exec_reservationStart, execReservationStart, hrun, if_true, hres, hmirror, Bool.false_eq_true, if_false, hbound]

theorem execReservationEnd_carries (hrun : (s.hasp c).run = true) (hres : (s.frameResvs c l true)[i]? = some r) (hcarry : bit r.pair 31 = true) :
    exec (.reservationEnd l c true i) s = .next (s.endCarry c l i r.pair ((s.link l).sent.contains (c.val, i))) := by
  simp only [exec_reservationEnd, execReservationEnd, hrun, if_true, hres, hcarry]

theorem execReservationEnd_acknowledges (hrun : (s.hasp c).run = true) (hres : (s.frameResvs c l false)[i]? = some r) (hmirror : mirrorResv l r.pair = true)
    (hcarriage : s.mirrorCarriage c l = 0) : exec (.reservationEnd l c false i) s = .next (s.ackMirror c l r.pair) := by
  simp only [exec_reservationEnd, execReservationEnd, hrun, if_true, hres, Bool.false_eq_true, if_false, hmirror, hcarriage, beq_self_eq_true, Bool.and_self]

end

theorem takeMirrorAck_settles {u : State} {g : Bytes} {m : Mirrored} (hlen : g.length = 16) (hctx : byteAt g 2 < 16) (hzero3 : byteAt g 3 = 0) (hzero : zeroAt g 10 2 = true)
    (hpair : u32 g 4 ≠ 0xFFFFFFFF) (hfind : (u.ctx (byteAt g 2)).twin.inflight.find? (fun m => m.pair == u32 g 4) = some m) :
    u.takeMirrorAck g = u.settleMirror (byteAt g 2) (u32 g 4)
      (decide (u16 g 8 = (u.hasp (byteAt g 2)).gen.toNat ∧ m.gen = (u.hasp (byteAt g 2)).gen ∧ u32 g 12 = m.granules.length)) := by
  unfold State.takeMirrorAck
  dsimp only
  rw [if_neg (by simp [hlen, hctx, hzero3, hzero]), if_neg hpair, hfind]

section
variable {s : State} {seq : Nat} {r : Request}

theorem execMirrorAckTimeout_settles {c : Fin 16} {pair : Nat} {m : Mirrored} (hfind : (s.ctx c).twin.inflight.find? (fun m => m.pair == pair) = some m)
    (htime : m.sentTick + 1 ≤ s.tick.now) : exec (.mirrorAckTimeout c pair) s = .next (s.settleMirror c pair false) := by
  simp only [exec_mirrorAckTimeout, execMirrorAckTimeout, hfind, htime, if_true]

theorem execRequestTimeout_again (hfind : s.fabric.requests.find? (fun r => r.seq == seq) = some r) (hcmd : r.cmd = none)
    (htime : r.sentTick + bits (s.regN Reg.FAB_BE_CTRL) 11 8 ≤ s.tick.now) (htries : r.tries < s.regN Reg.FAB_BE_CTRL % 16) :
    exec (.requestTimeout seq) s = .next (({ s with fabric := { s.fabric with requests := s.fabric.requests.map (fun (q : Request) =>
      if q.seq = seq then { q with tries := q.tries + 1, sentTick := s.tick.now } else q) } } : State).sendRouted r.packet) := by
  simp only [exec_requestTimeout, execRequestTimeout, hfind]
  rw [if_neg (by simpa [hcmd] using htime), if_pos ⟨htries, by rw [hcmd]; rfl⟩]

theorem execRequestTimeout_fails (hfind : s.fabric.requests.find? (fun r => r.seq == seq) = some r) (hcmd : r.cmd = none)
    (htime : r.sentTick + bits (s.regN Reg.FAB_BE_CTRL) 11 8 ≤ s.tick.now) (htries : s.regN Reg.FAB_BE_CTRL % 16 ≤ r.tries) :
    exec (.requestTimeout seq) s = .next (s.failRequest r 9) := by
  simp only [exec_requestTimeout, execRequestTimeout, hfind]
  rw [if_neg (by simpa [hcmd] using htime), if_neg fun h => Nat.not_lt.mpr htries h.1]

/-- A host's FM_CMD is not sent again: it waits as long as every try would, and fails. -/
theorem execRequestTimeout_failsCmd (hfind : s.fabric.requests.find? (fun r => r.seq == seq) = some r) (hcmd : r.cmd.isSome = true)
    (htime : r.sentTick + bits (s.regN Reg.FAB_BE_CTRL) 11 8 * (s.regN Reg.FAB_BE_CTRL % 16 + 1) ≤ s.tick.now) :
    exec (.requestTimeout seq) s = .next (s.failRequest r 9) := by
  simp only [exec_requestTimeout, execRequestTimeout, hfind]
  rw [if_neg (by rw [if_pos hcmd]; exact Nat.not_lt.mpr htime), if_neg]
  rintro ⟨-, hnone⟩
  rw [Option.isNone_iff_eq_none] at hnone
  rw [hnone] at hcmd
  exact absurd hcmd (by decide)

end

/-- Settles O30: reservation by reservation, acknowledgement and timer. -/
theorem reservationCommandsComplete : Obligations.ReservationCommandsComplete := by
  refine ⟨?_, ?_, ?_, ?_, ?_, ?_, ?_, ?_, ?_, ?_⟩
  · exact fun _ _ _ _ _ _ => execReservationStart_sends
  · exact fun _ _ _ _ _ => execReservationStart_mirrors
  · exact fun _ _ _ _ _ => execReservationStart_flags
  · exact fun _ _ _ _ _ => execReservationEnd_carries
  · exact fun _ _ _ _ _ => execReservationEnd_acknowledges
  · rintro l b g p m s u h hu rfl hlen hty hctx hzero3 hzero hpair hfind
    exact next_takeMsg h hu hty (takeMirrorAck_settles hlen hctx hzero3 hzero hpair hfind)
  · exact fun _ _ _ _ => execMirrorAckTimeout_settles
  · exact fun _ _ _ => execRequestTimeout_again
  · exact fun _ _ _ => execRequestTimeout_fails
  · exact fun _ _ _ => execRequestTimeout_failsCmd

end Sys2Proof.Machine
end

section
/-! Links and the fabric manager (chapter 10, R302 to R342; O31, O32, O33). -/

namespace Sys2Proof.Machine

/-! Links. -/

/-- REASON after training (R304): 0 in order, 1 no training, 2 above the delay bound, 3 any other failure. -/
def trainReason (l f d : Nat) : Nat := if f ≠ 0 then (if f = 1 then 1 else 3) else if decide ((if l < 7 then 608 else 1536) < d) then 2 else 0

theorem trainReason_eq_zero_iff {l f d : Nat} : trainReason l f d = 0 ↔ f = 0 ∧ d ≤ (if l < 7 then 608 else 1536) := by
  unfold trainReason
  by_cases hf : f = 0
  · simp [hf]
  · by_cases h1 : f = 1 <;> simp [hf, h1]

theorem trainReason_late {l f d : Nat} (hf : f = 0) (h : trainReason l f d ≠ 0) : trainReason l f d = 2 := by
  by_cases hlate : (if l < 7 then 608 else 1536) < d
  · rw [trainReason, if_neg (not_not.mpr hf), if_pos (decide_eq_true hlate)]
  · exact absurd (trainReason_eq_zero_iff.mpr ⟨hf, Nat.le_of_not_lt hlate⟩) h

theorem trainReason_one {l f d : Nat} (hf : f = 1) : trainReason l f d = 1 := by
  subst hf
  rfl

theorem trainReason_other {l f d : Nat} (hf : 1 < f) : trainReason l f d = 3 := by
  rw [trainReason, if_pos (by omega), if_neg (by omega)]

theorem execHello_keeps {s u : State} {l : Fin 24} {b r : Bytes} {p : Packet} (h : Delivers s l b 0x07 p) (hu : u = s.landed l p) (hr : r = p.payload)
    (hok : recordOk r = true) : ∃ changed bad : Bool,
      (changed = true ↔ ∃ o, (u.link l).record = some o ∧ u64 o 0 ≠ u64 r 0) ∧ (bad = true ↔ l.val < 7 ∧ u.trayRecord l r = false) ∧
      exec (.hello l b) s = .next (((u.modLink l (fun k => { k with record := some r, state := if bad then 5 else 2 })).eventIf changed Reg.FAB_EVENT 2).eventIf bad
        Reg.FAB_EVENT 3) := by
  subst hr
  refine ⟨_, _, ?_, ?_, next_takePacket h hu (if_neg (by rw [hok]; decide))⟩
  · cases (u.link l).record with
    | none => simp
    | some o => simp
  · simp

theorem execLinkHoldEnd_trains {s u : State} (hu : u = { s with rst := { s.rst with holdLinks := false } }) :
    exec .linkHoldEnd s = .next (if s.rst.phase ≠ 9 then u else
      u.over (List.range 24) (fun s l => s.modLink l (fun k => if k.state = 0 then { k with state := 1 } else k))) := by
  subst hu
  rw [exec_linkHoldEnd, execLinkHoldEnd, State.trainLinks]
  simp only [Bool.false_eq_true, or_false]

/-- Settles O31, command by command. -/
theorem linkCommandsComplete : Obligations.LinkCommandsComplete := by
  refine ⟨?_, fun _ _ => rfl, fun _ _ => rfl, ?_, fun _ => rfl, ?_, ?_⟩
  · intro l f d sent s
    exact ⟨trainReason l f d, _, _, trainReason_eq_zero_iff, trainReason_late, trainReason_one, trainReason_other, rfl, rfl, rfl⟩
  · exact fun _ _ _ _ _ _ => execHello_keeps
  · rintro l b g p s u h hu rfl hlen
    exact next_takePacket h hu (if_neg (not_not.mpr hlen))
  · exact fun _ _ => execLinkHoldEnd_trains

/-! A fabric-manager command (R338 to R342). -/

section
variable {s w u : State} {l : Fin 24} {b : Bytes} {now sub : Nat} {m : FmMsg}

theorem fmRow_runs (h : Manages s w l b now m) (hsub : fmSub m = sub) : s.fmRow sub l b now = .next (w.fmRun m) := by
  obtain ⟨p, hdelivers, hw, hreply, hauth, rfl⟩ := h
  refine next_takePacket hdelivers hw ((if_neg ?_).trans (if_pos hauth))
  rintro (hisReply | ⟨hother, -⟩)
  · rw [hreply] at hisReply
    exact Bool.false_ne_true hisReply
  · exact hother hsub

theorem now_of_manages (h : Manages s w l b now m) : m.now = now := by
  obtain ⟨p, -, -, -, -, rfl⟩ := h
  rfl

/-- An accepted command other than RESET is answered with the status and data of its operation. -/
theorem fmRun_answers {t : State} {code : Nat} {d : Bytes} (haccepts : w.fmAccepts m = true) (hu : u = w.fmNote m) (hsub : fmSub m ≠ 9)
    (hoperate : u.fmOperate m = (t, code, d)) : w.fmRun m = t.fmReply m code d := by
  subst hu
  unfold State.fmRun
  rw [if_neg (by rw [haccepts]; decide)]
  dsimp only
  rw [if_neg fun h9 => hsub h9.1, hoperate]

theorem fmRow_answers {t : State} {d : Bytes} (h : Manages s w l b now m) (haccepts : w.fmAccepts m = true) (hu : u = w.fmNote m) (hsub : fmSub m = sub) (hne : sub ≠ 9)
    (hoperate : u.fmOperate m = (t, 0, d)) : s.fmRow sub l b now = .next (t.fmReply m 0 d) := by
  rw [fmRow_runs h hsub, fmRun_answers haccepts hu (hsub ▸ hne) hoperate]

/-- An operation whose status code is known. -/
theorem operation_eq {r : State × Nat × Bytes} {code : Nat} (h : r.2.1 = code) : r = (r.1, code, r.2.2) := by
  subst h
  rfl

/-! The operation of each SUBCMD. -/

theorem fmOperate_assign (h : fmSub m = 1) : u.fmOperate m = u.fmAssign m := by simp only [State.fmOperate, h]
theorem fmOperate_neighbours (h : fmSub m = 2) : u.fmOperate m = u.fmNeighbours m := by simp only [State.fmOperate, h]
theorem fmOperate_tableWrite (h : fmSub m = 3) : u.fmOperate m = u.fmTableWrite m := by simp only [State.fmOperate, h]
theorem fmOperate_tableSeal (h : fmSub m = 4) : u.fmOperate m = u.fmTableSeal m := by simp only [State.fmOperate, h]
theorem fmOperate_regWrite (h : fmSub m = 5) : u.fmOperate m = u.fmRegWrite m := by simp only [State.fmOperate, h]
theorem fmOperate_regRead (h : fmSub m = 6) : u.fmOperate m = u.fmRegRead m := by simp only [State.fmOperate, h]
theorem fmOperate_tickStart (h : fmSub m = 7) : u.fmOperate m = u.fmTickStart m := by simp only [State.fmOperate, h]
theorem fmOperate_resume (h : fmSub m = 8) : u.fmOperate m = u.fmResume m := by simp only [State.fmOperate, h]
theorem fmOperate_reset (h : fmSub m = 9) : u.fmOperate m = (u, if fmShape m 1 then u.resetCode (byteAt (fmArgs m) 0) else 7, []) := by simp only [State.fmOperate, h]

/-- The state after TICK_START, from the state whose tick has been stopped. -/
theorem fmTickStart_eq (hshape : fmShape m 14 = true) (hfirst : u.tick.now + 4 < u64 (fmArgs m) 4) (hsealed : u.fabric.standby.sealed = true)
    (hversion : u.fabric.standby.version = u16 (fmArgs m) 12) (hgeom : u.reg Reg.FAB_GEOM ≠ 0#32) (hclock : u.clk.holdover = false ∨ u.clk.aOk = true ∨ u.clk.bOk = true) :
    ∃ t : State, u.fmTickStart m = (t, 0, []) ∧ t.tick.run = .aligning ∧ t.tick.firstTick = u64 (fmArgs m) 4 ∧ t.tick.term = u32 (fmArgs m) 0 := by
  have hok : ¬(!fmShape m 14 ∨ u64 (fmArgs m) 4 ≤ u.tick.now + 4 ∨ !u.fabric.standby.sealed ∨ u.fabric.standby.version ≠ u16 (fmArgs m) 12 ∨ u.reg Reg.FAB_GEOM = 0#32 ∨
      (u.clk.holdover ∧ !u.clk.aOk ∧ !u.clk.bOk)) := by
    rcases hclock with h | h | h <;> simp [hshape, hsealed, hversion, hgeom, hfirst, h]
  exact ⟨_, if_neg hok, rfl, rfl, rfl⟩

end

/-- Settles O32: each SUBCMD's operation, and the answer that R340 gives an accepted command. -/
theorem fabricManagerCommandsComplete : Obligations.FabricManagerCommandsComplete := by
  intro l b now m s w u h haccepts hu
  refine ⟨?_, ?_, ?_, ?_, ?_, ?_, ?_, ?_, ?_⟩
  · intro hsub hshape hnone haddr
    exact (exec_assign ..).trans (fmRow_answers h haccepts hu hsub (by decide) ((fmOperate_assign hsub).trans (if_neg (by simp [hshape, hnone, haddr]))))
  · intro hsub hshape
    exact (exec_neighbours ..).trans (fmRow_answers h haccepts hu hsub (by decide) ((fmOperate_neighbours hsub).trans (if_neg (by simp [hshape]))))
  · intro hsub hcode
    exact (exec_tableWrite ..).trans (fmRow_answers h haccepts hu hsub (by decide) ((fmOperate_tableWrite hsub).trans (operation_eq hcode)))
  · intro hsub hshape hzero hnamed hcrc
    exact (exec_tableSeal ..).trans (fmRow_answers h haccepts hu hsub (by decide)
      ((fmOperate_tableSeal hsub).trans ((if_neg (by simp [hshape, hzero, hnamed])).trans (if_neg (not_not.mpr hcrc)))))
  · intro hsub hshape hoff
    have hwrite : u.remoteWrite (u32 (fmArgs m) 0) (u32 (fmArgs m) 4) m.now = (u.barWrite 0 (u32 (fmArgs m) 0) 4 (u32 (fmArgs m) 4) now, 0) :=
      now_of_manages h ▸ if_neg (Nat.not_le.mpr hoff)
    refine (exec_fmRegWrite ..).trans (fmRow_answers h haccepts hu hsub (by decide) ((fmOperate_regWrite hsub).trans ((if_neg (by simp [hshape])).trans ?_)))
    dsimp only
    rw [hwrite]
  · intro hsub hshape hcode
    have hread : u.fmRegRead m = u.remoteRead (u32 (fmArgs m) 0) := by rw [State.fmRegRead, hshape, Bool.not_true, if_neg Bool.false_ne_true]
    refine (exec_fmRegRead ..).trans (fmRow_answers h haccepts hu hsub (by decide) ((fmOperate_regRead hsub).trans ?_))
    rw [hread]
    exact operation_eq hcode
  · intro hsub hshape hfirst hsealed hversion hgeom hclock
    obtain ⟨t, hstart, hrun, htick, hterm⟩ := fmTickStart_eq hshape hfirst hsealed hversion hgeom hclock
    rw [hstart]
    exact ⟨hrun, htick, hterm, (exec_tickStart ..).trans (fmRow_answers h haccepts hu hsub (by decide) ((fmOperate_tickStart hsub).trans hstart))⟩
  · intro hsub hshape hctx hphase hmaster
    exact (exec_resume ..).trans (fmRow_answers h haccepts hu hsub (by decide)
      ((fmOperate_resume hsub).trans ((if_neg (by simp [hshape, hphase]; omega)).trans (if_pos hmaster))))
  · intro hsub hshape hcode
    have hoperate : u.fmOperate m = (u, 0, []) := (fmOperate_reset hsub).trans (by rw [if_pos hshape, hcode])
    subst hu
    rw [exec_fmReset, execFmReset, fmRow_runs h hsub, State.fmRun, if_neg (by rw [haccepts]; decide)]
    dsimp only
    rw [hoperate, if_pos ⟨hsub, rfl⟩, State.fmResetAfter, now_of_manages h]

/-! Without a fabric key. -/

theorem fmAccepts_of_noKey {u : State} (m : FmMsg) (h : u.mgmt.fabricKey = none) : u.fmAccepts m = false := by
  rw [State.fmAccepts, h]

theorem fmRow_refuses {s u : State} {l : Fin 24} {b : Bytes} {now sub : Nat} {m : FmMsg} (h : Manages s u l b now m) (hkey : u.mgmt.fabricKey = none) (hsub : fmSub m = sub) :
    s.fmRow sub l b now = .next (u.fmRefuse m) := by
  rw [fmRow_runs h hsub, State.fmRun, if_pos (by rw [fmAccepts_of_noKey m hkey]; rfl)]

/-- Refusing a command of another device sends an ERROR and stores nothing. -/
theorem fmRefuse_stores {u : State} {m : FmMsg} (h : m.src ≠ u.addr) : (u.fmRefuse m).stores = u.stores := by
  have haddr : (u.event Reg.FAB_EVENT 6).addr = u.addr := by
    rw [State.addr, State.regN, reg_event_ne (by decide), State.addr, State.regN]
  unfold State.fmRefuse
  dsimp only
  rw [if_neg (by rw [haddr]; exact h)]
  exact State.sendRouted_stores ..

/-- Settles O33: the nine commands are nine rows of one check. -/
theorem fabricManagerNeedsKey : Obligations.FabricManagerNeedsKey := by
  intro l b now m s u h hkey
  exact ⟨fmAccepts_of_noKey m hkey, fmRefuse_stores, fmRow_refuses h hkey, fmRow_refuses h hkey, fmRow_refuses h hkey, fmRow_refuses h hkey, fmRow_refuses h hkey,
    fmRow_refuses h hkey, fmRow_refuses h hkey, fmRow_refuses h hkey, fmRow_refuses h hkey⟩

end Sys2Proof.Machine
end

section
/-! Copies of first frames, restores and swapped pages (chapters 2, 6, 9; O35). -/

namespace Sys2Proof.Machine

section
variable {s : State} {c : Fin 16}

theorem execFirstFrameCopyDone_copies (hpending : (s.hasp c).copyPending = true) (hrestored : ¬((s.hasp c).under = .restoring ∧ (s.hasp c).restoreDone = false))
    (hheld : s.pwr.beHeld = false) : ∃ t : State,
    t = (s.copyFirstFrames c (s.pendingFrame c).1 (s.pendingFrame c).2).modHasp c (fun h => { h with copyPending := false }) ∧
    exec (.firstFrameCopyDone c) s = .next (match (s.hasp c).loadCmd with
      | some (fn, cmd) => (t.modHasp c (fun h => { h with loadCmd := none })).complete fn 0x0010 cmd 0
      | none => t) := by
  refine ⟨_, rfl, (if_neg ?_).trans ?_⟩
  · simpa [hpending, hheld] using hrestored
  · cases (s.hasp c).loadCmd <;> rfl

theorem execRestoreCopyDone_fills (hunder : (s.hasp c).under = .restoring) (hdone : (s.hasp c).restoreDone = false) (hmissing : (s.hasp c).missing = false)
    (hheld : s.pwr.beHeld = false) : ∃ (n : Nat) (u t : State),
    n = ((s.versionRegions c).map (fun l => l.size)).foldl (· + ·) 0 ∧
    u = placeCopy c (s.hasp c).target (s.versionRegions c) (s.lpRead (s.lpShare Reg.MEM_LP_CLEAR c).1 n) s ∧
    t = (((u.countVersion c).account c 5 n).restoreSlots c).modKv c (fun k => { k with committed := k.cleared }) ∧
    exec (.restoreCopyDone c false) s = .next (((t.modCtx c (fun x => { x with
      hasp := { x.hasp with epoch := (s.hasp c).target, restoreDone := true }, lateCommitted := t.readLate c (s.hasp c).target })).resetPool c).showLs c) :=
  ⟨_, _, _, rfl, rfl, rfl, (if_neg (by simp only [hunder, hdone, hheld]; simp)).trans ((if_neg Bool.false_ne_true).trans (if_neg (by simp only [hmissing]; decide)))⟩

theorem execRestoreCopyDone_bad (hunder : (s.hasp c).under = .restoring) (hdone : (s.hasp c).restoreDone = false) (hheld : s.pwr.beHeld = false) :
    exec (.restoreCopyDone c true) s = .next (((s.modHasp c (fun h => { h with missing := true })).event Reg.MEM_LP_EVENT 2).count Reg.MEM_LP_UE_TOTAL) :=
  (if_neg (by simp only [hunder, hdone, hheld]; simp)).trans (if_pos rfl)

end

/-- A page that is on its way out, and where its arena record stands. -/
theorem execSwapPageSent_of_outgoing {s u : State} {c : Fin 16} {slot layer idx : Nat} {errs : ReadErrs} {a : PageId × Nat × BitVec 16}
    (hout : (s.kv c).outgoing.contains ⟨slot, layer, idx⟩ = true) (harena : (s.kv c).arena.find? (fun a => a.1 == ⟨slot, layer, idx⟩) = some a)
    (hheld : s.pwr.beHeld = false) (hu : u = (s.escapeBytes errs.dram).noteErrs errs) :
    ((s.readFails errs || s.sourcePoison c 3 (s.pageAddr c ((s.kv c).pageNo ⟨slot, layer, idx⟩)) (s.regN (Reg.MEM_KV_PAGE_BYTES c))) = true →
      exec (.swapPageSent c slot layer idx errs) s = .next (((u.modKv c (fun k => { (((k.freeSlot slot).freeArena slot).modSlot slot
        (fun x => { x with state := 5, pre := 0 })) with outgoing := k.outgoing.filter (fun q => q.slot != slot) })).event (Reg.MEM_KV_EVENT c) 1).count
        (Reg.MEM_KV_DROPS c))) ∧
    ((s.readFails errs || s.sourcePoison c 3 (s.pageAddr c ((s.kv c).pageNo ⟨slot, layer, idx⟩)) (s.regN (Reg.MEM_KV_PAGE_BYTES c))) = false →
      ∃ (t : State) (page : Bytes),
      page = u.rd c 3 0 (u.pageAddr c ((s.kv c).pageNo ⟨slot, layer, idx⟩)) (u.regN (Reg.MEM_KV_PAGE_BYTES c)) ∧
      t = ((u.emit (.host (u.ctxFn c) (u.regN (Reg.RING_ARENA_LO (u.ctxFn c)) + u.regN (Reg.RING_ARENA_HI (u.ctxFn c)) * 2 ^ 32 + u.arenaOff c a.2.1)
        (page ++ u.pageTrailer c ⟨slot, layer, idx⟩ a.2.2 page))).account c 7 (page.length + 64)).account c 4 page.length ∧
      exec (.swapPageSent c slot layer idx errs) s = .next (t.modKv c (fun k => { (k.modSlot slot (fun x => x.setPage layer idx noPage)) with
        free := (s.kv c).pageNo ⟨slot, layer, idx⟩ :: k.free, outgoing := k.outgoing.filter (fun q => q != ⟨slot, layer, idx⟩) }))) := by
  obtain ⟨id, r, gen⟩ := a
  subst hu
  have hgoes : ¬(!(s.kv c).outgoing.contains ⟨slot, layer, idx⟩ ∨ s.pwr.beHeld) := by
    rw [hout, hheld]
    decide
  refine ⟨fun hbad => ?_, fun hgood => ⟨_, _, rfl, rfl, ?_⟩⟩
  · rw [exec_swapPageSent, execSwapPageSent]
    dsimp only
    rw [if_neg hgoes, harena]
    exact if_pos hbad
  · rw [exec_swapPageSent, execSwapPageSent]
    dsimp only
    rw [if_neg hgoes, harena]
    exact if_neg (Bool.eq_false_iff.mp hgood)

/-- A page read back is placed when it passes its check, and drops its slot when it does not. -/
theorem execSwapInPage_of_incoming {s u : State} {c : Fin 16} {slot layer idx : Nat} {page : Bytes} (hin : (s.kv c).incoming.contains ⟨slot, layer, idx⟩ = true)
    (hheld : s.pwr.beHeld = false) (hu : u = s.account c 7 page.length) :
    (u.pageGood c ⟨slot, layer, idx⟩ page = false → exec (.swapInPage c slot layer idx page) s = .next ((u.modKv c (fun k =>
      ((k.freeSlot slot).freeArena slot).modSlot slot (fun x => { x with state := 5, pre := 0 }))).event (Reg.MEM_KV_EVENT c) 3)) ∧
    (u.pageGood c ⟨slot, layer, idx⟩ page = true → ∃ t : State,
      t = (u.wrRaw c 3 0 (u.pageAddr c ((s.kv c).pageNo ⟨slot, layer, idx⟩)) (page.take (u.regN (Reg.MEM_KV_PAGE_BYTES c)))).account c 4
        (u.regN (Reg.MEM_KV_PAGE_BYTES c)) ∧
      exec (.swapInPage c slot layer idx page) s = .next (t.modKv c (fun k =>
        let k := { k with incoming := k.incoming.filter (fun q => q != ⟨slot, layer, idx⟩), arena := k.arena.filter (fun a => a.1 != ⟨slot, layer, idx⟩) }
        if k.incoming.any (fun q => q.slot == slot) then k else k.modSlot slot (fun x => { x with state := 2 })))) := by
  subst hu
  have hgoes : ¬(!(s.kv c).incoming.contains ⟨slot, layer, idx⟩ ∨ s.pwr.beHeld) := by
    rw [hin, hheld]
    decide
  exact ⟨fun hbad => (if_neg hgoes).trans (if_neg (Bool.eq_false_iff.mp hbad)), fun hgood => ⟨_, rfl, (if_neg hgoes).trans (if_pos hgood)⟩⟩

/-- Settles O35: each command's own lemma; while the power cap holds the work, each stops at its first check. -/
theorem haspCopyCommandsComplete : Obligations.HaspCopyCommandsComplete := by
  refine ⟨fun _ _ => execFirstFrameCopyDone_copies, fun _ _ => execRestoreCopyDone_fills, fun _ _ => execRestoreCopyDone_bad, ?_, ?_, fun c s hheld => ?_⟩
  · exact fun _ _ _ _ _ _ _ _ => execSwapPageSent_of_outgoing
  · exact fun _ _ _ _ _ _ _ => execSwapInPage_of_incoming
  · exact ⟨if_pos (.inr (.inr hheld)), fun _ => if_pos (.inr (.inr hheld)), fun _ _ _ _ => if_pos (.inr hheld), fun _ _ _ _ => if_pos (.inr hheld)⟩

end Sys2Proof.Machine
end

section
/-! Context admission, the selector, the registers of twins, and the checker (chapters 11 to 14; O37, O38). -/

namespace Sys2Proof.Machine

section
variable {s : State} {c : Fin 16}

theorem execKey_admits (hheld : s.held c = false) (hadm : s.admission c = none) : ∃ t : State,
    t = s.modCtx c (fun x => { x with adm := .zeroing, reason := 0, code := 0, acc := {}, hasp := { x.hasp with gen := 0 } }) ∧
    exec (.key c) s = .next { t with bolts := tmap (fun i b => if s.ownBolt c i then {} else b) s.bolts } := by
  refine ⟨_, rfl, (if_neg (by rw [hheld]; decide)).trans ?_⟩
  rw [hadm]
  rfl

theorem execKey_refuses {r : Nat × Nat} (hheld : s.held c = false) (hadm : s.admission c = some r) :
    exec (.key c) s = .next ((s.modCtx c (fun x => { x with reason := r.1, code := r.2 })).event (Reg.CTX_EVENT c) 1) := by
  refine (if_neg (by rw [hheld]; decide)).trans ?_
  rw [hadm]

theorem execZeroingComplete_keys (hadm : (s.ctx c).adm = .zeroing) (hheld : s.pwr.beHeld = false) :
    exec (.zeroingComplete c) s = .next (((s.zeroPartitions c).modCtx c (fun x => { x with adm := .keyed })).event (Reg.CTX_EVENT c) 0) :=
  if_neg (by simp only [hadm, hheld]; decide)

theorem execRelease_frees (hkeyed : (s.ctx c).adm = .keyed) (hload : s.loaded c = false) (hring : s.ctxFn c = 0 ∨ (s.ring (s.ctxFn c)).run = .disabled) :
    exec (.release c) s = .next (s.modCtx c (fun x => { x with adm := .free })) := by
  rw [exec_release, execRelease_of_keyed hkeyed hload, if_neg fun ⟨hfn, hrun⟩ => hring.elim hfn hrun]
  rfl

/-- The selector that CTX_SELECT_HI sets, as a state update. -/
def State.select (s : State) (v : W32) (w : W64) : State := (s.setReg Reg.CTX_SELECT_HI v).modTick (fun k => { k with select := w })

theorem State.select_reg (s : State) (v : W32) (w : W64) : (s.select v w).reg Reg.CTX_SELECT_HI = v := (State.reg_setReg ..).trans (if_pos rfl)

theorem State.select_tick (s : State) (v : W32) (w : W64) : (s.select v w).tick = { s.tick with select := w } := rfl

theorem execCtxSelectHiWrite_selects (v : W32) (s : State) : ∃ t, exec (.ctxSelectHiWrite v) s = .next t ∧ t.reg Reg.CTX_SELECT_HI = v ∧
    t.tick = { s.tick with select := BitVec.ofNat 64 (v.toNat * 2 ^ 32 + (s.setReg Reg.CTX_SELECT_HI v).regN Reg.CTX_SELECT_LO) } :=
  ⟨s.select v _, rfl, State.select_reg .., State.select_tick ..⟩

theorem execHspFoVersionWrite_announces {v : W32} (h : s.tick.master = true) :
    exec (.hspFoVersionWrite v) s = .next ((s.setRegN Reg.HSP_FO_VERSION (v.toNat % 65536)).modTick (fun t => { t with foVersion := some (v.toNat % 65536) })) :=
  congrArg Host.Outcome.next (if_pos h)

/-- A device without a seat in any context becomes a spare, and its rung no lower than 1 (R418). -/
theorem execEnrol_spares (hseat : ∀ c, c < 16 → s.seatOf c = none) (hrung : s.pwr.rung ≤ 1) :
    ∃ t, exec .enrol s = .next t ∧ t.pwr.rung = 1 ∧ t.reg Reg.HSP_SPARE = 1#32 := by
  refine ⟨_, if_neg ?_, ?_, (State.reg_setReg ..).trans (if_pos rfl)⟩
  · simp only [List.any_eq_true, List.mem_range, not_exists, not_and]
    intro c hc
    rw [hseat c hc]
    decide
  · dsimp only
    split
    · rfl
    · next hne => exact Nat.le_antisymm hrung (Nat.pos_of_ne_zero hne)

end

/-- Settles O37, command by command. -/
theorem contextCommandsComplete : Obligations.ContextCommandsComplete := by
  refine ⟨fun _ _ => execKey_admits, fun _ _ _ => execKey_refuses, fun _ _ h => if_pos h, fun _ _ => execZeroingComplete_keys, fun _ _ => execRelease_frees,
    execCtxSelectHiWrite_selects, fun _ _ => ⟨rfl, rfl⟩, fun _ _ _ h => if_neg (Nat.not_le.mpr h), fun _ _ _ h => if_pos h,
    fun _ _ h => ⟨if_pos h, execHspFoVersionWrite_announces h⟩, fun _ => execEnrol_spares⟩

/-! The checker. -/

theorem execPermanenceNotice_delivered {s u : State} {l : Fin 24} {b g : Bytes} {p : Packet} (h : Delivers s l b 0x18 p) (hu : u = s.landed l p) (hg : g = p.payload)
    (hty : u16 g 0 = 4) (hok : permanenceOk g = true) :
    (u.tick.master = true → exec (.permanenceNotice l b) s = .next { u with tick := { u.tick with notices := u.tick.notices ++ [g] } }) ∧
      (u.tick.master = false → exec (.permanenceNotice l b) s = .next u) := by
  subst hg
  have hgood : ¬(!permanenceOk p.payload) = true := by rw [hok]; decide
  exact ⟨fun hmaster => next_takeMsg h hu hty ((if_neg hgood).trans (if_neg (by rw [hmaster]; decide))),
    fun hmaster => next_takeMsg h hu hty ((if_neg hgood).trans (if_pos (by rw [hmaster]; decide)))⟩

theorem execUnitClassHourly_of_noCorrections {s : State} (now : Nat) (h : s.chk.corrections.filter (fun p => p.2 != 0) = []) : ∃ t : State,
    t = { s with mgmt := { s.mgmt with time := max s.mgmt.time now }, chk := { s.chk with corrections := [] } } ∧
    exec (.unitClassHourly now) s = .next (t.over s.chk.classes (fun t p => t.reclass (p.1 / 2 ^ 24) (p.1 % 2 ^ 24))) := by
  refine ⟨_, rfl, ?_⟩
  rw [exec_unitClassHourly, execUnitClassHourly]
  dsimp only
  rw [h]
  rfl

/-- Settles O38, command by command. -/
theorem checkerCommandsComplete : Obligations.CheckerCommandsComplete := by
  refine ⟨fun _ _ _ _ _ _ => execPermanenceNotice_delivered, fun _ _ => rfl, fun u s => ⟨_, _, rfl, rfl, ?_⟩, fun now _ => execUnitClassHourly_of_noCorrections now,
    fun _ h => if_neg (Nat.not_lt.mpr h), fun _ h => if_pos h⟩
  rw [exec_sweepComplete, execSweepComplete]
  simp only [Bool.false_eq_true, if_false, decide_eq_true_eq]

end Sys2Proof.Machine
end

section
/-! Flash programs, relocations, scrubs, remaps and stack temperatures (chapters 8, 9, 14, 19; O39). -/

namespace Sys2Proof.Machine

section
variable {s : State}

theorem execNandProgramDone_completes {block : Nat} {e : Nat × Bytes} {rest : List (Nat × Bytes)} {fail : Bool} (hcache : s.flash.cache = e :: rest)
    (hbusy : s.flash.busy = true) (hblock : e.1 = block) : ∃ u t v : State,
    u = { s with flash := { s.flash with
      cache := rest, busy := false, durable := tput s.flash.durable block e.2, dies := tput s.flash.dies block (s.programDie block),
      reads := tdel s.flash.reads block, programs := s.flash.programs + 1, lost := s.flash.lost.filter (fun b => b != block) } } ∧
    t = (u.settleFlushes false block).over (List.range 16) (fun s c => (s.pumpDurable c).settleDurable c) ∧
    v = (if fail then t.dieFails (s.programDie block) else t) ∧
    exec (.nandProgramDone block fail) s = .next (if v.spareOut then v.flashReadOnly else v).nextFlush := by
  refine ⟨_, _, _, rfl, rfl, rfl, ?_⟩
  rw [exec_nandProgramDone, execNandProgramDone, hcache]
  exact if_neg (by rw [hbusy, hblock]; simp)

theorem execReadDisturbRelocate_relocates {block : Nat} (hreads : (if Config.qlcNand then 20000 else 100000) ≤ tget (fun _ => 0) s.flash.reads block)
    (hinhibited : s.inhibited = false) (hheld : s.pwr.beHeld = false) :
    exec (.readDisturbRelocate block) s = .next (({ s with flash := { s.flash with
      reads := tdel s.flash.reads block, dies := tput s.flash.dies block (s.programDie block),
      programs := s.flash.programs + 1 } } : State).count Reg.MEM_FL_RELOCS) :=
  if_neg (by simp only [hinhibited, hheld, Nat.not_lt.mpr hreads]; decide)

/-- A row that nothing keeps from its remap. -/
def State.remaps (s : State) (row : Nat) : Prop :=
  s.stack.scheduled.contains row = true ∧ s.stack.switching.contains row = false ∧ s.recordRunning = false ∧ s.stack.copied.contains (rowVault row) = false ∧
    s.pwr.beHeld = false

/-- What a remap that nothing keeps does. -/
theorem execRowRemap_of_remaps {row : Nat} {bad : Bool} (h : s.remaps row) : exec (.rowRemap row bad) s =
    if s.sparesLeft (row / 4096) = 0 then .next (s.event Reg.MEM_STK_EVENT 6)
    else if bad then .next (({ s with stack := { s.stack with copied := s.stack.copied ++ [rowVault row] } } : State).dramUe (rowAddr row))
    else .next { s with stack := { s.stack with copied := s.stack.copied ++ [rowVault row], switching := s.stack.switching ++ [row] } } := by
  obtain ⟨hscheduled, hswitching, hrunning, hcopied, hheld⟩ := h
  exact if_neg (by rw [hscheduled, hswitching, hrunning, hcopied, hheld]; decide)

theorem execStackTempSample_shows {readings : List Nat} {now : Nat} (htrip : s.rst.tripHold = false) (hcool : ∀ t ∈ layerReadings readings, t < 105) : ∃ u : State,
    u = { s with stack := { s.stack with
      readings := layerReadings readings
      valid := s.stack.valid && !(s.rst.active && (layerReadings readings).any (fun t => decide (95 < t))) } } ∧
    exec (.stackTempSample readings now) s = .next u.showLayers.showTemp := by
  refine ⟨_, rfl, (if_neg ?_).trans (if_neg ?_)⟩
  · exact Bool.eq_false_iff.mp htrip
  · simpa using hcool

end

/-- Settles O39, command by command. -/
theorem storageCommandsComplete : Obligations.StorageCommandsComplete := by
  refine ⟨fun _ _ _ _ _ => execNandProgramDone_completes, fun _ _ => execReadDisturbRelocate_relocates, fun row errs s hheld => ?_, ?_, ?_, fun s hheld => ?_, fun _ _ => rfl,
    fun _ _ _ => execStackTempSample_shows⟩
  · exact congrArg Host.Outcome.next (if_neg (Bool.eq_false_iff.mp hheld))
  · rintro row s u hscheduled hswitching hrunning hcopied hheld hspares rfl
    have hremaps : s.remaps row := ⟨hscheduled, hswitching, hrunning, hcopied, hheld⟩
    exact ⟨(execRowRemap_of_remaps hremaps).trans (if_neg hspares), (execRowRemap_of_remaps hremaps).trans (if_neg hspares)⟩
  · intro row bad s hscheduled hswitching hrunning hcopied hheld hspares
    exact (execRowRemap_of_remaps ⟨hscheduled, hswitching, hrunning, hcopied, hheld⟩).trans (if_pos hspares)
  · exact ⟨fun _ => if_pos (.inr (.inr hheld)), fun _ _ => congrArg Host.Outcome.next (if_pos hheld), fun _ _ => if_pos (.inr (.inr (.inr (.inr hheld))))⟩

end Sys2Proof.Machine
end

section
/-! Ingest, decode, live streams, the archive and the adapter cache (chapters 9, 15, 16; O40). -/

namespace Sys2Proof.Machine

/-! Ingest and the adapter cache. -/

section
variable {s : State} {c : Fin 16}

theorem execRecordIngest_reads {l : List HeaderScan} {flashBad bad : Bool} {at_ n : Nat} (hingests : s.ingests c = true) (hswitching : s.media.switching = false)
    (hsource : s.ingSource c = 0) (hpaused : (s.ing c).pausedReading = false) (hmount : s.flash.mount = 2) (hshards : s.shardCount c ≠ 0)
    (hat : at_ = ((s.shardAt c (s.ing c).shard).1 + (s.ing c).offset) / 4096)
    (hn : n = cdiv (frameSize (u32 (s.flashRead ((s.shardAt c (s.ing c).shard).1 + (s.ing c).offset) 8) 0)) 4096 + 2)
    (hbad : bad = (flashBad || s.flashLost (s.flash.lost.filter (fun b => decide (at_ ≤ b ∧ b < at_ + n))))) :
    exec (.recordIngest c l flashBad) s = .next (shardGo c l bad (2 * s.shardCount c + 2) (s.eventIf (s.limitsHigh c) (Reg.MED_ING_EVENT c) 3)) := by
  subst hat hn hbad
  exact if_neg (by simp only [hingests, hswitching, hsource, hpaused, hmount, hshards]; decide)

theorem execBatchDeadline_falls (hrun : (s.hasp c).run = true) (hopen : (s.hasp c).stepOpen = true) (hperm : (s.ctx c).perm.state < 2)
    (hstep : (s.hasp c).stepTick = s.batchTick c) : exec (.batchDeadline c) s = .next (dueGo c 2 s) :=
  if_neg (by simp only [hrun, hopen, hstep]; simp; omega)

theorem execAdapterTransferDone_writesBack {v f : Nat} (hframe : s.adpFrame c v = some f) (hhead : (s.adp c).writeBacks.head? = some v) (hheld : s.pwr.beHeld = false) :
    exec (.adapterTransferDone c v false) s = .next ((s.copySlot c v f false).modAdp c (fun a => { a with
      writeBacks := a.writeBacks.drop 1,
      frames := a.frames.map (fun x => if x.variant = some v then { x with dirty := false } else x) })) := by
  refine (if_neg (Bool.eq_false_iff.mp hheld)).trans ((if_pos rfl).trans ?_)
  rw [hframe]
  exact if_pos hhead

theorem execAdapterTransferDone_fills {v f named : Nat} {rest : List (Nat × Nat)} (hnone : (s.adp c).writeBacks = []) (hfills : (s.adp c).fills = (v, named) :: rest)
    (hframe : s.fillFrame c = some f) (hheld : s.pwr.beHeld = false) :
    exec (.adapterTransferDone c v true) s = .next ((s.copySlot c v f true).modAdp c (fun a => { a with
      fills := rest, frames := a.frames.set f { variant := some v, dirty := false, named := named } })) := by
  refine (if_neg (Bool.eq_false_iff.mp hheld)).trans ((if_neg (by decide)).trans ?_)
  rw [hnone, hfills, hframe]
  exact if_neg (not_not.mpr rfl)

/-- A record under decode: what becomes of it, by its items. -/
theorem execRecordDecoded_of_reading {items : List ItemSource} {ns : Nat} {r : IngRecord} {u : State} (hreading : (s.ing c).reading.find? (fun r => !r.decoded) = some r)
    (hu : u = s.account c 3 ns) :
    exec (.recordDecoded c false items ns) s = .next (u.rejectDecode c r 0x21).feedEngines ∧
    (r.pics ≠ 0 → exec (.recordDecoded c true items ns) s = .next s) ∧
    (r.pics = 0 → recordOf (u.keepsVariants c) r.frame = none → exec (.recordDecoded c true items ns) s = .next (u.rejectDecode c r 0x21).feedEngines) ∧
    (r.pics = 0 → ∀ m l, recordOf (u.keepsVariants c) r.frame = some m → u.decodeItems c m.items items = .ok l →
      exec (.recordDecoded c true items ns) s = .next (((u.freeDecode r.uid).modReading c r.uid (fun r => u.decodedRec c r l)).settleIngest c).feedEngines) ∧
    (r.pics = 0 → ∀ m e, recordOf (u.keepsVariants c) r.frame = some m → u.decodeItems c m.items items = .error e →
      exec (.recordDecoded c true items ns) s = .next (u.rejectDecode c r e).feedEngines) := by
  subst hu
  simp only [exec_recordDecoded, execRecordDecoded, hreading]
  refine ⟨by simp, fun hpics => by simp [hpics], fun hpics hrecord => ?_, fun hpics m l hrecord hitems => ?_, fun hpics m e hrecord hitems => ?_⟩
  · simp [hpics, hrecord]
  · simp [hpics, hrecord, hitems]
  · simp [hpics, hrecord, hitems]

end

/-! Decode engines. -/

section
variable {s : State} {e : Fin 4} {own : Nat} {refs : List (Nat × Nat)} {outs : List (Nat × RawPic)} {ns : Nat}

theorem execPictureDecoded_live {p : LivePic} (hcurrent : (s.engine e).current = some p) : ∃ t u v : State,
    t = s.account (s.liveCtx p.stream) 3 ns ∧
    u = t.setPool p.stream (markPool (t.pool p.stream) (s.engine e).buffer own refs (outs.map (·.1))) ∧
    v = (u.count (Reg.MED_ENG_PICS e)).modEngine e (fun x => { x with current := none }) ∧
    exec (.pictureDecoded e own refs outs ns) s =
      .next ((v.over outs (fun s o => s.liveOutput p o.2)).complete p.cmd.1 0x21 p.cmd.2 0).feedEngines ∧
    exec (.decodeTimeout e ns) s = .next ((t.abandonPic e).unitEvent 10 e 0x0B false none).feedEngines := by
  refine ⟨_, _, _, rfl, rfl, rfl, ?_, ?_⟩
  · simp only [exec_pictureDecoded, execPictureDecoded, hcurrent]
    rfl
  · simp only [exec_decodeTimeout, execDecodeTimeout, hcurrent]

theorem execPictureDecoded_record {j : Nat × Nat} (hcurrent : (s.engine e).current = none) (hjob : (s.engine e).job = some j) : ∃ t u : State,
    t = s.account j.1 3 ns ∧
    u = t.setPool (64 + j.2) (markPool (t.pool (64 + j.2)) (s.engine e).buffer own refs (outs.map (·.1))) ∧
    exec (.pictureDecoded e own refs outs ns) s =
      .next (((u.count (Reg.MED_ENG_PICS e)).modEngine e (fun x => { x with job := none })).recordPicDone j.1 j.2).feedEngines ∧
    exec (.decodeTimeout e ns) s = .next ((t.faultRecord e j.1 j.2).unitEvent 10 e 0x0B false none).feedEngines := by
  refine ⟨_, _, rfl, rfl, ?_, ?_⟩
  · simp only [exec_pictureDecoded, execPictureDecoded, hcurrent, hjob]
    rfl
  · simp only [exec_decodeTimeout, execDecodeTimeout, hcurrent, hjob]

end

/-! Live streams, the archive and the media firmware. -/

section
variable {s : State}

theorem execLivePictureLate_drops {st : Fin 64} {p : LivePic} {l : List LivePic} (hwaiting : (s.stream st).waiting = p :: l) :
    exec (.livePictureLate st) s = .next ((((s.modLive st (fun v => { v with waiting := l })).event (Reg.MED_LIVE_EVENT st) 0).dropPic p).skipToRap st) := by
  simp only [exec_livePictureLate, execLivePictureLate, hwaiting]

/-- A write of MED_LIVE_CTRL between stopped contexts turns the stream off; with EN it is then admitted or refused. -/
theorem execLiveStreamEnable_of_stopped {st : Fin 64} {v : W32} (hphase : (s.hasp (v.toNat % 16)).phase = .stopped)
    (hoff : bit (s.regN (Reg.MED_LIVE_CTRL st)) 31 = false) : ∃ t : State,
    t = (((((s.setRegN (Reg.MED_LIVE_CTRL st) (liveCtrl v.toNat).1).eventIf (liveCtrl v.toNat).2 Reg.MED_FE_EVENT 6).dropWaiting st).releaseStream st).modLive st
      (fun _ => {})).setPool st [] ∧
    (bit (liveCtrl v.toNat).1 31 = false → exec (.liveStreamEnable st v) s = .next t.feedEngines) ∧
    (bit (liveCtrl v.toNat).1 31 = true → (t.admitStream st 2).2 = true → exec (.liveStreamEnable st v) s =
      .next (((t.admitStream st 2).1.setPool st (List.replicate ((t.admitStream st 2).1.livePool st) {})).feedEngines)) ∧
    (bit (liveCtrl v.toNat).1 31 = true → (t.admitStream st 2).2 = false → exec (.liveStreamEnable st v) s =
      .next ((t.admitStream st 2).1.event (Reg.MED_LIVE_EVENT st) 4)) := by
  have hgoes : ¬((!((s.hasp (v.toNat % 16)).phase == .stopped)) = true ∨
      (bit (s.regN (Reg.MED_LIVE_CTRL st)) 31 = true ∧ (!((s.hasp (s.regN (Reg.MED_LIVE_CTRL st) % 16)).phase == .stopped)) = true)) := by
    rw [hphase, hoff]
    simp
  simp only [exec_liveStreamEnable, execLiveStreamEnable, if_neg hgoes]
  obtain ⟨w, clamped⟩ := liveCtrl v.toNat
  refine ⟨_, rfl, fun hen => ?_, fun hen hadmit => ?_, fun hen hadmit => ?_⟩
  · rw [if_pos (by rw [hen]; rfl)]
  · rw [if_neg (by rw [hen]; decide)]
    split
    · next heq => rw [heq]
    · next heq =>
      rw [heq] at hadmit
      exact absurd hadmit Bool.false_ne_true
  · rw [if_neg (by rw [hen]; decide)]
    split
    · next heq =>
      rw [heq] at hadmit
      exact absurd hadmit.symm Bool.false_ne_true
    · next heq => rw [heq]

theorem execArchiveEncodeDone_joins {b : Bytes} {q : Nat × Nat × Nat} {l : List (Nat × Nat × Nat)} {v : State} (hv : v = marksGo s.media.archQueue s)
    (hqueue : v.media.archQueue = q :: l) : ∃ t u : State,
    t = ((v.modMedia (fun m => { m with archQueue := l })).account q.1 3 q.2.2).modLive q.2.1 (fun x => { x with units := x.units ++ [b] }) ∧
    u = (if max 1 (bits (t.regN Reg.MED_ARCH_CTRL) 21 16) ≤ (t.stream q.2.1).units.length then t.closeGroup q.1 q.2.1 else t) ∧
    exec (.archiveEncodeDone b) s = .next (marksGo u.media.archQueue u) := by
  subst hv
  refine ⟨_, _, rfl, rfl, ?_⟩
  simp only [exec_archiveEncodeDone, execArchiveEncodeDone, hqueue]

theorem execMediaFwSwitchDone_switches (hswitching : s.media.switching = true) (hidle : s.mediaBusy = false) : ∃ t u v : State,
    t = s.answerGone.modMedia (fun m => { m with switching := false }) ∧
    u = (t.setRegN Reg.MED_FW_GEN ((t.regN Reg.MED_FW_GEN + 1) % 256)).event Reg.MED_FE_EVENT 2 ∧
    (u.mgmt.verified.find? (fun p => p.1 == 2) = none → v = u) ∧
    (∀ q, u.mgmt.verified.find? (fun p => p.1 == 2) = some q → v = { u.setReg Reg.MED_FW_VERSION (Config.imageVersion q.2) with
      mgmt := { u.mgmt with inUse := tput u.mgmt.inUse 2 q.2 } }) ∧
    exec .mediaFwSwitchDone s = .next (if v.anyLoaded then v.returnLater 16 else v).feedEngines := by
  refine ⟨_, _, _, rfl, rfl, fun hnone => ?_, fun q hq => ?_, if_neg (by rw [hswitching, hidle]; decide)⟩
  · dsimp only at hnone ⊢
    rw [hnone]
  · dsimp only at hq ⊢
    rw [hq]

end

/-- Settles O40, command by command. -/
theorem mediaCommandsComplete : Obligations.MediaCommandsComplete := by
  refine ⟨fun _ _ _ _ _ _ _ => execRecordIngest_reads, fun _ _ _ _ _ _ => execRecordDecoded_of_reading, fun _ _ => execBatchDeadline_falls,
    fun _ _ _ _ => execAdapterTransferDone_writesBack, fun _ _ _ _ _ _ => execAdapterTransferDone_fills, fun _ _ _ _ _ _ _ => execPictureDecoded_live,
    fun _ _ _ _ _ _ _ => execPictureDecoded_record, fun _ _ _ _ => execLivePictureLate_drops, fun _ _ _ => execLiveStreamEnable_of_stopped,
    fun _ _ _ _ _ => execArchiveEncodeDone_joins, fun _ => execMediaFwSwitchDone_switches⟩

end Sys2Proof.Machine
end

section
/-! Ring sets and the commands of the admin ring (chapters 9, 16, 17; O41, O42, O44). -/

namespace Sys2Proof.Machine

/-! Ring sets. -/

section
variable {s : State} {fn : Fin 17}

/-- A poll while the host side is up. -/
theorem execRingPoll_of_up {w : RingWords} {pkts : List RingPacket} (hreset : s.rst.hostReset = false) (hreturn : s.rst.returning.contains 18 = false) :
    exec (.ringPoll fn w pkts) s = (match (s.ring fn).run with
      | .starting => if w = ⟨0, 0, 0, 0, 0, 0⟩ then .next (s.ringUp fn) else .next (s.ringError fn 2)
      | .running =>
        if w.cmdTail < (s.ring fn).head ∨ (s.ring fn).head + (s.ringSizes fn).1 < w.cmdTail then .next (s.ringError fn 2)
        else .next ((fetchGo fn pkts ((s.modRing fn (fun r =>
          { r with cmdTail := w.cmdTail, cplHead := w.cplHead, evtHead := w.evtHead, stalled := false })).ringDrain fn)).showHead fn)
      | _ => .next s) :=
  if_neg (by rw [hreset, hreturn]; decide)

theorem execRingPoll_starting {w : RingWords} {pkts : List RingPacket} (hreset : s.rst.hostReset = false) (hreturn : s.rst.returning.contains 18 = false)
    (hrun : (s.ring fn).run = .starting) :
    exec (.ringPoll fn w pkts) s = .next (if w = ⟨0, 0, 0, 0, 0, 0⟩ then s.ringUp fn else s.ringError fn 2) := by
  rw [execRingPoll_of_up hreset hreturn, hrun]
  exact (apply_ite Host.Outcome.next _ _ _).symm

theorem execRingPoll_running {w : RingWords} {pkts : List RingPacket} (hreset : s.rst.hostReset = false) (hreturn : s.rst.returning.contains 18 = false)
    (hrun : (s.ring fn).run = .running) :
    ((s.ring fn).head ≤ w.cmdTail → w.cmdTail ≤ (s.ring fn).head + (s.ringSizes fn).1 → exec (.ringPoll fn w pkts) s =
      .next ((fetchGo fn pkts ((s.modRing fn (fun r => { r with cmdTail := w.cmdTail, cplHead := w.cplHead, evtHead := w.evtHead, stalled := false })).ringDrain fn)).showHead fn)) ∧
    ((w.cmdTail < (s.ring fn).head ∨ (s.ring fn).head + (s.ringSizes fn).1 < w.cmdTail) → exec (.ringPoll fn w pkts) s = .next (s.ringError fn 2)) := by
  rw [execRingPoll_of_up hreset hreturn, hrun]
  exact ⟨fun hlow hhigh => if_neg (by omega), fun hout => if_pos hout⟩

theorem execRingPoll_idles {w : RingWords} {pkts : List RingPacket} (hrun : (s.ring fn).run = .disabled ∨ (s.ring fn).run = .error) :
    exec (.ringPoll fn w pkts) s = .next s := by
  rw [exec_ringPoll, execRingPoll]
  split
  · rfl
  · rcases hrun with h | h <;> rw [h]

theorem execRingEnable_starts {u : State} (hrun : (s.ring fn).run = .disabled) (hreset : s.rst.hostReset = false) (hu : u = s.setRegN (Reg.RING_CTRL fn) 1)
    (hctx : fn.val = 0 ∨ u.fnCtx fn ≠ none)
    (halign : ∀ p ∈ [(Reg.RING_CB_LO fn, 64), (Reg.RING_CMD_LO fn, 4096), (Reg.RING_CPL_LO fn, 4096), (Reg.RING_EVT_LO fn, 4096)], u.regN p.1 % p.2 = 0)
    (hsizes : 10 ≤ bits (u.regN (Reg.RING_SIZES fn)) 4 0 ∧ bits (u.regN (Reg.RING_SIZES fn)) 4 0 ≤ 20 ∧ 6 ≤ bits (u.regN (Reg.RING_SIZES fn)) 12 8 ∧
      bits (u.regN (Reg.RING_SIZES fn)) 12 8 ≤ 20 ∧ 10 ≤ bits (u.regN (Reg.RING_SIZES fn)) 20 16 ∧ bits (u.regN (Reg.RING_SIZES fn)) 20 16 ≤ 20) :
    exec (.ringEnable fn) s = .next (u.modRing fn (fun r => { r with run := .starting })) := by
  subst hu
  simp only [List.forall_mem_cons, List.not_mem_nil, false_implies, implies_true, and_true] at halign
  obtain ⟨hcb, hcmd, hcpl, hevt⟩ := halign
  refine (if_neg ?_).trans ((if_neg ?_).trans (if_pos ?_))
  · rw [hrun, hreset]
    decide
  · rintro ⟨hne, hnone⟩
    exact hctx.elim hne fun hsome => hsome hnone
  · dsimp only
    rw [hcb, hcmd, hcpl, hevt, decide_eq_true hsizes]
    rfl

theorem execRingEnable_of_enabled (hrun : (s.ring fn).run ≠ .disabled) : exec (.ringEnable fn) s = .next s := if_pos (.inl hrun)

theorem execPerstAssert_resets (hreset : s.rst.hostReset = false) : ∃ u t : State, u = s.resetHost.event Reg.RST_CAUSE 3 ∧
    t = (u.setRegN Reg.RST_HOST_GEN ((s.regN Reg.RST_HOST_GEN + 1) % 256)).returnLater 18 ∧
    exec .perstAssert s = .next { t with rst := { t.rst with hostReset := true, lastScope := 2 } } :=
  ⟨_, _, rfl, rfl, if_neg (Bool.eq_false_iff.mp hreset)⟩

end

/-- Settles O41, command by command. -/
theorem ringCommandsComplete : Obligations.RingCommandsComplete := by
  refine ⟨fun _ _ _ _ => execRingPoll_starting, fun _ _ _ _ => execRingPoll_running, fun _ _ _ _ => execRingPoll_idles, ?_, fun _ _ => execRingEnable_of_enabled,
    fun _ _ => rfl, fun fn s => ⟨fun h => if_neg h, fun h => if_neg h⟩, fun _ _ h => if_neg h, fun _ => rfl, fun _ => execPerstAssert_resets, fun _ => rfl, fun _ _ => rfl⟩
  intro fn s u hrun hreset hu hctx halign h1 h2 h3 h4 h5 h6
  exact execRingEnable_starts hrun hreset hu hctx halign ⟨h1, h2, h3, h4, h5, h6⟩

/-! The commands of the admin ring. -/

section
variable {s u : State} {cmd : HostCmd}

theorem execNop_completes {fn : Fin 17} (h : s.takeCmd fn 1 cmd = some u) : exec (.nop fn cmd) s = .next (u.complete fn 1 cmd 0) := by
  rw [exec_nop, execNop, h]

theorem execFmCmd_sends (h : s.takeCmd 0 2 cmd = some u) (hpayload : cmd.payload ≠ []) (hlen : cmd.payload.length ≤ 4096) (hprobe : bit cmd.arg2 0 = false) :
    ∃ (p : Packet) (t : State),
      p = u.fmPacket 0x21 16 (cmd.arg0 % 65536) 32 (cmd.arg1 % 2 ^ 64) u.fabric.nextSeq cmd.payload ∧
      t = { u with fabric := { u.fabric with
        nextSeq := (u.fabric.nextSeq + 1) % 65536
        requests := u.fabric.requests ++ [(⟨u.fabric.nextSeq, p, u.tick.now, 0, some (0, cmd)⟩ : Request)] } } ∧
      exec (.fmCmd 0 cmd) s = .next (t.sendRouted p) := by
  refine ⟨_, _, rfl, rfl, (adminCmd_begins h).trans (congrArg Host.Outcome.next ?_)⟩
  dsimp only
  rw [if_neg (by simp [hpayload, hlen, hprobe]), hprobe, if_neg Bool.false_ne_true, if_neg Bool.false_ne_true]
  rfl

theorem execTokLoad_loads (h : s.takeCmd 0 3 cmd = some u) (htable : cmd.arg0 < 4) (hok : tokTableOk cmd.payload = true) (hgone : u.mediaGone = false)
    (hnamed : u.tokNamed cmd.arg0 = false) :
    exec (.tokLoad 0 cmd) s = .next ((u.modMedia (fun m => { m with tokens := tput m.tokens cmd.arg0 cmd.payload })).complete 0 3 cmd 0) := by
  refine (adminCmd_begins h).trans (congrArg Host.Outcome.next ((if_neg ?_).trans (if_neg ?_)))
  · simp [htable, hok]
  · rw [hgone, hnamed]
    decide

/-! Flash commands: on a mounted store, before the mount ends, and after it failed (R299). -/

theorem flashCmd_mounted {fn op : Nat} {bad : Bool} {f : State → State} (h : u.flash.mount = 2) : u.flashCmd fn op cmd bad f = f u :=
  (if_neg (by omega)).trans (if_neg (by omega))

theorem flashCmd_mounting {fn op : Nat} {bad : Bool} {f : State → State} (h : u.flash.mount < 2) :
    u.flashCmd fn op cmd bad f = { u with flash := { u.flash with held := u.flash.held ++ [(fn, op, cmd, bad)] } } := if_pos h

theorem flashCmd_failed {fn op : Nat} {bad : Bool} {f : State → State} (h : u.flash.mount = 3) : u.flashCmd fn op cmd bad f = u.complete fn op cmd 2 :=
  (if_neg (by omega)).trans (if_pos h)

theorem flashWriteNow_accepts (hpayload : cmd.payload ≠ []) (hblocks : cmd.payload.length % 4096 = 0) (hcapacity : cmd.arg0 + cmd.payload.length / 4096 ≤ u.flashBlocks)
    (hrefusal : u.flashRefusal = 0) : ∃ p : State × Bool,
      p = acceptGo ((List.range (cmd.payload.length / 4096)).map (fun i => (cmd.arg0 + i, slice cmd.payload (4096 * i) 4096))) u ∧
      u.flashWriteNow 0 cmd = if p.2 then p.1.complete 0 4 cmd 0 else (p.1.event Reg.MEM_FL_EVENT 0).complete 0 4 cmd 8 := by
  have hlen : cmd.payload.length ≠ 0 := List.length_eq_zero_iff.not.mpr hpayload
  exact ⟨_, rfl, (if_neg (not_or.mpr ⟨hlen, not_not.mpr hblocks⟩)).trans ((if_neg (Nat.not_lt.mpr hcapacity)).trans (if_neg (not_not.mpr hrefusal)))⟩

theorem flashReadNow_reads {bad : Bool} (hpos : 0 < cmd.arg1) (hmax : cmd.arg1 ≤ 16384) (hcapacity : cmd.arg0 + cmd.arg1 ≤ u.flashBlocks) : ∃ t : State,
      t = u.countReads ((List.range cmd.arg1).map (fun i => cmd.arg0 + i)) ∧
      u.flashReadNow 0 cmd bad =
        if bad ∨ t.flashLost ((List.range cmd.arg1).map (fun i => cmd.arg0 + i)) then (t.flashUnrecoverable cmd.arg0).complete 0 5 cmd 11
        else (t.replyData 0 cmd.id (t.flashRead (cmd.arg0 * 4096) (cmd.arg1 * 4096))).completeR 0 5 cmd 0 (cmd.arg1 * 4096) :=
  ⟨_, rfl, if_neg (by omega)⟩

theorem execFlashWrite_writes (h : s.takeCmd 0 4 cmd = some u) (hmount : u.flash.mount = 2) (hpayload : cmd.payload ≠ []) (hblocks : cmd.payload.length % 4096 = 0)
    (hcapacity : cmd.arg0 + cmd.payload.length / 4096 ≤ u.flashBlocks) (hrefusal : u.flashRefusal = 0) : ∃ p : State × Bool,
      p = acceptGo ((List.range (cmd.payload.length / 4096)).map (fun i => (cmd.arg0 + i, slice cmd.payload (4096 * i) 4096))) u ∧
      exec (.flashWrite 0 cmd) s = .next (if p.2 then p.1.complete 0 4 cmd 0 else (p.1.event Reg.MEM_FL_EVENT 0).complete 0 4 cmd 8) := by
  obtain ⟨p, hp, hnow⟩ := flashWriteNow_accepts hpayload hblocks hcapacity hrefusal
  exact ⟨p, hp, (adminCmd_begins h).trans (congrArg Host.Outcome.next ((flashCmd_mounted hmount).trans hnow))⟩

theorem execFlashRead_reads (h : s.takeCmd 0 5 cmd = some u) (hmount : u.flash.mount = 2) (hpos : 0 < cmd.arg1) (hmax : cmd.arg1 ≤ 16384)
    (hcapacity : cmd.arg0 + cmd.arg1 ≤ u.flashBlocks) : ∃ t : State,
      t = u.countReads ((List.range cmd.arg1).map (fun i => cmd.arg0 + i)) ∧
      (t.flashLost ((List.range cmd.arg1).map (fun i => cmd.arg0 + i)) = false → exec (.flashRead 0 cmd false) s =
        .next ((t.replyData 0 cmd.id (t.flashRead (cmd.arg0 * 4096) (cmd.arg1 * 4096))).completeR 0 5 cmd 0 (cmd.arg1 * 4096))) ∧
      (t.flashLost ((List.range cmd.arg1).map (fun i => cmd.arg0 + i)) = true →
        exec (.flashRead 0 cmd false) s = .next ((t.flashUnrecoverable cmd.arg0).complete 0 5 cmd 11)) ∧
      exec (.flashRead 0 cmd true) s = .next ((t.flashUnrecoverable cmd.arg0).complete 0 5 cmd 11) := by
  have hexec (bad : Bool) : exec (.flashRead 0 cmd bad) s = .next (u.flashReadNow 0 cmd bad) :=
    (adminCmd_begins h).trans (congrArg Host.Outcome.next (flashCmd_mounted hmount))
  obtain ⟨t, ht, hfalse⟩ := flashReadNow_reads (bad := false) hpos hmax hcapacity
  obtain ⟨-, rfl, htrue⟩ := flashReadNow_reads (bad := true) hpos hmax hcapacity
  subst ht
  refine ⟨_, rfl, fun hgood => ?_, fun hlost => ?_, ?_⟩
  · rw [hexec, hfalse, if_neg (by rw [hgood]; simp)]
  · rw [hexec, hfalse, if_pos (.inr hlost)]
  · rw [hexec, htrue, if_pos (.inl rfl)]

theorem execFlashTrim_of_taken (h : s.takeCmd 0 6 cmd = some u) :
    exec (.flashTrim 0 cmd) s = .next (u.flashCmd 0 6 cmd false (fun s => s.flashTrimNow 0 cmd)) := adminCmd_begins h

theorem execFlashFlush_of_mounted (h : s.takeCmd 0 7 cmd = some u) (hmount : u.flash.mount = 2) :
    exec (.flashFlush 0 cmd) s = .next (u.flashFlushNow 0 cmd) :=
  (adminCmd_begins h).trans (congrArg Host.Outcome.next (flashCmd_mounted hmount))

theorem execFlashFormat_erases (h : s.takeCmd 0 8 cmd = some u) (hmount : u.flash.mount = 2) (hloaded : u.anyLoaded = false) (hinhibited : u.inhibited = false) :
    ∃ t v : State,
      t = { u with flash := { u.flash with
        cache := [], busy := false, durable := [], dies := [], reads := [], lost := [], flushWaits := [],
        overprov := clamp 70 280 (u.regN Reg.MEM_FL_CTRL % 1024) } } ∧
      v = t.over u.flash.flushWaits (fun s e => s.complete e.1 7 e.2.1 0) ∧ exec (.flashFormat 0 cmd) s = .next (v.complete 0 8 cmd 0) :=
  ⟨_, _, rfl, rfl, (adminCmd_begins h).trans (congrArg Host.Outcome.next ((flashCmd_mounted hmount).trans
    ((if_neg (Bool.eq_false_iff.mp hloaded)).trans (if_neg (Bool.eq_false_iff.mp hinhibited)))))⟩

end

/-- Settles O42, command by command. -/
theorem adminCommandsComplete : Obligations.AdminCommandsComplete := by
  refine ⟨fun _ _ _ _ => execNop_completes, fun cmd s u => ⟨execFmCmd_sends, execTokLoad_loads, execFlashWrite_writes, execFlashRead_reads, ?_, ?_, ?_,
    execFlashFormat_erases, ?_, ?_⟩⟩
  · exact fun h hmount _ => (execFlashTrim_of_taken h).trans (congrArg Host.Outcome.next (flashCmd_mounted hmount))
  · exact fun h hmount hempty => (execFlashFlush_of_mounted h hmount).trans (congrArg Host.Outcome.next (if_pos (List.map_eq_nil_iff.mpr hempty)))
  · exact fun h hmount hcache => (execFlashFlush_of_mounted h hmount).trans (congrArg Host.Outcome.next (if_neg (List.map_eq_nil_iff.not.mpr hcache)))
  · exact fun h hmount => (execFlashTrim_of_taken h).trans (congrArg Host.Outcome.next (flashCmd_mounting hmount))
  · exact fun h hmount => (execFlashTrim_of_taken h).trans (congrArg Host.Outcome.next (flashCmd_failed hmount))

/-- Settles O44: a command of the admin ring asks the function first, one of a VF ring its context. -/
theorem ringOfTheWrongKind : Obligations.RingOfTheWrongKind := by
  refine ⟨fun fn cmd bad s u hfn => ⟨?_, ?_, ?_, ?_, ?_, ?_, ?_⟩, fun fn cmd errs s u hctx => ⟨?_, ?_, ?_, ?_, ?_, ?_, ?_, ?_, ?_, ?_⟩⟩
  · exact fun h => (exec_fmCmd ..).trans (adminCmd_other h hfn)
  · exact fun h => (exec_tokLoad ..).trans (adminCmd_other h hfn)
  · exact fun h => (exec_flashWrite ..).trans (adminCmd_other h hfn)
  · exact fun h => (exec_flashRead ..).trans (adminCmd_other h hfn)
  · exact fun h => (exec_flashTrim ..).trans (adminCmd_other h hfn)
  · exact fun h => (exec_flashFlush ..).trans (adminCmd_other h hfn)
  · exact fun h => (exec_flashFormat ..).trans (adminCmd_other h hfn)
  · exact fun h => (exec_planLoad ..).trans (vfCmd_noCtx h hctx)
  · exact fun h => (exec_planStart ..).trans (vfCmd_noCtx h hctx)
  · exact fun h => (exec_planUnload ..).trans (vfCmd_noCtx h hctx)
  · exact fun h => (exec_waitEpoch ..).trans (vfCmd_noCtx h hctx)
  · exact fun h => (exec_stateRead ..).trans (vfCmd_noCtx h hctx)
  · exact fun h => (exec_stateWrite ..).trans (vfCmd_noCtx h hctx)
  · exact fun h _ => (exec_record ..).trans (vfCmd_noCtx h hctx)
  · exact fun h => ⟨(exec_ringBoltAdd ..).trans (vfCmd_noCtx h hctx), (exec_ringBoltSet ..).trans (vfCmd_noCtx h hctx)⟩
  · exact fun h _ _ _ _ _ => (exec_live ..).trans (vfCmd_noCtx h hctx)
  · exact fun h _ _ => (exec_sensor ..).trans (vfCmd_noCtx h hctx)

end Sys2Proof.Machine
end

section
/-! The management controller: a message is silent during a restart, refused outside a session where the command is marked S,
and answered otherwise. -/
namespace Sys2Proof.Machine

section
variable {s : State}

/-- A binding answers while the controller does not restart and, on VDM, while the host side is up. -/
theorem onBinding_awake {vdm : Bool} {f : State → State} (h : s.mgmt.restarting = false) (hvdm : vdm = true → s.vdmUp = true) :
    s.onBinding vdm f = .next (f s) :=
  (if_neg (fun ⟨hv, hdown⟩ => by simp [hvdm hv] at hdown)).trans (answers_awake h)

/-- No binding answers during a restart. -/
theorem onBinding_restarting {vdm : Bool} {f : State → State} (h : s.mgmt.restarting = true) : s.onBinding vdm f = .next s :=
  (ite_congr rfl (fun _ => rfl) (fun _ => answers_restarting h)).trans (ite_self _)

/-- After the negotiation an SPDM request is answered. -/
theorem afterNegotiation_negotiated {f : State → State} (h : s.mgmt.restarting = false) (hneg : s.mgmt.negotiated = true) :
    s.afterNegotiation f = .next (f s) := (answers_awake h).trans (congrArg Host.Outcome.next (if_pos hneg))

/-- A request for a session that is where the request asks for is answered. -/
theorem onSession_found {n : Nat} {est : Bool} {f : State → State} (h : s.mgmt.restarting = false)
    (hsess : (s.mgmt.sessions.any (fun p => p.1 == n && p.2 == est)) = true) : s.onSession n est f = .next (f s) :=
  (answers_awake h).trans (congrArg Host.Outcome.next (if_pos hsess))

/-- Settles O52, each command by the rule of secured commands. -/
theorem securedCommandsNeedSession : Obligations.SecuredCommandsNeedSession := by
  intro q s hawake hout
  have outside : ∀ (n : Nat) (f : State → State), s.secured q n f = .next { s with out := s.out ++ [.mgmt n 6 []] } := fun _ _ => secured_outside hawake hout
  refine ⟨fun _ _ _ => (exec_mgmtRegWrite ..).trans (outside 3 _), fun _ => (exec_ladder ..).trans (outside 4 _), fun _ _ => (exec_mgmtReset ..).trans (outside 5 _),
    fun _ _ => ⟨(exec_unitRequestFence ..).trans (outside 7 _), (exec_unitRequestRestore ..).trans (outside 7 _), (exec_unitRequestClearClass ..).trans (outside 7 _)⟩,
    fun _ => (exec_setTime ..).trans (outside 9 _), fun _ => (exec_setFabricKey ..).trans (outside 10 _), ?_⟩
  exact (answers_awake hawake).trans (congrArg Host.Outcome.next (if_neg (Bool.eq_false_iff.mp hout)))

/-- Settles O53: every message asks first whether the controller restarts. -/
theorem silentWhileRestarting : Obligations.SilentWhileRestarting := by
  intro s h
  have unbound : ∀ (v : Bool) (f : State → State), s.onBinding v f = .next s := fun _ _ => onBinding_restarting h
  refine ⟨fun v n => ⟨unbound v _, unbound v _, unbound v _, unbound v _, unbound v _⟩, if_pos h, if_pos h, if_pos h, if_pos h, fun _ _ _ _ => if_pos h, ?_, fun _ _ => if_pos h, ?_⟩
  · exact fun _ _ _ _ => ⟨if_pos h, if_pos h, if_pos h, if_pos h, if_pos h, if_pos h, if_pos h, if_pos h, if_pos h, if_pos h, if_pos h, if_pos h, if_pos h, if_pos h, if_pos h,
      if_pos h, if_pos h⟩
  · exact fun _ _ _ _ _ _ => ⟨if_pos h, if_pos h, if_pos h, if_pos h, if_pos h, if_pos h, if_pos h, if_pos h, if_pos h, if_pos h⟩

/-! MCTP control and SPDM. -/

theorem execSetEndpointId_valid {vdm : Bool} {eid : Nat} (h : s.mgmt.restarting = false) (hvdm : vdm = true → s.vdmUp = true) (hpos : 0 < eid) (hmax : eid < 255) :
    exec (.setEndpointId vdm eid) s =
      .next (({ s with mgmt := if vdm then { s.mgmt with eid1 := eid } else { s.mgmt with eid0 := eid } } : State).emit (.mctp 1 (toLe 2 0 ++ toLe 1 eid ++ toLe 1 0))) :=
  ((exec_setEndpointId ..).trans (onBinding_awake h hvdm)).trans (congrArg Host.Outcome.next (if_neg (by omega)))

theorem execGetMctpVersionSupport_known {vdm : Bool} {n : Nat} (h : s.mgmt.restarting = false) (hvdm : vdm = true → s.vdmUp = true) (hn : mctpTypes.contains n = true) :
    exec (.getMctpVersionSupport vdm n) s = .next ((s.drawBytes 4).2.emit (.mctp 4 (toLe 1 0 ++ toLe 1 1 ++ (s.drawBytes 4).1))) :=
  ((exec_getMctpVersionSupport ..).trans (onBinding_awake h hvdm)).trans (congrArg Host.Outcome.next (if_neg (by simp only [hn]; decide)))

theorem execGetCertificate_inside {offset len : Nat} (h : s.mgmt.restarting = false) (hneg : s.mgmt.negotiated = true) (hoff : offset ≤ Config.certChain.length) :
    ∃ part : Bytes, part = slice Config.certChain offset len ∧
      exec (.getCertificate 0 offset len) s = .next (s.emit (.spdm 0x02 (toLe 2 part.length ++ toLe 2 (Config.certChain.length - offset - part.length) ++ part))) :=
  ⟨_, rfl, ((exec_getCertificate ..).trans (afterNegotiation_negotiated h hneg)).trans (congrArg Host.Outcome.next (if_neg (by omega)))⟩

theorem execGetMeasurements_one {n : Nat} (h : s.mgmt.restarting = false) (hneg : s.mgmt.negotiated = true) (hpos : 0 < n) (hmax : n ≤ 5) :
    exec (.getMeasurements n) s = .next (s.emit (.spdm 0x60 (toLe 1 n ++ sha384 (s.measured n)))) :=
  ((exec_getMeasurements ..).trans (afterNegotiation_negotiated h hneg)).trans (congrArg Host.Outcome.next ((if_neg (by omega)).trans ((if_neg (by omega)).trans (if_pos hmax))))

theorem execKeyExchange_opens {id : Nat} (h : s.mgmt.restarting = false) (hneg : s.mgmt.negotiated = true)
    (hnew : s.mgmt.sessions.any (fun p => p.1 == id) = false) (hroom : s.mgmt.sessions.length < 4) :
    ∃ t, exec (.keyExchange id) s = .next t ∧ t.mgmt = { s.mgmt with sessions := s.mgmt.sessions ++ [(id, false)] } :=
  ⟨_, ((exec_keyExchange ..).trans (afterNegotiation_negotiated h hneg)).trans (congrArg Host.Outcome.next ((if_neg (Bool.eq_false_iff.mp hnew)).trans (if_neg (by omega)))), rfl⟩

/-- Settles O49, request by request. -/
theorem endpointAndSessionCommandsComplete : Obligations.EndpointAndSessionCommandsComplete := by
  intro s h
  refine ⟨fun _ hpos hmax => execSetEndpointId_valid h (by simp) hpos hmax, fun _ hpos hmax hup => execSetEndpointId_valid h (fun _ => hup) hpos hmax, fun vdm hvdm => ?mctp,
    (exec_getVersion ..).trans (answers_awake h), (exec_getCapabilities ..).trans (answers_awake h), (exec_negotiateAlgorithms ..).trans (answers_awake h), fun hneg => ?negotiated, fun n hsess => ?finish, fun n hsess => ?established⟩
  case mctp =>
    exact ⟨(exec_getEndpointId ..).trans (onBinding_awake h hvdm), fun _ => execGetMctpVersionSupport_known h hvdm,
      (exec_getMessageTypeSupport ..).trans (onBinding_awake h hvdm), (exec_getVendorDefinedMessageSupport ..).trans (onBinding_awake h hvdm)⟩
  case negotiated =>
    exact ⟨(exec_getDigests ..).trans (afterNegotiation_negotiated h hneg), fun _ _ => execGetCertificate_inside h hneg,
      fun _ => ⟨_, rfl, (exec_challenge ..).trans (afterNegotiation_negotiated h hneg)⟩,
      (exec_getMeasurements ..).trans (afterNegotiation_negotiated h hneg), fun _ => execGetMeasurements_one h hneg, fun _ => execKeyExchange_opens h hneg⟩
  case finish => exact ⟨(exec_finish ..).trans (onSession_found h hsess), (exec_finish ..).trans (onSession_found h hsess)⟩
  case established =>
    exact ⟨(exec_heartbeat ..).trans (onSession_found h hsess), (exec_keyUpdate ..).trans (onSession_found h hsess), (exec_endSession ..).trans (onSession_found h hsess)⟩

/-! PLDM: updates and telemetry. -/

theorem execRequestUpdate_begins {q : Option Nat} {n : Nat} (h : s.mgmt.restarting = false) (hq : s.inSession q = true) (hnone : s.mgmt.update = none)
    (hpos : 0 < n) (hmax : n ≤ 3) : exec (.requestUpdate q n) s = .next ((s.setUpdate (some n)).emit (.pldm 5 0x10 (toLe 1 0))) :=
  ((exec_requestUpdate ..).trans (answers_awake h)).trans (congrArg Host.Outcome.next
    ((if_neg (by simp [hq])).trans ((if_neg (by simp [hnone])).trans (if_neg (by omega)))))

theorem execFirmwareVerify_allowed {n : Nat} {image pub : Bytes} (h : s.mgmt.restarting = false) (hupdate : s.mgmt.update = some n) (hok : imageAllowed n image pub = true) :
    exec (.firmwareVerify n image pub) s =
      .next (({ s with mgmt := { s.mgmt with verified := tput s.mgmt.verified n image, ready := true } } : State).emit (.pldm 5 0x17 (toLe 1 0))) :=
  ((exec_firmwareVerify ..).trans (answers_awake h)).trans (congrArg Host.Outcome.next ((if_neg (not_not_intro hupdate)).trans (if_pos hok)))

theorem execFirmwareVerify_refused {n : Nat} {image pub : Bytes} (h : s.mgmt.restarting = false) (hupdate : s.mgmt.update = some n) (hbad : imageAllowed n image pub = false) :
    exec (.firmwareVerify n image pub) s = .next (((s.setUpdate none).emit (.pldm 5 0x17 (toLe 1 1))).platformEvent 6 6) :=
  ((exec_firmwareVerify ..).trans (answers_awake h)).trans (congrArg Host.Outcome.next ((if_neg (not_not_intro hupdate)).trans (if_neg (Bool.eq_false_iff.mp hbad))))

theorem execFirmwareActivate_verified {n : Nat} {e : Nat × Bytes} (h : s.mgmt.restarting = false) (hupdate : s.mgmt.update = some n) (hready : s.mgmt.ready = true)
    (hfound : s.mgmt.verified.find? (fun p => p.1 == n) = some e) :
    ∃ t : State, t = (s.setUpdate none).emit (.pldm 5 0x1A (toLe 1 0)) ∧
      exec (.firmwareActivate n) s = .next (if n = 1 then { t with mgmt := { t.mgmt with restarting := true } } else if n = 2 then
        { t with media := { t.media with switching := true } } else t.writeOption e.2) := by
  refine ⟨_, rfl, ((exec_firmwareActivate ..).trans (answers_awake h)).trans (congrArg Host.Outcome.next ?_)⟩
  simp only [hupdate, hfound]
  exact if_neg (by simp [hready])

theorem execGetPdr_known {n : Nat} (h : s.mgmt.restarting = false) (hpos : 0 < n) (hmax : n ≤ 70) :
    exec (.getPdr n) s = .next (s.emit (.pldm 2 0x51 (toLe 1 0 ++ toLe 2 n ++ toLe 1 (sensorUnit n)))) :=
  ((exec_getPdr ..).trans (answers_awake h)).trans (congrArg Host.Outcome.next (if_neg (by omega)))

theorem execGetSensorReading_known {n : Nat} (h : s.mgmt.restarting = false) (hpos : 0 < n) (hmax : n ≤ 70) :
    exec (.getSensorReading n) s =
      .next ((if n = 7 then s.latchForecast else s).emit (.pldm 2 0x11 (toLe 1 0 ++ toLe 4 ((if n = 7 then s.latchForecast else s).sensor n)))) :=
  ((exec_getSensorReading ..).trans (answers_awake h)).trans (congrArg Host.Outcome.next (if_neg (by omega)))

/-- The state when a restart ends with the images `images` in use: the sessions and the update are gone. -/
def State.restarted (s : State) (images : List (Nat × Bytes)) : State :=
  { s with mgmt := { s.mgmt with restarting := false, inUse := images, sessions := [], negotiated := false, update := none, ready := false } }

/-- The history with the queue of events taken over, while programs are not inhibited. -/
def State.withQueuedHistory (s : State) : State :=
  if s.inhibited then s else { s with chk := { s.chk with history := s.chk.history ++ s.chk.queue, queue := [] } }

/-- With a verified image of component 1 the end of a restart brings it into use. -/
theorem execMgmtRestartDone_verified {e : Nat × Bytes} (h : s.mgmt.restarting = true) (hfound : s.mgmt.verified.find? (fun p => p.1 == 1) = some e) :
    exec .mgmtRestartDone s = .next (s.restarted (tput s.mgmt.inUse 1 e.2)).withQueuedHistory.compareMaps := by
  rw [exec_mgmtRestartDone, execMgmtRestartDone, if_neg (by simp [h])]
  simp only [hfound]
  rfl

/-- Without one the images in use stay. -/
theorem execMgmtRestartDone_unverified (h : s.mgmt.restarting = true) (hfound : s.mgmt.verified.find? (fun p => p.1 == 1) = none) :
    exec .mgmtRestartDone s = .next (s.restarted s.mgmt.inUse).withQueuedHistory.compareMaps := by
  rw [exec_mgmtRestartDone, execMgmtRestartDone, if_neg (by simp [h])]
  simp only [hfound]
  rfl

end

/-- Settles O51, command by command. -/
theorem firmwareAndTelemetryCommandsComplete : Obligations.FirmwareAndTelemetryCommandsComplete := by
  refine ⟨fun s h => ⟨fun _ _ => execRequestUpdate_begins h, fun _ _ _ hupdate => ⟨execFirmwareVerify_allowed h hupdate, execFirmwareVerify_refused h hupdate⟩,
    fun _ _ => execFirmwareActivate_verified h, fun n hpos hmax => ⟨execGetPdr_known h hpos hmax, fun hne => ?_⟩,
    execGetSensorReading_known h (by decide) (by decide), fun _ => (exec_setEventReceiver ..).trans (answers_awake h)⟩, fun s h => ?_⟩
  · have hread := execGetSensorReading_known h hpos hmax
    rwa [if_neg hne] at hread
  · refine ⟨_, _, _, rfl, rfl, rfl, ?_⟩
    cases hfound : s.mgmt.verified.find? (fun p => p.1 == 1) with
    | some e => exact execMgmtRestartDone_verified h hfound
    | none => exact execMgmtRestartDone_unverified h hfound

end Sys2Proof.Machine
end

section
/-! Register accesses through a BAR, and the JTAG port. -/
namespace Sys2Proof.Machine

section
variable {fn : Fin 17} {off n : Nat} {s : State}

theorem readBar_word (h : accessOk (regAddr fn off) 4 = true) :
    s.readBar fn off 4 = (s.readReg (regAddr fn off)).2.emit (.regRead fn off (s.readReg (regAddr fn off)).1.toNat) := by
  simp [State.readBar, State.barRead, h]

theorem readBar_pair (h : accessOk (regAddr fn off) 8 = true) :
    s.readBar fn off 8 = (((s.readReg (regAddr fn off)).2.readReg (regAddr fn off + 4)).2.emit
      (.regRead fn off ((s.readReg (regAddr fn off)).1.toNat + ((s.readReg (regAddr fn off)).2.readReg (regAddr fn off + 4)).1.toNat * 2 ^ 32))) := by
  simp [State.readBar, State.barRead, h]

theorem readBar_refused (h : accessOk (regAddr fn off) n = false) : s.readBar fn off n = (s.count Reg.ID_BAD_ACCESS).emit (.regRead fn off 0) := by
  simp [State.readBar, State.barRead, h]

theorem barWrite_pair {v now : Nat} (h : accessOk (regAddr fn off) 8 = true) :
    s.barWrite fn off 8 v now = (s.regWrite (regAddr fn off) (BitVec.ofNat 32 v) now).regWrite (regAddr fn off + 4) (BitVec.ofNat 32 (v / 2 ^ 32)) now := by
  simp [State.barWrite, h]

theorem barWrite_refused {v now : Nat} (h : accessOk (regAddr fn off) n = false) : s.barWrite fn off n v now = s.count Reg.ID_BAD_ACCESS := by
  simp [State.barWrite, h]

end

/-- A register that neither a good reference's PPM nor the debug block answers reads its own value, after its read's effect. -/
theorem readReg_plain {s : State} {off : Nat} (ha : off ≠ Reg.CLK_PPM_A) (hb : off ≠ Reg.CLK_PPM_B) (hdebug : debugBlock off = false) :
    s.readReg off = ((s.readEffect off).regValue off, s.readEffect off) := by
  simp [State.readReg, ha, hb, hdebug]

theorem accSnapEpoch_group : ∀ c : Fin 16, groupAt (Reg.ACC_SNAP_EPOCH c) 0x00081000 0x100 16 = some (c.val, 0xF8) := by decide

theorem accSnapEpoch_plain : ∀ c : Fin 16, regAddr 0 (Reg.ACC_SNAP_EPOCH c) = Reg.ACC_SNAP_EPOCH c ∧ accessOk (Reg.ACC_SNAP_EPOCH c) 4 = true ∧
    Reg.ACC_SNAP_EPOCH c ≠ Reg.CLK_PPM_A ∧ Reg.ACC_SNAP_EPOCH c ≠ Reg.CLK_PPM_B ∧ debugBlock (Reg.ACC_SNAP_EPOCH c) = false := by decide

/-- A read of a context's snapshot epoch latches the context's commit snapshot. -/
theorem readReg_accSnapEpoch (c : Fin 16) (s : State) :
    s.readReg (Reg.ACC_SNAP_EPOCH c) = ((s.latchSnap c).regValue (Reg.ACC_SNAP_EPOCH c), s.latchSnap c) := by
  obtain ⟨-, -, ha, hb, hdebug⟩ := accSnapEpoch_plain c
  have heffect : s.readEffect (Reg.ACC_SNAP_EPOCH c) = s.latchSnap c := by simp [State.readEffect, accSnapEpoch_group c]
  rw [readReg_plain ha hb hdebug, heffect]

theorem execAccSnapEpochRead_reads (c : Fin 16) (s : State) : exec (.accSnapEpochRead c) s =
    .next ((s.readReg (Reg.ACC_SNAP_EPOCH c)).2.emit (.regRead 0 (Reg.ACC_SNAP_EPOCH c) (s.readReg (Reg.ACC_SNAP_EPOCH c)).1.toNat)) := by
  obtain ⟨haddr, hok, -, -, -⟩ := accSnapEpoch_plain c
  have hread : s.readBar (0 : Fin 17) (Reg.ACC_SNAP_EPOCH c) 4 = _ := readBar_word (haddr.symm ▸ hok)
  simp only [Fin.val_zero, haddr] at hread
  exact congrArg Host.Outcome.next hread

/-- A read of the forecast's tick latches the forecast group. -/
theorem readReg_forecastTick (s : State) : s.readReg Reg.PWR_FCAST_TICK_LO = (s.latchForecast.regValue Reg.PWR_FCAST_TICK_LO, s.latchForecast) := by
  have heffect : s.readEffect Reg.PWR_FCAST_TICK_LO = s.latchForecast := by
    have hgroup : groupAt Reg.PWR_FCAST_TICK_LO 0x00081000 0x100 16 = none := by decide
    simp [State.readEffect, hgroup]
  rw [readReg_plain (by decide) (by decide) (by decide), heffect]

theorem execPwrFcastTickLoRead_reads (s : State) : exec .pwrFcastTickLoRead s =
    .next ((s.readReg Reg.PWR_FCAST_TICK_LO).2.emit (.regRead 0 Reg.PWR_FCAST_TICK_LO (s.readReg Reg.PWR_FCAST_TICK_LO).1.toNat)) := by
  have haddr : regAddr 0 Reg.PWR_FCAST_TICK_LO = Reg.PWR_FCAST_TICK_LO := by decide
  have hread : s.readBar (0 : Fin 17) Reg.PWR_FCAST_TICK_LO 4 = _ := readBar_word (by decide)
  simp only [Fin.val_zero, haddr] at hread
  exact congrArg Host.Outcome.next hread

/-- Settles O54, access by access. -/
theorem registerAccessCompletes : Obligations.RegisterAccessCompletes := by
  refine ⟨fun fn off s h => ⟨congrArg Host.Outcome.next (readBar_word h), fun v now => congrArg Host.Outcome.next (barWrite_word h v now)⟩, fun fn off s t h ht => ?_,
    fun fn off n v now s h => ⟨congrArg Host.Outcome.next (readBar_refused h), congrArg Host.Outcome.next (barWrite_refused h)⟩,
    fun c s => ⟨execAccSnapEpochRead_reads c s, readReg_accSnapEpoch c s⟩, fun s => ⟨readReg_forecastTick s, execPwrFcastTickLoRead_reads s⟩⟩
  subst ht
  exact ⟨congrArg Host.Outcome.next (readBar_pair h), fun _ _ => congrArg Host.Outcome.next (barWrite_pair h)⟩

/-- Settles O55: EXTEST alone asks whether a reset holds. -/
theorem jtagCommandsComplete : Obligations.JtagCommandsComplete :=
  ⟨fun _ _ => rfl, fun _ => rfl, fun _ => ⟨_, rfl⟩, fun _ _ h => if_pos h, fun _ _ h => ⟨_, if_neg (Bool.eq_false_iff.mp h)⟩⟩

end Sys2Proof.Machine
end

section
/-! The commands of a context's ring: what each does for the context behind its function once it has begun. -/
namespace Sys2Proof.Machine

section
variable {fn : Fin 17} {cmd : HostCmd} {c : Nat} {s u : State}

/-- A PLAN_LOAD of an aligned image for a KEYED, STOPPED context without a plan comes to the image's check. -/
theorem execPlanLoad_checks (hctx : u.fnCtx fn = some c) (h : s.takeCmd fn 0x10 cmd = some u) (hkeyed : (u.ctx c).adm = .keyed) (hstopped : (u.hasp c).phase = .stopped)
    (hfree : (u.hasp c).loaded = false) (haligned : cmd.arg0 % 2097152 = 0) :
    (u.planCheck c cmd.arg0 cmd.payload = none → exec (.planLoad fn cmd) s = .next (u.installPlan fn c cmd)) ∧
      ∀ f, u.planCheck c cmd.arg0 cmd.payload = some f → exec (.planLoad fn cmd) s = .next (u.completeR fn 0x10 cmd f.status f.result) := by
  have hload : u.loadPlan fn c cmd = _ := (if_neg (not_not_intro hkeyed)).trans (if_neg (by simp [hstopped, hfree, haligned]))
  have hexec : exec (.planLoad fn cmd) s = .next (u.loadPlan fn c cmd) := vfCmd_begins h hctx
  exact ⟨fun hpass => by rw [hexec, hload, hpass], fun f hfail => by rw [hexec, hload, hfail]⟩

/-- PLAN_START of a loaded, STOPPED context whose checks pass waits for its tick. -/
theorem execPlanStart_waits (hctx : u.fnCtx fn = some c) (h : s.takeCmd fn 0x11 cmd = some u) (hloaded : (u.hasp c).loaded = true) (hcmd : (u.hasp c).loadCmd = none)
    (hstopped : (u.hasp c).phase = .stopped) (hstart : (u.hasp c).startAt = none) (hlead : u.tick.now + 4 ≤ cmd.arg0)
    (hrules : u.rulesOk c (planView (u.ctx c).image) = true) (hcover : u.coverBad c (planView (u.ctx c).image) = none)
    (hvote : ∀ i, i < imgVariants (u.ctx c).image → u.batchTick c < imgVoteTick (u.ctx c).image i) (hmatch : u.matchBad c (planView (u.ctx c).image) = none) :
    exec (.planStart fn cmd) s = .next (u.modHasp c (fun h => { h with startAt := some cmd.arg0, startCmd := some (fn.val, cmd) })) := by
  have hready : ¬ ((!(u.hasp c).loaded) = true ∨ (u.hasp c).loadCmd.isSome = true ∨ (u.hasp c).phase ≠ .stopped ∨ (u.hasp c).startAt.isSome = true ∨ cmd.arg0 < u.tick.now + 4) := by
    simp [hloaded, hcmd, hstopped, hstart]; omega
  have hlate : ((List.range (imgVariants (u.ctx c).image)).any (fun i => decide (imgVoteTick (u.ctx c).image i ≤ u.batchTick c))) ≠ true := by
    simpa using hvote
  refine (exec_planStart ..).trans ((vfCmd_begins h hctx).trans (congrArg Host.Outcome.next ((if_neg hready).trans ((if_neg (by simp [hrules])).trans ?_))))
  rw [hcover]
  exact (if_neg hlate).trans (if_neg (by simp [hmatch]))

theorem execPlanUnload_stopped (hctx : u.fnCtx fn = some c) (h : s.takeCmd fn 0x12 cmd = some u) (hstopped : (u.hasp c).phase = .stopped) :
    exec (.planUnload fn cmd) s = .next ((if (u.hasp c).loaded then u.unloadPlan c else u).complete fn 0x12 cmd 0) :=
  (exec_planUnload ..).trans ((vfCmd_begins h hctx).trans (congrArg Host.Outcome.next (if_pos (.inl hstopped))))

theorem execPlanUnload_running (hctx : u.fnCtx fn = some c) (h : s.takeCmd fn 0x12 cmd = some u) (hstopped : (u.hasp c).phase ≠ .stopped) (hhalted : (u.hasp c).phase ≠ .halted) :
    exec (.planUnload fn cmd) s = .next (u.complete fn 0x12 cmd 7) :=
  (exec_planUnload ..).trans ((vfCmd_begins h hctx).trans (congrArg Host.Outcome.next (if_neg (not_or.mpr ⟨hstopped, hhalted⟩))))

theorem execWaitEpoch_committed (hctx : u.fnCtx fn = some c) (h : s.takeCmd fn 0x13 cmd = some u) (hshown : cmd.arg0 ≤ (u.hasp c).shown) :
    exec (.waitEpoch fn cmd) s = .next (u.complete fn 0x13 cmd 0) :=
  (exec_waitEpoch ..).trans ((vfCmd_begins h hctx).trans (congrArg Host.Outcome.next (if_pos hshown)))

theorem execWaitEpoch_waits (hctx : u.fnCtx fn = some c) (h : s.takeCmd fn 0x13 cmd = some u) (hshown : (u.hasp c).shown < cmd.arg0) (hhalted : (u.hasp c).phase ≠ .halted) :
    exec (.waitEpoch fn cmd) s = .next (u.modCtx c (fun x => { x with waits := x.waits ++ [(fn.val, cmd)] })) :=
  (exec_waitEpoch ..).trans ((vfCmd_begins h hctx).trans (congrArg Host.Outcome.next ((if_neg (by omega)).trans (if_neg hhalted))))

/-- STATE_READ within the partition: the poison and the errors of the read decide between the bytes and CHECK_MISMATCH. -/
theorem execStateRead_reads (hctx : u.fnCtx fn = some c) (h : s.takeCmd fn 0x14 cmd = some u) (hspace : cmd.arg0 % 16 = 4) (hpos : 0 < cmd.arg2)
    (hmax : cmd.arg2 ≤ 16777216) (hver : bit cmd.arg3 0 = false) (hkeyed : (u.ctx c).adm = .keyed) (hpart : u.inPart c 4 cmd.arg1 cmd.arg2 = true)
    (harena : u.meetsArena c 4 cmd.arg1 cmd.arg2 = false) (errs : ReadErrs) (v : State)
    (hv : v = (((u.eventIf (u.adpMiss c 4 cmd.arg1 cmd.arg2) (Reg.MEM_ADP_EVENT c) 1).escapeBytes errs.dram).noteErrs errs).account c 5 cmd.arg2) :
    exec (.stateRead fn cmd errs) s = .next (if u.readsPoison c [⟨4, (u.hostUnits c 4).headD 0, cmd.arg1, cmd.arg2⟩] || u.readFails errs then v.complete fn 0x14 cmd 11
      else (v.replyData fn cmd.id (v.hostRead c 4 cmd.arg1 cmd.arg2)).completeR fn 0x14 cmd 0 cmd.arg2) := by
  subst hv
  refine (exec_stateRead ..).trans ((vfCmd_begins h hctx).trans (congrArg Host.Outcome.next ?_))
  simp only [hspace, hver]
  have hform : ¬ ((!((4 : Nat) == 1 || (4 : Nat) == 3 || (4 : Nat) == 4)) = true ∨ cmd.arg2 = 0 ∨ 16777216 < cmd.arg2) := by simp; omega
  exact (if_neg hform).trans ((if_neg (by simp [hkeyed, hpart])).trans ((if_neg (by simp)).trans ((if_neg (by simp)).trans
    ((if_neg (by simp [harena])).trans (if_neg (by simp))))))

/-- Board memory has no adapter slots. -/
theorem adpMiss_board (t : State) (a n : Nat) : t.adpMiss c 4 a n = false := rfl

theorem execStateWrite_stores (hctx : u.fnCtx fn = some c) (h : s.takeCmd fn 0x15 cmd = some u) (hspace : cmd.arg0 = 4) (hne : cmd.payload ≠ [])
    (hstopped : (u.hasp c).phase = .stopped) (hkeyed : (u.ctx c).adm = .keyed) (hpart : u.inPart c 4 cmd.arg1 cmd.payload.length = true) :
    exec (.stateWrite fn cmd) s = .next (((u.account c 5 cmd.payload.length).over
      ((u.account c 5 cmd.payload.length).hostUnits c 4) (fun s k => (s.wrRaw c 4 k cmd.arg1 cmd.payload).dirty c 4 k cmd.arg1 cmd.payload.length)).complete fn 0x15 cmd 0) := by
  refine (exec_stateWrite ..).trans ((vfCmd_begins h hctx).trans (congrArg Host.Outcome.next ?_))
  simp only [hspace, adpMiss_board]
  exact (if_neg (by simp [hne, hstopped])).trans ((if_neg (by simp [hkeyed, hpart])).trans (if_neg (by simp)))

theorem execRingBoltAdd_adds (hctx : u.fnCtx fn = some c) (h : s.takeCmd fn 0x16 cmd = some u) (hkind : cmd.arg0 % 4 = 1) (hown : u.ownBolt c (cmd.arg1 % 65536) = true) :
    exec (.ringBoltAdd fn cmd) s = .next ((u.boltAdd c (cmd.arg1 % 65536) (BitVec.ofNat 32 cmd.arg2)).complete fn 0x16 cmd 0) :=
  (exec_ringBoltAdd ..).trans ((vfCmd_begins h hctx).trans (congrArg Host.Outcome.next ((if_neg (not_not_intro hkind)).trans (if_pos hown))))

theorem execRingBoltSet_sets (hctx : u.fnCtx fn = some c) (h : s.takeCmd fn 0x16 cmd = some u) (hkind : cmd.arg0 % 4 = 2) (hown : u.ownBolt c (cmd.arg1 % 65536) = true) :
    exec (.ringBoltSet fn cmd) s = .next ((u.boltSet (cmd.arg1 % 65536) (BitVec.ofNat 32 cmd.arg2)).complete fn 0x16 cmd 0) :=
  (exec_ringBoltSet ..).trans ((vfCmd_begins h hctx).trans (congrArg Host.Outcome.next ((if_neg (not_not_intro hkind)).trans (if_pos hown))))

theorem execRecord_accepts (hctx : u.fnCtx fn = some c) (h : s.takeCmd fn 0x20 cmd = some u) (hmedia : u.mediaGone = false) (hingests : u.ingests c = true)
    (hsource : u.ingSource c = 1) (scans : List HeaderScan) (r : Bytes × RecordMap) (hcheck : u.frameCheck c cmd.payload scans = .ok r) :
    exec (.record fn cmd scans) s = .next (((u.eventIf (u.limitsHigh c) (Reg.MED_ING_EVENT c) 3).modIng c (fun i => { i with lastRecord := cmd.id })).acceptRec c
      { frame := r.1, cmd := some (fn.val, cmd) } r.2 scans) := by
  refine (exec_record ..).trans ((vfCmd_begins h hctx).trans (congrArg Host.Outcome.next ((if_neg (by simp [hmedia])).trans ((if_neg (by simp [hingests, hsource])).trans ?_))))
  rw [hcheck]

/-- A picture of a stream that is up, supported and within its limits, joins the stream's waiting pictures. -/
theorem execLive_queues (hctx : u.fnCtx fn = some c) (h : s.takeCmd fn 0x21 cmd = some u) (hlt : cmd.arg0 < 64) (hlive : u.liveCtx cmd.arg0 = c)
    (hmedia : u.mediaGone = false) (hstatus : (u.stream cmd.arg0).status = 1) (hskip : (u.stream cmd.arg0).skipping = false) (width height : Nat) (rap rasl : Bool)
    (hrasl : (u.stream cmd.arg0).dropRasl = false ∨ rasl = false ∨ rap = true) (hwidth : width ≤ (u.liveGeom cmd.arg0).1) (hheight : height ≤ (u.liveGeom cmd.arg0).2)
    (hbits : 8 * cmd.payload.length ≤ u.regN (Reg.MED_LIVE_MAXBITS cmd.arg0)) :
    exec (.live fn cmd width height true rap rasl) s = .next (u.arrive.2.modLive cmd.arg0 (fun v => { v with
      skipping := false, dropRasl := if rap then v.skipping else v.dropRasl,
      waiting := v.waiting ++ [⟨cmd.arg0, width, height, rap, rasl, (fn.val, cmd), u.arrive.1⟩] })).feedEngines := by
  have hup : ¬ ((u.arrive.2.stream cmd.arg0).status ≠ 1 ∨ ((u.arrive.2.stream cmd.arg0).skipping = true ∧ (!rap) = true) ∨
      ((u.arrive.2.stream cmd.arg0).dropRasl = true ∧ rasl = true ∧ (!rap) = true)) := by
    change ¬ ((u.stream cmd.arg0).status ≠ 1 ∨ ((u.stream cmd.arg0).skipping = true ∧ (!rap) = true) ∨ ((u.stream cmd.arg0).dropRasl = true ∧ rasl = true ∧ (!rap) = true))
    rcases hrasl with hrasl | hrasl | hrasl <;> simp [hstatus, hskip, hrasl]
  have hfits : ¬ ((u.liveGeom cmd.arg0).1 < width ∨ (u.liveGeom cmd.arg0).2 < height ∨ u.arrive.2.regN (Reg.MED_LIVE_MAXBITS cmd.arg0) < 8 * cmd.payload.length) := by
    change ¬ ((u.liveGeom cmd.arg0).1 < width ∨ (u.liveGeom cmd.arg0).2 < height ∨ u.regN (Reg.MED_LIVE_MAXBITS cmd.arg0) < 8 * cmd.payload.length)
    omega
  refine (exec_live ..).trans ((vfCmd_begins h hctx).trans (congrArg Host.Outcome.next ?_))
  simp only [Nat.mod_eq_of_lt hlt]
  exact (if_neg (by simp [hlive, hlt])).trans ((if_neg (by simp [hmedia])).trans ((if_neg hup).trans ((if_neg hfits).trans (if_neg (by simp)))))

/-- The first bytes of a sensor's frame open it. -/
theorem execSensor_opens (hctx : u.fnCtx fn = some c) (h : s.takeCmd fn 0x22 cmd = some u) (hlt : cmd.arg0 < 64) (hown : u.regN (Reg.MED_SENS_CTRL cmd.arg0) % 16 = c)
    (hmedia : u.mediaGone = false) (hon : bit (u.regN (Reg.MED_SENS_CTRL cmd.arg0)) 31 = true) (hclosed : (tget (fun _ => {}) u.media.sensors cmd.arg0).openFrame = false) :
    exec (.sensor fn cmd true false) s = .next (u.modMedia (fun m => { m with
      sensors := tput m.sensors cmd.arg0 { openFrame := true, data := cmd.payload, cmd := some (fn.val, cmd) } })) := by
  refine (exec_sensor ..).trans ((vfCmd_begins h hctx).trans (congrArg Host.Outcome.next ?_))
  simp only [Nat.mod_eq_of_lt hlt]
  refine (if_neg (by simp [hown, hlt])).trans ((if_neg (by simp [hmedia])).trans ((if_neg (by simp [hon])).trans ((if_neg (by simp)).trans ?_)))
  simp [hclosed]

/-- Bytes of no open frame are counted as orphans. -/
theorem execSensor_orphan (hctx : u.fnCtx fn = some c) (h : s.takeCmd fn 0x22 cmd = some u) (hlt : cmd.arg0 < 64) (hown : u.regN (Reg.MED_SENS_CTRL cmd.arg0) % 16 = c)
    (hmedia : u.mediaGone = false) (hon : bit (u.regN (Reg.MED_SENS_CTRL cmd.arg0)) 31 = true) (hclosed : (tget (fun _ => {}) u.media.sensors cmd.arg0).openFrame = false) :
    exec (.sensor fn cmd false false) s = .next (u.count (Reg.MED_SENS_ORPHAN cmd.arg0)) := by
  refine (exec_sensor ..).trans ((vfCmd_begins h hctx).trans (congrArg Host.Outcome.next ?_))
  simp only [Nat.mod_eq_of_lt hlt]
  exact (if_neg (by simp [hown, hlt])).trans ((if_neg (by simp [hmedia])).trans ((if_neg (by simp [hon])).trans (if_pos (by simp [hclosed]))))

end

/-- Settles O43, command by command. -/
theorem contextRingCommandsComplete : Obligations.ContextRingCommandsComplete := fun _ _ _ _ _ hctx =>
  ⟨execPlanLoad_checks hctx, execPlanStart_waits hctx, execPlanUnload_stopped hctx, execPlanUnload_running hctx, execWaitEpoch_committed hctx, execWaitEpoch_waits hctx,
    execStateRead_reads hctx, execStateWrite_stores hctx, execRingBoltAdd_adds hctx, execRingBoltSet_sets hctx, execRecord_accepts hctx, execLive_queues hctx,
    fun h hlt hown hmedia hon hclosed => ⟨execSensor_opens hctx h hlt hown hmedia hon hclosed, execSensor_orphan hctx h hlt hown hmedia hon hclosed⟩⟩

end Sys2Proof.Machine
end

section
/-! The references: which of them is the source after a failure, a recovery and a selection. -/
namespace Sys2Proof.Machine

/-- The number by which the clock's source and its events name reference `r`. -/
def refIndex (r : RefClk) : Nat := if r = .a then 0 else 1

/-- Whether reference `r` is good. -/
def Clocks.good (k : Clocks) (r : RefClk) : Bool := if r = .a then k.aOk else k.bOk

/-- Whether the reference other than `r` is good. -/
def Clocks.otherGood (k : Clocks) (r : RefClk) : Bool := if r = .a then k.bOk else k.aOk

/-- The state in which reference `r` has failed, with its event bit. -/
def State.loseRef (s : State) (r : RefClk) : State :=
  ({ s with clk := if r = .a then { s.clk with aOk := false } else { s.clk with bOk := false } } : State).event Reg.CLK_EVENT (refIndex r)

/-- The state in which reference `r` is good. -/
def State.gainRef (s : State) (r : RefClk) : State := { s with clk := if r = .a then { s.clk with aOk := true } else { s.clk with bOk := true } }

section
variable {r : RefClk} {s : State}

/-- What a failing reference does, once for both. -/
theorem execRefclkFail_eq : exec (.refclkFail r) s = if s.clk.good r = false then .next s
    else if s.clk.source ≠ refIndex r ∨ s.clk.holdover = true then .next (s.loseRef r)
    else if s.clk.otherGood r = true then
      .next (({ s.loseRef r with clk := { (s.loseRef r).clk with source := 1 - refIndex r } } : State).event Reg.CLK_EVENT 2)
    else if s.rst.active = true ∨ s.rst.phase < 10 then .next (s.loseRef r)
    else .next ((({ s.loseRef r with clk := { (s.loseRef r).clk with source := 2, holdover := true } } : State).event Reg.CLK_EVENT 3).platformEvent 2 1) := by
  have hgood : ∀ b : Bool, ((!b) = true) = (b = false) := fun b => by cases b <;> decide
  rw [exec_refclkFail]
  cases r with
  | a => simp only [execRefclkFail, hgood]; rfl
  | b => simp only [execRefclkFail, hgood]; rfl

theorem execRefclkFail_notGood (h : s.clk.good r = false) : exec (.refclkFail r) s = .next s := execRefclkFail_eq.trans (if_pos h)

theorem execRefclkFail_notSource (h : s.clk.good r = true) (hsource : s.clk.source ≠ refIndex r ∨ s.clk.holdover = true) :
    exec (.refclkFail r) s = .next (s.loseRef r) := execRefclkFail_eq.trans ((if_neg (by simp [h])).trans (if_pos hsource))

theorem execRefclkFail_handsOver (h : s.clk.good r = true) (hsource : s.clk.source = refIndex r) (hhold : s.clk.holdover = false) (hother : s.clk.otherGood r = true) :
    exec (.refclkFail r) s = .next (({ s.loseRef r with clk := { (s.loseRef r).clk with source := 1 - refIndex r } } : State).event Reg.CLK_EVENT 2) :=
  execRefclkFail_eq.trans ((if_neg (by simp [h])).trans ((if_neg (by simp [hsource, hhold])).trans (if_pos hother)))

theorem execRefclkFail_early (h : s.clk.good r = true) (hsource : s.clk.source = refIndex r) (hhold : s.clk.holdover = false) (hother : s.clk.otherGood r = false)
    (hearly : s.rst.active = true ∨ s.rst.phase < 10) : exec (.refclkFail r) s = .next (s.loseRef r) :=
  execRefclkFail_eq.trans ((if_neg (by simp [h])).trans ((if_neg (by simp [hsource, hhold])).trans ((if_neg (by simp [hother])).trans (if_pos hearly))))

theorem execRefclkFail_holdsOver (h : s.clk.good r = true) (hsource : s.clk.source = refIndex r) (hhold : s.clk.holdover = false) (hother : s.clk.otherGood r = false)
    (hactive : s.rst.active = false) (hphase : 10 ≤ s.rst.phase) : exec (.refclkFail r) s =
      .next ((({ s.loseRef r with clk := { (s.loseRef r).clk with source := 2, holdover := true } } : State).event Reg.CLK_EVENT 3).platformEvent 2 1) :=
  execRefclkFail_eq.trans ((if_neg (by simp [h])).trans ((if_neg (by simp [hsource, hhold])).trans ((if_neg (by simp [hother])).trans
    (if_neg (by simp [hactive, hphase])))))

/-- A recovered reference is good, and takes over where the device holds over. -/
theorem execRefclkRecover_eq : exec (.refclkRecover r) s = .next ((s.gainRef r).leaveHoldover (refIndex r)) := by
  cases r with
  | a => rfl
  | b => rfl

theorem gainRef_holdover : (s.gainRef r).clk.holdover = s.clk.holdover := by
  cases r with
  | a => rfl
  | b => rfl

theorem execRefclkRecover_sourced (hhold : s.clk.holdover = false) : exec (.refclkRecover r) s = .next (s.gainRef r) :=
  execRefclkRecover_eq.trans (congrArg Host.Outcome.next (if_neg (by simp [gainRef_holdover, hhold])))

theorem execRefclkRecover_heldOver (hhold : s.clk.holdover = true) :
    ∃ (v : W32) (t : State), t = ({ s.gainRef r with fresh := (s.gainRef r).fresh + 1 } : State).setReg Reg.CLK_HOLD_MS v ∧ exec (.refclkRecover r) s =
      .next ((({ t with clk := { t.clk with holdover := false, source := refIndex r } } : State).event Reg.CLK_EVENT 2).platformEvent 2 0) :=
  ⟨_, _, rfl, execRefclkRecover_eq.trans (congrArg Host.Outcome.next (if_pos (gainRef_holdover.trans hhold)))⟩

variable {v : W32}

theorem execClkSelect_switches (hgood : (if v.toNat % 2 = 0 then s.clk.aOk else s.clk.bOk) = true) (hsource : s.clk.source ≠ v.toNat % 2) :
    exec (.clkSelect v) s = .next (({ s.setRegN Reg.CLK_CTRL (v.toNat % 2) with
      clk := { (s.setRegN Reg.CLK_CTRL (v.toNat % 2)).clk with source := v.toNat % 2 } } : State).event Reg.CLK_EVENT 2) :=
  (if_neg (by simpa using hgood)).trans (if_neg hsource)

theorem execClkSelect_same (hgood : (if v.toNat % 2 = 0 then s.clk.aOk else s.clk.bOk) = true) (hsource : s.clk.source = v.toNat % 2) :
    exec (.clkSelect v) s = .next (s.setRegN Reg.CLK_CTRL (v.toNat % 2)) :=
  (if_neg (by simpa using hgood)).trans (if_pos hsource)

theorem execClkSelect_refused (hbad : (if v.toNat % 2 = 0 then s.clk.aOk else s.clk.bOk) = false) :
    exec (.clkSelect v) s = .next ((s.setRegN Reg.CLK_CTRL (v.toNat % 2)).event Reg.CLK_EVENT 6) := if_pos (by simpa using hbad)

theorem execHoldoverLimit_stops (hhold : s.clk.holdover = true) (honce : s.clk.holdStop = false) :
    exec .holdoverLimit s = .next (({ s.stopTick with clk := { s.clk with holdStop := true } } : State).event Reg.CLK_EVENT 4) := if_neg (by simp [hhold, honce])

theorem execHoldoverLimit_idle (h : s.clk.holdover = false ∨ s.clk.holdStop = true) : exec .holdoverLimit s = .next s := if_pos (by simpa using h)

end

/-- Settles O47, command by command. -/
theorem clockCommandsComplete : Obligations.ClockCommandsComplete := by
  refine ⟨?fail, ?recover, ?select, fun s => ⟨fun hhold honce => ⟨_, rfl, execHoldoverLimit_stops hhold honce⟩, execHoldoverLimit_idle⟩, fun _ => ⟨_, rfl, rfl⟩⟩
  case fail =>
    rintro r n good other s u rfl rfl rfl rfl
    exact ⟨execRefclkFail_notGood, execRefclkFail_notSource, execRefclkFail_handsOver, execRefclkFail_early, execRefclkFail_holdsOver⟩
  case recover =>
    rintro r n s u rfl rfl
    exact ⟨execRefclkRecover_sourced, execRefclkRecover_heldOver⟩
  case select =>
    rintro v s u rfl
    exact ⟨execClkSelect_switches, execClkSelect_same, execClkSelect_refused⟩

end Sys2Proof.Machine
end

section
/-! Power: the ladder, the supply's stages, SHED, the governor above its cap, and the die's temperature. -/
namespace Sys2Proof.Machine

section
variable {s : State} {now : Nat}

theorem execSupplyStageRecover_leaves {g : Nat} (hstage : s.pwr.stage = g) (hpos : 0 < g)
    (habove : (if g = 3 then s.vinThresholds.2.2.1 else if g = 2 then s.vinThresholds.2.1 else s.vinThresholds.1) + 1000 ≤ s.vinMean) :
    ∃ u : State, u = (s.modPwr (fun p => { p with stage := g - 1, hold := p.hold && decide (g ≠ 3) })).showCap ∧
      exec .supplyStageRecover s = .next (if g = 1 then u.retryHeld else u) := by
  subst hstage
  exact ⟨_, rfl, if_neg (not_or.mpr ⟨by omega, by omega⟩)⟩

theorem execRailTimeout_fails (hphase : s.rst.phase = 1) (hactive : s.rst.active = false) :
    exec .railTimeout s = .next (({ s with pwr := { s.pwr with railEn := false }, rst := { s.rst with failed := true } } : State).emit (.pin 1 false)) :=
  if_neg (by simp [hphase, hactive])

/-! A sample of VIN: its mean counts once four samples are there. -/

/-- The state in which a sample of `mv` at the pin is shown and kept. -/
def State.keepSample (s : State) (mv : Nat) : State :=
  let l := s.pwr.samples ++ [mv * (s.regN Reg.PWR_VIN_RATIO % 65536) / 1000]
  (s.setRegN Reg.PWR_VIN (min 65535 (mv * (s.regN Reg.PWR_VIN_RATIO % 65536) / 1000 / 10))).modPwr (fun p => { p with samples := l.drop (l.length - 4) })

variable {mv : Nat}

theorem execVinSample_few (hfew : (s.keepSample mv).pwr.samples.length < 4) : exec (.vinSample mv now) s = .next (s.keepSample mv) := if_pos hfew

theorem execVinSample_brownOut (hfour : 4 ≤ (s.keepSample mv).pwr.samples.length) (hlow : (s.keepSample mv).vinStage (s.keepSample mv).vinMean = 4) :
    exec (.vinSample mv now) s = .next ((s.keepSample mv).beginReset [1] true false now) :=
  (if_neg (Nat.not_lt.mpr hfour)).trans (if_pos hlow)

theorem execVinSample_stage (hfour : 4 ≤ (s.keepSample mv).pwr.samples.length) (hup : (s.keepSample mv).vinStage (s.keepSample mv).vinMean ≠ 4) :
    exec (.vinSample mv now) s = .next ((s.keepSample mv).enterStage ((s.keepSample mv).vinStage (s.keepSample mv).vinMean)) :=
  (if_neg (Nat.not_lt.mpr hfour)).trans (if_neg hup)

/-! The governor. -/

/-- Above the cap a tick of the governor stops fill, notes the measurement and keeps its shares, then sets the clocks and the core voltage. -/
theorem execGovernorTick_past {m f : Nat} (h : s.cap < m) :
    ∃ u : State, exec (.governorTick m f) s = .next (u.setClocks false).chooseVolts ∧ u.pwr.measured = m ∧ u.pwr.fill = 0 ∧
      u.pwr.beHeld = (s.pwr.measure true (decide (0 < f))).beHeld ∧ u.pwr.capClock = (s.pwr.measure true (decide (0 < f))).capClock := by
  refine ⟨_, (exec_governorTick ..).trans (congrArg (fun t : State => Host.Outcome.next (t.setClocks false).chooseVolts) (if_neg ?_)), rfl, ?_, ?_, ?_⟩
  · simp +contextual [State.modPwr, Power.measure, h]
  · simp [State.modPwr, h]
  · simp [State.modPwr, Power.measure, h]
  · simp [State.modPwr, Power.measure, h]

/-- The shares of best-effort memory work and of the clocks that a measurement above the cap leaves. -/
theorem measure_past (p : Power) (f : Nat) :
    (p.measure true (decide (0 < f))).beHeld = (p.beHeld || decide (f = 0)) ∧
      (p.measure true (decide (0 < f))).capClock = if f = 0 ∧ p.beHeld = true then min 60 (p.capClock + 1) else p.capClock := by
  rcases Nat.eq_zero_or_pos f with rfl | hpos
  · simp [Power.measure]
  · simp [Power.measure, hpos, Nat.ne_of_gt hpos]

/-! The die's temperature. -/

/-- The state that shows the hottest of the die's sensors. -/
def State.showDie (s : State) (h : Nat × Nat) : State := (s.modPwr (fun p => { p with tj := h.1, tjSensor := h.2 })).showTemp

variable {l : List Nat}

theorem execDieTempSample_cool (hhold : s.rst.tripHold = false) (hcool : (hottestOf (l.take 72)).1 < 105) :
    exec (.dieTempSample l now) s = .next ((s.showDie (hottestOf (l.take 72))).modPwr (fun p => { p with
      dieHot := 0, dieLow := p.dieLow || (decide ((hottestOf (l.take 72)).1 < 102) && decide (0 < p.dieThrottle)) })) :=
  (if_neg (Bool.eq_false_iff.mp hhold)).trans ((if_neg (by omega)).trans (if_neg (by omega)))

theorem execDieTempSample_trips (hhold : s.rst.tripHold = false) (hhot : 115 ≤ (hottestOf (l.take 72)).1) :
    exec (.dieTempSample l now) s = .next (((s.showDie (hottestOf (l.take 72))).beginReset [7] false true now).showDie (hottestOf (l.take 72))) :=
  (if_neg (Bool.eq_false_iff.mp hhold)).trans (if_pos hhot)

end

/-- Settles O48, command by command. -/
theorem powerCommandsComplete : Obligations.PowerCommandsComplete := by
  refine ⟨fun _ _ => rfl, fun mv now s => ⟨_, _, rfl, rfl, execVinSample_few, execVinSample_brownOut, execVinSample_stage⟩, fun _ _ hstage hpos _ => execSupplyStageRecover_leaves hstage hpos,
    fun _ => execRailTimeout_fails, fun _ _ => ⟨fun h => if_pos h, fun h => if_neg (Bool.eq_false_iff.mp h)⟩, fun _ h => if_neg (Bool.eq_false_iff.mp h), fun _ => rfl, ?governor,
    fun _ _ _ hhold => ⟨_, rfl, execDieTempSample_cool hhold, execDieTempSample_trips hhold⟩⟩
  intro m f s h
  obtain ⟨u, hexec, hmeasured, hfill, hheld, hclock⟩ := execGovernorTick_past (f := f) h
  obtain ⟨hpHeld, hpClock⟩ := measure_past s.pwr f
  exact ⟨u, _, _, rfl, rfl, hexec, hmeasured, hfill, hheld, hclock, hpHeld, hpClock⟩

end Sys2Proof.Machine
end

section
/-! Resets and bring-up: what begins a reset, how it is held and released, and what each phase hands over to. -/
namespace Sys2Proof.Machine

section
variable {s : State} {now : Nat}

theorem execPowerOn_resets : ∃ t, exec .powerOn s = .next t ∧ t.regs = [] ∧ t.rst.active = true ∧ t.rst.driven = true ∧ t.pwr.railEn = true ∧ t.reg Reg.RST_CAUSE = 1#32 :=
  ⟨_, rfl, rfl, rfl, rfl, rfl, rfl⟩

theorem execResetNAssert_begins (h : s.rst.active = false) : exec (.resetNAssert now) s = .next (s.beginReset [2] false false now) := if_neg (Bool.eq_false_iff.mp h)

theorem execWatchdogExpiry_awake (h : s.mgmt.restarting = false) : exec (.watchdogExpiry now) s = .next (s.beginReset [6] false false now) := if_neg (Bool.eq_false_iff.mp h)

/-! RST_CMD: its key and scope, then the ward that it names. -/

variable {v : W32}

theorem execRstCmd_resets (hkey : v.toNat / 65536 = 0xA5C3) (hscope : scopeOk (v.toNat % 256) = true)
    (hward : v.toNat % 256 % 4 = 3 → s.wardResetOk (v.toNat % 256 / 4) = true) : exec (.rstCmd v now) s = .next (s.resetScope (v.toNat % 256) [] now) :=
  (if_neg (by simp [hkey, hscope])).trans (if_neg (by simpa using hward))

theorem execRstCmd_wardRefused (hkey : v.toNat / 65536 = 0xA5C3) (hscope : scopeOk (v.toNat % 256) = true) (hkind : v.toNat % 256 % 4 = 3)
    (hward : s.wardResetOk (v.toNat % 256 / 4) = false) : exec (.rstCmd v now) s = .next (s.event Reg.RST_EVENT 1) :=
  (if_neg (by simp [hkey, hscope])).trans (if_pos ⟨hkind, by simp [hward]⟩)

theorem execRstCmd_refused (h : v.toNat / 65536 ≠ 0xA5C3 ∨ scopeOk (v.toNat % 256) = false) : exec (.rstCmd v now) s = .next (s.event Reg.RST_EVENT 0) :=
  if_pos (h.imp_right (by simp))

/-! The end of the stretch, and a reset held from outside. -/

theorem execStretchExpiry_releases {pinHigh : Bool} (hactive : s.rst.active = true) (htrip : s.rst.tripHold = false) (hdriven : s.rst.driven = true) :
    exec (.stretchExpiry now pinHigh) s = if pinHigh = true then
      .next { s.emit (.pin 0 true) with rst := { (s.emit (.pin 0 true)).rst with
        active := false, driven := false, external := false, phase := 1, holdLinks := decide (16 ≤ (recentAsserts s.rst.assertions now).length) } }
    else .next (({ s.emit (.pin 0 true) with rst := { (s.emit (.pin 0 true)).rst with external := true, driven := false } } : State).event Reg.RST_CAUSE 2) :=
  if_neg (by simp [hactive, htrip, hdriven])

theorem execResetHeld_notes (hactive : s.rst.active = true) (hext : s.rst.external = true) : exec .resetHeld s = .next ((s.event Reg.RST_CAUSE 9).platformEvent 1 0) :=
  if_pos ⟨hactive, hext⟩

theorem execResetNRelease_stretches (hactive : s.rst.active = true) (hext : s.rst.external = true) :
    exec .resetNRelease s = .next (({ s with rst := { s.rst with external := false, driven := true } } : State).emit (.pin 0 false)) := if_pos ⟨hactive, hext⟩

/-! Bring-up. -/

variable {bad : List LpCopy} {n : Nat}

/-- What a phase that completes does, by its number. -/
def State.handOver (s : State) (bad : List LpCopy) : Nat → State
  | 1 => ({ s with rst := { s.rst with slotId := Config.slotStraps.toNat } } : State).toPhase 2
  | 2 => s.optionLoad
  | 3 => s.pllLock
  | 4 => s.loadMaps.toPhase 5
  | 5 => ({ s with stores := { s.stores with tiles := [], wards := [], staging := [] } } : State).toPhase 6
  | 6 => s.stackPhase.toPhase 7
  | 7 => if lpSupported Config.lpConfig then ({ s.lpPhase bad with flash := { s.flash with mount := 1 } } : State).toPhase 8 else s.phaseFails 7
  | 8 => ((s.mountDone true).toPhase 9).trainLinks
  | _ => if s.rst.holdLinks then s else s.linksTrained

/-- During bring-up a phase that completes hands over. -/
theorem execBringup_completes (hactive : s.rst.active = false) (hfailed : s.rst.failed = false) (hphase : s.rst.phase = n) (hpos : 0 < n) (hmax : n ≤ 9) :
    exec (.bringupPhaseComplete true bad) s = .next (s.handOver bad n) := by
  have hgoes : exec (.bringupPhaseComplete true bad) s = _ := (if_neg (by rw [hphase]; simp [hactive, hfailed]; omega)).trans (if_neg (by simp))
  rw [hgoes, hphase]
  interval_cases n <;> rfl

/-- During bring-up a phase that fails stops there. -/
theorem execBringup_fails (hactive : s.rst.active = false) (hfailed : s.rst.failed = false) (hphase : s.rst.phase = n) (hpos : 0 < n) (hmax : n ≤ 9) :
    exec (.bringupPhaseComplete false bad) s = .next (s.phaseFails n) := by
  subst hphase
  exact (if_neg (by simp [hactive, hfailed]; omega)).trans (if_pos (by simp))

theorem phaseFails_early (h : n < 7) : s.phaseFails n = s.bringupFails := by
  have h7 : n ≠ 7 := by omega
  have h8 : n ≠ 8 := by omega
  simp [State.phaseFails, h7, h8]

/-- With no fault held the last phase ends the links' training and leaves the device Poised. -/
theorem handOver_links (h : s.rst.holdLinks = false) : s.handOver bad 9 = s.linksTrained := if_neg (Bool.eq_false_iff.mp h)

/-! The end of a ward's reset. -/

theorem execWardResetComplete_zeroes {w : Fin 16} (h : s.rst.wardBusy.contains w.val = true) :
    ∃ t u : State, exec (.wardResetComplete w) s = .next t ∧ t = u.returnLater w ∧
      u.bolts = s.bolts.filter (fun p => p.1 / 4096 != w.val) ∧ u.stores.wards = s.stores.wards.filter (fun p => p.1 != w.val) ∧
      u.stores.tiles = s.stores.tiles.filter (fun p => p.1 / 17 != w.val) ∧ u.rst.wardBusy = s.rst.wardBusy.filter (fun x => x != w.val) ∧
      u.units = tmap (fun k (x : UnitSt) => if (if k < 256 then k / 16 else k % 16) = w.val then { x with digests := [] } else x) s.units :=
  ⟨_, _, if_neg (by simpa using h), rfl, rfl, rfl, rfl, rfl, rfl⟩

end

/-- Settles O45, command by command and phase by phase. -/
theorem resetCommandsComplete : Obligations.ResetCommandsComplete := by
  refine ⟨fun _ => execPowerOn_resets, fun _ _ => execResetNAssert_begins, fun _ _ h => if_pos h, fun _ _ => ⟨rfl, rfl⟩, fun _ _ => execWatchdogExpiry_awake,
    fun _ _ h => if_pos h, fun _ _ _ hkey hscope => ⟨execRstCmd_resets hkey hscope, execRstCmd_wardRefused hkey hscope⟩, fun _ _ _ => execRstCmd_refused,
    fun _ _ hactive htrip hdriven => ⟨_, rfl, execStretchExpiry_releases hactive htrip hdriven, execStretchExpiry_releases hactive htrip hdriven⟩,
    fun _ hactive hext => ⟨execResetHeld_notes hactive hext, execResetNRelease_stretches hactive hext⟩, fun bad s hactive hfailed => ?bringup,
    fun _ _ => execWardResetComplete_zeroes⟩
  have completes : ∀ n, 0 < n → n ≤ 9 → s.rst.phase = n → exec (.bringupPhaseComplete true bad) s = .next (s.handOver bad n) :=
    fun _ hpos hmax hphase => execBringup_completes hactive hfailed hphase hpos hmax
  have fails : ∀ n, 0 < n → n ≤ 9 → s.rst.phase = n → exec (.bringupPhaseComplete false bad) s = .next (s.phaseFails n) :=
    fun _ hpos hmax hphase => execBringup_fails hactive hfailed hphase hpos hmax
  refine ⟨completes 1 (by decide) (by decide), completes 2 (by decide) (by decide), completes 3 (by decide) (by decide), completes 4 (by decide) (by decide),
    completes 5 (by decide) (by decide), completes 6 (by decide) (by decide), completes 7 (by decide) (by decide), completes 8 (by decide) (by decide),
    fun hphase hfree => ?_, fun hpos hearly => ?_, fails 7 (by decide) (by decide), fails 8 (by decide) (by decide)⟩
  · exact (completes 9 (by decide) (by decide) hphase).trans (congrArg Host.Outcome.next (handOver_links hfree))
  · exact (fails _ hpos (by omega) rfl).trans (congrArg Host.Outcome.next (phaseFails_early hearly))

end Sys2Proof.Machine
end
